-- ==== Sys2Proof/Word.lean ====
section
/-!
DEFINITION. The words of the machine: 64-bit scalar values, bytes, and 32-bit lanes (R7, R17).
-/

namespace Sys2Proof

/-- A 64-bit value of a scalar register or system register (R17). -/
abbrev Word := BitVec 64
/-- One byte of memory (R7). -/
abbrev Byte := BitVec 8
/-- One 32-bit lane of a vector register, or one element of an accumulator tile (R17). -/
abbrev Lane := BitVec 32

end Sys2Proof
end

