-- ==== Sys2Proof/Syntax.lean ====
section
/-!
DEFINITION. The instructions, engine words, Pilot instructions, rank instructions and events of the part: one
constructor of `Instr` for each row of spec/opcode_table.json. A sequencer instruction carries the fields of R178 to
R184; an engine word carries the fields of its operand format (R187), uninterpreted; an event carries its data, and what it concerns (core, berth, queue, operation) is named by the state's `cur`.
-/

namespace Sys2Proof

/-- The engine of a queue, a passage or a control word (R178: 0 vector, 1 matrix, 2 data). -/
inductive Eng where
  | vec
  | mtx
  | data
  deriving DecidableEq, Repr

/-- The party that makes a register access (R11, R362). -/
inductive Party where
  | pilot
  | host
  | external
  | timetable
  deriving DecidableEq, Repr

/-- The class of an error that the part detects (R155). -/
inductive ErrClass where
  | dataBorne
  | logic
  | memory
  deriving DecidableEq, Repr

/-- Where an error was detected: its class, the core (or any number outside 0 to 23 for none), the memory level
(0 SP1, 1 SP2, 2 SP3, 3 HBM; used by the class memory) and the byte address (R155). -/
structure ErrSite where
  cls  : ErrClass
  core : Nat
  lvl  : Nat
  addr : Nat
  deriving DecidableEq, Repr

/-- The AtomicOps that cross PCIe (R406, R409). -/
inductive PcieAtomic where
  | fetchAdd
  | swap
  | cas
  deriving DecidableEq, Repr

/-- What an AMO, or the store-conditional of a pair, of a core of the RISC-V architecture does at the home (R403). -/
inductive HartAtomic where
  | swap
  | add
  | xor
  | and
  | or
  | min
  | max
  | minu
  | maxu
  | sc
  deriving DecidableEq, Repr

/-- The bytes that a host core's atomic names: the address and 4 or 8 bytes (R403). -/
structure HartPlace where
  addr : Nat
  size : Nat
  deriving DecidableEq, Repr

/-- An atomic of a host core with its operand (R403). -/
structure HartAmo where
  op    : HartAtomic
  value : Word
  deriving DecidableEq, Repr

/-- Format V3 (R186, R187): the raw fields of a 48-bit vector word. -/
structure V3 where
  rep  : BitVec 6
  step : BitVec 4
  vd   : BitVec 6
  va   : BitVec 7
  vb   : BitVec 7
  rm   : BitVec 2
  sat  : Bool
  msk  : Bool
  t    : BitVec 3
  x    : BitVec 3
  deriving DecidableEq, Repr

/-- Format VI (R187). -/
structure VI where
  rep  : BitVec 6
  step : BitVec 4
  vd   : BitVec 6
  va   : BitVec 7
  msk  : Bool
  imm  : BitVec 16
  deriving DecidableEq, Repr

/-- Format VM (R187). -/
structure VM where
  rep  : BitVec 6
  step : BitVec 4
  vx   : BitVec 7
  vi   : BitVec 7
  desc : BitVec 4
  off  : BitVec 12
  deriving DecidableEq, Repr

/-- Format MX (R187). -/
structure MX where
  rep  : BitVec 6
  step : BitVec 4
  tile : BitVec 2
  a    : BitVec 4
  b    : BitVec 4
  c    : BitVec 4
  prof : BitVec 3
  rm   : Bool
  clamp : Bool
  acc  : Bool
  arg  : BitVec 10
  deriving DecidableEq, Repr

/-- Format DX (R187). -/
structure DX where
  rep  : BitVec 6
  step : BitVec 4
  dst  : BitVec 4
  src  : BitVec 4
  aux  : BitVec 4
  cls  : BitVec 2
  phased : Bool
  rel  : Bool
  arg  : BitVec 14
  deriving DecidableEq, Repr

/-- Format CT (R187). -/
structure CT where
  rep  : BitVec 6
  step : BitVec 4
  arg  : BitVec 26
  mask : BitVec 4
  deriving DecidableEq, Repr

/-- One constructor for each row of spec/opcode_table.json, in the table's order: first the rows with operands or
data, then the rows without; an event without operands concerns the agent and the object that the state's `cur` names. -/
inductive Instr where
  /-- ADD (R207). -/
  | add (d : BitVec 5) (a : BitVec 5) (b : BitVec 5)
  /-- SUB (R207). -/
  | sub (d : BitVec 5) (a : BitVec 5) (b : BitVec 5)
  /-- AND (R207). -/
  | and_ (d : BitVec 5) (a : BitVec 5) (b : BitVec 5)
  /-- OR (R207). -/
  | or_ (d : BitVec 5) (a : BitVec 5) (b : BitVec 5)
  /-- XOR (R207). -/
  | xor (d : BitVec 5) (a : BitVec 5) (b : BitVec 5)
  /-- ANDN (R207). -/
  | andn (d : BitVec 5) (a : BitVec 5) (b : BitVec 5)
  /-- ORN (R207). -/
  | orn (d : BitVec 5) (a : BitVec 5) (b : BitVec 5)
  /-- SLL (R207). -/
  | sll (d : BitVec 5) (a : BitVec 5) (b : BitVec 5)
  /-- SRL (R207). -/
  | srl (d : BitVec 5) (a : BitVec 5) (b : BitVec 5)
  /-- SRA (R207). -/
  | sra (d : BitVec 5) (a : BitVec 5) (b : BitVec 5)
  /-- SLT (R207). -/
  | slt (d : BitVec 5) (a : BitVec 5) (b : BitVec 5)
  /-- SLTU (R207). -/
  | sltu (d : BitVec 5) (a : BitVec 5) (b : BitVec 5)
  /-- MIN (R207). -/
  | min_ (d : BitVec 5) (a : BitVec 5) (b : BitVec 5)
  /-- MAX (R207). -/
  | max_ (d : BitVec 5) (a : BitVec 5) (b : BitVec 5)
  /-- MINU (R207). -/
  | minu (d : BitVec 5) (a : BitVec 5) (b : BitVec 5)
  /-- MAXU (R207). -/
  | maxu (d : BitVec 5) (a : BitVec 5) (b : BitVec 5)
  /-- MUL (R207). -/
  | mul (d : BitVec 5) (a : BitVec 5) (b : BitVec 5)
  /-- MULH (R207). -/
  | mulh (d : BitVec 5) (a : BitVec 5) (b : BitVec 5)
  /-- MULHU (R207). -/
  | mulhu (d : BitVec 5) (a : BitVec 5) (b : BitVec 5)
  /-- MULHSU (R207). -/
  | mulhsu (d : BitVec 5) (a : BitVec 5) (b : BitVec 5)
  /-- CLZ (R207). -/
  | clz (d : BitVec 5) (a : BitVec 5)
  /-- CTZ (R207). -/
  | ctz (d : BitVec 5) (a : BitVec 5)
  /-- POPC (R207). -/
  | popc (d : BitVec 5) (a : BitVec 5)
  /-- ROL (R207). -/
  | rol (d : BitVec 5) (a : BitVec 5) (b : BitVec 5)
  /-- ROR (R207). -/
  | ror (d : BitVec 5) (a : BitVec 5) (b : BitVec 5)
  /-- ADDI (R208). -/
  | addi (d : BitVec 5) (a : BitVec 5) (imm : BitVec 16)
  /-- ANDI (R208). -/
  | andi (d : BitVec 5) (a : BitVec 5) (imm : BitVec 16)
  /-- ORI (R208). -/
  | ori (d : BitVec 5) (a : BitVec 5) (imm : BitVec 16)
  /-- XORI (R208). -/
  | xori (d : BitVec 5) (a : BitVec 5) (imm : BitVec 16)
  /-- SLTI (R208). -/
  | slti (d : BitVec 5) (a : BitVec 5) (imm : BitVec 16)
  /-- SLTIU (R208). -/
  | sltiu (d : BitVec 5) (a : BitVec 5) (imm : BitVec 16)
  /-- SLLI (R208). -/
  | slli (d : BitVec 5) (a : BitVec 5) (sh : BitVec 6)
  /-- SRLI (R208). -/
  | srli (d : BitVec 5) (a : BitVec 5) (sh : BitVec 6)
  /-- SRAI (R208). -/
  | srai (d : BitVec 5) (a : BitVec 5) (sh : BitVec 6)
  /-- LUI (R208). -/
  | lui (d : BitVec 5) (imm : BitVec 16)
  /-- SHORI (R208). -/
  | shori (d : BitVec 5) (a : BitVec 5) (imm : BitVec 16)
  /-- MULI (R208). -/
  | muli (d : BitVec 5) (a : BitVec 5) (imm : BitVec 16)
  /-- LD_SP1 (R209). -/
  | ldSp1 (wid : BitVec 3) (d : BitVec 5) (a : BitVec 5) (off : BitVec 13)
  /-- LD_SP2 (R209). -/
  | ldSp2 (wid : BitVec 3) (d : BitVec 5) (a : BitVec 5) (off : BitVec 13)
  /-- LD_SP3 (R209). -/
  | ldSp3 (wid : BitVec 3) (d : BitVec 5) (a : BitVec 5) (off : BitVec 13)
  /-- LD_G (R212). -/
  | ldG (wid : BitVec 3) (d : BitVec 5) (a : BitVec 5) (off : BitVec 13)
  /-- LD_AP (R211). -/
  | ldAp (wid : BitVec 3) (d : BitVec 5) (a : BitVec 5) (off : BitVec 13)
  /-- ST_SP1 (R209). -/
  | stSp1 (wid : BitVec 3) (d : BitVec 5) (a : BitVec 5) (off : BitVec 13)
  /-- ST_SP2 (R209). -/
  | stSp2 (wid : BitVec 3) (d : BitVec 5) (a : BitVec 5) (off : BitVec 13)
  /-- ST_SP3 (R209). -/
  | stSp3 (wid : BitVec 3) (d : BitVec 5) (a : BitVec 5) (off : BitVec 13)
  /-- ST_G (R212). -/
  | stG (wid : BitVec 3) (d : BitVec 5) (a : BitVec 5) (off : BitVec 13)
  /-- ST_AP (R211). -/
  | stAp (wid : BitVec 3) (d : BitVec 5) (a : BitVec 5) (off : BitVec 13)
  /-- BEQ (R213). -/
  | beq (a : BitVec 5) (b : BitVec 5) (off : BitVec 16)
  /-- BNE (R213). -/
  | bne (a : BitVec 5) (b : BitVec 5) (off : BitVec 16)
  /-- BLT (R213). -/
  | blt (a : BitVec 5) (b : BitVec 5) (off : BitVec 16)
  /-- BGE (R213). -/
  | bge (a : BitVec 5) (b : BitVec 5) (off : BitVec 16)
  /-- BLTU (R213). -/
  | bltu (a : BitVec 5) (b : BitVec 5) (off : BitVec 16)
  /-- BGEU (R213). -/
  | bgeu (a : BitVec 5) (b : BitVec 5) (off : BitVec 16)
  /-- BMZ (R49). -/
  | bmz (off : BitVec 16)
  /-- BMNZ (R49). -/
  | bmnz (off : BitVec 16)
  /-- J (R214). -/
  | j (off : BitVec 26)
  /-- JAL (R214). -/
  | jal (off : BitVec 26)
  /-- JR (R214). -/
  | jr (d : BitVec 5) (a : BitVec 5)
  /-- TRAP (R227). -/
  | trap (code : BitVec 16)
  /-- DSET (R219). -/
  | dset (n : BitVec 4) (field : BitVec 5) (a : BitVec 5)
  /-- DBIND (R220). -/
  | dbind (n : BitVec 4)
  /-- DUNBIND (R221). -/
  | dunbind (n : BitVec 4)
  /-- YIELD (R159). -/
  | yield (d : BitVec 5) (a : BitVec 5)
  /-- SWAIT (R225). -/
  | swait (d : BitVec 5) (a : BitVec 5) (b : BitVec 5)
  /-- SACQ (R225). -/
  | sacq (a : BitVec 5) (b : BitVec 5)
  /-- SREL (R225). -/
  | srel (a : BitVec 5)
  /-- WAITG (R217). -/
  | waitg (a : BitVec 5)
  /-- TSUPPLY (R144). -/
  | tsupply (a : BitVec 5)
  /-- GBAR (R43). -/
  | gbar (d : BitVec 5) (g : BitVec 8)
  /-- PHASE (R46). -/
  | phase (d : BitVec 5) (mask : BitVec 16)
  /-- PABORT (R148). -/
  | pabort (d : BitVec 5)
  /-- PABORT_R (R148). -/
  | pabortR (d : BitVec 5)
  /-- QFENCE (R223). -/
  | qfence (m : BitVec 3)
  /-- PLAY (R216). -/
  | play (eng : BitVec 2) (a : BitVec 5) (b : BitVec 5) (len : BitVec 14)
  /-- MFS (R230). -/
  | mfs (d : BitVec 5) (n : BitVec 12)
  /-- MTS (R230). -/
  | mts (n : BitVec 12) (a : BitVec 5)
  /-- SFIFO (R235). -/
  | sfifo (a : BitVec 5)
  /-- LSLOT (R116). -/
  | lslot (k : BitVec 2) (a : BitVec 5)
  /-- CHMAP (R195). -/
  | chmap (n : BitVec 5) (a : BitVec 5)
  /-- ERRINJ (R291). -/
  | errinj (a : BitVec 5)
  /-- PROMO (R100). -/
  | promo (a : BitVec 5)
  /-- CKTOL (R285). -/
  | cktol (k : BitVec 2) (a : BitVec 5)
  /-- NPROF (R105). -/
  | nprof (a : BitVec 5)
  /-- MAINPC (R141). -/
  | mainpc (k : BitVec 5) (a : BitVec 5)
  /-- APER (R64). -/
  | aper (n : BitVec 4) (k : BitVec 2) (v : Word)
  /-- REGISTER_WRITE (R11). -/
  | registerWrite (who : Party) (off : Nat) (v : Word)
  /-- UNCORRECTABLE_ERROR (R155). -/
  | uncorrectableError (e : ErrSite)
  /-- CORRECTABLE_ERROR (R57). -/
  | correctableError (e : ErrSite)
  /-- FETCH_AHEAD_ERROR (R137). -/
  | fetchAheadError (core : Nat) (addr : Nat)
  /-- HOST_AMO_RELEASE (R80). -/
  | hostAmoRelease (hart : Nat) (addr : HartPlace) (v : HartAmo)
  /-- HOST_LR_ACQUIRE (R80). -/
  | hostLrAcquire (hart : Nat) (addr : HartPlace)
  /-- VADD (R244). -/
  | vadd (w : V3)
  /-- VSUB (R244). -/
  | vsub (w : V3)
  /-- VMUL (R244). -/
  | vmul (w : V3)
  /-- VMULH (R244). -/
  | vmulh (w : V3)
  /-- VMAC (R244). -/
  | vmac (w : V3)
  /-- VADDS (R244). -/
  | vadds (w : V3)
  /-- VSUBS (R244). -/
  | vsubs (w : V3)
  /-- VABS (R244). -/
  | vabs (w : V3)
  /-- VNEG (R244). -/
  | vneg (w : V3)
  /-- VMIN (R244). -/
  | vmin (w : V3)
  /-- VMAX (R244). -/
  | vmax (w : V3)
  /-- VABSD (R244). -/
  | vabsd (w : V3)
  /-- VADDI (R245). -/
  | vaddi (w : VI)
  /-- VLI (R245). -/
  | vli (w : VI)
  /-- VLIH (R245). -/
  | vlih (w : VI)
  /-- VAND (R246). -/
  | vand (w : V3)
  /-- VOR (R246). -/
  | vor (w : V3)
  /-- VXOR (R246). -/
  | vxor (w : V3)
  /-- VNOT (R246). -/
  | vnot (w : V3)
  /-- VANDI (R246). -/
  | vandi (w : VI)
  /-- VSHL (R246). -/
  | vshl (w : V3)
  /-- VSHR (R246). -/
  | vshr (w : V3)
  /-- VSRA (R246). -/
  | vsra (w : V3)
  /-- VSHLI (R246). -/
  | vshli (w : VI)
  /-- VSHRI (R246). -/
  | vshri (w : VI)
  /-- VSRAI (R246). -/
  | vsrai (w : VI)
  /-- VROT (R246). -/
  | vrot (w : V3)
  /-- VFSH (R247). -/
  | vfsh (w : V3)
  /-- VBFX (R247). -/
  | vbfx (w : V3)
  /-- VBFI (R247). -/
  | vbfi (w : V3)
  /-- VPOPC (R246). -/
  | vpopc (w : V3)
  /-- VCLZ (R246). -/
  | vclz (w : V3)
  /-- VCMP (R248). -/
  | vcmp (w : V3)
  /-- VCMPI (R249). -/
  | vcmpi (w : VI)
  /-- MPUSH (R250). -/
  | mpush (w : V3)
  /-- MINV (R250). -/
  | minv (w : V3)
  /-- MPOP (R250). -/
  | mpop (w : V3)
  /-- MCLR (R250). -/
  | mclr (w : V3)
  /-- VSEL (R251). -/
  | vsel (w : V3)
  /-- VFADD (R252). -/
  | vfadd (w : V3)
  /-- VFSUB (R252). -/
  | vfsub (w : V3)
  /-- VFMUL (R252). -/
  | vfmul (w : V3)
  /-- VFMA (R252). -/
  | vfma (w : V3)
  /-- VFMS (R252). -/
  | vfms (w : V3)
  /-- VFSQRT (R252). -/
  | vfsqrt (w : V3)
  /-- VFMIN (R253). -/
  | vfmin (w : V3)
  /-- VFMAX (R253). -/
  | vfmax (w : V3)
  /-- VFMINP (R253). -/
  | vfminp (w : V3)
  /-- VFMAXP (R253). -/
  | vfmaxp (w : V3)
  /-- VFABS (R253). -/
  | vfabs (w : V3)
  /-- VFNEG (R253). -/
  | vfneg (w : V3)
  /-- VFCMP (R248). -/
  | vfcmp (w : V3)
  /-- VRCP (R107). -/
  | vrcp (w : V3)
  /-- VRSQ (R107). -/
  | vrsq (w : V3)
  /-- VEXP2 (R107). -/
  | vexp2 (w : V3)
  /-- VLOG2 (R107). -/
  | vlog2 (w : V3)
  /-- VCVT (R255). -/
  | vcvt (w : V3)
  /-- VRADD (R256). -/
  | vradd (w : V3)
  /-- VRMIN (R256). -/
  | vrmin (w : V3)
  /-- VRMAX (R256). -/
  | vrmax (w : V3)
  /-- VRFADD (R256). -/
  | vrfadd (w : V3)
  /-- VRFMIN (R256). -/
  | vrfmin (w : V3)
  /-- VRFMAX (R256). -/
  | vrfmax (w : V3)
  /-- VRAND (R256). -/
  | vrand (w : V3)
  /-- VROR (R256). -/
  | vror (w : V3)
  /-- VRXOR (R256). -/
  | vrxor (w : V3)
  /-- VPERM (R257). -/
  | vperm (w : V3)
  /-- VBCST (R257). -/
  | vbcst (w : V3)
  /-- VSLUP (R257). -/
  | vslup (w : V3)
  /-- VSLDN (R257). -/
  | vsldn (w : V3)
  /-- VREV (R257). -/
  | vrev (w : V3)
  /-- VZIP (R257). -/
  | vzip (w : V3)
  /-- VUZP (R257). -/
  | vuzp (w : V3)
  /-- VMOV (R258). -/
  | vmov (w : V3)
  /-- VBCS (R258). -/
  | vbcs (w : V3)
  /-- VINS (R258). -/
  | vins (w : V3)
  /-- VLD (R259). -/
  | vld (w : VM)
  /-- VST (R259). -/
  | vst (w : VM)
  /-- VLDX (R260). -/
  | vldx (w : VM)
  /-- VLUT (R260). -/
  | vlut (w : VM)
  /-- VDOTP (R263). -/
  | vdotp (w : V3)
  /-- ENGINE_NOTIFY (R50). -/
  | engineNotify (u : Eng) (w : CT)
  /-- ENGINE_QFENCE (R200). -/
  | engineQfence (u : Eng) (w : CT)
  /-- WAIT (R200). -/
  | wait (u : Eng) (w : CT)
  /-- NOP (R200). -/
  | nop (u : Eng) (w : CT)
  /-- MMUL (R272). -/
  | mmul (w : MX)
  /-- MMULS (R274). -/
  | mmuls (w : MX)
  /-- MLATX (R278). -/
  | mlatx (w : MX)
  /-- MLATA (R273). -/
  | mlata (w : MX)
  /-- MZERO (R279). -/
  | mzero (w : MX)
  /-- MLOAD (R279). -/
  | mload (w : MX)
  /-- MDRAIN (R280). -/
  | mdrain (w : MX)
  /-- MCKSET (R286). -/
  | mckset (w : MX)
  /-- LOCFIX (R289). -/
  | locfix (w : MX)
  /-- MRETRY (R290). -/
  | mretry (w : MX)
  /-- WXLOAD (R277). -/
  | wxload (w : MX)
  /-- TMOV (R303). -/
  | tmov (w : DX)
  /-- DLOAD (R303). -/
  | dload (w : DX)
  /-- DSTORE (R303). -/
  | dstore (w : DX)
  /-- DPHST (R305). -/
  | dphst (w : DX)
  /-- DGATHER (R308). -/
  | dgather (w : DX)
  /-- DSCATTER (R309). -/
  | dscatter (w : DX)
  /-- DMCAST (R311). -/
  | dmcast (w : DX)
  /-- DCOMP (R313). -/
  | dcomp (w : DX)
  /-- DEXP (R313). -/
  | dexp (w : DX)
  /-- DTRANS (R314). -/
  | dtrans (w : DX)
  /-- DFILL (R314). -/
  | dfill (w : DX)
  /-- DATOM (R315). -/
  | datom (w : DX)
  /-- DATA_SREL (R316). -/
  | dataSrel (w : DX)
  /-- DATA_SACQ (R316). -/
  | dataSacq (w : DX)
  /-- AFENCE (R317). -/
  | afence (w : DX)
  /-- MFBUILD (R319). -/
  | mfbuild (w : DX)
  /-- MFREAD (R321). -/
  | mfread (w : DX)
  /-- CMFETCH (R318). -/
  | cmfetch (w : DX)
  /-- TSUPD (R322). -/
  | tsupd (w : DX)
  /-- QFETCH (R396). -/
  | qfetch (rd : BitVec 5) (rs1 : BitVec 5) (rs2 : BitVec 5)
  /-- QBFX (R395). -/
  | qbfx (rd : BitVec 5) (rs1 : BitVec 5) (rs2 : BitVec 5)
  /-- QBFX_S (R395). -/
  | qbfxS (rd : BitVec 5) (rs1 : BitVec 5) (rs2 : BitVec 5)
  /-- QWAIT (R397). -/
  | qwait (rd : BitVec 5) (rs1 : BitVec 5) (rs2 : BitVec 5)
  /-- QDISP (R398). -/
  | qdisp (rd : BitVec 5) (rs1 : BitVec 5) (rs2 : BitVec 5)
  /-- RANK_END (R372). -/
  | rankEnd (qa : BitVec 3)
  /-- RANK_LDI (R372). -/
  | rankLdi (qd : BitVec 3) (imm : BitVec 19)
  /-- RANK_LDF (R372). -/
  | rankLdf (qd : BitVec 3) (src : BitVec 3) (wd : BitVec 6) (pos : BitVec 5) (len : BitVec 5)
  /-- RANK_ADD (R372). -/
  | rankAdd (qd : BitVec 3) (qa : BitVec 3) (qb : BitVec 3)
  /-- RANK_SUB (R372). -/
  | rankSub (qd : BitVec 3) (qa : BitVec 3) (qb : BitVec 3)
  /-- RANK_MULSH (R372). -/
  | rankMulsh (qd : BitVec 3) (qa : BitVec 3) (qb : BitVec 3) (sh : BitVec 5)
  /-- RANK_SHL (R372). -/
  | rankShl (qd : BitVec 3) (qa : BitVec 3) (sh : BitVec 5)
  /-- RANK_SHR (R372). -/
  | rankShr (qd : BitVec 3) (qa : BitVec 3) (sh : BitVec 5)
  /-- RANK_MIN (R372). -/
  | rankMin (qd : BitVec 3) (qa : BitVec 3) (qb : BitVec 3)
  /-- RANK_SMAX (R372). -/
  | rankSmax (qd : BitVec 3) (qa : BitVec 3) (qb : BitVec 3)
  /-- RANK_AND (R372). -/
  | rankAnd (qd : BitVec 3) (qa : BitVec 3) (qb : BitVec 3)
  /-- RANK_OR (R372). -/
  | rankOr (qd : BitVec 3) (qa : BitVec 3) (qb : BitVec 3)
  /-- RANK_STQ (R372). -/
  | rankStq (qa : BitVec 3)
  /-- RANK_SLTU (R372). -/
  | rankSltu (qd : BitVec 3) (qa : BitVec 3) (qb : BitVec 3)
  /-- TAIL (R364). -/
  | tail (who : Party) (q : Nat) (v : BitVec 17)
  /-- GROUP_TABLE_WRITE (R377). -/
  | groupTableWrite (who : Party) (g : Nat) (v : Word)
  /-- HOST_ACCESS (R405). -/
  | hostAccess (hart : Nat) (store : Bool) (addr : Nat) (len : Nat) (data : List Byte)
  /-- INBOUND_WRITE (R408). -/
  | inboundWrite (rid : BitVec 16) (bar : BitVec 3) (off : Nat) (data : List Byte) (relaxed : Bool)
  /-- INBOUND_READ (R408). -/
  | inboundRead (rid : BitVec 16) (bar : BitVec 3) (off : Nat) (len : Nat)
  /-- INBOUND_ATOMICOP (R409). -/
  | inboundAtomicop (rid : BitVec 16) (bar : BitVec 3) (off : Nat) (op : PcieAtomic) (size : Nat) (operand : Nat) (compare : Nat)
  /-- ETHERNET_RECEIVE (R412). -/
  | ethernetReceive (port : Nat) (ring : Nat) (bytes : List Byte)
  /-- ETHERNET_TRANSMIT (R412). -/
  | ethernetTransmit (port : Nat) (ring : Nat)
  /-- DECODER_TAIL (R413). -/
  | decoderTail (e : Nat) (v : BitVec 8)
  /-- DECODER_RUN (R413). -/
  | decoderRun (e : Nat) (run : Bool)
  /-- PLDM_UPDATE (R420). -/
  | pldmUpdate (capsule : Bool) (bytes : List Byte)
  /-- GET_CERTS (R423). -/
  | getCerts (off : Nat) (len : Nat)
  /-- CHALLENGE (R423). -/
  | challenge (nonce : List Byte)
  /-- SELF_TEST_VERDICT (R431). -/
  | selfTestVerdict (failed : BitVec 24) (other : Bool)
  /-- SENSOR_REFRESH (R426). -/
  | sensorRefresh (die : Int) (hbm : Int) (inlet : Int) (power : Nat)
  /-- AUTO_NEGOTIATION (R411). -/
  | autoNegotiation (port : Nat) (up : Bool)
  /-- PILOT_INTERRUPT (R397). -/
  | pilotInterrupt (pc : Nat) (cause : Word)
  /-- RESERVED_SEQUENCER_ENCODING (R185). -/
  | reservedSequencerEncoding (w : BitVec 32)
  /-- UNASSIGNED_ENGINE_OPCODE (R190). -/
  | unassignedEngineOpcode (u : Eng) (w : BitVec 48)
  /-- CHKERR (R226). -/
  | chkerr
  /-- TRET (R142). -/
  | tret
  /-- TRET_SKIP (R142). -/
  | tretSkip
  /-- TRET_RB (R142). -/
  | tretRb
  /-- TESC (R143). -/
  | tesc
  /-- NOTIFY (R229). -/
  | notify
  /-- HALT (R229). -/
  | halt
  /-- TRAP_ENTRY (R141). -/
  | trapEntry
  /-- HANDLER_DEADLINE (R143). -/
  | handlerDeadline
  /-- HOLD_WAVE (R30). -/
  | holdWave
  /-- RELEASE (R32). -/
  | release
  /-- RELEASE_WAVE (R32). -/
  | releaseWave
  /-- GANG_START (R25). -/
  | gangStart
  /-- PASSAGE_START (R35). -/
  | passageStart
  /-- PLAY_QUEUE_ROOM (R34). -/
  | playQueueRoom
  /-- WAITG_EXPIRY (R217). -/
  | waitgExpiry
  /-- WAIT_EXPIRY (R200). -/
  | waitExpiry
  /-- SP_WRITE_LANDS (R39). -/
  | spWriteLands
  /-- GLOBAL_READ_ARRIVAL (R40). -/
  | globalReadArrival
  /-- SEQ_LOAD_BUDGET_EXPIRY (R212). -/
  | seqLoadBudgetExpiry
  /-- CHANNEL_ENTRY_LANDS (R192). -/
  | channelEntryLands
  /-- CREDIT_RETURN (R193). -/
  | creditReturn
  /-- DMCAST_ARRIVAL (R311). -/
  | dmcastArrival
  /-- BARRIER_RELEASE (R43). -/
  | barrierRelease
  /-- PHASE_POINT_RELEASE (R148). -/
  | phasePointRelease
  /-- YIELD_RELEASE (R159). -/
  | yieldRelease
  /-- YIELDREQ (R158). -/
  | yieldreq
  /-- PDL_EXPIRY (R161). -/
  | pdlExpiry
  /-- FORCED_SAVE (R161). -/
  | forcedSave
  /-- COMBINER_FIRES (R51). -/
  | combinerFires
  /-- RUN_LIMIT_EXPIRY (R386). -/
  | runLimitExpiry
  /-- PAGE_UNPIN (R71). -/
  | pageUnpin
  /-- DBIND_COMPLETE (R220). -/
  | dbindComplete
  /-- SACQ_COMPLETE (R82). -/
  | sacqComplete
  /-- HOME_UPDATE (R80). -/
  | homeUpdate
  /-- MDRAIN_ENTRY_LANDS (R281). -/
  | mdrainEntryLands
  /-- CHECKSUM_VERDICT (R283). -/
  | checksumVerdict
  /-- ERRINJ_APPLY (R291). -/
  | errinjApply
  /-- ATOMIC_RETURN (R315). -/
  | atomicReturn
  /-- MFBUILD_DIRECTORY_CHECK (R319). -/
  | mfbuildDirectoryCheck
  /-- BUILDER_SERVICE (R320). -/
  | builderService
  /-- MANIFEST_LANDS (R320). -/
  | manifestLands
  /-- QWAIT_COMPLETE (R397). -/
  | qwaitComplete
  /-- RANK (R374). -/
  | rank
  /-- RANKCTL_LOAD (R373). -/
  | rankctlLoad
  /-- QUEUE_OFF (R364). -/
  | queueOff
  /-- QUEUE_RUN (R371). -/
  | queueRun
  /-- QUEUE_RUN_SKIP (R371). -/
  | queueRunSkip
  /-- QUEUE_DRAIN (R364). -/
  | queueDrain
  /-- FRAME (R367). -/
  | frame
  /-- NOP_PACKET (R366). -/
  | nopPacket
  /-- INDIRECT (R370). -/
  | indirect
  /-- WAITV (R366). -/
  | waitv
  /-- WAITV_SATISFIED (R366). -/
  | waitvSatisfied
  /-- MARK (R366). -/
  | mark
  /-- ARMED (R379). -/
  | armed
  /-- ABORT (R378). -/
  | abort
  /-- HOLD (R378). -/
  | hold
  /-- BIND_RELEASE (R378). -/
  | bindRelease
  /-- BIND_YIELDREQ (R378). -/
  | bindYieldreq
  /-- COALT_EXPIRY (R383). -/
  | coaltExpiry
  /-- FRESP_RESUME (R399). -/
  | frespResume
  /-- FRESP_ROLLBACK (R399). -/
  | frespRollback
  /-- FRESP_FORCED_SAVE (R399). -/
  | frespForcedSave
  /-- FRESP_ABORT (R399). -/
  | frespAbort
  /-- DOORBELL (R400). -/
  | doorbell
  /-- DONE (R400). -/
  | done
  /-- GROUP_SET (R401). -/
  | groupSet
  /-- APER_SET (R401). -/
  | aperSet
  /-- LAYER_SET (R401). -/
  | layerSet
  /-- BERTH_CTL (R401). -/
  | berthCtl
  /-- GRANT_SET (R401). -/
  | grantSet
  /-- PEERWIN_SET (R401). -/
  | peerwinSet
  /-- POWER_CAP (R434). -/
  | powerCap
  /-- SELF_TEST (R430). -/
  | selfTest
  /-- RAS_READ (R429). -/
  | rasRead
  /-- XTSCAP (R412). -/
  | xtscap
  /-- DECODE (R414). -/
  | decode
  /-- FLUSH (R414). -/
  | flush
  /-- DECODER_RESET (R414). -/
  | decoderReset
  /-- DECODE_RESUME (R414). -/
  | decodeResume
  /-- POWER_ON (R419). -/
  | powerOn
  /-- HEALTHY (R420). -/
  | healthy
  /-- ACTIVATION (R420). -/
  | activation
  /-- TEST_BUTTON_SHORT (R430). -/
  | testButtonShort
  /-- TEST_BUTTON_LONG (R430). -/
  | testButtonLong
  /-- THERMAL_CRITICAL (R427). -/
  | thermalCritical
  /-- THERMAL_SHUTDOWN (R427). -/
  | thermalShutdown
  /-- POWER_CAP_CONTROL (R434). -/
  | powerCapControl
  /-- RESET (R13). -/
  | reset
  /-- POWER_LOSS (R417). -/
  | powerLoss
  /-- GLOBAL_WRITE_PERFORMED (R75). -/
  | globalWritePerformed
  /-- TABLE_WALK_FINISHED (R220). -/
  | tableWalkFinished
  deriving DecidableEq, Repr

end Sys2Proof
end

