-- ==== Sys2Proof/WellFormed.lean ====
section
/-!
DEFINITION. Well-formed instructions: the fields hold what the encoding of the row admits (R179, R184, R185, R187 to
R190). The uses that an entry forbids depend on more and are checked by the meanings.
-/

namespace Sys2Proof

/-- A 7-bit source field: a pop bit only on a channel (R188). -/
def srcWf (f : BitVec 7) : Bool := !(f.getLsbD 5 && !f.getLsbD 6)

/-- A step code that R189 does not reserve. -/
def stepWf (s : BitVec 4) : Bool := s.toNat ≤ 8

/-- Format checks of the operand formats (R187 to R190). -/
def V3.wf (w : V3) : Bool := stepWf w.step && srcWf w.va && srcWf w.vb
def VI.wf (w : VI) : Bool := stepWf w.step && srcWf w.va
def VM.wf (w : VM) : Bool := stepWf w.step && srcWf w.vx && srcWf w.vi
def MX.wf (w : MX) : Bool := stepWf w.step && w.prof.toNat ≤ 4
def DX.wf (w : DX) : Bool := stepWf w.step
def CT.wf (w : CT) : Bool := w.step == 0

/-- The register numbers of an MTS that has no row of its own (R231). -/
def mtsWf (n : Nat) : Bool :=
  !(n == 0x00C || n == 0x008 || n == 0x009 || n == 0x013 || (0x026 ≤ n && n < 0x02A) || (0x031 ≤ n && n < 0x035) ||
    (0x0C9 ≤ n && n < 0x0E0) || (0x101 ≤ n && n < 0x121))

/-- The checks of each row: load and store widths, engine numbers, field numbers, register numbers, word formats. -/
def Instr.wf : Instr → Bool
  | .add _ _ _ => true
  | .sub _ _ _ => true
  | .and_ _ _ _ => true
  | .or_ _ _ _ => true
  | .xor _ _ _ => true
  | .andn _ _ _ => true
  | .orn _ _ _ => true
  | .sll _ _ _ => true
  | .srl _ _ _ => true
  | .sra _ _ _ => true
  | .slt _ _ _ => true
  | .sltu _ _ _ => true
  | .min_ _ _ _ => true
  | .max_ _ _ _ => true
  | .minu _ _ _ => true
  | .maxu _ _ _ => true
  | .mul _ _ _ => true
  | .mulh _ _ _ => true
  | .mulhu _ _ _ => true
  | .mulhsu _ _ _ => true
  | .clz _ _ => true
  | .ctz _ _ => true
  | .popc _ _ => true
  | .rol _ _ _ => true
  | .ror _ _ _ => true
  | .addi _ _ _ => true
  | .andi _ _ _ => true
  | .ori _ _ _ => true
  | .xori _ _ _ => true
  | .slti _ _ _ => true
  | .sltiu _ _ _ => true
  | .slli _ _ _ => true
  | .srli _ _ _ => true
  | .srai _ _ _ => true
  | .lui _ _ => true
  | .shori _ _ _ => true
  | .muli _ _ _ => true
  | .ldSp1 wid _ _ _ => wid.toNat ≤ 6
  | .ldSp2 wid _ _ _ => wid.toNat ≤ 6
  | .ldSp3 wid _ _ _ => wid.toNat ≤ 6
  | .ldG wid _ _ _ => wid.toNat ≤ 6
  | .ldAp wid _ _ _ => wid.toNat ≤ 6
  | .stSp1 wid _ _ _ => wid.toNat ≤ 3
  | .stSp2 wid _ _ _ => wid.toNat ≤ 3
  | .stSp3 wid _ _ _ => wid.toNat ≤ 3
  | .stG wid _ _ _ => wid.toNat ≤ 3
  | .stAp wid _ _ _ => wid.toNat ≤ 3
  | .beq _ _ _ => true
  | .bne _ _ _ => true
  | .blt _ _ _ => true
  | .bge _ _ _ => true
  | .bltu _ _ _ => true
  | .bgeu _ _ _ => true
  | .bmz _ => true
  | .bmnz _ => true
  | .j _ => true
  | .jal _ => true
  | .jr _ _ => true
  | .trap _ => true
  | .dset _ f _ => f.toNat ≤ 14
  | .dbind _ => true
  | .dunbind _ => true
  | .yield _ _ => true
  | .chkerr => true
  | .swait _ _ _ => true
  | .sacq _ _ => true
  | .srel _ => true
  | .waitg _ => true
  | .tret => true
  | .tretSkip => true
  | .tretRb => true
  | .tesc => true
  | .tsupply _ => true
  | .notify => true
  | .halt => true
  | .gbar _ _ => true
  | .phase _ _ => true
  | .pabort _ => true
  | .pabortR _ => true
  | .qfence _ => true
  | .play e _ _ len => e.toNat ≤ 2 && len.toNat != 0
  | .mfs _ _ => true
  | .mts n _ => mtsWf n.toNat
  | .sfifo _ => true
  | .lslot _ _ => true
  | .chmap n _ => 9 ≤ n.toNat
  | .errinj _ => true
  | .promo _ => true
  | .cktol _ _ => true
  | .nprof _ => true
  | .mainpc _ _ => true
  | .aper _ _ _ => true
  | .registerWrite _ _ _ => true
  | .trapEntry => true
  | .handlerDeadline => true
  | .holdWave => true
  | .release => true
  | .releaseWave => true
  | .gangStart => true
  | .passageStart => true
  | .playQueueRoom => true
  | .waitgExpiry => true
  | .waitExpiry => true
  | .spWriteLands => true
  | .globalReadArrival => true
  | .seqLoadBudgetExpiry => true
  | .channelEntryLands => true
  | .creditReturn => true
  | .dmcastArrival => true
  | .barrierRelease => true
  | .phasePointRelease => true
  | .yieldRelease => true
  | .yieldreq => true
  | .pdlExpiry => true
  | .forcedSave => true
  | .combinerFires => true
  | .runLimitExpiry => true
  | .uncorrectableError _ => true
  | .correctableError _ => true
  | .fetchAheadError _ _ => true
  | .pageUnpin => true
  | .dbindComplete => true
  | .sacqComplete => true
  | .homeUpdate => true
  | .hostAmoRelease _ addr _ => addr.size = 4 || addr.size = 8
  | .hostLrAcquire _ addr => addr.size = 4 || addr.size = 8
  | .vadd w => w.wf
  | .vsub w => w.wf
  | .vmul w => w.wf
  | .vmulh w => w.wf
  | .vmac w => w.wf
  | .vadds w => w.wf
  | .vsubs w => w.wf
  | .vabs w => w.wf
  | .vneg w => w.wf
  | .vmin w => w.wf
  | .vmax w => w.wf
  | .vabsd w => w.wf
  | .vaddi w => w.wf
  | .vli w => w.wf
  | .vlih w => w.wf
  | .vand w => w.wf
  | .vor w => w.wf
  | .vxor w => w.wf
  | .vnot w => w.wf
  | .vandi w => w.wf
  | .vshl w => w.wf
  | .vshr w => w.wf
  | .vsra w => w.wf
  | .vshli w => w.wf
  | .vshri w => w.wf
  | .vsrai w => w.wf
  | .vrot w => w.wf
  | .vfsh w => w.wf
  | .vbfx w => w.wf
  | .vbfi w => w.wf
  | .vpopc w => w.wf
  | .vclz w => w.wf
  | .vcmp w => w.wf
  | .vcmpi w => w.wf
  | .mpush w => w.wf
  | .minv w => w.wf
  | .mpop w => w.wf
  | .mclr w => w.wf
  | .vsel w => w.wf
  | .vfadd w => w.wf
  | .vfsub w => w.wf
  | .vfmul w => w.wf
  | .vfma w => w.wf
  | .vfms w => w.wf
  | .vfsqrt w => w.wf
  | .vfmin w => w.wf
  | .vfmax w => w.wf
  | .vfminp w => w.wf
  | .vfmaxp w => w.wf
  | .vfabs w => w.wf
  | .vfneg w => w.wf
  | .vfcmp w => w.wf
  | .vrcp w => w.wf
  | .vrsq w => w.wf
  | .vexp2 w => w.wf
  | .vlog2 w => w.wf
  | .vcvt w => w.wf
  | .vradd w => w.wf
  | .vrmin w => w.wf
  | .vrmax w => w.wf
  | .vrfadd w => w.wf
  | .vrfmin w => w.wf
  | .vrfmax w => w.wf
  | .vrand w => w.wf
  | .vror w => w.wf
  | .vrxor w => w.wf
  | .vperm w => w.wf
  | .vbcst w => w.wf
  | .vslup w => w.wf
  | .vsldn w => w.wf
  | .vrev w => w.wf
  | .vzip w => w.wf
  | .vuzp w => w.wf
  | .vmov w => w.wf
  | .vbcs w => w.wf
  | .vins w => w.wf
  | .vld w => w.wf
  | .vst w => w.wf
  | .vldx w => w.wf
  | .vlut w => w.wf
  | .vdotp w => w.wf
  | .engineNotify _ w => w.wf && w.rep == 0 && w.arg == 0 && w.mask == 0
  | .engineQfence _ w => w.wf && w.rep == 0 && w.arg == 0
  | .wait _ w => w.wf && w.rep == 0 && w.arg != 0 && w.mask == 0
  | .nop _ w => w.wf && w.arg == 0 && w.mask == 0
  | .mmul w => w.wf
  | .mmuls w => w.wf
  | .mlatx w => w.wf
  | .mlata w => w.wf
  | .mzero w => w.wf
  | .mload w => w.wf
  | .mdrain w => w.wf
  | .mdrainEntryLands => true
  | .checksumVerdict => true
  | .mckset w => w.wf
  | .locfix w => w.wf
  | .mretry w => w.wf
  | .wxload w => w.wf
  | .errinjApply => true
  | .tmov w => w.wf
  | .dload w => w.wf
  | .dstore w => w.wf
  | .dphst w => w.wf
  | .dgather w => w.wf
  | .dscatter w => w.wf
  | .dmcast w => w.wf
  | .dcomp w => w.wf
  | .dexp w => w.wf
  | .dtrans w => w.wf
  | .dfill w => w.wf
  | .datom w => w.wf
  | .atomicReturn => true
  | .dataSrel w => w.wf
  | .dataSacq w => w.wf
  | .afence w => w.wf
  | .mfbuild w => w.wf
  | .mfbuildDirectoryCheck => true
  | .builderService => true
  | .manifestLands => true
  | .mfread w => w.wf
  | .cmfetch w => w.wf
  | .tsupd w => w.wf
  | .qfetch _ _ _ => true
  | .qbfx _ _ _ => true
  | .qbfxS _ _ _ => true
  | .qwait _ _ _ => true
  | .qwaitComplete => true
  | .qdisp _ _ _ => true
  | .rankEnd _ => true
  | .rankLdi _ _ => true
  | .rankLdf _ s k _ _ => k.toNat < (if s.toNat = 0 then 16 else if s.toNat = 1 then 32 else if s.toNat = 2 then 4 else 0)
  | .rankAdd _ _ _ => true
  | .rankSub _ _ _ => true
  | .rankMulsh _ _ _ _ => true
  | .rankShl _ _ _ => true
  | .rankShr _ _ _ => true
  | .rankMin _ _ _ => true
  | .rankSmax _ _ _ => true
  | .rankAnd _ _ _ => true
  | .rankOr _ _ _ => true
  | .rankStq _ => true
  | .rankSltu _ _ _ => true
  | .rank => true
  | .rankctlLoad => true
  | .tail _ _ _ => true
  | .queueOff => true
  | .queueRun => true
  | .queueRunSkip => true
  | .queueDrain => true
  | .frame => true
  | .nopPacket => true
  | .indirect => true
  | .waitv => true
  | .waitvSatisfied => true
  | .mark => true
  | .groupTableWrite _ _ _ => true
  | .armed => true
  | .abort => true
  | .hold => true
  | .bindRelease => true
  | .bindYieldreq => true
  | .coaltExpiry => true
  | .frespResume => true
  | .frespRollback => true
  | .frespForcedSave => true
  | .frespAbort => true
  | .doorbell => true
  | .done => true
  | .groupSet => true
  | .aperSet => true
  | .layerSet => true
  | .berthCtl => true
  | .grantSet => true
  | .peerwinSet => true
  | .powerCap => true
  | .selfTest => true
  | .rasRead => true
  | .hostAccess _ _ _ _ _ => true
  | .inboundWrite _ _ _ _ _ => true
  | .inboundRead _ _ _ _ => true
  | .inboundAtomicop _ _ _ _ _ _ _ => true
  | .ethernetReceive _ _ _ => true
  | .ethernetTransmit _ _ => true
  | .xtscap => true
  | .decoderTail _ _ => true
  | .decoderRun _ _ => true
  | .decode => true
  | .flush => true
  | .decoderReset => true
  | .decodeResume => true
  | .powerOn => true
  | .healthy => true
  | .pldmUpdate _ _ => true
  | .activation => true
  | .getCerts _ _ => true
  | .challenge _ => true
  | .testButtonShort => true
  | .testButtonLong => true
  | .selfTestVerdict _ _ => true
  | .sensorRefresh _ _ _ _ => true
  | .thermalCritical => true
  | .thermalShutdown => true
  | .powerCapControl => true
  | .reset => true
  | .powerLoss => true
  | .autoNegotiation _ _ => true
  | .globalWritePerformed => true
  | .tableWalkFinished => true
  | .pilotInterrupt _ _ => true
  | .reservedSequencerEncoding _ => false
  | .unassignedEngineOpcode _ _ => false

end Sys2Proof
end

