-- ==== Sys2Proof/Decode.lean ====
section
/-!
DEFINITION. The decoders of the three word spaces of the part (sequencer instructions of 32 bits, R178 to R185; engine
words of 48 bits, R186 to R200; Xquay instructions, R393, and rank instructions, R372), total on any word, and the
encoder of every instruction that has a word. Words are taken apart and put together as numbers, field by field.
-/

namespace Sys2Proof

/-- Bits [lo + n - 1 : lo] of a word given as a number (R15). -/
def fld (w lo n : Nat) : Nat := w / 2 ^ lo % 2 ^ n

/-- The number that little-endian bytes stand for (R7). -/
def leNat : List Byte → Nat
  | [] => 0
  | b :: r => b.toNat + 256 * leNat r

/-- The n little-endian bytes of a number (R7). -/
def leBytes : Nat → Nat → List Byte
  | 0, _ => []
  | n + 1, v => BitVec.ofNat 8 (v % 256) :: leBytes n (v / 256)

/-! ## Sequencer instructions -/

/-- Register field at bit `lo` (R178). -/
def regF (w lo : Nat) : BitVec 5 := BitVec.ofNat 5 (fld w lo 5)

/-- Format SR with every register field used: fields sd, sa, sb (R178). -/
def srF (w : Nat) (k : BitVec 5 → BitVec 5 → BitVec 5 → Instr) : Instr := k (regF w 21) (regF w 16) (regF w 11)

/-- The reserved reading of a sequencer word (R181, R185). -/
def resSeq (w : Nat) : Instr := .reservedSequencerEncoding (BitVec.ofNat 32 w)

/-- `i` when the named fields are 0, the reserved reading otherwise (R185). -/
def ifZero (w : Nat) (zs : List Nat) (i : Instr) : Instr := if zs.all (· == 0) then i else resSeq w

/-- The ALU group, by fn (R182). -/
def decAlu (w : Nat) : Instr :=
  match fld w 0 11 with
  | 0 => srF w .add
  | 1 => srF w .sub
  | 2 => srF w .and_
  | 3 => srF w .or_
  | 4 => srF w .xor
  | 5 => srF w .andn
  | 6 => srF w .orn
  | 7 => srF w .sll
  | 8 => srF w .srl
  | 9 => srF w .sra
  | 10 => srF w .slt
  | 11 => srF w .sltu
  | 12 => srF w .min_
  | 13 => srF w .max_
  | 14 => srF w .minu
  | 15 => srF w .maxu
  | 16 => srF w .mul
  | 17 => srF w .mulh
  | 18 => srF w .mulhu
  | 19 => srF w .mulhsu
  | 20 => ifZero w [fld w 11 5] (.clz (regF w 21) (regF w 16))
  | 21 => ifZero w [fld w 11 5] (.ctz (regF w 21) (regF w 16))
  | 22 => ifZero w [fld w 11 5] (.popc (regF w 21) (regF w 16))
  | 23 => srF w .rol
  | 24 => srF w .ror
  | _ => resSeq w

/-- The descriptor group: operation in fn[10:4], descriptor in fn[3:0] (R183, R218). -/
def decDesc (w : Nat) : Instr :=
  let n := BitVec.ofNat 4 (fld w 0 4)
  match fld w 4 7 with
  | 0 => ifZero w [fld w 11 5] (.dset n (regF w 21) (regF w 16))
  | 1 => ifZero w [fld w 11 15] (.dbind n)
  | 2 => ifZero w [fld w 11 15] (.dunbind n)
  | _ => resSeq w

/-- The control group, by fn (R183). -/
def decCtl (w : Nat) : Instr :=
  let d := fld w 21 5; let a := fld w 16 5; let b := fld w 11 5
  match fld w 0 11 with
  | 0 => ifZero w [b] (.yield (regF w 21) (regF w 16))
  | 1 => ifZero w [d, a, b] .chkerr
  | 2 => srF w .swait
  | 3 => ifZero w [d] (.sacq (regF w 16) (regF w 11))
  | 4 => ifZero w [d, b] (.srel (regF w 16))
  | 5 => ifZero w [d, b] (.waitg (regF w 16))
  | 6 => ifZero w [d, a, b] .tret
  | 7 => ifZero w [d, a, b] .tretSkip
  | 8 => ifZero w [d, a, b] .tretRb
  | 9 => ifZero w [d, a, b] .tesc
  | 10 => ifZero w [d, b] (.tsupply (regF w 16))
  | 11 => ifZero w [d, a, b] .notify
  | 12 => ifZero w [d, a, b] .halt
  | _ => resSeq w

/-- An MTS of register n (R184, R231): the registers whose writes are rows of their own decode to those rows. -/
def mtsInstr (n : Nat) (a : BitVec 5) : Instr :=
  if n = 0x00C then .sfifo a
  else if n = 0x008 then .promo a
  else if n = 0x009 then .nprof a
  else if n = 0x013 then .errinj a
  else if 0x026 ≤ n ∧ n < 0x02A then .cktol (BitVec.ofNat 2 (n - 0x026)) a
  else if 0x031 ≤ n ∧ n < 0x035 then .lslot (BitVec.ofNat 2 (n - 0x031)) a
  else if 0x0C9 ≤ n ∧ n < 0x0E0 then .chmap (BitVec.ofNat 5 (n - 0x0C0)) a
  else if 0x101 ≤ n ∧ n < 0x121 then .mainpc (BitVec.ofNat 5 (n - 0x101)) a
  else .mts (BitVec.ofNat 12 n) a

/-- Format SX (R184). -/
def decSx (w : Nat) : Instr :=
  match fld w 0 4 with
  | 0 => ifZero w [fld w 16 5] (.mfs (regF w 21) (BitVec.ofNat 12 (fld w 4 12)))
  | 1 => ifZero w [fld w 21 5] (mtsInstr (fld w 4 12) (regF w 16))
  | _ => resSeq w

/-- Format SI with a 16-bit immediate (R178, R179). -/
def siF (w : Nat) (k : BitVec 5 → BitVec 5 → BitVec 16 → Instr) : Instr :=
  k (regF w 21) (regF w 16) (BitVec.ofNat 16 (fld w 0 16))

/-- Format SI of loads and stores (R179). -/
def lsF (w : Nat) (k : BitVec 3 → BitVec 5 → BitVec 5 → BitVec 13 → Instr) : Instr :=
  k (BitVec.ofNat 3 (fld w 13 3)) (regF w 21) (regF w 16) (BitVec.ofNat 13 (fld w 0 13))

/-- Format SB (R178). -/
def sbF (w : Nat) (k : BitVec 5 → BitVec 5 → BitVec 16 → Instr) : Instr :=
  k (regF w 21) (regF w 16) (BitVec.ofNat 16 (fld w 0 16))

/-- The shift immediates: imm16[5:0], imm16[15:6] RES0 (R179). -/
def shF (w : Nat) (k : BitVec 5 → BitVec 5 → BitVec 6 → Instr) : Instr :=
  ifZero w [fld w 6 10] (k (regF w 21) (regF w 16) (BitVec.ofNat 6 (fld w 0 6)))

/-- The sequencer's decoder, by major opcode (R181). -/
def decSeqNat (w : Nat) : Instr :=
  match fld w 26 6 with
  | 0 => decAlu w
  | 4 => siF w .addi
  | 5 => siF w .andi
  | 6 => siF w .ori
  | 7 => siF w .xori
  | 8 => siF w .slti
  | 9 => siF w .sltiu
  | 10 => shF w .slli
  | 11 => shF w .srli
  | 12 => shF w .srai
  | 13 => ifZero w [fld w 16 5] (.lui (regF w 21) (BitVec.ofNat 16 (fld w 0 16)))
  | 14 => siF w .shori
  | 15 => siF w .muli
  | 16 => lsF w .ldSp1
  | 17 => lsF w .ldSp2
  | 18 => lsF w .ldSp3
  | 19 => lsF w .ldG
  | 20 => lsF w .ldAp
  | 24 => lsF w .stSp1
  | 25 => lsF w .stSp2
  | 26 => lsF w .stSp3
  | 27 => lsF w .stG
  | 28 => lsF w .stAp
  | 32 => sbF w .beq
  | 33 => sbF w .bne
  | 34 => sbF w .blt
  | 35 => sbF w .bge
  | 36 => sbF w .bltu
  | 37 => sbF w .bgeu
  | 38 => ifZero w [fld w 16 10] (.bmz (BitVec.ofNat 16 (fld w 0 16)))
  | 39 => ifZero w [fld w 16 10] (.bmnz (BitVec.ofNat 16 (fld w 0 16)))
  | 40 => .j (BitVec.ofNat 26 (fld w 0 26))
  | 41 => .jal (BitVec.ofNat 26 (fld w 0 26))
  | 42 => ifZero w [fld w 0 16] (.jr (regF w 21) (regF w 16))
  | 44 => ifZero w [fld w 16 10] (.trap (BitVec.ofNat 16 (fld w 0 16)))
  | 48 => decDesc w
  | 49 => decCtl w
  | 50 => ifZero w [fld w 8 13] (.gbar (regF w 21) (BitVec.ofNat 8 (fld w 0 8)))
  | 51 => ifZero w [fld w 16 5] (.phase (regF w 21) (BitVec.ofNat 16 (fld w 0 16)))
  | 52 => ifZero w [fld w 1 20] (if fld w 0 1 = 0 then .pabort (regF w 21) else .pabortR (regF w 21))
  | 53 => ifZero w [fld w 4 22, fld w 0 1] (.qfence (BitVec.ofNat 3 (fld w 1 3)))
  | 61 => .play (BitVec.ofNat 2 (fld w 24 2)) (regF w 19) (regF w 14) (BitVec.ofNat 14 (fld w 0 14))
  | 62 => decSx w
  | _ => resSeq w

/-- The instruction that a 32-bit sequencer word stands for (R178 to R185); total. -/
def decodeSeq (w : BitVec 32) : Instr := decSeqNat w.toNat

/-! ## Engine words -/

/-- Fields REP and STEP (R186). -/
def repF (w : Nat) : BitVec 6 := BitVec.ofNat 6 (fld w 34 6)
def stepF (w : Nat) : BitVec 4 := BitVec.ofNat 4 (fld w 30 4)
/-- One bit of a word. -/
def bitF (w n : Nat) : Bool := fld w n 1 == 1

/-- The operand formats of R187. -/
def v3F (w : Nat) : V3 :=
  { rep := repF w, step := stepF w, vd := BitVec.ofNat 6 (fld w 24 6), va := BitVec.ofNat 7 (fld w 17 7),
    vb := BitVec.ofNat 7 (fld w 10 7), rm := BitVec.ofNat 2 (fld w 8 2), sat := bitF w 7, msk := bitF w 6,
    t := BitVec.ofNat 3 (fld w 3 3), x := BitVec.ofNat 3 (fld w 0 3) }
def viF (w : Nat) : VI :=
  { rep := repF w, step := stepF w, vd := BitVec.ofNat 6 (fld w 24 6), va := BitVec.ofNat 7 (fld w 17 7),
    msk := bitF w 16, imm := BitVec.ofNat 16 (fld w 0 16) }
def vmF (w : Nat) : VM :=
  { rep := repF w, step := stepF w, vx := BitVec.ofNat 7 (fld w 23 7), vi := BitVec.ofNat 7 (fld w 16 7),
    desc := BitVec.ofNat 4 (fld w 12 4), off := BitVec.ofNat 12 (fld w 0 12) }
def mxF (w : Nat) : MX :=
  { rep := repF w, step := stepF w, tile := BitVec.ofNat 2 (fld w 28 2), a := BitVec.ofNat 4 (fld w 24 4),
    b := BitVec.ofNat 4 (fld w 20 4), c := BitVec.ofNat 4 (fld w 16 4), prof := BitVec.ofNat 3 (fld w 13 3),
    rm := bitF w 12, clamp := bitF w 11, acc := bitF w 10, arg := BitVec.ofNat 10 (fld w 0 10) }
def dxF (w : Nat) : DX :=
  { rep := repF w, step := stepF w, dst := BitVec.ofNat 4 (fld w 26 4), src := BitVec.ofNat 4 (fld w 22 4),
    aux := BitVec.ofNat 4 (fld w 18 4), cls := BitVec.ofNat 2 (fld w 16 2), phased := bitF w 15, rel := bitF w 14,
    arg := BitVec.ofNat 14 (fld w 0 14) }
def ctF (w : Nat) : CT :=
  { rep := repF w, step := stepF w, arg := BitVec.ofNat 26 (fld w 4 26), mask := BitVec.ofNat 4 (fld w 0 4) }

/-- The common control words (R200), and the words that no engine assigns. -/
def decCommon (u : Eng) (w : Nat) : Instr :=
  match fld w 40 8 with
  | 0xF0 => .engineNotify u (ctF w)
  | 0xF1 => .engineQfence u (ctF w)
  | 0xF2 => .wait u (ctF w)
  | 0xF3 => .nop u (ctF w)
  | _ => .unassignedEngineOpcode u (BitVec.ofNat 48 w)

/-- The vector opcode map (R197). -/
def decVecNat (w : Nat) : Instr :=
  match fld w 40 8 with
  | 0 => .vadd (v3F w)
  | 1 => .vsub (v3F w)
  | 2 => .vmul (v3F w)
  | 3 => .vmulh (v3F w)
  | 4 => .vmac (v3F w)
  | 5 => .vadds (v3F w)
  | 6 => .vsubs (v3F w)
  | 7 => .vabs (v3F w)
  | 8 => .vneg (v3F w)
  | 9 => .vmin (v3F w)
  | 10 => .vmax (v3F w)
  | 11 => .vabsd (v3F w)
  | 12 => .vaddi (viF w)
  | 16 => .vand (v3F w)
  | 17 => .vor (v3F w)
  | 18 => .vxor (v3F w)
  | 19 => .vnot (v3F w)
  | 20 => .vandi (viF w)
  | 21 => .vshl (v3F w)
  | 22 => .vshr (v3F w)
  | 23 => .vsra (v3F w)
  | 24 => .vshli (viF w)
  | 25 => .vshri (viF w)
  | 26 => .vsrai (viF w)
  | 27 => .vrot (v3F w)
  | 28 => .vfsh (v3F w)
  | 29 => .vbfx (v3F w)
  | 30 => .vbfi (v3F w)
  | 31 => .vpopc (v3F w)
  | 32 => .vclz (v3F w)
  | 33 => .vcmp (v3F w)
  | 34 => .vcmpi (viF w)
  | 35 => .mpush (v3F w)
  | 36 => .minv (v3F w)
  | 37 => .mpop (v3F w)
  | 38 => .mclr (v3F w)
  | 39 => .vsel (v3F w)
  | 40 => .vli (viF w)
  | 41 => .vlih (viF w)
  | 48 => .vfadd (v3F w)
  | 49 => .vfsub (v3F w)
  | 50 => .vfmul (v3F w)
  | 51 => .vfma (v3F w)
  | 52 => .vfms (v3F w)
  | 53 => .vfmin (v3F w)
  | 54 => .vfmax (v3F w)
  | 55 => .vfminp (v3F w)
  | 56 => .vfmaxp (v3F w)
  | 57 => .vfabs (v3F w)
  | 58 => .vfneg (v3F w)
  | 59 => .vfcmp (v3F w)
  | 60 => .vfsqrt (v3F w)
  | 64 => .vrcp (v3F w)
  | 65 => .vrsq (v3F w)
  | 66 => .vexp2 (v3F w)
  | 67 => .vlog2 (v3F w)
  | 68 => .vcvt (v3F w)
  | 80 => .vradd (v3F w)
  | 81 => .vrmin (v3F w)
  | 82 => .vrmax (v3F w)
  | 83 => .vrfadd (v3F w)
  | 84 => .vrfmin (v3F w)
  | 85 => .vrfmax (v3F w)
  | 86 => .vrand (v3F w)
  | 87 => .vror (v3F w)
  | 88 => .vrxor (v3F w)
  | 96 => .vperm (v3F w)
  | 97 => .vbcst (v3F w)
  | 98 => .vslup (v3F w)
  | 99 => .vsldn (v3F w)
  | 100 => .vrev (v3F w)
  | 101 => .vzip (v3F w)
  | 102 => .vuzp (v3F w)
  | 112 => .vld (vmF w)
  | 113 => .vst (vmF w)
  | 114 => .vldx (vmF w)
  | 115 => .vlut (vmF w)
  | 128 => .vmov (v3F w)
  | 129 => .vbcs (v3F w)
  | 130 => .vins (v3F w)
  | 144 => .vdotp (v3F w)
  | _ => decCommon .vec w

/-- The matrix opcode map (R198). -/
def decMtxNat (w : Nat) : Instr :=
  match fld w 40 8 with
  | 0 => .mmul (mxF w)
  | 1 => .mmuls (mxF w)
  | 2 => .mlatx (mxF w)
  | 3 => .mlata (mxF w)
  | 4 => .mzero (mxF w)
  | 5 => .mload (mxF w)
  | 6 => .mdrain (mxF w)
  | 7 => .mckset (mxF w)
  | 8 => .locfix (mxF w)
  | 9 => .mretry (mxF w)
  | 10 => .wxload (mxF w)
  | _ => decCommon .mtx w

/-- The data-engine opcode map (R199). -/
def decDataNat (w : Nat) : Instr :=
  match fld w 40 8 with
  | 0 => .tmov (dxF w)
  | 1 => .dload (dxF w)
  | 2 => .dstore (dxF w)
  | 3 => .dphst (dxF w)
  | 4 => .dgather (dxF w)
  | 5 => .dscatter (dxF w)
  | 6 => .dmcast (dxF w)
  | 7 => .dcomp (dxF w)
  | 8 => .dexp (dxF w)
  | 9 => .dtrans (dxF w)
  | 10 => .dfill (dxF w)
  | 11 => .datom (dxF w)
  | 12 => .dataSrel (dxF w)
  | 13 => .dataSacq (dxF w)
  | 14 => .afence (dxF w)
  | 16 => .mfbuild (dxF w)
  | 17 => .mfread (dxF w)
  | 18 => .cmfetch (dxF w)
  | 19 => .tsupd (dxF w)
  | _ => decCommon .data w

/-- The word that a 48-bit engine word of engine u stands for (R186 to R200); total. -/
def decodeEng (u : Eng) (w : BitVec 48) : Instr :=
  match u with
  | .vec => decVecNat w.toNat
  | .mtx => decMtxNat w.toNat
  | .data => decDataNat w.toNat

/-! ## Xquay and rank instructions -/

/-- An Xquay instruction (R393); none for every other RISC-V word. -/
def decodeXquay (w : BitVec 32) : Option Instr :=
  let n := w.toNat
  let rd := regF n 7; let r1 := regF n 15; let r2 := regF n 20
  match fld n 0 7, fld n 12 3, fld n 25 7 with
  | 11, 0, 0 => some (.qfetch rd r1 r2)
  | 11, 1, 0 => some (.qbfx rd r1 r2)
  | 11, 1, 1 => some (.qbfxS rd r1 r2)
  | 43, 0, 0 => some (.qwait rd r1 r2)
  | 43, 1, 0 => some (.qdisp rd r1 r2)
  | _, _, _ => none

/-- A register field of a rank instruction (R372). -/
def rq (w lo : Nat) : BitVec 3 := BitVec.ofNat 3 (fld w lo 3)

/-- The three-register rank forms, IMM RES0 (R372). -/
def rank3 (w : Nat) (k : BitVec 3 → BitVec 3 → BitVec 3 → Instr) : Option Instr :=
  if fld w 0 19 = 0 then some (k (rq w 25) (rq w 22) (rq w 19)) else none

/-- The two-register shifts by IMM[4:0] (R372). -/
def rankSh (w : Nat) (k : BitVec 3 → BitVec 3 → BitVec 5 → Instr) : Option Instr :=
  if fld w 19 3 = 0 ∧ fld w 5 14 = 0 then some (k (rq w 25) (rq w 22) (regF w 0)) else none

/-- The number of words of an LDF source; none for a reserved one (R372). -/
def ldfWords (src : Nat) : Nat := if src = 0 then 16 else if src = 1 then 32 else if src = 2 then 4 else 0

/-- A rank instruction (R372, R373); none for a reserved OP or SRC, a nonzero RES0 field, or a WORD beyond its source's range. -/
def decodeRank (v : BitVec 32) : Option Instr :=
  let w := v.toNat
  match fld w 28 4 with
  | 0 => if fld w 25 3 = 0 ∧ fld w 0 22 = 0 then some (.rankEnd (rq w 22)) else none
  | 1 => if fld w 19 6 = 0 then some (.rankLdi (rq w 25) (BitVec.ofNat 19 (fld w 0 19))) else none
  | 2 => if fld w 19 6 = 0 ∧ fld w 10 6 < ldfWords (fld w 16 3) then
           some (.rankLdf (rq w 25) (rq w 16) (BitVec.ofNat 6 (fld w 10 6)) (regF w 5) (regF w 0))
         else none
  | 3 => rank3 w .rankAdd
  | 4 => rank3 w .rankSub
  | 5 => if fld w 5 14 = 0 then some (.rankMulsh (rq w 25) (rq w 22) (rq w 19) (regF w 0)) else none
  | 6 => rankSh w .rankShl
  | 7 => rankSh w .rankShr
  | 8 => rank3 w .rankMin
  | 9 => rank3 w .rankSmax
  | 10 => rank3 w .rankAnd
  | 11 => rank3 w .rankOr
  | 12 => if fld w 25 3 = 0 ∧ fld w 0 22 = 0 then some (.rankStq (rq w 22)) else none
  | 13 => rank3 w .rankSltu
  | _ => none

/-! ## The encoder -/

/-- Formats SR, SI and SX put together (R178). -/
def encSr (maj fn : Nat) (d a b : BitVec 5) : Nat :=
  maj * 2 ^ 26 + d.toNat * 2 ^ 21 + a.toNat * 2 ^ 16 + b.toNat * 2 ^ 11 + fn
def encSi (maj : Nat) (d a : BitVec 5) (imm : Nat) : Nat := maj * 2 ^ 26 + d.toNat * 2 ^ 21 + a.toNat * 2 ^ 16 + imm
def encLs (maj : Nat) (wid : BitVec 3) (d a : BitVec 5) (off : BitVec 13) : Nat :=
  encSi maj d a (wid.toNat * 2 ^ 13 + off.toNat)
def encMts (n : Nat) (a : BitVec 5) : Nat := 62 * 2 ^ 26 + a.toNat * 2 ^ 16 + n * 2 ^ 4 + 1

/-- The engine word header and the operand formats put together (R186, R187). -/
def encHd (op : Nat) (rep : BitVec 6) (step : BitVec 4) : Nat := op * 2 ^ 40 + rep.toNat * 2 ^ 34 + step.toNat * 2 ^ 30
def encV3 (op : Nat) (w : V3) : Nat :=
  encHd op w.rep w.step + w.vd.toNat * 2 ^ 24 + w.va.toNat * 2 ^ 17 + w.vb.toNat * 2 ^ 10 + w.rm.toNat * 2 ^ 8 +
    w.sat.toNat * 2 ^ 7 + w.msk.toNat * 2 ^ 6 + w.t.toNat * 2 ^ 3 + w.x.toNat
def encVI (op : Nat) (w : VI) : Nat :=
  encHd op w.rep w.step + w.vd.toNat * 2 ^ 24 + w.va.toNat * 2 ^ 17 + w.msk.toNat * 2 ^ 16 + w.imm.toNat
def encVM (op : Nat) (w : VM) : Nat :=
  encHd op w.rep w.step + w.vx.toNat * 2 ^ 23 + w.vi.toNat * 2 ^ 16 + w.desc.toNat * 2 ^ 12 + w.off.toNat
def encMX (op : Nat) (w : MX) : Nat :=
  encHd op w.rep w.step + w.tile.toNat * 2 ^ 28 + w.a.toNat * 2 ^ 24 + w.b.toNat * 2 ^ 20 + w.c.toNat * 2 ^ 16 +
    w.prof.toNat * 2 ^ 13 + w.rm.toNat * 2 ^ 12 + w.clamp.toNat * 2 ^ 11 + w.acc.toNat * 2 ^ 10 + w.arg.toNat
def encDX (op : Nat) (w : DX) : Nat :=
  encHd op w.rep w.step + w.dst.toNat * 2 ^ 26 + w.src.toNat * 2 ^ 22 + w.aux.toNat * 2 ^ 18 + w.cls.toNat * 2 ^ 16 +
    w.phased.toNat * 2 ^ 15 + w.rel.toNat * 2 ^ 14 + w.arg.toNat
def encCT (op : Nat) (w : CT) : Nat := encHd op w.rep w.step + w.arg.toNat * 2 ^ 4 + w.mask.toNat

/-- An Xquay word (R393). -/
def encXq (opc f3 f7 : Nat) (rd r1 r2 : BitVec 5) : Nat :=
  f7 * 2 ^ 25 + r2.toNat * 2 ^ 20 + r1.toNat * 2 ^ 15 + f3 * 2 ^ 12 + rd.toNat * 2 ^ 7 + opc
/-- A rank word (R372). -/
def encRank (op : Nat) (qd qa qb : BitVec 3) (imm : Nat) : Nat :=
  op * 2 ^ 28 + qd.toNat * 2 ^ 25 + qa.toNat * 2 ^ 22 + qb.toNat * 2 ^ 19 + imm

/-- The words of an instruction: how many bits, and which (none for an event). Fault INFO fields take it too (R139). -/
def encode : Instr → Option (Nat × Nat)
  | .add d a b => some (32, encSr 0 0 d a b)
  | .sub d a b => some (32, encSr 0 1 d a b)
  | .and_ d a b => some (32, encSr 0 2 d a b)
  | .or_ d a b => some (32, encSr 0 3 d a b)
  | .xor d a b => some (32, encSr 0 4 d a b)
  | .andn d a b => some (32, encSr 0 5 d a b)
  | .orn d a b => some (32, encSr 0 6 d a b)
  | .sll d a b => some (32, encSr 0 7 d a b)
  | .srl d a b => some (32, encSr 0 8 d a b)
  | .sra d a b => some (32, encSr 0 9 d a b)
  | .slt d a b => some (32, encSr 0 10 d a b)
  | .sltu d a b => some (32, encSr 0 11 d a b)
  | .min_ d a b => some (32, encSr 0 12 d a b)
  | .max_ d a b => some (32, encSr 0 13 d a b)
  | .minu d a b => some (32, encSr 0 14 d a b)
  | .maxu d a b => some (32, encSr 0 15 d a b)
  | .mul d a b => some (32, encSr 0 16 d a b)
  | .mulh d a b => some (32, encSr 0 17 d a b)
  | .mulhu d a b => some (32, encSr 0 18 d a b)
  | .mulhsu d a b => some (32, encSr 0 19 d a b)
  | .clz d a => some (32, encSr 0 20 d a 0)
  | .ctz d a => some (32, encSr 0 21 d a 0)
  | .popc d a => some (32, encSr 0 22 d a 0)
  | .rol d a b => some (32, encSr 0 23 d a b)
  | .ror d a b => some (32, encSr 0 24 d a b)
  | .addi d a i => some (32, encSi 4 d a i.toNat)
  | .andi d a i => some (32, encSi 5 d a i.toNat)
  | .ori d a i => some (32, encSi 6 d a i.toNat)
  | .xori d a i => some (32, encSi 7 d a i.toNat)
  | .slti d a i => some (32, encSi 8 d a i.toNat)
  | .sltiu d a i => some (32, encSi 9 d a i.toNat)
  | .slli d a i => some (32, encSi 10 d a i.toNat)
  | .srli d a i => some (32, encSi 11 d a i.toNat)
  | .srai d a i => some (32, encSi 12 d a i.toNat)
  | .lui d imm => some (32, encSi 13 d 0 imm.toNat)
  | .shori d a i => some (32, encSi 14 d a i.toNat)
  | .muli d a i => some (32, encSi 15 d a i.toNat)
  | .ldSp1 wid d a off => some (32, encLs 16 wid d a off)
  | .ldSp2 wid d a off => some (32, encLs 17 wid d a off)
  | .ldSp3 wid d a off => some (32, encLs 18 wid d a off)
  | .ldG wid d a off => some (32, encLs 19 wid d a off)
  | .ldAp wid d a off => some (32, encLs 20 wid d a off)
  | .stSp1 wid d a off => some (32, encLs 24 wid d a off)
  | .stSp2 wid d a off => some (32, encLs 25 wid d a off)
  | .stSp3 wid d a off => some (32, encLs 26 wid d a off)
  | .stG wid d a off => some (32, encLs 27 wid d a off)
  | .stAp wid d a off => some (32, encLs 28 wid d a off)
  | .beq a b o => some (32, encSi 32 a b o.toNat)
  | .bne a b o => some (32, encSi 33 a b o.toNat)
  | .blt a b o => some (32, encSi 34 a b o.toNat)
  | .bge a b o => some (32, encSi 35 a b o.toNat)
  | .bltu a b o => some (32, encSi 36 a b o.toNat)
  | .bgeu a b o => some (32, encSi 37 a b o.toNat)
  | .bmz o => some (32, encSi 38 0 0 o.toNat)
  | .bmnz o => some (32, encSi 39 0 0 o.toNat)
  | .j o => some (32, 40 * 2 ^ 26 + o.toNat)
  | .jal o => some (32, 41 * 2 ^ 26 + o.toNat)
  | .jr d a => some (32, encSr 42 0 d a 0)
  | .trap c => some (32, encSi 44 0 0 c.toNat)
  | .dset n f a => some (32, encSr 48 n.toNat f a 0)
  | .dbind n => some (32, encSr 48 (16 + n.toNat) 0 0 0)
  | .dunbind n => some (32, encSr 48 (32 + n.toNat) 0 0 0)
  | .yield d a => some (32, encSr 49 0 d a 0)
  | .chkerr => some (32, encSr 49 1 0 0 0)
  | .swait d a b => some (32, encSr 49 2 d a b)
  | .sacq a b => some (32, encSr 49 3 0 a b)
  | .srel a => some (32, encSr 49 4 0 a 0)
  | .waitg a => some (32, encSr 49 5 0 a 0)
  | .tret => some (32, encSr 49 6 0 0 0)
  | .tretSkip => some (32, encSr 49 7 0 0 0)
  | .tretRb => some (32, encSr 49 8 0 0 0)
  | .tesc => some (32, encSr 49 9 0 0 0)
  | .tsupply a => some (32, encSr 49 10 0 a 0)
  | .notify => some (32, encSr 49 11 0 0 0)
  | .halt => some (32, encSr 49 12 0 0 0)
  | .gbar d g => some (32, encSi 50 d 0 g.toNat)
  | .phase d m => some (32, encSi 51 d 0 m.toNat)
  | .pabort d => some (32, encSi 52 d 0 0)
  | .pabortR d => some (32, encSi 52 d 0 1)
  | .qfence m => some (32, encSi 53 0 0 (m.toNat * 2))
  | .play en a b len => some (32, 61 * 2 ^ 26 + en.toNat * 2 ^ 24 + a.toNat * 2 ^ 19 + b.toNat * 2 ^ 14 + len.toNat)
  | .mfs d n => some (32, 62 * 2 ^ 26 + d.toNat * 2 ^ 21 + n.toNat * 2 ^ 4)
  | .mts n a => some (32, encMts n.toNat a)
  | .sfifo a => some (32, encMts 0x00C a)
  | .lslot k a => some (32, encMts (0x031 + k.toNat) a)
  | .chmap n a => some (32, encMts (0x0C0 + n.toNat) a)
  | .errinj a => some (32, encMts 0x013 a)
  | .promo a => some (32, encMts 0x008 a)
  | .cktol k a => some (32, encMts (0x026 + k.toNat) a)
  | .nprof a => some (32, encMts 0x009 a)
  | .mainpc k a => some (32, encMts (0x101 + k.toNat) a)
  | .reservedSequencerEncoding w => some (32, w.toNat)
  | .vadd w => some (48, encV3 0 w)
  | .vsub w => some (48, encV3 1 w)
  | .vmul w => some (48, encV3 2 w)
  | .vmulh w => some (48, encV3 3 w)
  | .vmac w => some (48, encV3 4 w)
  | .vadds w => some (48, encV3 5 w)
  | .vsubs w => some (48, encV3 6 w)
  | .vabs w => some (48, encV3 7 w)
  | .vneg w => some (48, encV3 8 w)
  | .vmin w => some (48, encV3 9 w)
  | .vmax w => some (48, encV3 10 w)
  | .vabsd w => some (48, encV3 11 w)
  | .vaddi w => some (48, encVI 12 w)
  | .vand w => some (48, encV3 16 w)
  | .vor w => some (48, encV3 17 w)
  | .vxor w => some (48, encV3 18 w)
  | .vnot w => some (48, encV3 19 w)
  | .vandi w => some (48, encVI 20 w)
  | .vshl w => some (48, encV3 21 w)
  | .vshr w => some (48, encV3 22 w)
  | .vsra w => some (48, encV3 23 w)
  | .vshli w => some (48, encVI 24 w)
  | .vshri w => some (48, encVI 25 w)
  | .vsrai w => some (48, encVI 26 w)
  | .vrot w => some (48, encV3 27 w)
  | .vfsh w => some (48, encV3 28 w)
  | .vbfx w => some (48, encV3 29 w)
  | .vbfi w => some (48, encV3 30 w)
  | .vpopc w => some (48, encV3 31 w)
  | .vclz w => some (48, encV3 32 w)
  | .vcmp w => some (48, encV3 33 w)
  | .vcmpi w => some (48, encVI 34 w)
  | .mpush w => some (48, encV3 35 w)
  | .minv w => some (48, encV3 36 w)
  | .mpop w => some (48, encV3 37 w)
  | .mclr w => some (48, encV3 38 w)
  | .vsel w => some (48, encV3 39 w)
  | .vli w => some (48, encVI 40 w)
  | .vlih w => some (48, encVI 41 w)
  | .vfadd w => some (48, encV3 48 w)
  | .vfsub w => some (48, encV3 49 w)
  | .vfmul w => some (48, encV3 50 w)
  | .vfma w => some (48, encV3 51 w)
  | .vfms w => some (48, encV3 52 w)
  | .vfmin w => some (48, encV3 53 w)
  | .vfmax w => some (48, encV3 54 w)
  | .vfminp w => some (48, encV3 55 w)
  | .vfmaxp w => some (48, encV3 56 w)
  | .vfabs w => some (48, encV3 57 w)
  | .vfneg w => some (48, encV3 58 w)
  | .vfcmp w => some (48, encV3 59 w)
  | .vfsqrt w => some (48, encV3 60 w)
  | .vrcp w => some (48, encV3 64 w)
  | .vrsq w => some (48, encV3 65 w)
  | .vexp2 w => some (48, encV3 66 w)
  | .vlog2 w => some (48, encV3 67 w)
  | .vcvt w => some (48, encV3 68 w)
  | .vradd w => some (48, encV3 80 w)
  | .vrmin w => some (48, encV3 81 w)
  | .vrmax w => some (48, encV3 82 w)
  | .vrfadd w => some (48, encV3 83 w)
  | .vrfmin w => some (48, encV3 84 w)
  | .vrfmax w => some (48, encV3 85 w)
  | .vrand w => some (48, encV3 86 w)
  | .vror w => some (48, encV3 87 w)
  | .vrxor w => some (48, encV3 88 w)
  | .vperm w => some (48, encV3 96 w)
  | .vbcst w => some (48, encV3 97 w)
  | .vslup w => some (48, encV3 98 w)
  | .vsldn w => some (48, encV3 99 w)
  | .vrev w => some (48, encV3 100 w)
  | .vzip w => some (48, encV3 101 w)
  | .vuzp w => some (48, encV3 102 w)
  | .vld w => some (48, encVM 112 w)
  | .vst w => some (48, encVM 113 w)
  | .vldx w => some (48, encVM 114 w)
  | .vlut w => some (48, encVM 115 w)
  | .vmov w => some (48, encV3 128 w)
  | .vbcs w => some (48, encV3 129 w)
  | .vins w => some (48, encV3 130 w)
  | .vdotp w => some (48, encV3 144 w)
  | .mmul w => some (48, encMX 0 w)
  | .mmuls w => some (48, encMX 1 w)
  | .mlatx w => some (48, encMX 2 w)
  | .mlata w => some (48, encMX 3 w)
  | .mzero w => some (48, encMX 4 w)
  | .mload w => some (48, encMX 5 w)
  | .mdrain w => some (48, encMX 6 w)
  | .mckset w => some (48, encMX 7 w)
  | .locfix w => some (48, encMX 8 w)
  | .mretry w => some (48, encMX 9 w)
  | .wxload w => some (48, encMX 10 w)
  | .tmov w => some (48, encDX 0 w)
  | .dload w => some (48, encDX 1 w)
  | .dstore w => some (48, encDX 2 w)
  | .dphst w => some (48, encDX 3 w)
  | .dgather w => some (48, encDX 4 w)
  | .dscatter w => some (48, encDX 5 w)
  | .dmcast w => some (48, encDX 6 w)
  | .dcomp w => some (48, encDX 7 w)
  | .dexp w => some (48, encDX 8 w)
  | .dtrans w => some (48, encDX 9 w)
  | .dfill w => some (48, encDX 10 w)
  | .datom w => some (48, encDX 11 w)
  | .dataSrel w => some (48, encDX 12 w)
  | .dataSacq w => some (48, encDX 13 w)
  | .afence w => some (48, encDX 14 w)
  | .mfbuild w => some (48, encDX 16 w)
  | .mfread w => some (48, encDX 17 w)
  | .cmfetch w => some (48, encDX 18 w)
  | .tsupd w => some (48, encDX 19 w)
  | .engineNotify _ w => some (48, encCT 240 w)
  | .engineQfence _ w => some (48, encCT 241 w)
  | .wait _ w => some (48, encCT 242 w)
  | .nop _ w => some (48, encCT 243 w)
  | .unassignedEngineOpcode _ w => some (48, w.toNat)
  | .qfetch d a b => some (32, encXq 11 0 0 d a b)
  | .qbfx d a b => some (32, encXq 11 1 0 d a b)
  | .qbfxS d a b => some (32, encXq 11 1 1 d a b)
  | .qwait d a b => some (32, encXq 43 0 0 d a b)
  | .qdisp d a b => some (32, encXq 43 1 0 d a b)
  | .rankEnd a => some (32, encRank 0 0 a 0 0)
  | .rankLdi d i => some (32, encRank 1 d 0 0 i.toNat)
  | .rankLdf d s k p l => some (32, encRank 2 d 0 0 (s.toNat * 2 ^ 16 + k.toNat * 2 ^ 10 + p.toNat * 2 ^ 5 + l.toNat))
  | .rankAdd d a b => some (32, encRank 3 d a b 0)
  | .rankSub d a b => some (32, encRank 4 d a b 0)
  | .rankMin d a b => some (32, encRank 8 d a b 0)
  | .rankSmax d a b => some (32, encRank 9 d a b 0)
  | .rankAnd d a b => some (32, encRank 10 d a b 0)
  | .rankOr d a b => some (32, encRank 11 d a b 0)
  | .rankSltu d a b => some (32, encRank 13 d a b 0)
  | .rankMulsh d a b s => some (32, encRank 5 d a b s.toNat)
  | .rankShl d a s => some (32, encRank 6 d a 0 s.toNat)
  | .rankShr d a s => some (32, encRank 7 d a 0 s.toNat)
  | .rankStq a => some (32, encRank 12 0 a 0 0)
  | .aper _ _ _ => none
  | .registerWrite _ _ _ => none
  | .trapEntry => none
  | .handlerDeadline => none
  | .holdWave => none
  | .release => none
  | .releaseWave => none
  | .gangStart => none
  | .passageStart => none
  | .playQueueRoom => none
  | .waitgExpiry => none
  | .waitExpiry => none
  | .spWriteLands => none
  | .globalReadArrival => none
  | .seqLoadBudgetExpiry => none
  | .channelEntryLands => none
  | .creditReturn => none
  | .dmcastArrival => none
  | .barrierRelease => none
  | .phasePointRelease => none
  | .yieldRelease => none
  | .yieldreq => none
  | .pdlExpiry => none
  | .forcedSave => none
  | .combinerFires => none
  | .runLimitExpiry => none
  | .uncorrectableError _ => none
  | .correctableError _ => none
  | .fetchAheadError _ _ => none
  | .pageUnpin => none
  | .dbindComplete => none
  | .sacqComplete => none
  | .homeUpdate => none
  | .hostAmoRelease _ _ _ => none
  | .hostLrAcquire _ _ => none
  | .mdrainEntryLands => none
  | .checksumVerdict => none
  | .errinjApply => none
  | .atomicReturn => none
  | .mfbuildDirectoryCheck => none
  | .builderService => none
  | .manifestLands => none
  | .qwaitComplete => none
  | .rank => none
  | .rankctlLoad => none
  | .tail _ _ _ => none
  | .queueOff => none
  | .queueRun => none
  | .queueRunSkip => none
  | .queueDrain => none
  | .frame => none
  | .nopPacket => none
  | .indirect => none
  | .waitv => none
  | .waitvSatisfied => none
  | .mark => none
  | .groupTableWrite _ _ _ => none
  | .armed => none
  | .abort => none
  | .hold => none
  | .bindRelease => none
  | .bindYieldreq => none
  | .coaltExpiry => none
  | .frespResume => none
  | .frespRollback => none
  | .frespForcedSave => none
  | .frespAbort => none
  | .doorbell => none
  | .done => none
  | .groupSet => none
  | .aperSet => none
  | .layerSet => none
  | .berthCtl => none
  | .grantSet => none
  | .peerwinSet => none
  | .powerCap => none
  | .selfTest => none
  | .rasRead => none
  | .hostAccess _ _ _ _ _ => none
  | .inboundWrite _ _ _ _ _ => none
  | .inboundRead _ _ _ _ => none
  | .inboundAtomicop _ _ _ _ _ _ _ => none
  | .ethernetReceive _ _ _ => none
  | .ethernetTransmit _ _ => none
  | .xtscap => none
  | .decoderTail _ _ => none
  | .decoderRun _ _ => none
  | .decode => none
  | .flush => none
  | .decoderReset => none
  | .decodeResume => none
  | .powerOn => none
  | .healthy => none
  | .pldmUpdate _ _ => none
  | .activation => none
  | .getCerts _ _ => none
  | .challenge _ => none
  | .testButtonShort => none
  | .testButtonLong => none
  | .selfTestVerdict _ _ => none
  | .sensorRefresh _ _ _ _ => none
  | .thermalCritical => none
  | .thermalShutdown => none
  | .powerCapControl => none
  | .reset => none
  | .powerLoss => none
  | .autoNegotiation _ _ => none
  | .globalWritePerformed => none
  | .tableWalkFinished => none
  | .pilotInterrupt _ _ => none

/-- The word of an instruction as a number; 0 for an event. -/
def encodeNat (i : Instr) : Nat :=
  match encode i with
  | some (_, w) => w
  | none => 0

/-! ## The host's entry -/

/-- The space in which a table word of `nbits` bits is read: 0 sequencer, 1 Xquay, 2 rank, 3 vector words, 4 none. The three spaces of
32-bit words overlap: a word is read as an Xquay instruction where its opcode and function fields make it one, else as a sequencer
instruction where the sequencer assigns it, else as a rank instruction (log 17). -/
def tableSpace (nbits w : Nat) : Nat :=
  if nbits ≤ 32 then
    let v := BitVec.ofNat 32 w
    if (decodeXquay v).isSome then 1
    else match decodeSeq v with
      | .reservedSequencerEncoding _ => if (decodeRank v).isSome then 2 else 0
      | _ => 0
  else if nbits ≤ 48 then 3
  else 4

/-- The instruction that the decoders read from a word of `nbits` bits (its missing upper bits 0), in the space of `tableSpace`. -/
def decodeTableWord (nbits w : Nat) : Option Instr :=
  match tableSpace nbits w with
  | 0 => some (decodeSeq (BitVec.ofNat 32 w))
  | 1 => decodeXquay (BitVec.ofNat 32 w)
  | 2 => decodeRank (BitVec.ofNat 32 w)
  | 3 => some (decodeEng .vec (BitVec.ofNat 48 w))
  | _ => none

end Sys2Proof
end

