-- ==== Sys2Proof/Config.lean ====
section
/-!
DEFINITION. What the part fixes (sizes, counts, the capsule defaults of R421) and the free values: constants without a
body, applied to the counter `State.free` or to the operands the open value may depend on. Nothing in Lean can
evaluate or prove a value of them (log 3).
-/

namespace Sys2Proof.Config

/-- Number of compute cores (R2). -/
def numCores : Nat := 24
/-- Bytes of SP1 (R54). -/
def sp1Size : Nat := 0x300000
/-- Bytes of one cluster's SP2 (R54). -/
def sp2Size : Nat := 0x800000
/-- Bytes of SP3 (R54). -/
def sp3Size : Nat := 0x1400000
/-- Bytes of score memory (R2, R19). -/
def scoreSize : Nat := 0x40000
/-- First byte of the Pilot firmware's handler in score memory (R140). -/
def pilotHandler : Nat := 0x3E000
/-- Bytes of HBM: 96 GiB (R2, R69). -/
def hbmSize : Nat := 0x1800000000
/-- Bytes of the held-store buffer (R45). -/
def heldSize : Nat := 0x40000
/-- Entries of an engine queue (R34) and passages of a handler lane (R141). -/
def queueDepth : Nat := 32
def laneDepth : Nat := 4
/-- A handler's deadline in cycles (R143). -/
def handlerDeadline : Nat := 4194304
/-- Entries that the PIFO holds (R375). -/
def pifoDepth : Nat := 1024
/-- Entries of the fault post ring (R399). -/
def faultRing : Nat := 64
/-- Entry slots of the RAS log (R428). -/
def rasSlots : Nat := 16383
/-- The Pilot SRAM: physical base and size (R389). -/
def sramBase : Nat := 0x2010000000
def sramSize : Nat := 0x200000
/-- The levels of R413 in the DECODE entry (R424): H.264, H.265 and AV1, ten times the level, a byte each from bit 0 (log 19). -/
def decLevels : BitVec 64 := 0x333334
/-- The class code of the one PCIe function (R406). -/
def pcieClass : Nat := 0x120000
/-- The longest Ethernet frame in bytes (R411). -/
def ethMax : Nat := 9216
/-- The silicon revision of this part (R387, R424); its value is the part's own (log 19). -/
def siliconRev : Nat := 1

/-- A free natural number, fresh for each value of the counter (log 3). -/
opaque freeNat : Nat → Nat
/-- A free 64-bit value, fresh for each value of the counter (log 3). -/
opaque freeWord : Nat → BitVec 64
/-- Free bytes, fresh for each value of the counter: content that the spec leaves open (log 3, log 14). -/
opaque freeBytes : Nat → List (BitVec 8)
/-- Whether an access unit belongs to a stream of the codec's profiles and levels (R413): codec, bytes. Which bits say so is another
standard's (log 14). -/
opaque decSupported : Nat → List (BitVec 8) → Bool
/-- The bytes of the Pilot firmware's handler by score-memory address from 0x3_E000 (R140, R361); they come with the image (log 88). -/
opaque pilotCode : Nat → BitVec 8
/-- Where the Pilot firmware keeps its copy of an image that does not lie in one piece of HBM, by berth, in units of 8 bytes (R378; log 11). -/
opaque imageArea : Nat → Nat
/-- Part number and serial number in IDENT (R424); no rule gives them. -/
opaque partNumber : BitVec 64
opaque serial : BitVec 64
/-- The version of the boot ROM (R423); no rule gives it. -/
opaque romVersion : BitVec 32
/-- The hash of the root key in the boot ROM (R418; log 15). -/
opaque rootKeyHash : List (BitVec 8)
/-- The 256-bit seed that the boot ROM recovers from its read of 4 KiB of the I/O die's SRAM with the helper data (R422): the same from every
power-on's read; the recovery is given by no rule (log 15). -/
opaque pufSeed : List (BitVec 8) → BitVec 256
/-- What a 64-bit read finds in an entry of the RAS log that is being written (R429): tide cycle, offset (log 20). -/
opaque rasTorn : Nat → Nat → BitVec 64
/-- Where hart k begins to execute when an image boots, if it does (R402); no rule gives it (log 98). -/
opaque hartStart : Nat → Option (BitVec 64)
/-- The hart whose interrupt file takes a vector of the host cores, modulo 8 (R383, R402); no rule gives it (log 98). -/
opaque irqHart : Nat → Nat
/-- Whether this part is a module, DK-24-M, and not a card (R426, R435); no register says so (log 20). -/
opaque module_ : Bool

end Sys2Proof.Config
end

