-- ==== Sys2Proof/Machine/State.lean ====
section
/-!
DEFINITION. The state of the part, as plain data, and the state right after reset (R13). What the spec gives the
machine stands here field by field; the fields that are the model's own say so.
-/

namespace Sys2Proof.Machine

/-- Why the model stops. The only fault: an access to an address at which the spec says that nothing exists, where it
gives the accessor no exception of its own. No meaning of this model raises it at present; safe. -/
inductive Fault where
  /-- An address outside every memory of the part (R389); raised by nobody at present; safe. -/
  | noSuchAddress (addr : Nat)
  deriving DecidableEq, Repr

/-- Why the model has no next state. -/
inductive Refusal where
  /-- The dispatcher has no meaning for the instruction yet; safe. -/
  | notModelled (mnemonic : String)
  deriving DecidableEq, Repr

/-! ## Memory -/

/-- Sparse memory: (address, byte) pairs, addresses strictly rising, no byte 0 (log 1). -/
abbrev Memory := List Host.Cell

/-- A run of bytes at an address, with the poison mark that travels with it (R145). -/
structure Piece where
  addr   : Nat
  bytes  : List Byte
  poison : Bool
  deriving DecidableEq, Repr

/-! ## Descriptors (R58) -/

/-- One pinned page (R70): virtual base, length, target (0 HBM, 1 host, 2 peer), physical base, and the base of the page that counts. -/
structure Pin where
  va  : Nat
  len : Nat
  tgt : Nat
  pa  : Nat
  page : Nat
  deriving DecidableEq, Repr

/-- A stream descriptor: the fields of R58, its pinned range (R70), and whether its shadow bank has been written in
the current phase (R60). -/
structure Desc where
  level   : BitVec 3
  fmt     : BitVec 4
  swz     : BitVec 3
  db      : Bool
  ro      : Bool
  bound   : Bool
  base    : BitVec 48
  rows    : BitVec 16
  cols    : BitVec 16
  rstride : BitVec 32
  estride : BitVec 16
  sbase   : BitVec 48
  apidx   : BitVec 4
  bank    : Bool
  sstride : BitVec 24
  fill    : BitVec 32
  shbase  : BitVec 24
  pins    : List Pin
  shw     : Bool
  deriving DecidableEq, Repr

/-- A descriptor all of whose fields are 0 and which is unbound. -/
def Desc.zero : Desc :=
  { level := 0, fmt := 0, swz := 0, db := false, ro := false, bound := false, base := 0, rows := 0, cols := 0,
    rstride := 0, estride := 0, sbase := 0, apidx := 0, bank := false, sstride := 0, fill := 0, shbase := 0,
    pins := [], shw := false }

/-! ## Channels (R191, R192) -/

/-- An entry of a channel: its 32-bit words (64 lanes; 2 words in c7; 4 words in c8), the sender's phase, the landing
cycle, whether it has landed, and the element row and entry of the drain that pushed it (R154). -/
structure ChEntry where
  v      : List Lane
  phase  : Nat
  land   : Nat
  landed : Bool
  src    : Nat
  drain  : Option (Nat × Nat)
  deriving DecidableEq, Repr

/-- A channel: its entries, oldest first, the pops made at cycle `popAt` (R193, R281) and whether a handler lane made them, on the
tide (R141), and, for a mesh channel that this core pushes, the credits used (R193). -/
structure Chan where
  q      : List ChEntry
  popAt  : Nat
  popN   : Nat
  used   : Nat
  popLane : Bool := false
  deriving DecidableEq, Repr

/-- An empty channel with all its credits. -/
def Chan.empty : Chan := { q := [], popAt := 0, popN := 0, used := 0 }

/-! ## Effects in flight -/

/-- A change of the mask stack, made when it lands (R48, R250). -/
inductive MaskOp where
  | push (m : BitVec 64)
  | inv
  | pop
  | clr
  deriving DecidableEq, Repr

/-- What an issued operation does when it lands. -/
inductive Eff where
  /-- A write of scalar register r, of the shadow context when `sh` (R37). -/
  | sreg (sh : Bool) (r : Nat) (v : Word)
  /-- A write of vector register r in the lanes of the mask (R37, R239). -/
  | vreg (r : Nat) (m : BitVec 64) (v : List Lane)
  /-- A change of the mask stack (R250). -/
  | mask (op : MaskOp)
  /-- VSTAT flags set (R243): bits IV, DZ, OF, UF, NX, SA, XO. -/
  | vflag (f : BitVec 7)
  /-- MSTAT flags set (R287): OVF, INV, CKL, EIH, EIX. -/
  | mflag (f : BitVec 5)
  /-- MSTAT.HOVF of tile t set (R266, R287). -/
  | hovf (t : Nat)
  /-- The gather counts of GSTAT (R310). -/
  | gstat (n : Nat)
  /-- A write of descriptor field f of descriptor d (R219). -/
  | dfield (d f : Nat) (v : Word)
  /-- BOUND of descriptor d clears (R221). -/
  | unbind (d : Nat)
  /-- A write of system register n by an MTS (R230). -/
  | sys (n : Nat) (v : Word)
  /-- A write into level `lvl` (0 SP1, 1 SP2, 2 SP3) (R39). -/
  | sp (lvl : Nat) (ps : List Piece)
  /-- A multicast copy that lands in this core's SP1 (R311). -/
  | mcast (ps : List Piece)
  /-- Data read at a home and copied into level `lvl`: runs (destination, source offset, length) counted in 4-bit
  units; the source is what the home answered followed by the bytes `fill` (R40, R303, R307, R308). -/
  | spData (lvl : Nat) (runs : List (Nat × Nat × Nat)) (fill : List Byte)
  /-- Data read through a BTC view: element format, budget code, and the byte address of each element in block order
  (R66, R111, R304). -/
  | spBtc (lvl fmt budget : Nat) (dst : List Nat)
  /-- The change map of a CMFETCH: the destination address and the bytes that fit (R318). -/
  | cmap (lvl addr cap : Nat)
  /-- A scalar register loaded from a home: width code of R179 (R212). -/
  | ldReg (sh : Bool) (r wid : Nat)
  /-- The old value of an atomic written at an SP1 address, with its size; no address when RET is 0 (R315). -/
  | atomRet (addr : Option (Nat × Nat))
  /-- An entry pushed into local channel c lands (R192). -/
  | chan (c : Nat)
  /-- An entry of mesh channel c lands (R28, R192). -/
  | mesh (c : Nat)
  /-- A credit for outbound channel c becomes usable (R193). -/
  | credit (c : Nat)
  /-- ERRINJ is applied to tile t at the end of a product (R291). -/
  | errinj (t : Nat)
  /-- The verdict of the last drain (R283). -/
  | verdict
  /-- CHKINT is set by consumed poison (R145). -/
  | chkint
  /-- The manifest of an MFBUILD, of at most len bytes, at an address (R320). -/
  | manifest (lvl addr len : Nat)
  /-- A LOCFIX or MRETRY ends: the tile, the drained bytes, the verdict (R289, R290). -/
  | fixEnd (mretry : Bool) (tile : Nat)
  deriving DecidableEq, Repr

/-- An effect in flight: its landing cycle, the cycle from which the scoreboard counts it, whether its clock is the
tide (handler lanes, R141) or gang time, the unit that issued it (0 sequencer, 1 vector, 2 matrix, 3 data), whether it
goes on during a hold (R31), the operation at a home that must answer first (R40), whether it goes to a shadow bank
(R323), whether its lateness has already been taken as a miss (R212), and the operations that must be performed before other
gangs and the homes see what it writes into SP3 (R77, R225). -/
structure Pend where
  id     : Nat
  land   : Nat
  since  : Nat
  tide   : Bool
  unit   : Nat
  goesOn : Bool
  need   : Option Nat
  phased : Bool
  missed : Bool
  eff    : Eff
  deps   : List Nat := []
  deriving DecidableEq, Repr

/-! ## Sequencer contexts (R17, R38, R141) -/

/-- A taken or untaken branch whose delay slot is next (R38, R136). -/
structure Slot where
  brPc : BitVec 18
  dest : BitVec 18
  mask : Bool
  deriving DecidableEq, Repr

/-- A sequencer's wait in progress (R204). -/
inductive Wait where
  | none
  /-- A PLAY that found 32 entries (R34); the cycle at which it issued. -/
  | play (p : Nat)
  /-- WAITG (R217). -/
  | waitg (t : Nat)
  /-- GBAR on group g; arrival cycle and destination (R43). -/
  | gbar (g : Nat) (at_ : Nat) (d : Nat)
  /-- PHASE with its mask (R46), PABORT or PABORT.R (R148). -/
  | phase (kind : Nat) (mask : BitVec 16) (at_ : Nat) (d : Nat)
  /-- YIELD with its live mask (R159). -/
  | yield (live : Word) (at_ : Nat) (d : Nat)
  /-- SACQ or SWAIT (R225): the operation at the home; destination for SWAIT. -/
  | sync (id : Nat) (d : Option Nat)
  /-- DBIND: descriptor, end of the occupancy, the walk at the homes, what it pins, and its fault (code, SUB, INFO)
  (R220). -/
  | dbind (d : Nat) (end_ : Nat) (id : Nat) (pins : List Pin) (fault : Option (Nat × Nat × Nat))
  /-- A TRET form waiting for the handler lanes (R142): 0 TRET, 1 SKIP, 2 RB. -/
  | tret (form : Nat)
  /-- A sequencer that goes on at a given cycle: the second part of a PLAY or phase wait. -/
  | until_ (t : Nat)
  deriving DecidableEq, Repr

/-- One sequencer context. `next` is the cycle from which its next instruction may issue. -/
structure SeqCtx where
  regs  : List Word
  pc    : BitVec 18
  next  : Nat
  slot  : Option Slot
  wait  : Wait
  ended : Bool
  deriving DecidableEq, Repr

/-- A context at launch (R23). -/
def SeqCtx.zero : SeqCtx :=
  { regs := List.replicate 32 0, pc := 0, next := 0, slot := none, wait := .none, ended := false }

/-- What a member awaits as the source of a STALL hold (R41, R193, R212, R220), or the Pilot firmware's handler under TRAP
(R139). -/
inductive Await where
  | pends (ids : List Nat)
  | entry (c k : Nat)
  | room (c : Nat)
  | credit (c : Nat)
  | feed (f : Nat)
  | load (id : Nat)
  | walk
  | op (id : Nat)
  deriving DecidableEq, Repr

/-- The handler of a fault source (R141 to R144): running or not, the Pilot firmware's or the timetable's, its entry
tide, the main registers and MAINPC it has staged, whether DS still holds, the value supplied, whether a fault post is
outstanding (R399), whether the gang is to be aborted with reason 8, what the Pilot firmware's handler waits for (R139), and the
matrix word that handler has played last (0 none, 1 LOCFIX, 2 MRETRY; R154). -/
structure Handler where
  active  : Bool
  pilot   : Bool
  entry   : Nat
  mains   : List (Nat × Word)
  mainPc  : BitVec 18
  ds      : Bool
  supply  : Option Word
  posted  : Bool
  fatal   : Bool
  await   : Option Await
  tried   : Nat
  answer  : Option Nat := none
  deriving DecidableEq, Repr

/-- No handler running. -/
def Handler.idle : Handler :=
  { active := false, pilot := false, entry := 0, mains := [], mainPc := 0, ds := false, supply := none, posted := false,
    fatal := false, await := none, tried := 0 }

/-! ## Engines (R34 to R36) -/

/-- An entry of an engine queue or handler lane: passage address, length in words, stamp, the cycle of its PLAY. -/
structure QEntry where
  addr   : Nat
  len    : Nat
  stamp  : Nat
  played : Nat
  deriving DecidableEq, Repr

/-- A queue with the progress of the word in issue: the index of the word in the head passage, the repeat to issue
next, the cycle from which it may issue, whether the head passage has started, the descriptors latched at repeat 0
(R219), the SACQ in progress, the engine's end and whether it
was ever played (R50), whether a WAIT word's cycles run (R200), the passages that have retired (R71), where the repeat issued last stands (passage address,
word, repeat: R138), and the inner sums of a VDOTP in progress (R263). -/
structure Engine where
  q       : List QEntry
  widx    : Nat
  rep     : Nat
  next    : Nat
  started : Bool
  latch   : List Desc
  sacq    : Option Nat
  ended   : Bool
  played  : Bool
  waiting : Bool
  count   : Nat
  last    : Nat × Nat × Nat
  acc     : List Lane
  deriving DecidableEq, Repr

/-- An empty queue. -/
def Engine.zero : Engine :=
  { q := [], widx := 0, rep := 0, next := 0, started := false, latch := [], sacq := none,
    ended := false, played := false, waiting := false, count := 0, last := (0, 0, 0), acc := [] }

/-! ## The matrix array (R265 to R291) -/

/-- A word of a tile's history (R266). -/
structure HistEntry where
  opc  : Nat
  prof : Nat
  rtz  : Bool
  n    : Nat
  bank : Nat
  mode : Nat
  descs : List Desc
  acc  : Bool
  arg  : Nat
  deriving DecidableEq, Repr

/-- The checksums of one line of a tile: signed and absolute (R265). -/
abbrev CkLine := Lane × Lane

/-- An accumulator tile (R265). `kind` is 0 none, 1 INT, 2 FP. `xcols` and `xall` hold the expander marks of R284. -/
structure Tile where
  shape : Option (Nat × Nat)
  kind  : Nat
  elems : List (List Lane)
  rowCk : List CkLine
  colCk : List CkLine
  g     : Nat
  hist  : List HistEntry
  hovf  : Bool
  xcols : List Nat
  xall  : Bool
  deriving DecidableEq, Repr

/-- A tile with no shape (R265). -/
def Tile.zero : Tile :=
  { shape := none, kind := 0, elems := [], rowCk := [], colCk := [], g := 0, hist := [], hovf := false, xcols := [],
    xall := false }

/-- An expander bank: rank r, width E and weights; its check vectors are sums of the weights (R277). -/
structure Bank where
  r : Nat
  e : Nat
  w : List (List (BitVec 16))
  deriving DecidableEq, Repr

/-- An empty bank (R277). -/
def Bank.empty : Bank := { r := 0, e := 0, w := [] }

/-- A drain (R280, R281, R286, R289): its number, the word, the values of its descriptors A, B and C, tile, issue cycle, checksum mode,
entries per row, rows; for a channel, the channel, the entries and how many have landed, and the pauses so far; the bytes that a descriptor
drain covers; what TAINT needs (R154); whether it runs in the handler lane; and where the word stands (R138). -/
structure Drain where
  id     : Nat
  word   : MX
  descs  : List Desc
  tile   : Nat
  issue  : Nat
  mode   : Nat
  q      : Nat
  tr     : Nat
  chan   : Option Nat
  rows   : List (List Lane)
  done   : Nat
  pause  : Nat
  paused : Bool
  span   : Nat × Nat
  open_  : Bool
  taint  : Bool
  lane   : Bool
  pos    : Nat × Nat × Nat
  deriving DecidableEq, Repr

/-- A matrix word in its occupancy that reads SP1 (R270): its history entry (opcode 6 for MDRAIN), the tile, the tile as it stood before,
the expander bank, the clock at which the occupancy ends, and the bytes that it has read as they were before a write that landed since. -/
structure Reading where
  hist   : HistEntry
  tile   : Nat
  before : Tile
  bank   : Nat
  end_   : Nat
  olds   : List Piece
  deriving DecidableEq, Repr

/-- The matrix array of a core. MSTAT's fields are those of R287; CKTOL[6] to CKTOL[9] are listed in order (R285);
ERRINJ's fields are those of R291. `drain` and `laneDrain` are the last drains of the main queue and of the handler lane (R141, R281),
`reads` and `laneReads` the words in their occupancy (R270). `faultDrain` is the drain that recovery repeats (R289, R290). -/
structure Mtx where
  tiles  : List Tile
  banks  : List Bank
  ckcnt  : BitVec 16
  fixcnt : BitVec 16
  ckmin  : BitVec 2
  ckmode : BitVec 2
  flags  : BitVec 5
  cktol  : List (BitVec 6)
  eiArm  : Bool
  eiEn   : Bool
  eiTile : BitVec 2
  eiRow  : BitVec 8
  eiCol  : BitVec 8
  eiBit  : BitVec 5
  drain  : Option Drain
  faultDrain : Option Drain
  laneDrain : Option Drain := none
  reads : Option Reading := none
  laneReads : Option Reading := none
  deriving DecidableEq, Repr

/-- The matrix array at reset and launch (R265, R277, R285, R287, R291). -/
def Mtx.reset : Mtx :=
  { tiles := List.replicate 4 Tile.zero, banks := List.replicate 2 Bank.empty, ckcnt := 0, fixcnt := 0, ckmin := 0,
    ckmode := 0, flags := 0, cktol := [12, 12, 22, 22], eiArm := false, eiEn := false, eiTile := 0, eiRow := 0,
    eiCol := 0, eiBit := 0, drain := none, faultDrain := none }

/-! ## The vector engine (R17, R48, R49, R242) -/

/-- v0 to v31, the mask stack (top first), the mask-empty status after each of the last three cycles (newest first),
the VSTAT flags XO, SA, NX, UF, OF, DZ, IV, and the depth of the stack counting changes not yet landed (R250). -/
structure Vec where
  v     : List (List Lane)
  masks : List (BitVec 64)
  hist  : List Bool
  flags : BitVec 7
  deriving DecidableEq, Repr

/-- The vector engine at launch (R23). -/
def Vec.zero : Vec :=
  { v := List.replicate 32 (List.replicate 64 0), masks := [], hist := [false, false, false], flags := 0 }

/-! ## System registers of a core (R231) -/

/-- TREC[0..3] (R138). -/
structure Trec where
  cause : BitVec 8
  sub   : BitVec 8
  ds    : Bool
  lat   : Bool
  unit  : BitVec 2
  pc    : BitVec 18
  paddr : BitVec 18
  widx  : BitVec 14
  rep   : BitVec 6
  info  : Word
  gstop : Word
  deriving DecidableEq, Repr

/-- TREC after reset. -/
def Trec.zero : Trec :=
  { cause := 0, sub := 0, ds := false, lat := false, unit := 0, pc := 0, paddr := 0, widx := 0, rep := 0, info := 0,
    gstop := 0 }

/-- TFREC (R153). -/
structure Tfrec where
  valid : Bool
  taint : Bool
  rb    : Bool
  tile  : BitVec 2
  prof  : BitVec 3
  ckr   : BitVec 4
  fmt   : BitVec 4
  nrow  : BitVec 8
  ncol  : BitVec 8
  sgrp  : BitVec 8
  sslot : BitVec 6
  srow  : BitVec 7
  rows  : BitVec 128
  cols  : BitVec 128
  deriving DecidableEq, Repr

/-- TFREC after reset. -/
def Tfrec.zero : Tfrec :=
  { valid := false, taint := false, rb := false, tile := 0, prof := 0, ckr := 0, fmt := 0, nrow := 0, ncol := 0,
    sgrp := 0, sslot := 0, srow := 0, rows := 0, cols := 0 }

/-- SCHEDMODE (R42), DETMODE (R165), PREEMPT (R158), PHSTAT (R146). -/
structure Modes where
  misscnt  : BitVec 16
  late     : Bool
  miss     : Bool
  trapMode : Bool
  dreads   : BitVec 16
  detEn    : Bool
  pdl      : BitVec 32
  ybad     : Bool
  forced   : Bool
  yieldreq : Bool
  rcnt     : BitVec 4
  retrymax : BitVec 4
  noretry  : Bool
  cancel   : Bool
  refuse   : Bool
  chkint   : Bool
  phase    : BitVec 32
  deriving DecidableEq, Repr

/-- PROMO (R100), NPROF (R105), HCTL (R140), GATHER (R306), GSTAT (R310), LSEL (R116). -/
structure Params where
  cfgclamp : Bool
  n8       : BitVec 12
  n4       : BitVec 12
  allow    : BitVec 5
  def_     : BitVec 3
  hmask    : BitVec 32
  hentry   : BitVec 18
  xu       : BitVec 16
  ts       : BitVec 8
  strict   : Bool
  oobs     : Bool
  oob      : BitVec 32
  lsel     : BitVec 6
  deriving DecidableEq, Repr

/-- Modes at reset, with the capsule's defaults for PDL and RETRYMAX (R421). -/
def Modes.reset : Modes :=
  { misscnt := 0, late := false, miss := false, trapMode := false, dreads := 0, detEn := false, pdl := 2000000,
    ybad := false, forced := false, yieldreq := false, rcnt := 0, retrymax := 2, noretry := false, cancel := false,
    refuse := false, chkint := false, phase := 0 }

/-- Parameters at reset (R100, R105). -/
def Params.reset : Params :=
  { cfgclamp := false, n8 := 512, n4 := 2048, allow := 31, def_ := 0, hmask := 0, hentry := 0, xu := 0, ts := 0,
    strict := false, oobs := false, oob := 0, lsel := 0 }

/-! ## The entry snapshot and held stores -/

/-- The entry snapshot of R149; `ends` tells which engines had reached their end (R50). -/
structure Snapshot where
  regs  : List Word
  pc    : BitVec 18
  ptReg : Option Nat
  descs : List Desc
  chmap : List Word
  masks : List (BitVec 64)
  vflags : BitVec 7
  mstat : Mtx
  modes : Modes
  params : Params
  ends  : List Bool
  deriving DecidableEq, Repr

/-- A held PHASED store (R305): the pieces with their targets (0 HBM, 1 host, 2 peer), the names under which bound
regions know them (R79), the space it takes, and its class (R301). -/
structure Held where
  ps    : List (Nat × Piece)
  names : List (Nat × Nat × Nat)
  size  : Nat
  cls   : Nat := 0
  deriving DecidableEq, Repr

/-! ## A core -/

/-- How a stopped member came to stop (R29, R30). `slotDue` says that a delay slot still issues at the stop cycle
(R136); `source` that it is a source; `await` what a STALL source waits for; `until_` the normalised tide cycle at
which the member resumes, once the release has been picked (R32); `stall` whether the hold then released was one for a schedule
miss (R236). -/
structure Stop where
  slotDue : Bool
  source  : Bool
  await   : Option Await
  until_  : Option Nat
  stall   : Bool := false
  deriving DecidableEq, Repr

/-- The run of a member (R26, R233, R234): the berth it runs in, its member number, its hop count, gang time, cycles
held in all and in this hold, why it is stopped, whether it has started, its combiner cycle, the late-error and
data-borne marks of R137 and R155, the STATE of CSTAT when no gang runs, whether a retry makes it wait (R151), and whether an error met
while a release wave was on its way holds the gang when the wave comes (R155). -/
structure Run where
  berth   : Option Nat
  member  : Nat
  hop     : Nat
  started : Bool
  g       : Nat
  held    : Nat
  heldAll : Nat
  stop    : Option Stop
  fired   : Option Nat
  dborne  : Bool
  halted  : Bool
  poisoned : Bool
  usesp2  : Bool
  seqNo   : BitVec 32
  stream  : BitVec 8
  group   : BitVec 8
  errDue  : Bool := false
  deriving DecidableEq, Repr

/-- A core that runs nothing. -/
def Run.idle : Run :=
  { berth := none, member := 0, hop := 0, started := false, g := 0, held := 0, heldAll := 0, stop := none,
    fired := none, dborne := false, halted := false, poisoned := false, usesp2 := false, seqNo := 0, stream := 0,
    group := 0 }

/-- A pinned range waiting to be unpinned (R71): the pins and the passages (unit and count of entries played by then)
that must retire. -/
structure Unpin where
  pins : List Pin
  deps : List (Nat × Nat)
  deriving DecidableEq, Repr

/-- An MFBUILD in progress on a core (R319, R320): the effect that its manifest is, the word, the layer slot and the change
map latched at its issue with the poisoned cells of the map, the address of the directory entry and the read of it, whether it
runs in the handler lane, whether the check at its cycle e has been made, the entry then read, the physical runs of the state array
and the side tables, the c8 entries it has reserved, the phase it was issued in, and whether its manifest is still to be written: a
cancelled phase discards one bound for a shadow bank (R47, R323). -/
structure Build where
  id    : Nat
  word  : DX
  slot  : List Word
  map   : List Byte
  cells : List Nat
  dirVa : Nat
  read  : Nat
  lane  : Bool
  checked : Bool
  dir   : List Byte
  runs  : List (Nat × Nat × Nat)
  feed  : Nat
  phase : Nat := 0
  write : Bool := true
  deriving DecidableEq, Repr

/-- A data-engine repeat's groups at the shared SP1 port (R343): the effect whose landing they end at (0 for reads), whether a delay lengthens
the data queue's occupancy, each group's gang cycle and banks, and the effects (core, effect) that a delay moves too: what the repeat writes
from what it reads (R344). -/
structure DPort where
  id     : Nat
  own    : Bool
  groups : List (Nat × List Nat)
  also   : List (Nat × Nat) := []
  deriving DecidableEq, Repr

/-- The shared SP1 port of a core as the main queues or the handler lanes use it (R141, R342 to R344): the cycles (of gang time, or of the tide)
with the banks that vector repeats use, and the data engine's groups. -/
structure Ports where
  vec  : List (Nat × List Nat)
  data : List DPort
  deriving DecidableEq, Repr

/-- The memories of a core: SP1 with its poisoned granules, score memory with its poisoned lines, the held-store
buffer (R17, R57, R137). -/
structure CoreMem where
  sp1      : Memory
  sp1Poi   : List Nat
  score    : Memory
  scorePoi : List Nat
  held     : List Held
  deriving DecidableEq, Repr

/-- A data repeat in its occupancy that reads scratchpads (R298): the queue, the descriptors, c8 and the parameters as the repeat found them; its
issue cycle; the numbers of the effects and operations that it made, and the place of its held stores; its first free value; the clock at which the
occupancy ends; where its source elements lie (level, address, bytes, whether a byte holds two); these bytes as they were last seen and as they are
read; and, by level, the bytes that the word has read once and for all as it issued: its indices, and what stands beside an INT4 element (R308; log 23). -/
structure DataRead where
  eng    : Engine
  descs  : List Desc
  c8     : Chan
  params : Params
  since  : Nat
  ids    : Nat × Nat
  held   : Nat × Nat
  free0  : Nat
  end_   : Nat
  places : List (Nat × Nat × Nat × Bool)
  seen   : List Piece
  reads  : List Piece
  fixed  : List (Nat × Piece) := []
  deriving DecidableEq, Repr

/-- A write of one of a core's own units that has landed in its present gang cycle (R261): the unit, the name, the level, the bytes (address,
length). -/
structure Landed where
  unit : Nat
  id   : Nat
  lvl  : Nat
  runs : List (Nat × Nat)
  deriving DecidableEq, Repr

/-- A compute core (R17). `engs` and `lanes` list vector, matrix, data; `dread` and `laneDread` are the data repeats in their occupancy (R298);
`fences` lists for each queue (sequencer, vector, matrix, data) the operations that a QFENCE or AFENCE puts before its later ones (R77, R317);
`lanePorts` is the SP1 port as the handler lanes use it (R141, R344), `landed` lists the writes of its units that have landed in its present gang
cycle (R261). -/
structure Core where
  run    : Run
  seq    : SeqCtx
  sh     : SeqCtx
  hnd    : Handler
  vec    : Vec
  mtx    : Mtx
  descs  : List Desc
  chmap  : List Word
  chans  : List Chan
  engs   : List Engine
  lanes  : List Engine
  modes  : Modes
  params : Params
  trec   : Trec
  tfrec  : Tfrec
  perf   : List Word
  mem    : CoreMem
  snap   : Option Snapshot
  pend   : List Pend
  fences : List (List Nat)
  unpins : List Unpin
  builds : List Build
  ports  : Ports
  dread  : Option DataRead := none
  laneDread : Option DataRead := none
  landed : List Landed := []
  lanePorts : Ports := { vec := [], data := [] }
  deriving DecidableEq, Repr

/-- A core at reset: the registers marked launch or image hold the values of a launch without image (log 4). -/
def Core.reset : Core :=
  { run := Run.idle, seq := SeqCtx.zero, sh := SeqCtx.zero, hnd := Handler.idle, vec := Vec.zero, mtx := Mtx.reset,
    descs := List.replicate 16 Desc.zero, chmap := List.replicate 23 0, chans := List.replicate 32 Chan.empty,
    engs := List.replicate 3 Engine.zero, lanes := List.replicate 3 Engine.zero, modes := Modes.reset,
    params := Params.reset, trec := Trec.zero, tfrec := Tfrec.zero, perf := List.replicate 8 0,
    mem := { sp1 := [], sp1Poi := [], score := [], scorePoi := [], held := [] }, snap := none, pend := [],
    fences := List.replicate 4 [], unpins := [], builds := [], ports := { vec := [], data := [] } }

/-! ## Gangs -/

/-- A source of a hold (R29): its core, its stop in normalised and in actual tide cycles, its cause (0 fault, 1 STALL
miss, 2 forced save, 3 Pilot), and the actual tide cycle at which its condition ended (R32). -/
structure HoldSrc where
  core  : Nat
  stopN : Nat
  stopA : Nat
  cause : Nat
  ended : Option Nat
  deriving DecidableEq, Repr

/-- A hold (R29 to R32): its sources, the members that a wave has yet to reach with its arrival, a rollback requested
(R142, R155), and whether RCNT counts it (R151, R154). -/
structure HoldRec where
  srcs  : List HoldSrc
  waves : List (Nat × Nat)
  rb    : Bool
  rbCount : Bool
  deriving DecidableEq, Repr

/-- A gang (R20 to R27), by berth: its members and origin, its start `t0` on the normalised tide, its hold, the gang cycle `y` at which YIELDREQ
becomes visible (R158), whether a forced save has left YIELDREQ set (R159, R161), the saves made (R160), the SP3 region and image digest of its
launch (R361, R387), and whether it has been retried (R437), and whether a Pilot hold waits until the release wave under way has reached the
origin (R29; log 61). -/
structure Gang where
  berth   : Nat
  members : List Nat
  origin  : Nat
  t0      : Nat
  started : Bool
  hold    : Option HoldRec
  y       : Option Nat
  asked   : Bool
  nsave   : Nat
  yielded : Bool
  forced  : Bool
  clamped : Bool
  saveReq : Bool
  saveAt  : Nat
  startedAt : Nat
  sp3lo   : Nat
  sp3len  : Nat
  digest  : List Byte
  retried : Bool := false
  holdAsked : Bool := false
  yieldAsked : Bool := false
  deriving DecidableEq, Repr

/-- What a save keeps of one member (R160, R161): its core, the layer-slot words that the Pilot firmware keeps for it, the presets of its
cluster among them (R133), and the SP1 regions written (start, length). -/
structure SavedMember where
  core  : Core
  slots : List (Nat × List Word)
  sp1s  : List (Nat × Nat)
  deriving DecidableEq, Repr

/-! ## Homes and global order -/

/-- What an operation does at its home (R75 to R83, R315). -/
inductive GKind where
  /-- Pieces written, each with its target (0 HBM, 1 host, 2 peer). -/
  | write (ps : List (Nat × Piece))
  /-- Runs read: target, address, length. -/
  | read (rs : List (Nat × Nat × Nat))
  /-- A release of the sync object at an address (target 3: SP3). -/
  | srel (tgt addr : Nat)
  | wait (tgt addr : Nat) (v : Word)
  | atomic (tgt addr op size operand compare : Nat) (rel : Bool)
  | walk
  deriving DecidableEq, Repr

/-- An operation of a queue that its home has not performed (R75): its queue (core and unit; core 24 and above are
other parties), the operations that must be performed first (R76, R77, R78), the free tide cycle from which the home
may perform it, whether it is performed, with what it read, whether a wait is armed (R82; for a release:
whether the part also waits for writes to unbound regions, R80), whether a handler issued it (R142), the names under which
its bytes were written (0 device virtual address or 1 SP3 offset, start, length), which bindings refer to (R79), and its class at a
memory controller and at the PCIe link (R301). -/
structure GOp where
  id    : Nat
  core  : Nat
  unit  : Nat
  kind  : GKind
  deps  : List Nat
  due   : Nat
  done  : Bool
  data  : List Piece
  armed : Bool
  lane  : Bool
  names : List (Nat × Nat × Nat)
  cls   : Nat := 0
  deriving DecidableEq, Repr

/-- An SP2 or SP3 write that has landed and that some members may not yet see (R73): its name, the operations that must be performed before other
gangs see it (R77, R201), the level, the cluster (0 for SP3), the writer, its berth, the landing cycle in the writer's gang time, the bytes, the
queue that wrote it (4 for none), the tide cycle from which the homes and other gangs see it (R75; free, log 8), and the members that have
acquired it (R81). -/
structure SpWrite where
  id     : Nat
  deps   : List Nat
  lvl    : Nat
  unit   : Nat
  writer : Nat
  berth  : Nat
  land   : Nat
  ps     : List Piece
  queue  : Nat := 4
  due    : Nat := 0
  seen   : List Nat := []
  deriving DecidableEq, Repr

/-- A read of SP3 that is to be performed after operations which a fence of its queue names, or after the queue's own on the same bytes (R76,
R77, R201): the name of the read at the home, its core, whether the shadow context or a handler lane made it, its unit (0 sequencer), the instruction or
word, the core as the word found it, the tide cycle then, the place of its held stores, and its
first free value. What it made waits for it: `made` lists the effects and operations with its bytes, `chk` the marks of CHKINT (R145). -/
structure LateRead where
  id    : Nat
  core  : Nat
  lane  : Bool
  unit  : Nat
  instr : Instr
  me    : Core
  tide  : Nat
  made  : List Nat
  chk   : List Nat
  held  : Nat × Nat
  free0 : Nat
  deriving DecidableEq, Repr

/-- A window of a member's SP2 as a save keeps it (R160, R162): member, start, length, bytes from 0, and the marked granules of the level. -/
structure SavedWin where
  member : Nat
  start  : Nat
  len    : Nat
  bytes  : Memory
  marks  : List Nat
  deriving DecidableEq, Repr

/-- What bytes 0 to 0xF_FFFF of the blocks of a save area hold (R160 to R162, R387; log 10): the number that the blocks name it by, the
area it was written to, its members in order, the SP2 windows of each, the armed waits with the
member in place of the core (R82), and the rollback that a handler has asked for and the release that the save replaced would have made,
with whether RCNT counts it (R142, R163). -/
structure Saved where
  num    : Nat
  savepa : Nat
  kind   : Nat
  gcyc   : Nat
  gang   : Gang
  mems   : List SavedMember
  sp2    : List SavedWin
  ops    : List GOp
  rb     : Option Bool := none
  deriving DecidableEq, Repr

/-! ## Scheduler (R362 to R388) -/

/-- A bind record (R378). -/
structure Bind where
  state   : BitVec 2
  restore : Bool
  group   : BitVec 8
  stream  : BitVec 8
  members : BitVec 5
  seq     : BitVec 32
  imgpa   : BitVec 52
  xroot   : BitVec 40
  savepa  : BitVec 40
  cplpa   : BitVec 47
  cphase  : Bool
  runlim  : BitVec 48
  token   : BitVec 32
  frameno : BitVec 32
  t0      : Word
  savecyc : BitVec 32
  reason  : BitVec 8
  cflags  : BitVec 8
  end_    : BitVec 2
  restcyc : BitVec 32
  args    : List Word
  deriving DecidableEq, Repr

/-- A free bind record. -/
def Bind.zero : Bind :=
  { state := 0, restore := false, group := 0, stream := 0, members := 0, seq := 0, imgpa := 0, xroot := 0, savepa := 0,
    cplpa := 0, cphase := false, runlim := 0, token := 0, frameno := 0, t0 := 0, savecyc := 0, reason := 0, cflags := 0,
    end_ := 0, restcyc := 0, args := List.replicate 16 0 }

/-- The ring fields of a queue context (R363, words 0 to 4). -/
structure QRing where
  state  : BitVec 2
  rlog2  : BitVec 4
  rbase  : BitVec 48
  tail   : BitVec 17
  tailerr : Bool
  head   : BitVec 17
  crlog2 : BitVec 4
  crbase : BitVec 48
  crhead : BitVec 17
  crtail : BitVec 17
  qxroot : BitVec 40
  deriving DecidableEq, Repr

/-- The policy and fault fields of a queue context (R363, words 5 to 15). -/
structure QPolicy where
  coalt  : BitVec 8
  coaln  : BitVec 8
  irqen  : Bool
  vec    : BitVec 10
  owner  : Bool
  invw   : BitVec 16
  weight : BitVec 8
  cls    : BitVec 2
  sslog2 : BitVec 6
  sslots : BitVec 6
  savebase : BitVec 40
  fcode  : BitVec 8
  fdepth : BitVec 3
  qstate : BitVec 32
  faddr  : BitVec 48
  iidx   : List (BitVec 16)
  istart : List (BitVec 48)
  deriving DecidableEq, Repr

/-- A reserved completion slot (R368, R381): its index, its translated target and physical address, whether its
record has been written, whether it belongs to a FRAME, and that FRAME's IRQ flag (R367). -/
structure Resv where
  idx   : Nat
  tgt   : Nat
  pa    : Nat
  wrote : Bool
  isFrame : Bool
  irq   : Bool
  deriving DecidableEq, Repr

/-- The run-time state of a queue: open levels with their counts and translated starts (R370), reservations (R368),
a WAITV in force (R366), MARKs that wait with the FRAME reservations they wait for (R366), completions unreported and the tide of the first (R383),
the rank last inserted (R374), the save slots held (R387), and the TAIL writes whose packets are not all fetched: the
TAIL, and the tide cycle of the write (R436). -/
structure QRun where
  counts : List Nat
  resv   : List Resv
  nresv  : Nat
  waitv  : Option (Nat × Nat × Word)
  marks  : List (Nat × BitVec 32 × List Nat)
  unrep  : Nat
  firstN : Nat
  last   : Option (BitVec 32)
  slots  : List (Nat × Nat)
  tails  : List (Nat × Nat) := []
  deriving DecidableEq, Repr

/-- A queue: its context and its run-time state. -/
structure Queue where
  ring : QRing
  pol  : QPolicy
  run  : QRun
  deriving DecidableEq, Repr

/-- A queue at reset (R363). -/
def Queue.reset : Queue :=
  { ring := { state := 0, rlog2 := 0, rbase := 0, tail := 0, tailerr := false, head := 0, crlog2 := 0, crbase := 0,
              crhead := 0, crtail := 0, qxroot := 0 },
    pol := { coalt := 0, coaln := 0, irqen := false, vec := 0, owner := false, invw := 0, weight := 0, cls := 0,
             sslog2 := 0, sslots := 0, savebase := 0, fcode := 0, fdepth := 0, qstate := 0, faddr := 0,
             iidx := List.replicate 4 0, istart := List.replicate 4 0 },
    run := { counts := List.replicate 4 0, resv := [], nresv := 0, waitv := none, marks := [], unrep := 0, firstN := 0,
             last := none, slots := [] } }

/-- A FRAME in the packet store (R367): its queue, the 64 bytes of the packet, its arguments, its completion slot, the rank program that
ran when it reached the rank engine (R373), and the tide cycle of the TAIL write that covers it: none
where its queue's ring lies in host memory, or it is SERIAL with FRAMEs behind it (R436, R437). -/
structure Frame where
  queue : Nat
  bytes : List Byte
  args  : List Word
  slot  : Nat
  prog  : List (BitVec 32) := []
  tailed : Option Nat := none
  deriving DecidableEq, Repr

/-- An entry of the PIFO (R375). -/
structure PifoEntry where
  rank  : BitVec 32
  frame : Frame
  arr   : BitVec 32
  deriving DecidableEq, Repr

/-- The rank engine (R372, R373): the staged and the running program, the FRAMEs waiting, the FRAME being ranked with
its registers, slot, QSTATE to store, result, and the tide cycle of its next instruction. -/
structure RankEngine where
  staged  : List (BitVec 32)
  prog    : List (BitVec 32)
  wait    : List Frame
  cur     : Option Frame
  curProg : List (BitVec 32)
  q       : List (BitVec 32)
  slot    : Nat
  stq     : Option (BitVec 32)
  result  : Option (BitVec 32)
  next    : Nat
  arrivals : BitVec 32
  lderr   : Bool
  deriving DecidableEq, Repr

/-- The rank engine at reset (R373). -/
def RankEngine.reset : RankEngine :=
  { staged := List.replicate 16 0, prog := List.replicate 16 0, wait := [], cur := none,
    curProg := List.replicate 16 0, q := List.replicate 8 0, slot := 0, stq := none, result := none, next := 0, arrivals := 0,
    lderr := false }

/-- A save under way (R378, R379): its berth, the tide cycle at which it began and a free one at which it ends, and its area. -/
structure Saving where
  berth  : Nat
  from_  : Nat
  due    : Nat
  savepa : Nat
  deriving DecidableEq, Repr

/-- The scheduler block (R362, R384): registers, group table (VALID, CORES), berth table, queue table, PIFO, fetchers
(queue to visit next, tide of the next fetch), and the saves under way. -/
structure Sched where
  slice   : List (BitVec 32)
  runlim  : List (BitVec 48)
  classw  : List (BitVec 8)
  savecost : BitVec 32
  gterr   : Bool
  clamp   : BitVec 4
  vnow    : BitVec 30
  classen : BitVec 4
  failed  : BitVec 24
  groups  : List (Bool × BitVec 24)
  berths  : List Bind
  queues  : List Queue
  pifo    : List PifoEntry
  fetch   : List (Nat × Nat)
  rank    : RankEngine
  saving  : List Saving := []
  deriving DecidableEq, Repr

/-- The scheduler block at reset, with the capsule's defaults (R384, R421). -/
def Sched.reset : Sched :=
  { slice := List.replicate 4 1900000, runlim := List.replicate 4 0, classw := List.replicate 4 1, savecost := 0,
    gterr := false, clamp := 0, vnow := 0, classen := 15, failed := 0, groups := List.replicate 256 (false, 0),
    berths := List.replicate 32 Bind.zero, queues := List.replicate 256 Queue.reset, pifo := [],
    fetch := [(0, 0), (32, 0), (64, 0), (96, 0), (128, 0), (160, 0), (192, 0), (224, 0)], rank := RankEngine.reset }

/-! ## The Pilot complex (R392 to R401) -/

/-- A QWAIT in progress (R397): rd, mask, deadline in tide cycles (0 none). -/
structure QWaiting where
  rd    : Nat
  mask  : Word
  limit : Nat
  deriving DecidableEq, Repr

/-- A Pilot core: its registers, its pc, its mode and the machine-mode registers of the privileged architecture (log 12), SIGPEND (R397),
the wait in progress, whether it executes instructions of its own from the Pilot SRAM, and the tide cycle of its next one
(log 11, log 12). -/
structure PilotCore where
  x       : List Word
  pc      : Word
  mode    : BitVec 2
  mcause  : Word
  mtval   : Word
  mepc    : Word
  mtvec   : Word
  mstatus : Word
  mscratch : Word := 0
  mie     : Word := 0
  mcounteren : BitVec 32 := 0
  mcycle  : Word := 0
  minstret : Word := 0
  sigpend : Word
  wait    : Option QWaiting
  running : Bool
  next    : Nat
  deriving DecidableEq, Repr

/-- A Pilot core at reset (log 12). -/
def PilotCore.reset : PilotCore :=
  { x := List.replicate 32 0, pc := 0, mode := 3, mcause := 0, mtval := 0, mepc := 0, mtvec := 0, mstatus := 0, sigpend := 0,
    wait := none, running := false, next := 0 }

/-- A mailbox (R400); `clash` marks a request that was written while DOORBELL or BUSY was set. -/
structure Mailbox where
  req   : List Byte
  resp  : List Byte
  door  : Bool
  busy  : Bool
  done  : Bool
  clash : Bool
  owner : Bool
  vec   : BitVec 10
  deriving DecidableEq, Repr

/-- A popped FRAME that the Pilot firmware has yet to place (R380), with its rank, QXROOT at the pop and the tide cycle, within 50 µs of the pop, at which
the firmware places it once it can. -/
structure Popped where
  frame : Frame
  rank  : BitVec 32
  xroot : BitVec 40
  due   : Nat
  deriving DecidableEq, Repr

/-- What the Pilot firmware keeps (R374, R380, R385, R387, R388; log 11): FRAMEs being placed, the launch sequence number, the bind
records of saved gangs by save area, the ranks of bound FRAMEs by SEQ, class deficits and the tide cycle at which they next grow, the
sums of the last save and restore costs, whether it takes FRAMEs, mailboxes whose response is written, a VNOW to be
written, the classes whose CLASSEN bit it has cleared, the tide cycle from which it acts again, the pages (by key) whose invalidation
has begun and is not complete (R71), and the tide cycle of the TAIL write that covered each bound FRAME, by SEQ (R436). -/
structure Firmware where
  popped  : List Popped
  seq     : BitVec 32
  savedFrames : List (Nat × Bind)
  ranks   : List (BitVec 32 × BitVec 32)
  deficit : List Int
  share   : Nat
  costs   : List Nat
  taking  : Bool
  serving : List Nat
  vnow    : Option (BitVec 30)
  off     : BitVec 4
  ready   : Nat
  inval   : List Nat := []
  tails   : List (BitVec 32 × Nat) := []
  deriving DecidableEq, Repr

/-- The Pilot complex: cores, the Pilot SRAM by physical address, mailboxes, the fault post ring (core and the 64 bytes), posts that
wait in their cores, posts that a QFETCH has taken and FRESP has not answered, firmware. -/
structure Pilot where
  cores : List PilotCore
  sram  : Memory
  mbox  : List Mailbox
  posts : List (Nat × List Byte)
  waiting : List (Nat × List Byte)
  out   : List (Nat × List Byte)
  fw    : Firmware
  deriving DecidableEq, Repr

/-- The Pilot complex at reset; mailboxes 8 to 15 belong to the external host (R421). -/
def Pilot.reset : Pilot :=
  { cores := List.replicate 4 PilotCore.reset, sram := [],
    mbox := List.replicate 8 { req := [], resp := [], door := false, busy := false, done := false, clash := false, owner := false, vec := 0 }
      ++ List.replicate 8 { req := [], resp := [], door := false, busy := false, done := false, clash := false, owner := true, vec := 0 },
    posts := [], waiting := [], out := [],
    fw := { popped := [], seq := 0, savedFrames := [], ranks := [], deficit := [0, 0, 0, 0], share := 1900000, costs := [],
            taking := true, serving := [], vnow := none, off := 0, ready := 0 } }

/-! ## Host interface, network, decoders (R402 to R415) -/

/-- A grant window (R405). -/
structure Grant where
  valid : Bool
  w     : Bool
  base  : BitVec 36
  limit : BitVec 36
  deriving DecidableEq, Repr

/-- An inbound window (R408). -/
structure PeerWin where
  valid  : Bool
  rd     : Bool
  w      : Bool
  anyrid : Bool
  space  : Bool
  rid    : BitVec 16
  base   : BitVec 32
  count  : BitVec 32
  deriving DecidableEq, Repr

/-- What the part has sent out (R382, R383, R389, R405, R408): completions of reads, Unsupported Requests, access
faults of a hart, interrupts, responses, sensor reports (number, value, and 0 normal, 1 warning or 2 critical; R426), frames. The model's own
record of its outputs. -/
inductive Out where
  | data (bytes : List Byte) (poisoned : Bool)
  | unsupported
  | accessFault (hart mcause : Nat)
  | irq (owner : Bool) (vec : Nat)
  | frame (port : Nat) (bytes : List Byte)
  | response (bytes : List Byte)
  | sensor (number : Nat) (value : Int) (state : Nat)
  | dropped
  deriving DecidableEq, Repr

/-- One descriptor ring of an Ethernet port (R411; layout of log 13). -/
structure EthRing where
  base : Nat
  size : Nat
  prod : Nat
  cons : Nat
  deriving DecidableEq, Repr

/-- An Ethernet port: link state, four receive and four transmit rings (R411). -/
structure EthPort where
  up : Bool
  rx : List EthRing
  tx : List EthRing
  deriving DecidableEq, Repr

/-- The PTP clock (R412): SEC, NS, the fraction, INCR, and the captures. -/
structure Ptp where
  sec  : BitVec 48
  ns   : BitVec 30
  frac : BitVec 32
  incr : BitVec 40
  xtstide : Word
  xtsptp  : Word
  deriving DecidableEq, Repr

/-- A decoder engine's registers (R413), whether it waits for an output slot (R414), and the tide cycle of its next command. -/
structure DecEng where
  ringbase : Word
  tail     : BitVec 8
  head     : BitVec 8
  run      : Bool
  err      : Bool
  blocked  : Bool
  due      : Nat
  deriving DecidableEq, Repr

/-- A decoder context: its 64 bytes (R413), the number of the next output frame, the frames held with PTS and TOKEN, and how many of
them are to be emitted now (R414). -/
structure DecCtx where
  bytes : List Byte
  out   : Nat
  held  : List (Word × Word)
  emit  : Nat
  deriving DecidableEq, Repr

/-- A host core, a hart of RV64GC with Zba, Zbb and Zbs in machine, supervisor and user mode (R402; log 98): its integer and floating
registers, pc, mode (3 machine, 1 supervisor, 0 user), fcsr, the control and status registers that hold something, its incoming interrupt
file for supervisor mode (pending and enabled identities, delivery, threshold), whether it executes, and the tide cycle of its next
instruction. -/
structure Hart where
  x        : List Word := List.replicate 32 0
  f        : List Word := List.replicate 32 0
  pc       : Word := 0
  mode     : BitVec 2 := 3
  fcsr     : BitVec 8 := 0
  mstatus  : Word := 0
  medeleg  : Word := 0
  mideleg  : Word := 0
  mie      : Word := 0
  mip      : Word := 0
  mtvec    : Word := 0
  mcounteren : BitVec 32 := 0
  mscratch : Word := 0
  mepc     : Word := 0
  mcause   : Word := 0
  mtval    : Word := 0
  miselect : Word := 0
  mcycle   : Word := 0
  minstret : Word := 0
  stvec    : Word := 0
  scounteren : BitVec 32 := 0
  sscratch : Word := 0
  sepc     : Word := 0
  scause   : Word := 0
  stval    : Word := 0
  satp     : Word := 0
  siselect : Word := 0
  eip      : BitVec 1024 := 0
  eie      : BitVec 1024 := 0
  deliver  : Bool := false
  threshold : BitVec 10 := 0
  running  : Bool := false
  next     : Nat := 0
  deriving DecidableEq, Repr

/-- The I/O die: windows, clocks, network, decoders, the MSI-X table by word and its pending vectors, the host cores (R389 to R415), and
what the part has sent out. -/
structure Io where
  obbase : Word
  grants : List Grant
  peers  : List PeerWin
  hostBase : Nat
  hostLen  : Nat
  ptp    : Ptp
  eth    : List EthPort
  dec    : List DecEng
  ctx    : List DecCtx
  msix   : List (Nat × Word)
  pendIrq : List Nat
  outs   : List Out
  harts  : List Hart := List.replicate 8 {}
  deriving DecidableEq, Repr

/-- The I/O die at reset (R421; log 19). -/
def Io.reset : Io :=
  { obbase := 0, grants := List.replicate 8 { valid := false, w := false, base := 0, limit := 0 },
    peers := { valid := true, rd := true, w := true, anyrid := true, space := false, rid := 0, base := 0,
               count := 0x2000000 } ::
             List.replicate 7 { valid := false, rd := false, w := false, anyrid := false, space := false, rid := 0,
                                base := 0, count := 0 },
    hostBase := 0x1400000000, hostLen := 0x400000000,
    ptp := { sec := 0, ns := 0, frac := 0, incr := 0, xtstide := 0, xtsptp := 0 },
    eth := List.replicate 2 { up := false, rx := List.replicate 4 { base := 0, size := 0, prod := 0, cons := 0 },
                              tx := List.replicate 4 { base := 0, size := 0, prod := 0, cons := 0 } },
    dec := List.replicate 16 { ringbase := 0, tail := 0, head := 0, run := false, err := false, blocked := false, due := 0 },
    ctx := List.replicate 256 { bytes := [], out := 0, held := [], emit := 0 }, msix := [], pendIrq := [], outs := [] }

/-! ## Boot and fleet operation (R416 to R437) -/

/-- An entry of the RAS log (R428), whether a RAS_READ has returned it, and the tide cycle at which its writer writes its SEQ at last (R429). -/
structure RasEntry where
  seq   : Nat
  tide  : Nat
  cls   : Nat
  sev   : Nat
  core  : Nat
  berth : Nat
  code  : Nat
  addr  : Nat
  data  : List Byte
  read  : Bool
  ready : Nat := 0
  deriving DecidableEq, Repr

/-- A self-test (R430): its level (0 none), the mailbox that waits for the verdict, the lamp of R431
(0 green, 1 green blinking, 2 amber, 3 red, 4 red blinking), the cores that have yet to run the built-in timetable, the decoder engines that
have yet to decode golden access units, the cores that run the timetable, and the tide cycle at which these end. -/
structure SelfTest where
  level : Nat
  mbox  : Option Nat
  lamp  : Nat
  todo  : List Nat := []
  decs  : List Nat := []
  on    : List Nat := []
  due   : Nat := 0
  deriving DecidableEq, Repr

/-- The capsule values in force (R421). -/
structure Capsule where
  retrymax : BitVec 4
  pdl      : BitVec 32
  ckmin    : BitVec 2
  errinjEn : Bool
  slice    : List (BitVec 32)
  runlim   : List (BitVec 48)
  classw   : List (BitVec 8)
  hostBase : Nat
  hostLen  : Nat
  peers    : List PeerWin
  owners   : BitVec 16
  cap      : Nat
  deriving DecidableEq, Repr

/-- The defaults of R421. -/
def Capsule.default_ : Capsule :=
  { retrymax := 2, pdl := 2000000, ckmin := 0, errinjEn := false, slice := List.replicate 4 1900000,
    runlim := List.replicate 4 0, classw := List.replicate 4 1, hostBase := 0x1400000000, hostLen := 0x400000000,
    peers := Io.reset.peers, owners := 0xFF00, cap := 200 }

/-- An update that is being transferred (R420, R432): whether it is a capsule, its bytes, and the tide cycle at which the transfer ends. -/
structure Update where
  capsule : Bool
  bytes   : List Byte
  due     : Nat
  deriving DecidableEq, Repr

/-- Boot and fleet state: whether the boot ROM has run since reset, recovery, the booted slot and its SVN,
CAPSULE_FAIL, flash and counters, the capsule in force and the hash of its owner's key, whether the image in the slot that did not boot
has been written and verified, the alias key, the end of the challenge in progress, self-test, RAS log, power cap, compute clock in MHz,
whether the compute die is on, the berths held for the power cap, the sensors, what the part has yet to do about them (2: heat and power, 1: power,
0: nothing), the update in transfer, the compute clock's changes (tide cycle, MHz; newest first), and the tide cycles of the completions
over the bound of class 0 (R437). -/
structure Fleet where
  booted  : Bool
  recovery : Bool
  slot    : Nat
  svn     : Nat
  capFail : Bool
  flash   : Memory
  ctr0    : Nat
  ctr1    : Nat
  capsule : Capsule
  ownerKey : List Byte
  verified : Bool
  alias_  : List Byte
  answer  : Option (Nat × List Byte) := none
  test    : SelfTest
  ras     : List RasEntry
  head    : Nat
  lost    : Nat
  cap     : Nat
  clock   : Nat
  dieOn   : Bool
  heldBy  : List Nat
  sensors : List Int
  fresh   : Nat
  update  : Option Update := none
  clocks  : List (Nat × Nat) := [(0, 1900)]
  lates   : List Nat := []
  memErrs : List Nat := []
  voidTo  : Nat := 0
  deriving DecidableEq, Repr

/-- Fleet state at reset with an empty flash (log 18). -/
def Fleet.reset : Fleet :=
  { booted := false, recovery := false, slot := 0, svn := 0, capFail := false, flash := [], ctr0 := 0, ctr1 := 0,
    capsule := Capsule.default_, ownerKey := [], verified := false, alias_ := [],
    test := { level := 0, mbox := none, lamp := 0 }, ras := [], head := 1, lost := 0, cap := 200, clock := 1900,
    dieOn := true, heldBy := [], sensors := List.replicate 8 0, fresh := 0 }

/-! ## The whole part -/

/-- A manifest builder: the 64 slots of its cluster (four words each, R115), the calls that wait (the actual tide
cycle of their e, core and MFBUILD), the call in service, and the actual tide cycle at which the last one ended (R128, R320). -/
structure Builder where
  slots : List (List Word)
  calls : List (Nat × Nat × Nat)
  busy  : Option (Nat × Nat)
  freeAt : Nat := 0
  deriving DecidableEq, Repr

/-- The agent of the step being taken and what the step concerns: the core, whether its shadow context or a handler
lane acts, the engine, the number of the object of an event (berth, queue, operation, mailbox, decoder engine, cluster
or Pilot core), and the party that makes an access. The model's own field. -/
structure Cur where
  core   : Nat
  shadow : Bool
  unit   : Eng
  arg    : Nat
  who    : Party
  deriving DecidableEq, Repr

/-- An input of the outside world: the tide cycle at which it reaches the part, what it concerns, and the event. -/
structure Input where
  at_   : Nat
  cur   : Cur
  instr : Instr
  deriving DecidableEq, Repr

/-- The memories outside the cores (R54, R389): SP2 of each cluster, SP3, HBM, host and peer memory by bus address,
the poisoned granules of each, SP2 and SP3 writes not yet seen by all (R73), the in-flight counters (R70), and the sync objects that
their homes have served (target, address), whose ARMED they keep (R79; log 66), and the reservations of load-reserved instructions
(owner: hart, or 8 + Pilot core; target, 4 for the Pilot SRAM; address, length; R403, log 12). -/
structure Mem where
  sp2    : List Memory
  sp2Poi : List (List Nat)
  sp3    : Memory
  sp3Poi : List Nat
  hbm    : Memory
  hbmPoi : List Nat
  pcie   : Memory
  pciePoi : List Nat
  spq    : List SpWrite
  pinned : List (Nat × Nat)
  syncs  : List (Nat × Nat) := []
  resv   : List (Nat × Nat × Nat × Nat) := []
  deriving DecidableEq, Repr

/-- The state of the part. `inputs` (timed inputs of the outside world), `cur`, `free` (counter of the free values)
and `nextId` (names of operations in flight) are the model's own; `tide` is the tide counter on the normalised clock
(log 2). -/
structure State where
  tide   : Nat
  cores  : List Core
  gangs  : List Gang
  mem    : Mem
  gops   : List GOp
  late   : List LateRead
  saves  : List Saved
  apers  : List (List Word)
  builders : List Builder
  sched  : Sched
  pilot  : Pilot
  io     : Io
  fleet  : Fleet
  inputs : List Input
  cur    : Cur
  free   : Nat
  nextId : Nat
  deriving DecidableEq, Repr

/-- The machine right after reset (R13): every field at the value the spec gives, or that the log names. -/
def State.reset : State :=
  { tide := 0, cores := List.replicate 24 Core.reset, gangs := [],
    mem := { sp2 := List.replicate 6 [], sp2Poi := List.replicate 6 [], sp3 := [], sp3Poi := [], hbm := [],
             hbmPoi := [], pcie := [], pciePoi := [], spq := [], pinned := [] },
    gops := [], late := [], saves := [], apers := List.replicate 16 (List.replicate 4 0),
    builders := List.replicate 6 { slots := List.replicate 64 (List.replicate 4 0), calls := [], busy := none },
    sched := Sched.reset, pilot := Pilot.reset, io := Io.reset, fleet := Fleet.reset, inputs := [],
    cur := { core := 0, shadow := false, unit := .vec, arg := 0, who := .external }, free := 0, nextId := 1 }

end Sys2Proof.Machine
end

