-- ==== Sys2Proof/Machine/Access.lean ====
section
/-!
DEFINITION. Reading and writing lists by index, and sparse memory: one byte, runs of bytes, little-endian values (R7).
-/

namespace Sys2Proof.Machine

/-- Element i of a list, or d beyond its end. -/
def lget {α : Type} : List α → Nat → α → α
  | [], _, d => d
  | x :: _, 0, _ => x
  | _ :: r, n + 1, d => lget r n d

/-- The list with element i set, padded with d. -/
def lput {α : Type} : List α → Nat → α → α → List α
  | [], 0, v, _ => [v]
  | [], n + 1, v, d => d :: lput [] n v d
  | _ :: r, 0, v, _ => v :: r
  | x :: r, n + 1, v, d => x :: lput r n v d

/-- Element i replaced by its image. -/
def lmod {α : Type} (l : List α) (i : Nat) (d : α) (f : α → α) : List α := lput l i (f (lget l i d)) d

/-- The byte at an address; an unlisted address reads 0 (log 1). -/
def mread : Memory → Nat → Byte
  | [], _ => 0
  | (k, b) :: r, a => if k = a then b else mread r a

/-- Memory with one byte written; the canonical form is kept. -/
def mwrite : Memory → Nat → Byte → Memory
  | [], a, b => if b = 0 then [] else [(a, b)]
  | (k, x) :: r, a, b =>
    if a < k then (if b = 0 then (k, x) :: r else (a, b) :: (k, x) :: r)
    else if a = k then (if b = 0 then r else (a, b) :: r)
    else (k, x) :: mwrite r a b

/-- n bytes from an address. -/
def mreadN (m : Memory) (a n : Nat) : List Byte := (List.range n).map fun i => mread m (a + i)

/-- Bytes written from an address on. -/
def mwriteL (m : Memory) (a : Nat) : List Byte → Memory
  | [] => m
  | b :: r => mwriteL (mwrite m a b) (a + 1) r

/-- The canonical form: addresses strictly rising, no byte 0. -/
def Memory.wf : Memory → Bool
  | [] => true
  | (k, b) :: r => b != 0 && (match r with | [] => true | (k2, _) :: _ => k < k2) && Memory.wf r

/-- The n-byte little-endian number at an address (R7). -/
def mnat (m : Memory) (a n : Nat) : Nat := leNat (mreadN m a n)

/-- The number that bytes [o, o + n) of a list stand for. -/
def bnat (bs : List Byte) (o n : Nat) : Nat := leNat ((bs.drop o).take n)

/-- A piece written into memory. -/
def mwriteP (m : Memory) (p : Piece) : Memory := mwriteL m p.addr p.bytes

/-- The 64-byte granules that a run of bytes touches (R57). -/
def granules (a n : Nat) : List Nat := if n = 0 then [] else (List.range ((a + n - 1) / 64 - a / 64 + 1)).map (· + a / 64)

/-- Whether any byte of a run lies in a marked granule. -/
def poisoned (poi : List Nat) (a n : Nat) : Bool := (granules a n).any fun g => poi.contains g

/-- The marks after a write (R57, R145): granules that poisoned data reach are marked; granules covered whole by clean
data are cleared; the others keep their mark. -/
def poiWrite (poi : List Nat) (p : Piece) : List Nat :=
  let gs := granules p.addr p.bytes.length
  if p.poison then gs.foldl (fun l g => if l.contains g then l else g :: l) poi
  else poi.filter fun g => !(p.addr ≤ 64 * g && 64 * g + 64 ≤ p.addr + p.bytes.length)

/-- Whether the pieces of one write cover granule g whole. -/
def coversGranule (ps : List Piece) (g : Nat) : Bool :=
  (List.range 64).all fun i => ps.any fun p => p.addr ≤ 64 * g + i && 64 * g + i < p.addr + p.bytes.length

/-- The marks after a write of several pieces (R57): a granule that they cover together is cleared before poisoned data mark it. -/
def poiWrites (poi : List Nat) (ps : List Piece) : List Nat :=
  ps.foldl poiWrite (poi.filter fun g => !coversGranule ps g)

end Sys2Proof.Machine
end

