-- ==== Sys2Proof/Machine/Ops.lean ====
section
/-!
DEFINITION. The named operations over cores, registers, effects in flight, gangs and holds; taking a fault (R30, R134
to R141) as one shared operation, a schedule miss (R41), and the end of a handler (R142).
-/

namespace Sys2Proof.Machine

/-- The outcome of a step of this machine. -/
abbrev Res := Host.Outcome State Fault Refusal

/-- The step goes on in state s. -/
def ok (s : State) : Res := .next s

/-! ## Cores -/

/-- Core k. -/
def State.core (s : State) (k : Nat) : Core := lget s.cores k Core.reset

/-- The state with core k replaced. -/
def State.setCore (s : State) (k : Nat) (c : Core) : State := { s with cores := lput s.cores k c Core.reset }

/-- The state with core k changed. -/
def State.modCore (s : State) (k : Nat) (f : Core → Core) : State := s.setCore k (f (s.core k))

/-- The core of the step. -/
def State.me (s : State) : Core := s.core s.cur.core

/-- The state with the core of the step changed. -/
def State.modMe (s : State) (f : Core → Core) : State := s.modCore s.cur.core f

/-- Mesh row and column of a core (R3). -/
def coreRow (k : Nat) : Nat := k / 6
def coreCol (k : Nat) : Nat := k % 6
/-- Cluster of a core (R3). -/
def cluster (k : Nat) : Nat := coreRow k / 2 * 3 + coreCol k / 2

/-- |a − b| on naturals. -/
def ndist (a b : Nat) : Nat := (a - b) + (b - a)

/-- Hop distance of two cores (R25, R28). -/
def hops (a b : Nat) : Nat := ndist (coreRow a) (coreRow b) + ndist (coreCol a) (coreCol b)

/-- Index of an engine in the lists of a core. -/
def engIdx : Eng → Nat
  | .vec => 0
  | .mtx => 1
  | .data => 2

/-- Unit number of an engine (R138): 1 vector, 2 matrix, 3 data. -/
def engNum (u : Eng) : Nat := engIdx u + 1

/-- A fresh number for a free value. -/
def State.takeFree (s : State) : Nat × State := (s.free, { s with free := s.free + 1 })

/-- A fresh name for an operation in flight. -/
def State.newId (s : State) : Nat × State := (s.nextId, { s with nextId := s.nextId + 1 })

/-! ## The running context and its clock -/

/-- The clock of the step: gang time in the main context and the main queues, the tide in the shadow context and the
handler lanes (R27, R141). -/
def State.clk (s : State) : Nat := if s.cur.shadow then s.tide else s.me.run.g

/-- The sequencer context of the step. -/
def State.ctx (s : State) : SeqCtx := if s.cur.shadow then s.me.sh else s.me.seq

/-- The state with the sequencer context of the step changed. -/
def State.modCtx (s : State) (f : SeqCtx → SeqCtx) : State :=
  s.modMe fun c => if s.cur.shadow then { c with sh := f c.sh } else { c with seq := f c.seq }

/-- The queue or handler lane of engine u that the step issues from (R34, R141). -/
def State.eng (s : State) (u : Eng) : Engine :=
  lget (if s.cur.shadow then s.me.lanes else s.me.engs) (engIdx u) Engine.zero

/-- That queue or lane changed. -/
def State.modEng (s : State) (u : Eng) (f : Engine → Engine) : State :=
  s.modMe fun c =>
    if s.cur.shadow then { c with lanes := lmod c.lanes (engIdx u) Engine.zero f }
    else { c with engs := lmod c.engs (engIdx u) Engine.zero f }

/-- A scalar register of a context; s0 reads 0 (R17). -/
def SeqCtx.reg (c : SeqCtx) (r : Nat) : Word := if r = 0 then 0 else lget c.regs r 0

/-- A scalar register written; s0 ignores writes (R17). -/
def SeqCtx.setReg (c : SeqCtx) (r : Nat) (v : Word) : SeqCtx :=
  if r = 0 then c else { c with regs := lput c.regs r v 0 }

/-- The value of register r in the context of the step at its issue cycle (R37, R204). -/
def State.rd (s : State) (r : BitVec 5) : Word := s.ctx.reg r.toNat

/-! ## Effects in flight (R37, R39) -/

/-- Whether an effect writes into SP3, which other gangs and the homes may read (R75). -/
def Eff.intoSp3 : Eff → Bool
  | .sp lvl _ => lvl = 2
  | .spData lvl _ _ => lvl = 2
  | .spBtc lvl _ _ _ => lvl = 2
  | .cmap lvl _ _ => lvl = 2
  | .manifest lvl _ _ => lvl = 2
  | _ => false

/-- The operations that must be performed before a write into SP3 that queue `unit` of the step's core issues now (R77); for the
sequencer, its releases too (R225). -/
def State.sp3Deps (s : State) (unit : Nat) : List Nat :=
  lget s.me.fences unit [] ++
  if unit = 0 then (s.gops.filter fun o => o.core = s.cur.core && o.unit = 0 && !o.done &&
    match o.kind with | .srel _ _ => true | _ => false).map (·.id)
  else []

/-- An effect of unit `unit` issued in the step's context that lands at cycle `land`. -/
def State.addPend (s : State) (unit land : Nat) (eff : Eff) (goesOn : Bool := false) (need : Option Nat := none)
    (phased : Bool := false) : State :=
  let p : Pend := { id := s.nextId, land := land, since := s.clk, tide := s.cur.shadow, unit := unit, goesOn := goesOn,
                    need := need, phased := phased, missed := false, eff := eff, deps := if eff.intoSp3 then s.sp3Deps unit else [] }
  { s.modMe fun c => { c with pend := c.pend ++ [p] } with nextId := s.nextId + 1 }

/-- An effect with latency L: it lands at the issue cycle plus L − 1 (R37, R39). -/
def State.addLat (s : State) (unit lat : Nat) (eff : Eff) : State := s.addPend unit (s.clk + lat - 1) eff

/-- A write of scalar register d with latency L (R37). -/
def State.wrReg (s : State) (d : BitVec 5) (lat : Nat) (v : Word) : State :=
  s.addLat 0 lat (.sreg s.cur.shadow d.toNat v)

/-- PERF counter k advances by n (R236). -/
def Core.perfAdd (c : Core) (k n : Nat) : Core := { c with perf := lmod c.perf k 0 (· + BitVec.ofNat 64 n) }

/-! ## Gangs -/

/-- The gang that runs in berth b. -/
def State.gang (s : State) (b : Nat) : Option Gang := s.gangs.find? (·.berth = b)

/-- The gang of berth b changed. -/
def State.modGang (s : State) (b : Nat) (f : Gang → Gang) : State :=
  { s with gangs := s.gangs.map fun g => if g.berth = b then f g else g }

/-- The gang that a core runs in. -/
def State.gangOf (s : State) (k : Nat) : Option Gang :=
  match (s.core k).run.berth with
  | some b => s.gang b
  | none => none

/-- The bind record of berth b (R378). -/
def State.bind (s : State) (b : Nat) : Bind := lget s.sched.berths b Bind.zero

/-- The bind record of berth b changed. -/
def State.modBind (s : State) (b : Nat) (f : Bind → Bind) : State :=
  { s with sched := { s.sched with berths := lmod s.sched.berths b Bind.zero f } }

/-- Group g: VALID and its cores (R377). -/
def State.group (s : State) (g : Nat) : Bool × BitVec 24 := lget s.sched.groups g (false, 0)

/-- The cores of a set, in increasing core id. -/
def coresOf (m : BitVec 24) : List Nat := (List.range 24).filter fun k => m.getLsbD k

/-- The actual tide cycle of core k at the state's normalised tide (R26; log 2). -/
def State.actual (s : State) (k : Nat) : Nat := s.tide + 2 * (s.core k).run.hop

/-- The cycle of receiver r at which a flit lands that sender w pushes at its cycle x with endpoint cost e (R28). -/
def State.meshCycle (s : State) (w r x e : Nat) : Nat :=
  x + e + 2 * hops w r + 2 * (s.core w).run.hop - 2 * (s.core r).run.hop

/-! ## Holds (R29 to R32) -/

/-- Core k becomes a source of its gang's hold: it stops now, after a delay slot that is due when the hold is not the
member's own (R136), and a wave leaves for every other member (R30). -/
def State.startHold (s : State) (k cause : Nat) (await : Option Await) : State :=
  let c := s.core k
  let slot := (cause = 2 || cause = 3) && c.seq.slot.isSome && c.seq.wait = .none && c.seq.next ≤ c.run.g
  let st : Stop := { slotDue := slot, source := true, await := await, until_ := none }
  let s := s.modCore k fun c => { c with run := { c.run with stop := some st, held := 0 } }
  match s.gangOf k with
  | none => s
  | some gg =>
    let src : HoldSrc := { core := k, stopN := s.tide, stopA := s.actual k, cause := cause, ended := none }
    let reach (m : Nat) : Nat × Nat := (m, s.actual k + 2 * hops k m - 2 * (s.core m).run.hop)
    let ws := (gg.members.filter fun m => m != k).map reach
    s.modGang gg.berth fun gg =>
      match gg.hold with
      | none => { gg with hold := some { srcs := [src], waves := ws, rb := false, rbCount := false } }
      | some h => { gg with hold := some { h with srcs := h.srcs ++ [src], waves := h.waves ++ ws } }

/-- The condition of core k as a source ends now, but for a Pilot hold, which the Pilot firmware ends (R29, R32). -/
def State.endSource (s : State) (k : Nat) : State :=
  match s.gangOf k with
  | none => s.modCore k fun c => { c with run := { c.run with stop := none } }
  | some gg => s.modGang gg.berth fun gg =>
      match gg.hold with
      | none => gg
      | some h => { gg with hold := some { h with srcs := h.srcs.map fun x =>
          if x.core = k ∧ x.cause ≠ 3 ∧ x.ended = none then { x with ended := some (s.actual k) } else x } }

/-! ## Taking a fault (R134 to R141) -/

/-- What a fault reports (R138, R139): code, SUB, unit, INFO, LAT, the offset from PC at which MAINPC resumes
(4 after TRAP), and the passage, word and repeat of a fault that is not taken at the issue of a word (R135). -/
structure FaultRec where
  cause : Nat
  sub   : Nat
  unit  : Nat
  info  : Nat
  lat   : Bool
  skip  : Nat
  pos   : Option (Nat × Nat × Nat) := none
  deriving DecidableEq, Repr

/-- A fault of a unit with SUB 0. -/
def mkFault (unit cause info : Nat) : FaultRec := { cause := cause, sub := 0, unit := unit, info := info, lat := false, skip := 0 }

/-- Whether a fault of this code goes to the timetable's handler (R140). -/
def Core.routed (c : Core) (cause : Nat) : Bool :=
  c.params.hentry != 0 &&
    (if cause = 0x20 then c.params.hmask.getLsbD 0 else 0x01 ≤ cause && cause ≤ 0x10 && c.params.hmask.getLsbD cause)

/-- The trap record that core c writes for a fault at gang cycle c.run.g (R138). -/
def Core.trecFor (c : Core) (f : FaultRec) : Trec :=
  let e := lget c.engs (f.unit - 1) Engine.zero
  let ds := f.unit = 0 && c.seq.slot.isSome
  let pc := match f.unit, c.seq.slot with
    | 0, some sl => sl.brPc
    | _, _ => c.seq.pc
  let pos := f.pos.getD (match e.q with | q :: _ => (q.addr, e.widx, e.rep) | [] => e.last)
  { cause := BitVec.ofNat 8 f.cause, sub := BitVec.ofNat 8 f.sub, ds := ds, lat := f.lat, unit := BitVec.ofNat 2 f.unit,
    pc := pc, paddr := if f.unit = 0 then 0 else BitVec.ofNat 18 pos.1,
    widx := if f.unit = 0 then 0 else BitVec.ofNat 14 pos.2.1, rep := if f.unit = 0 then 0 else BitVec.ofNat 6 pos.2.2,
    info := BitVec.ofNat 64 f.info, gstop := BitVec.ofNat 64 c.run.g }

/-- The entry address of a handler (R140). -/
def Core.entryOf (c : Core) (pilot : Bool) : BitVec 18 := if pilot then BitVec.ofNat 18 Config.pilotHandler else c.params.hentry

/-- The shadow context made ready for a handler that starts at tide cycle t (R141): MAINPC holds PC at entry, or PC + 4
after TRAP; DETMODE counts its faults (R165). -/
def Core.enterHandler (c : Core) (f : FaultRec) (t : Nat) : Core :=
  let tr := c.trecFor f
  let pilot := !c.routed f.cause
  { c with
    trec := tr
    hnd := { active := false, pilot := pilot, entry := t, mains := [], mainPc := tr.pc + BitVec.ofNat 18 f.skip,
             ds := tr.ds, supply := none, posted := false, fatal := false, await := none, tried := 0 }
    sh := { c.sh with pc := c.entryOf pilot, slot := none, wait := .none, ended := false, next := t }
    modes := if f.cause = 0x0B ∧ c.modes.dreads ≠ 0xFFFF then { c.modes with dreads := c.modes.dreads + 1 } else c.modes }

/-- Core k takes a fault in its main context: it stops as a source, TREC is written, and its shadow context will start
at the handler's entry on the next tide cycle (R30, R138, R140, R141). -/
def State.faultMain (s : State) (k : Nat) (f : FaultRec) : State :=
  (s.modCore k fun c => c.enterHandler f (s.tide + 1)).startHold k 0 none

/-- The Pilot firmware's handler started on core k's shadow context by escalation, or, when it already runs, the gang
marked for an abort with reason 8 (R143). DESIGN CHOICE: a first case inside a Pilot handler that was entered directly aborts too, and
posts nothing (log 84); passages still queued in the handler lanes, and their drain and reads, are dropped (log 101). -/
def State.escalate (s : State) (k : Nat) : State :=
  s.modCore k fun c =>
    if c.hnd.pilot then { c with hnd := { c.hnd with fatal := true } }
    else { c with hnd := { c.hnd with pilot := true, entry := s.tide + 1, active := false }
                  sh := { c.sh with pc := c.entryOf true, slot := none, wait := .none, next := s.tide + 1 }
                  lanes := List.replicate 3 Engine.zero
                  mtx := { c.mtx with laneDrain := none, laneReads := none }, laneDread := none }

/-- A fault raised by the step: taken precisely in the main context, escalated in the shadow context (R30, R143). -/
def State.takeFault (s : State) (f : FaultRec) : State :=
  if s.cur.shadow then s.escalate s.cur.core else s.faultMain s.cur.core f

/-! ## Schedule misses (R41, R193) -/

/-- MISS is set and MISSCNT advances, stopping at 65,535 (R41, R42). -/
def Modes.noteMiss (m : Modes) : Modes :=
  { m with miss := true, misscnt := if m.misscnt = 0xFFFF then m.misscnt else m.misscnt + 1 }

/-- A unit of the shadow context waits one more tide cycle (R141). -/
def State.shadowWait (s : State) (unit : Nat) : State :=
  s.modMe fun c =>
    if unit = 0 then { c with sh := { c.sh with next := s.tide + 1 } }
    else { c with lanes := lmod c.lanes (unit - 1) Engine.zero fun e => { e with next := s.tide + 1 } }

/-- A schedule miss of unit `unit` with INFO `info`: SCHED_MISS under TRAP, a hold that ends with what is awaited under
STALL (R41). A shadow unit waits, whatever SCHEDMODE holds (R141). -/
def State.schedMiss (s : State) (unit info : Nat) (await : Await) : State :=
  if s.cur.shadow then s.shadowWait unit
  else
    let s := s.modMe fun c => { c with modes := c.modes.noteMiss }
    if s.me.modes.trapMode then
      (s.takeFault (mkFault unit 0x07 info)).modMe fun c => { c with hnd := { c.hnd with await := some await } }
    else s.startHold s.cur.core 1 (some await)

/-! ## The outside world -/

/-- An output of the part. -/
def State.out (s : State) (o : Out) : State := { s with io := { s.io with outs := s.io.outs ++ [o] } }

/-- An entry of the RAS log with a SEV, the oldest overwritten when it is full (R428, R429): its TIDE is that of its core; its writer writes its
SEQ at last, at a free later tide cycle. -/
def State.rasSev (s : State) (sev cls core berth code addr : Nat) : State :=
  let f := s.fleet
  let e : RasEntry := { seq := f.head, tide := if core < 24 then s.actual core else s.tide, cls := cls, sev := sev, core := core, berth := berth, code := code,
                        addr := addr, data := [], read := false, ready := s.tide + Config.freeNat s.free }
  let full := Config.rasSlots ≤ f.ras.length
  let lostNow := match f.ras with
    | o :: _ => if full && !o.read then 1 else 0
    | [] => 0
  let f' : Fleet := { f with ras := (if full then f.ras.drop 1 else f.ras) ++ [e], head := f.head + 1, lost := f.lost + lostNow }
  let s := { s with fleet := f', free := s.free + 1 }
  { s with pilot := { s.pilot with cores := s.pilot.cores.map fun c => { c with sigpend := c.sigpend ||| (1 <<< 20) } } }

/-- An entry of the RAS log whose SEV, which no rule gives, is free (log 20). -/
def State.ras (s : State) (cls core berth code addr : Nat) : State :=
  ({ s with free := s.free + 1 } : State).rasSev (Config.freeNat s.free % 4) cls core berth code addr

/-- An edge signal of every Pilot core rises (R397). -/
def State.signal (s : State) (bit : Nat) : State :=
  { s with pilot := { s.pilot with cores := s.pilot.cores.map fun c =>
      { c with sigpend := c.sigpend ||| BitVec.ofNat 64 (2 ^ bit) } } }

/-- Word i of the MSI-X table; its vectors are masked after reset (log 19). -/
def Io.msixWord (io : Io) (i : Nat) : Word :=
  match io.msix.find? fun x => x.1 = i with
  | some x => x.2
  | none => if i % 2 = 1 then 0x100000000 else 0

/-- A hart, and that hart changed (R402). -/
def State.hart (s : State) (k : Nat) : Hart := lget s.io.harts k {}
def State.modHart (s : State) (k : Nat) (f : Hart → Hart) : State := { s with io := { s.io with harts := lmod s.io.harts k {} f } }

/-- An identity pending in a hart's interrupt file (R383, R402); identity 0 is none. -/
def Hart.pend (h : Hart) (id : Nat) : Hart := if id = 0 then h else { h with eip := h.eip ||| BitVec.ofNat 1024 (2 ^ id) }

/-- An interrupt sent to the owner (R383): a host core's interrupt file, or the external host through MSI-X, where a masked vector stays
pending. -/
def State.irq (s : State) (external : Bool) (vec : Nat) : State :=
  if external && (s.io.msixWord (2 * vec + 1)).getLsbD 32 then
    { s with io := { s.io with pendIrq := if s.io.pendIrq.contains vec then s.io.pendIrq else vec :: s.io.pendIrq } }
  else if external then s.out (.irq true vec)
  else (s.modHart (Config.irqHart vec % 8) fun h => h.pend vec).out (.irq false vec)

end Sys2Proof.Machine
end

