-- ==== Sys2Proof/Machine/SeqCore.lean ====
section
/-!
DEFINITION. Issuing a sequencer instruction (R204, R205, R185): where it may stand, what happens when it may not, and
the program counter with its delay slot (R38).
-/

namespace Sys2Proof.Machine

/-- Where an instruction may stand (R205): the main context, the shadow context, a delay slot. -/
structure Place where
  main   : Bool
  shadow : Bool
  slot   : Bool
  deriving DecidableEq, Repr

/-- The places of R205. -/
def anyPlace : Place := { main := true, shadow := true, slot := true }
def noSlot : Place := { main := true, shadow := true, slot := false }
def mainOnly : Place := { main := true, shadow := false, slot := false }
def mainSlot : Place := { main := true, shadow := false, slot := true }
def shadowOnly : Place := { main := false, shadow := true, slot := false }

/-- Whether the step's instruction stands where it may (R205). -/
def State.placed (s : State) (p : Place) : Bool :=
  (if s.cur.shadow then p.shadow else p.main) && (s.ctx.slot.isNone || p.slot)

/-- Whether any byte of a run in score memory lies in a poisoned line (R137). -/
def Core.badLine (c : Core) (a n : Nat) : Bool := poisoned c.mem.scorePoi a n

/-- The n-byte number that a core fetches at a score-memory address: from 0x3_E000 on, the Pilot firmware's handler (R140, R361). -/
def Core.code (c : Core) (a n : Nat) : Nat :=
  leNat ((List.range n).map fun i => if Config.pilotHandler ≤ a + i then Config.pilotCode (a + i) else mread c.mem.score (a + i))

/-- ILLEGAL_INSTR with the instruction in INFO (R139, R185). -/
def State.illegal (s : State) (i : Instr) : State := s.takeFault (mkFault 0 0x01 (encodeNat i))

/-- POISON with SUB 1 for an instruction or word from a poisoned line (R137). -/
def poisonLine (unit addr : Nat) : FaultRec := { cause := 0x0A, sub := 1, unit := unit, info := addr, lat := true, skip := 0 }

/-- An instruction that stands in place issues: `body` gives its effect. One from a poisoned line raises POISON (R137);
one out of place raises ILLEGAL_INSTR and has no effect (R205). -/
def seqRun (i : Instr) (p : Place) (body : State → State) (s : State) : Res :=
  if s.me.badLine s.ctx.pc.toNat 4 then ok (s.takeFault (poisonLine 0 s.ctx.pc.toNat))
  else if s.placed p then ok (body s)
  else ok (s.illegal i)

/-- The condition under which an instruction issues normally (R137, R205). -/
def State.canIssue (s : State) (p : Place) : Bool := !s.me.badLine s.ctx.pc.toNat 4 && s.placed p

/-- PERF0 counts an instruction issued in the main context (R236). -/
def State.count0 (s : State) : State := if s.cur.shadow then s else s.modMe fun c => c.perfAdd 0 1

/-- The program counter after an instruction: the branch's destination after its slot, else the next word (R38); the
next instruction issues on the next cycle (R18). -/
def SeqCtx.advance (c : SeqCtx) (clk : Nat) : SeqCtx :=
  { c with pc := (match c.slot with | some sl => sl.dest | none => c.pc + 4), slot := none, next := clk + 1 }

/-- The instruction has issued with occupancy 1. -/
def State.next1 (s : State) : State := (s.modCtx fun c => c.advance s.clk).count0

/-- The instruction has issued and the sequencer waits (R204). -/
def State.waitOn (s : State) (w : Wait) : State := s.next1.modCtx fun c => { c with wait := w }

/-- A branch has issued: its slot is next, then `dest` (R38). -/
def State.branchTo (s : State) (dest : BitVec 18) (mask : Bool) : State :=
  (s.modCtx fun c => { c with slot := some { brPc := c.pc, dest := dest, mask := mask }, pc := c.pc + 4,
                              next := s.clk + 1 }).count0

end Sys2Proof.Machine
end

