-- ==== Sys2Proof/Machine/Branch.lean ====
section
/-!
DEFINITION. Branches and jumps (R180, R213, R214), and their evaluation again after a fault in the slot (R136).
-/

namespace Sys2Proof.Machine

/-- The target of an SB or SJ instruction at pc, before any range check (R180). -/
def brTarget (pc : BitVec 18) (off : Int) : Int := (pc.toNat : Int) + 4 + 4 * off

/-- The legal targets: 0 to 0x3_DFFF in the main context, all of score memory in the shadow context (R180). -/
def targetOk (shadow : Bool) (t : Int) : Bool :=
  0 ≤ t && t < (if shadow then (Config.scoreSize : Int) else (Config.pilotHandler : Int))

/-- A control transfer: a taken one checks its target (PERM before ALIGN, log 21), writes its link with latency 2, and
is followed by its slot (R38, R180, R214). -/
def transfer (taken : Bool) (t : Int) (link : Option (BitVec 5)) (mask : Bool) (s : State) : State :=
  let pc := s.ctx.pc
  if taken && !targetOk s.cur.shadow t then s.takeFault (mkFault 0 0x05 (t % 2 ^ 64).toNat)
  else if taken && t % 4 != 0 then s.takeFault (mkFault 0 0x03 (t % 2 ^ 64).toNat)
  else
    let s := match link with
      | some d => if taken then s.wrReg d 2 (pc.setWidth 64 + 8) else s
      | none => s
    s.branchTo (if taken then BitVec.ofInt 18 t else pc + 8) mask

/-- The mask-empty status that a branch issued now sees: that of three cycles ago (R49). -/
def State.maskSeen (s : State) : Bool := lget s.me.vec.hist 2 false

/-- A conditional branch (R213). -/
def brRun (i : Instr) (off : BitVec 16) (cond : State → Bool) (s : State) : Res :=
  seqRun i noSlot (fun s => transfer (cond s) (brTarget s.ctx.pc off.toInt) none s.maskSeen s) s

/-- BEQ (R213). -/
def execBeq (a b : BitVec 5) (o : BitVec 16) (s : State) : Res := brRun (.beq a b o) o (fun s => s.rd a == s.rd b) s
/-- BNE (R213). -/
def execBne (a b : BitVec 5) (o : BitVec 16) (s : State) : Res := brRun (.bne a b o) o (fun s => s.rd a != s.rd b) s
/-- BLT (R213). -/
def execBlt (a b : BitVec 5) (o : BitVec 16) (s : State) : Res := brRun (.blt a b o) o (fun s => (s.rd a).slt (s.rd b)) s
/-- BGE (R213). -/
def execBge (a b : BitVec 5) (o : BitVec 16) (s : State) : Res := brRun (.bge a b o) o (fun s => (s.rd b).sle (s.rd a)) s
/-- BLTU (R213). -/
def execBltu (a b : BitVec 5) (o : BitVec 16) (s : State) : Res := brRun (.bltu a b o) o (fun s => (s.rd a).ult (s.rd b)) s
/-- BGEU (R213). -/
def execBgeu (a b : BitVec 5) (o : BitVec 16) (s : State) : Res := brRun (.bgeu a b o) o (fun s => (s.rd b).ule (s.rd a)) s
/-- BMZ (R49, R213). -/
def execBmz (o : BitVec 16) (s : State) : Res := brRun (.bmz o) o (fun s => s.maskSeen) s
/-- BMNZ (R49, R213). -/
def execBmnz (o : BitVec 16) (s : State) : Res := brRun (.bmnz o) o (fun s => !s.maskSeen) s

/-- J (R214). -/
def execJ (o : BitVec 26) (s : State) : Res :=
  seqRun (.j o) noSlot (fun s => transfer true (brTarget s.ctx.pc o.toInt) none s.maskSeen s) s
/-- JAL links in s31 (R214). -/
def execJal (o : BitVec 26) (s : State) : Res :=
  seqRun (.jal o) noSlot (fun s => transfer true (brTarget s.ctx.pc o.toInt) (some 31) s.maskSeen s) s
/-- JR reads sa before its link write (R214). -/
def execJr (d a : BitVec 5) (s : State) : Res :=
  seqRun (.jr d a) noSlot (fun s => transfer true ((s.rd a).toNat : Int) (some d) s.maskSeen s) s

/-- The branch instruction i at pc evaluated again from the main registers and the mask status it saw (R136): the
destination after its slot, and the link it writes again. -/
def reeval (c : SeqCtx) (pc : BitVec 18) (mask : Bool) (i : Instr) : BitVec 18 × Option (BitVec 5) :=
  let cond (t : Bool) (o : BitVec 16) : BitVec 18 × Option (BitVec 5) :=
    (if t then BitVec.ofInt 18 (brTarget pc o.toInt) else pc + 8, none)
  let r (x : BitVec 5) : Word := c.reg x.toNat
  match i with
  | .beq a b o => cond (r a == r b) o
  | .bne a b o => cond (r a != r b) o
  | .blt a b o => cond ((r a).slt (r b)) o
  | .bge a b o => cond ((r b).sle (r a)) o
  | .bltu a b o => cond ((r a).ult (r b)) o
  | .bgeu a b o => cond ((r b).ule (r a)) o
  | .bmz o => cond mask o
  | .bmnz o => cond (!mask) o
  | .j o => (BitVec.ofInt 18 (brTarget pc o.toInt), none)
  | .jal o => (BitVec.ofInt 18 (brTarget pc o.toInt), some 31)
  | .jr d a => ((r a).setWidth 18, some d)
  | _ => (pc + 8, none)

end Sys2Proof.Machine
end

