-- ==== Sys2Proof/Machine/Numerics.lean ====
section
/-!
DEFINITION. Number formats, rounding, conversions, exact arithmetic, the numerics profiles and the table-defined functions
(R86 to R107), over bit patterns as naturals.
-/

namespace Sys2Proof.Machine

/-! ## Flags (R91): the bits of VSTAT -/

/-- IV, DZ, OF, UF, NX, SA, XO as bits 0 to 6 (R242). -/
abbrev Fx := BitVec 7
def fIV : Fx := 1
def fDZ : Fx := 2
def fOF : Fx := 4
def fUF : Fx := 8
def fNX : Fx := 16
def fSA : Fx := 32
def fXO : Fx := 64

/-! ## Formats (R86 to R88) -/

/-- A real that the part can hold exactly: NaN, an infinity, or ±m × 2^e. -/
inductive Fl where
  | nan
  | inf (s : Bool)
  | fin (s : Bool) (m : Nat) (e : Int)
  deriving DecidableEq, Repr

/-- Width of the exponent and of the mantissa field, and the bias, of a floating format code (R87). -/
def fExp (f : Nat) : Nat := if f = 6 then 4 else if f = 7 || f = 8 then 5 else 8
def fMan (f : Nat) : Nat := if f = 6 then 3 else if f = 7 then 2 else if f = 8 then 10 else if f = 9 then 7 else 23
def fBias (f : Nat) : Nat := if f = 6 then 7 else if f = 7 || f = 8 then 15 else 127

/-- Whether a format code is floating (R59, R87). -/
def isFloat (f : Nat) : Bool := 6 ≤ f && f ≤ 10

/-- Width of a pattern of a floating format. -/
def fWidth (f : Nat) : Nat := 1 + fExp f + fMan f

/-- The canonical NaN (R87, R89). -/
def canonNaN (f : Nat) : Nat :=
  if f = 6 then 0x7F else (2 ^ fExp f - 1) * 2 ^ fMan f + 2 ^ (fMan f - 1)

/-- An infinity's pattern. -/
def infPat (f : Nat) (s : Bool) : Nat := (if s then 2 ^ (fWidth f - 1) else 0) + (2 ^ fExp f - 1) * 2 ^ fMan f

/-- The largest finite value's pattern (R87). -/
def maxPat (f : Nat) (s : Bool) : Nat :=
  (if s then 2 ^ (fWidth f - 1) else 0) + (if f = 6 then 0x7E else (2 ^ fExp f - 1) * 2 ^ fMan f - 1)

/-- A zero's pattern. -/
def zeroPat (f : Nat) (s : Bool) : Nat := if s then 2 ^ (fWidth f - 1) else 0

/-- The value of a pattern (R87, R88). -/
def decodeF (f p : Nat) : Fl :=
  let s := p / 2 ^ (fWidth f - 1) % 2 = 1
  let e := p / 2 ^ fMan f % 2 ^ fExp f
  let m := p % 2 ^ fMan f
  if f = 6 && e = 15 && m = 7 then .nan
  else if f != 6 && e = 2 ^ fExp f - 1 then if m = 0 then .inf s else .nan
  else if e = 0 then .fin s m (1 - (fBias f : Int) - fMan f)
  else .fin s (m + 2 ^ fMan f) ((e : Int) - fBias f - fMan f)

/-! ## Rounding (R90) -/

/-- Whether a quotient q with a remainder rounds away from zero: `half` compares twice the remainder with the divisor (0 below,
1 equal, 2 above), mode 0 RNE, 1 RTZ, 2 RDN, 3 RUP. -/
def roundsUp (mode : Nat) (s : Bool) (q : Nat) (half : Nat) : Bool :=
  if mode = 0 then half = 2 || (half = 1 && q % 2 = 1)
  else if mode = 1 then false
  else if mode = 2 then s
  else !s

/-- m × 2^e as a multiple of 2^k, rounded: the multiple and whether it is inexact. -/
def roundAt (mode : Nat) (s : Bool) (m : Nat) (e k : Int) : Nat × Bool :=
  if k ≤ e then (m * 2 ^ (e - k).toNat, false)
  else
    let d := (k - e).toNat
    if m.log2 + 2 < d then ((if m != 0 && roundsUp mode s 0 0 then 1 else 0), m != 0)
    else
      let q := m / 2 ^ d
      let r := m % 2 ^ d
      if r = 0 then (q, false)
      else
        let half := if 2 * r < 2 ^ d then 0 else if 2 * r = 2 ^ d then 1 else 2
        (if roundsUp mode s q half then q + 1 else q, true)

/-- The result of an overflow (R90). -/
def overflowPat (f mode : Nat) (sat s : Bool) : Nat :=
  let big := if f = 6 then canonNaN 6 else infPat f s
  if sat || mode = 1 || (mode = 2 && !s) || (mode = 3 && s) then maxPat f s else big

/-- A finite value rounded to a format (R90, R91): pattern and flags. -/
def roundF (f mode : Nat) (sat s : Bool) (m : Nat) (e : Int) : Nat × Fx :=
  if m = 0 then (zeroPat f s, 0)
  else
    let top := (m.log2 : Int) + e
    let emin := 1 - (fBias f : Int)
    let k := max top emin - fMan f
    let (q, inexact) := roundAt mode s m e k
    let mb := 2 ^ fMan f
    let be := (k + fMan f + fBias f).toNat
    -- the pattern's magnitude: a carry out of the mantissa moves into the exponent
    let mag := if q < mb then q else be * mb + (q - mb)
    let limit := maxPat f false
    if limit < mag then (overflowPat f mode sat s, fOF ||| fNX)
    else (zeroPat f s + mag, (if inexact then fNX else 0) ||| (if inexact && top < emin then fUF else 0))

/-- A value rounded to a format; a NaN gives the canonical NaN, an infinity stays or, in E4M3, sets IV (R91, R92). -/
def roundFl (f mode : Nat) (sat : Bool) : Fl → Nat × Fx
  | .nan => (canonNaN f, 0)
  | .inf s => if f = 6 then (if sat then maxPat 6 s else canonNaN 6, fIV) else (infPat f s, 0)
  | .fin s m e => roundF f mode sat s m e

/-! ## Exact arithmetic (R94) -/

/-- Signed mantissa. -/
def sgn (s : Bool) (m : Nat) : Int := if s then -(m : Int) else m

/-- The sign of an exact zero sum. -/
def zeroSign (mode : Nat) (a b : Bool) : Bool := if a = b then a else mode = 2

/-- The exact sum, with IV for ∞ − ∞ (R91, R94). -/
def flAdd (mode : Nat) : Fl → Fl → Fl × Fx
  | .nan, _ => (.nan, 0)
  | _, .nan => (.nan, 0)
  | .inf a, .inf b => if a = b then (.inf a, 0) else (.nan, fIV)
  | .inf a, _ => (.inf a, 0)
  | _, .inf b => (.inf b, 0)
  | .fin s m e, .fin s' m' e' =>
    let k := min e e'
    let t := sgn s m * 2 ^ (e - k).toNat + sgn s' m' * 2 ^ (e' - k).toNat
    if t = 0 then
      (if m = 0 && m' = 0 then .fin (zeroSign mode s s') 0 0 else .fin (mode = 2) 0 0, 0)
    else (.fin (t < 0) t.natAbs k, 0)

/-- The exact product, with IV for 0 × ∞. -/
def flMul : Fl → Fl → Fl × Fx
  | .nan, _ => (.nan, 0)
  | _, .nan => (.nan, 0)
  | .inf a, .inf b => (.inf (a != b), 0)
  | .inf a, .fin s m _ => if m = 0 then (.nan, fIV) else (.inf (a != s), 0)
  | .fin s m _, .inf b => if m = 0 then (.nan, fIV) else (.inf (s != b), 0)
  | .fin s m e, .fin s' m' e' => (.fin (s != s') (m * m') (e + e'), 0)

/-- The negative of a value. -/
def flNeg : Fl → Fl
  | .nan => .nan
  | .inf s => .inf !s
  | .fin s m e => .fin (!s) m e

/-- Whether a value is NaN. -/
def Fl.isNaN : Fl → Bool
  | .nan => true
  | _ => false

/-- Sum of two patterns of a format (R94). -/
def fpAdd (f mode a b : Nat) : Nat × Fx :=
  let (v, x) := flAdd mode (decodeF f a) (decodeF f b)
  let (p, y) := roundFl f mode false v
  (p, x ||| y)

/-- Product of two patterns of a format. -/
def fpMul (f mode a b : Nat) : Nat × Fx :=
  let (v, x) := flMul (decodeF f a) (decodeF f b)
  let (p, y) := roundFl f mode false v
  (p, x ||| y)

/-- a × b + c with one rounding; a NaN addend makes 0 × ∞ raise nothing (R91, R94). -/
def fpFma (f mode : Nat) (a b c : Fl) : Nat × Fx :=
  let (p, x) := flMul a b
  let (v, y) := flAdd mode p c
  let (r, z) := roundFl f mode false v
  (r, (if c.isNaN then 0 else x) ||| y ||| z)

/-- Integer square root by bits, from bit i down. -/
def isqrtAux (n : Nat) : Nat → Nat → Nat
  | 0, r => r
  | i + 1, r => isqrtAux n i (if (r + 2 ^ i) * (r + 2 ^ i) ≤ n then r + 2 ^ i else r)

/-- Floor of the square root. -/
def isqrt (n : Nat) : Nat := isqrtAux n (n.log2 / 2 + 1) 0

/-- Square root of a pattern (R94): −0 gives −0, a negative value NaN and IV. -/
def fpSqrt (f mode a : Nat) : Nat × Fx :=
  match decodeF f a with
  | .nan => (canonNaN f, 0)
  | .inf s => if s then (canonNaN f, fIV) else (infPat f false, 0)
  | .fin s m e =>
    if m = 0 then (zeroPat f s, 0)
    else if s then (canonNaN f, fIV)
    else
      -- an even exponent with 64 more bits; the last bit keeps that the root is inexact
      let m' := if e % 2 = 0 then m * 2 ^ 64 else m * 2 ^ 65
      let e' := if e % 2 = 0 then e - 64 else e - 65
      let r := isqrt m'
      roundF f mode false false (2 * r + (if r * r = m' then 0 else 1)) (e' / 2 - 1)

/-! ## Comparison and minimum (R94, R95) -/

/-- Order of two values that are not NaN: −1, 0 or 1; zeros are equal. -/
def flCmp : Fl → Fl → Int
  | .inf a, .inf b => if a = b then 0 else if a then -1 else 1
  | .inf a, _ => if a then -1 else 1
  | _, .inf b => if b then 1 else -1
  | .fin s m e, .fin s' m' e' =>
    let k := min e e'
    let t := sgn s m * 2 ^ (e - k).toNat - sgn s' m' * 2 ^ (e' - k).toNat
    if t < 0 then -1 else if t = 0 then 0 else 1
  | _, _ => 0

/-- Sign bit of a pattern. -/
def signBit (f p : Nat) : Bool := p / 2 ^ (fWidth f - 1) % 2 = 1

/-- Whether pattern a orders below b, −0 below +0 (R95). -/
def fpBelow (f a b : Nat) : Bool :=
  let c := flCmp (decodeF f a) (decodeF f b)
  c < 0 || (c = 0 && signBit f a && !signBit f b)

/-- Min, Max, MinP and MaxP of R95. -/
def fpMinMax (f : Nat) (wantMax prop : Bool) (a b : Nat) : Nat :=
  let na := (decodeF f a).isNaN
  let nb := (decodeF f b).isNaN
  if (na && nb) || (prop && (na || nb)) then canonNaN f
  else if na then b
  else if nb then a
  else if wantMax then (if fpBelow f a b then b else a)
  else if fpBelow f b a then b else a

/-! ## Integers and conversions (R92, R93) -/

/-- Width and signedness of an integer format code. -/
def iWidth (f : Nat) : Nat := fmtBitsI f
where fmtBitsI (f : Nat) : Nat := lget [4, 8, 8, 16, 32, 64] f 8
def iSigned (f : Nat) : Bool := f != 1

/-- The value of a w-bit pattern. -/
def toVal (w : Nat) (signed : Bool) (p : Nat) : Int :=
  let v := p % 2 ^ w
  if signed && 2 ^ (w - 1) ≤ v then (v : Int) - 2 ^ w else v

/-- Wrap as a pattern (R16). -/
def wrapPat (w : Nat) (x : Int) : Nat := (x % 2 ^ w).toNat

/-- Bounds of a w-bit integer. -/
def iMin (w : Nat) (signed : Bool) : Int := if signed then -(2 ^ (w - 1) : Nat) else 0
def iMax (w : Nat) (signed : Bool) : Int := if signed then (2 ^ (w - 1) : Nat) - 1 else (2 ^ w : Nat) - 1

/-- Sat as a value (R16). -/
def satVal (w : Nat) (signed : Bool) (x : Int) : Int :=
  if x < iMin w signed then iMin w signed else if iMax w signed < x then iMax w signed else x

/-- A finite value rounded to an integer, and whether that is inexact. -/
def roundInt (mode : Nat) (s : Bool) (m : Nat) (e : Int) : Int × Bool :=
  let (q, x) := roundAt mode s m e 0
  (sgn s q, x)

/-- Floating to integer (R93): pattern of format g and flags. -/
def cvtFI (g mode : Nat) (sat : Bool) (v : Fl) : Nat × Fx :=
  let w := iWidth g
  let sg := iSigned g
  match v with
  | .nan => (0, fIV)
  | .inf s => (if sat then wrapPat w (if s then iMin w sg else iMax w sg) else 0, fIV)
  | .fin s m e =>
    let (n, inexact) := roundInt mode s m e
    let out := n < iMin w sg || iMax w sg < n
    (wrapPat w (if sat then satVal w sg n else n), (if out then fIV else 0) ||| (if inexact then fNX else 0))

/-- A conversion between formats (R92): pattern and flags. -/
def cvt (f g mode : Nat) (sat : Bool) (p : Nat) : Nat × Fx :=
  if isFloat f then
    if isFloat g then roundFl g mode sat (decodeF f p) else cvtFI g mode sat (decodeF f p)
  else
    let x := toVal (iWidth f) (iSigned f) p
    if isFloat g then roundF g mode sat (x < 0) x.natAbs 0
    else
      let w := iWidth g
      let y := if sat then satVal w (iSigned g) x else x
      (wrapPat w y, if sat && y != x then fSA else 0)

/-! ## Profiles (R99 to R104) -/

/-- P0 (R99): the sum of integer products with promotion after every `n`; the wrapped accumulator and OVF. -/
def p0Sum (n : Nat) : List Int → Int → Nat → Int → Bool → Int × Bool
  | [], inner, count, acc, ovf =>
    if count = 0 then (acc, ovf)
    else
      let t := acc + inner
      (toVal 32 true (wrapPat 32 t), ovf || t < -(2 ^ 31 : Nat) || (2 ^ 31 : Nat) ≤ t)
  | p :: r, inner, count, acc, ovf =>
    if count + 1 = n then
      let t := acc + (inner + p)
      p0Sum n r 0 0 (toVal 32 true (wrapPat 32 t)) (ovf || t < -(2 ^ 31 : Nat) || (2 ^ 31 : Nat) ≤ t)
    else p0Sum n r (inner + p) (count + 1) acc ovf

/-- Floor of a finite value over 2^k. -/
def floorAt (s : Bool) (m : Nat) (e k : Int) : Int :=
  if k ≤ e then sgn s m * 2 ^ (e - k).toNat else sgn s m / 2 ^ (k - e).toNat

/-- The aligned sum of R101: FP32 pattern and flags (OF for OVF, IV for INV). `anyNaN` tells whether an input was NaN. -/
def alignedSum (w mode : Nat) (anyNaN : Bool) (ts : List Fl) : Nat × Fx :=
  let infs (b : Bool) : Bool := ts.any fun t => match t with | .inf s => s = b | _ => false
  let allNegZero := ts.all fun t => match t with | .fin s m _ => s && m = 0 | _ => false
  let zeroRes : Nat := zeroPat 10 allNegZero
  if ts.any Fl.isNaN || (infs true && infs false) then (canonNaN 10, if anyNaN then 0 else fIV)
  else if infs true then (infPat 10 true, 0)
  else if infs false then (infPat 10 false, 0)
  else
    let tops := ts.filterMap fun t => match t with
      | .fin _ m e => if m = 0 then none else some ((m.log2 : Int) + e)
      | _ => none
    match tops with
    | [] =>
      -- −0 only when every term is −0
      (zeroPat 10 (ts.all fun t => match t with | .fin s _ _ => s | _ => false), 0)
    | t0 :: r =>
      let k := r.foldl max t0 - ((w : Int) - 7)
      let sum := ts.foldl (fun acc t => match t with | .fin s m e => acc + floorAt s m e k | _ => acc) (0 : Int)
      if sum = 0 then (zeroRes, 0)
      else
        let (p, x) := roundF 10 mode false (sum < 0) sum.natAbs k
        (p, x &&& fOF)

/-- One group of products added to an FP32 accumulator (R101): a and b are the element values of the group. -/
def groupSum (w mode : Nat) (acc : Nat) (ps : List (Fl × Fl)) : Nat × Fx :=
  let a := decodeF 10 acc
  let anyNaN := a.isNaN || ps.any fun p => p.1.isNaN || p.2.isNaN
  alignedSum w mode anyNaN (a :: ps.map fun p => (flMul p.1 p.2).1)

/-- Groups of at most n elements. -/
def chunks {α : Type} (n : Nat) : Nat → List α → List (List α)
  | 0, _ => []
  | fuel + 1, l => if l.isEmpty then [] else l.take n :: chunks n fuel (l.drop n)

/-- The sums of a whole word under P1 (w 25, groups of 16) or P2 and P4 (w 38, groups of 8) (R101, R102, R104). -/
def groupsSum (w g mode acc : Nat) (ps : List (Fl × Fl)) : Nat × Fx :=
  (chunks g ps.length ps).foldl (fun (a, x) grp =>
    let (a', y) := groupSum w mode a grp
    (a', x ||| y)) (acc, 0)

/-- P3 (R103): fused multiply-adds in order. -/
def p3Sum (acc : Nat) (ps : List (Fl × Fl)) : Nat × Fx :=
  ps.foldl (fun (a, x) p =>
    let (a', y) := fpFma 10 0 p.1 p.2 (decodeF 10 a)
    (a', x ||| y)) (acc, 0)

/-! ## Table-defined functions (R106, R107) -/

/-- n / d rounded to nearest even. -/
def divNE (n d : Nat) : Nat :=
  let q := n / d
  let r := n % d
  if 2 * r < d then q else if d < 2 * r then q + 1 else q + q % 2

/-- Knots of VRCP (R107): 2^23 × (2 / (1 + j/128) − 1). -/
def knotRcp (j : Nat) : Nat := divNE (2 ^ 23 * (128 - j)) (128 + j)

/-- Knots of VRSQ for t (R107). -/
def knotRsq (t j : Nat) : Nat :=
  let n := 2 ^ 48 * 128
  let d := 2 ^ t * (128 + j)
  let k := isqrt (n / d)
  (if 4 * n < (2 * k + 1) * (2 * k + 1) * d then k else if (2 * k + 1) * (2 * k + 1) * d < 4 * n then k + 1 else k + k % 2) - 2 ^ 23

/-- The largest x below 2^i + r with x^128 ≤ n, by bits. -/
def root128 (n : Nat) : Nat → Nat → Nat
  | 0, r => r
  | i + 1, r => root128 n i (if (r + 2 ^ i) ^ 128 ≤ n then r + 2 ^ i else r)

/-- Knots of VEXP2 (R107): 2^23 × (2^(j/128) − 1). -/
def knotExp (j : Nat) : Nat :=
  let n := 2 ^ (23 * 128 + j)
  let k := root128 n 25 0
  (if (2 * k + 1) ^ 128 ≤ 2 ^ 128 * n then (if (2 * k + 1) ^ 128 = 2 ^ 128 * n then k + k % 2 else k + 1) else k) - 2 ^ 23

/-- Binary digits of log2 of x / 2^200, x in [2^200, 2^201), most significant first. -/
def logBits : Nat → Nat → Nat → Nat
  | 0, _, acc => acc
  | i + 1, x, acc =>
    let y := x * x / 2 ^ 200
    if 2 ^ 201 ≤ y then logBits i (y / 2) (2 * acc + 1) else logBits i y (2 * acc)

/-- Knots of VLOG2 (R107): 2^23 × log2(1 + j/128); 24 digits, the last one rounding. -/
def knotLog (j : Nat) : Nat := if j = 128 then 2 ^ 23 else (logBits 24 (2 ^ 200 * (128 + j) / 128) 0 + 1) / 2

/-- Interpolation between knots (R106). -/
def interp (k : Nat → Nat) (u : Nat) : Int :=
  let i := u / 2 ^ 16
  let f : Nat := u % 2 ^ 16
  (k i : Int) + ((k (i + 1) : Int) - (k i : Int)) * (f : Int) / 2 ^ 16

/-- A nonzero finite value as 2^e × (1 + u / 2^23): e and u (R106). -/
def normal23 (m : Nat) (e : Int) : Int × Nat :=
  let l := m.log2
  (e + l, (if l ≤ 23 then m * 2 ^ (23 - l) else m / 2 ^ (l - 23)) - 2 ^ 23)

/-- VRCP of an FP32 pattern (R107). -/
def fRcp (p : Nat) : Nat × Fx :=
  match decodeF 10 p with
  | .nan => (canonNaN 10, 0)
  | .inf s => (zeroPat 10 s, 0)
  | .fin s m e =>
    if m = 0 then (infPat 10 s, fDZ)
    else
      let (x, u) := normal23 m e
      roundF 10 0 false s (2 ^ 23 + interp knotRcp u).toNat (-x - 1 - 23)

/-- VRSQ of an FP32 pattern (R107). -/
def fRsq (p : Nat) : Nat × Fx :=
  match decodeF 10 p with
  | .nan => (canonNaN 10, 0)
  | .inf s => if s then (canonNaN 10, fIV) else (zeroPat 10 false, 0)
  | .fin s m e =>
    if m = 0 then (infPat 10 s, fDZ)
    else if s then (canonNaN 10, fIV)
    else
      let (x, u) := normal23 m e
      let t := (x % 2).toNat
      roundF 10 0 false false (2 ^ 23 + interp (knotRsq t) u).toNat (-((x - t) / 2) - 1 - 23)

/-- VEXP2 of an FP32 pattern (R107). -/
def fExp2 (p : Nat) : Nat × Fx :=
  match decodeF 10 p with
  | .nan => (canonNaN 10, 0)
  | .inf s => (if s then zeroPat 10 false else infPat 10 false, 0)
  | .fin s m e =>
    if m = 0 then (0x3F800000, 0)
    else
      let n := floorAt s m e 0
      let u := (floorAt s m e (-23) - n * 2 ^ 23).toNat
      roundF 10 0 false false (2 ^ 23 + interp knotExp u).toNat (n - 23)

/-- VLOG2 of an FP32 pattern (R107). -/
def fLog2 (p : Nat) : Nat × Fx :=
  match decodeF 10 p with
  | .nan => (canonNaN 10, 0)
  | .inf s => if s then (canonNaN 10, fIV) else (infPat 10 false, 0)
  | .fin s m e =>
    if m = 0 then (infPat 10 true, fDZ)
    else if s then (canonNaN 10, fIV)
    else
      let (x, u) := normal23 m e
      let v : Int := x * 2 ^ 23 + interp knotLog u
      roundF 10 0 false (v < 0) v.natAbs (-23)

end Sys2Proof.Machine
end

