-- ==== Sys2Proof/Machine/Btc.lean ====
section
/-!
DEFINITION. The BTC4 coder (R108 to R112).
-/

namespace Sys2Proof.Machine

/-- Bits of coefficient (u, v) by budget code (R109). -/
def btcAlloc (budget u v : Nat) : Nat :=
  let rows : List (List Nat) :=
    if budget = 0 then [[9, 4, 2, 0], [4, 3, 0, 0], [2, 0, 0, 0], [0, 0, 0, 0]]
    else if budget = 1 then [[11, 7, 4, 3], [7, 5, 3, 2], [4, 3, 2, 0], [3, 2, 0, 0]]
    else if budget = 2 then [[12, 9, 6, 5], [9, 6, 5, 4], [6, 5, 4, 3], [5, 4, 3, 2]]
    else [[13, 10, 8, 7], [10, 8, 7, 6], [8, 7, 6, 6], [7, 6, 6, 5]]
  lget (lget rows u []) v 0

/-- Walsh–Hadamard row u at position i (R109). -/
def btcH (u i : Nat) : Int :=
  lget (lget [[1, 1, 1, 1], [1, 1, -1, -1], [1, -1, -1, 1], [1, -1, 1, -1]] u []) i 0

/-- The 16 positions of a block, row by row. -/
def btcPos : List (Nat × Nat) := (List.range 16).map fun n => (n / 4, n % 4)

/-- Largest floor of log2 of the magnitudes of a list of finite values. -/
def topLog : List Fl → Int → Int
  | [], d => d
  | .fin _ m e :: r, d => topLog r (if m = 0 then d else max d ((m.log2 : Int) + e))
  | _ :: r, d => topLog r d

/-- The smallest normal exponent of FP16 or BF16. -/
def btcMinExp (f : Nat) : Int := if f = 8 then -14 else -126

/-- Header byte and integers X of a block of 16 patterns (R108). -/
def btcMap (f : Nat) (x : List Nat) : Nat × List Int :=
  if f = 2 then
    let v := x.map fun p => toVal 8 true p
    (if v.all (· = 0) then 0 else 1, v.map (16 * ·))
  else
    let v := x.map (decodeF f)
    if v.any fun t => match t with | .fin _ _ _ => false | _ => true then (0xFF, List.replicate 16 0)
    else if v.all fun t => match t with | .fin _ m _ => m = 0 | _ => false then (0, List.replicate 16 0)
    else
      let e := max (topLog v (btcMinExp f)) (btcMinExp f)
      ((e + fBias f).toNat, v.map fun t => match t with
        | .fin s m k => (roundInt 0 s m (k - (e - 10))).1
        | _ => 0)

/-- The quantised coefficient (u, v) (R109). -/
def btcCoef (budget : Nat) (xs : List Int) (u v : Nat) : Int :=
  let b := btcAlloc budget u v
  if b = 0 then 0
  else
    let y := btcPos.foldl (fun acc (i, j) => acc + btcH u i * btcH v j * lget xs (4 * i + j) 0) 0
    let s := 17 - b
    satVal b true ((y + 2 ^ (s - 1)) / 2 ^ s)

/-- The coded block as a number, header in bits [7:0], then the coefficients (R110). -/
def btcPack (budget hdr : Nat) (xs : List Int) : Nat :=
  (btcPos.foldl (fun (acc : Nat × Nat) (u, v) =>
    let b := btcAlloc budget u v
    (acc.1 + wrapPat b (btcCoef budget xs u v) * 2 ^ acc.2, acc.2 + b)) (hdr, 8)).1

/-- Whether a header can be produced for a format (R111). -/
def btcProducible (f hdr : Nat) : Bool :=
  if f = 2 then hdr ≤ 1 else if f = 8 then hdr ≤ 0x1E || hdr = 0xFF else hdr ≤ 0xFF

/-- The coefficients of a coded block, scaled to Y' (R111). -/
def btcUnpack (budget n : Nat) : List Int :=
  (btcPos.foldl (fun (acc : List Int × Nat) (u, v) =>
    let b := btcAlloc budget u v
    (acc.1 ++ [if b = 0 then 0 else toVal b true (n / 2 ^ acc.2) * 2 ^ (17 - b)], acc.2 + b)) ([], 8)).1

/-- The decoder (R111): 16 patterns, and whether the block is corrupt. DEDUCED: a negative value that rounds to zero gives −0; only an exact zero
gives +0 (log 100). -/
def btcDecode (f budget : Nat) (bs : List Byte) : List Nat × Bool :=
  let n := leNat bs
  let hdr := n % 256
  if !btcProducible f hdr then (List.replicate 16 0, true)
  else if hdr = 0 then (List.replicate 16 0, false)
  else if hdr = 0xFF then (List.replicate 16 (canonNaN f), false)
  else
    let y := btcUnpack budget n
    let x := btcPos.map fun (i, j) =>
      btcPos.foldl (fun acc (u, v) => acc + btcH u i * btcH v j * lget y (4 * u + v) 0) (0 : Int)
    (x.map fun t =>
      if f = 2 then wrapPat 8 (satVal 8 true (roundInt 0 (t < 0) t.natAbs (-8)).1)
      else if t = 0 then 0
      else (roundF f 0 true (t < 0) t.natAbs ((hdr : Int) - fBias f - 10 - 4)).1, false)

/-- The coder: the block's bytes and its side-table byte (R108 to R112). -/
def btcEncode (f budget : Nat) (x : List Nat) : List Byte × Byte :=
  let (hdr, xs) := btcMap f x
  let bytes := leBytes (4 * (budget + 1)) (btcPack budget hdr xs)
  if hdr = 0xFF && f != 2 then (bytes, 0x7C)
  else
    let y := (btcDecode f budget bytes).1
    let val (p : Nat) : Fl := if f = 2 then let v := toVal 8 true p; .fin (v < 0) v.natAbs 0 else decodeF f p
    let errs := (x.zip y).map fun (a, b) => match (flAdd 0 (val a) (flNeg (val b))).1 with
      | .fin _ m e => Fl.fin false m e
      | t => t
    let worst := errs.foldl (fun w t => if flCmp w t < 0 then t else w) (.fin false 0 0)
    (bytes, BitVec.ofNat 8 (roundFl 7 3 false worst).1)

end Sys2Proof.Machine
end

