-- ==== Sys2Proof/Machine/Flight.lean ====
section
/-!
DEFINITION. What effects in flight carry: the answers of homes, and the bytes that a write into a scratchpad lands (R40, R66, R297).
-/

namespace Sys2Proof.Machine

/-- Bits per element of a format code (R59). -/
def fmtBits (f : Nat) : Nat := lget [4, 8, 8, 16, 32, 64, 8, 8, 16, 16, 32, 8] f 8

/-- A nibble of a byte. -/
def nibOf (b : Byte) (hi : Bool) : Nat := if hi then b.toNat / 16 else b.toNat % 16

/-- Adjacent pieces with equal marks joined, in order. -/
def joinPieces : List Piece → List Piece
  | [] => []
  | p :: r =>
    match joinPieces r with
    | q :: t => if p.addr + p.bytes.length = q.addr && p.poison = q.poison
        then { p with bytes := p.bytes ++ q.bytes } :: t else p :: q :: t
    | [] => [p]

/-- A byte after the pieces of a list that cover it. -/
def overlay (ps : List Piece) (a : Nat) (b : Byte) : Byte :=
  ps.foldl (fun b p => if p.addr ≤ a && a < p.addr + p.bytes.length then lget p.bytes (a - p.addr) 0 else b) b

/-- The bytes with which operation `need` of an effect answered, and its marks per piece. -/
def State.answer (s : State) (p : Pend) : List Piece :=
  match p.need with
  | some id => match s.gops.find? fun o => o.id = id with
    | some o => o.data
    | none => []
  | none => []

/-- Whether `id` is a read of SP3 that is yet to be performed, or an effect or operation that waits for one (R77, R201). -/
def State.isLate (s : State) (id : Nat) : Bool := s.late.any fun l => l.id = id || l.made.contains id || l.chk.contains id

/-- Whether the operation that an effect needs has been performed, and the read of SP3 that formed it. -/
def State.needMet (s : State) (p : Pend) : Bool :=
  !s.isLate p.id && match p.need with
  | some id => !(s.gops.any fun o => o.id = id && !o.done)
  | none => true

/-- Whether bytes [o, o + n) of a sequence of pieces touch a marked one. -/
def markedRange (a : List Piece) (o n : Nat) : Bool :=
  (a.foldl (fun (st : Nat × Bool) p =>
    (st.1 + p.bytes.length, st.2 || (p.poison && o < st.1 + p.bytes.length && st.1 < o + n))) (0, false)).2

/-- A nibble of a byte sequence. -/
def nibAt (bs : List Byte) (i : Nat) : Nat := nibOf (lget bs (i / 2) 0) (i % 2 = 1)

/-- The parts (start, length, mark) of bytes [o, o + n) of a sequence of pieces, cut where its pieces meet (R145). -/
def cutRange : List Piece → Nat → Nat → List (Nat × Nat × Bool)
  | [], _, _ => []
  | p :: r, o, n =>
    let l := p.bytes.length
    if n = 0 then []
    else if l ≤ o then (cutRange r (o - l) n).map fun x => (x.1 + l, x.2)
    else
      let m := Nat.min n (l - o)
      (o, m, p.poison) :: (cutRange r 0 (n - m)).map fun x => (x.1 + l, x.2)

/-- A nibble written after the pieces of a list (last first) and over `old`; a byte whose other nibble the last piece wrote stays one piece
(R351). -/
def nibPiece (old : Nat → Byte) (ps : List Piece) (a : Nat) (hi : Bool) (v : Nat) (poi : Bool) : List Piece :=
  let was := overlay ps.reverse a (old a)
  let b : Byte := BitVec.ofNat 8 (if hi then v % 16 * 16 + was.toNat % 16 else was.toNat / 16 * 16 + v % 16)
  match ps with
  | p :: r => if p.addr = a && p.bytes.length = 1 then { p with bytes := [b], poison := p.poison || poi } :: r
      else { addr := a, bytes := [b], poison := poi } :: ps
  | [] => [{ addr := a, bytes := [b], poison := poi }]

/-- The pieces of a copy of runs counted in nibbles, over `old`, what the level holds (R40, R297). -/
def runPieces (old : Nat → Byte) (a : List Piece) (runs : List (Nat × Nat × Nat)) : List Piece :=
  let bs := a.flatMap (·.bytes)
  runs.flatMap fun (d, o, l) =>
    if d % 2 = 0 && o % 2 = 0 && l % 2 = 0 then
      joinPieces ((cutRange a (o / 2) (l / 2)).map fun (x, n, poi) => { addr := d / 2 + (x - o / 2), bytes := (bs.drop x).take n, poison := poi })
    else
      joinPieces ((List.range l).foldl (fun ps i =>
        nibPiece old ps ((d + i) / 2) ((d + i) % 2 = 1) (nibAt bs (o + i)) (markedRange a ((o + i) / 2) 1)) []).reverse

/-- The pieces that decoded blocks write, and whether a block was corrupt (R66, R111). -/
def btcPieces (fmt budget : Nat) (bs : List Byte) (dst : List Nat) : List Piece × Bool :=
  let bb := 4 * (budget + 1)
  let blocks := (List.range (dst.length / 16)).map fun b => btcDecode fmt budget ((bs.drop (b * bb)).take bb)
  let vals := blocks.flatMap (·.1)
  (joinPieces ((dst.zip vals).map fun (a, v) => { addr := a, bytes := leBytes (fmtBits fmt / 8) v, poison := false }),
   blocks.any (·.2))

/-- Bytes that a CMFETCH copies: header and cell records, clipped (R113, R318). -/
def mapBytes (bs : List Byte) (cap : Nat) : Nat := Nat.min cap (32 + 8 * bnat bs 4 2 * bnat bs 6 2)

/-- The level, the pieces and the consumption of poison of an effect that writes a scratchpad; `old` is what a level holds at an
address. -/
def State.effPieces (s : State) (old : Nat → Nat → Byte) (p : Pend) : Option (Nat × List Piece × Bool) :=
  let a := s.answer p
  let bs := a.flatMap (·.bytes)
  match p.eff with
  | .sp lvl ps => some (lvl, ps, false)
  | .spData lvl runs fill =>
    some (lvl, runPieces (old lvl) (a ++ [{ addr := 0, bytes := fill, poison := false }]) runs, false)
  | .spBtc lvl fmt budget dst =>
    let r := btcPieces fmt budget bs dst
    some (lvl, r.1, r.2 || a.any (·.poison))
  | .cmap lvl x cap =>
    let n := mapBytes bs cap
    some (lvl, joinPieces ((cutRange a 0 n).map fun (o, l, poi) => { addr := x + o, bytes := (bs.drop o).take l, poison := poi }), false)
  | _ => none

end Sys2Proof.Machine
end

