-- ==== Sys2Proof/Machine/Mem.lean ====
section
/-!
DEFINITION. The memory levels (R54 to R57), what a core's read of them sees (R73), the landing of writes (R39), global
memory and the queues' operations at their homes (R75 to R78), and translation through pinned ranges (R70).
-/

namespace Sys2Proof.Machine

/-- Bytes of SP level `lvl` (R54). -/
def lvlSize (lvl : Nat) : Nat :=
  if lvl = 0 then Config.sp1Size else if lvl = 1 then Config.sp2Size else Config.sp3Size

/-! ## Operations that others wait for (R75 to R78) -/

/-- Whether operation or effect `id` of core k is over for every party, through at most n writes into SP3 that wait for one another. -/
def State.depOver (s : State) (k : Nat) : Nat → Nat → Bool
  | 0, _ => true
  | n + 1, id =>
    !(s.gops.any fun o => o.id = id && !o.done) && !((s.core k).pend.any fun p => p.id = id) &&
    !(s.mem.spq.any fun w => w.id = id && w.lvl = 2 && (s.tide < w.due || w.deps.any fun d => !s.depOver k n d))

/-- Whether operation or effect `id` of core k is over: performed at its home, gone, or landed and visible to all (R75). -/
def State.depDone (s : State) (k id : Nat) : Bool := s.depOver k (s.mem.spq.length + 1) id

/-- Whether the homes and other gangs see a landed write (R74, R75, R77): an SP3 write from its free cycle on, after what it waits for. -/
def State.shown (s : State) (w : SpWrite) : Bool :=
  w.lvl != 2 || (w.due ≤ s.tide && w.deps.all fun d => s.depDone w.writer d)

/-! ## What a read of SP2 or SP3 sees (R73, R74) -/

/-- Whether core k at its gang cycle sees a landed SP2 or SP3 write (R73), or has acquired it (R81); another gang sees it once it is
performed (R74, R75). -/
def State.seesWrite (s : State) (k : Nat) (w : SpWrite) : Bool :=
  let r := (s.core k).run
  if r.berth = some w.berth then w.land + 1 + 2 * (s.core w.writer).run.hop ≤ r.g + 2 * r.hop || w.seen.contains k
  else s.shown w

/-- A byte of SP2 or SP3 after the landed writes that core k sees. -/
def State.spLanded (s : State) (k lvl a : Nat) : Byte :=
  let unit := if lvl = 1 then cluster k else 0
  let base := if lvl = 1 then mread (lget s.mem.sp2 unit []) a else mread s.mem.sp3 a
  (s.mem.spq.filter fun w => w.lvl = lvl && w.unit = unit && s.seesWrite k w).foldl (fun b w => overlay w.ps a b) base

/-- An effect in flight put before the first that lands later. -/
def byLanding (p : Nat × Pend) : List (Nat × Pend) → List (Nat × Pend)
  | [] => [p]
  | q :: r => if p.2.land < q.2.land then p :: q :: r else q :: byLanding p r

/-- The pieces of SP2 or SP3 writes of members with smaller hop counts that core k sees although, on the normalised clock, they have yet to
land (R73; log 2). -/
def State.spAhead (s : State) (k lvl : Nat) : List Piece :=
  let r := (s.core k).run
  let ahead (m : Nat) : List (Nat × Pend) :=
    let w := (s.core m).run
    if w.hop < r.hop && w.berth = r.berth && (lvl = 2 || cluster m = cluster k) then
      ((s.core m).pend.filter fun p => !p.tide && p.land + 1 + 2 * w.hop ≤ r.g + 2 * r.hop && s.needMet p).map fun p => (m, p)
    else []
  if r.berth.isNone then []
  else (((List.range 24).flatMap ahead).foldl (fun l p => byLanding p l) []).flatMap fun x =>
    match s.effPieces (fun l a => s.spLanded x.1 l a) x.2 with
    | some (l, ps, _) => if l = lvl then ps else []
    | none => []

/-- n bytes of a level as core k sees them now (R73). -/
def State.spRead (s : State) (k lvl a n : Nat) : List Byte :=
  if lvl = 0 then (List.range n).map fun i => mread (s.core k).mem.sp1 (a + i)
  else
    let ps := s.spAhead k lvl
    (List.range n).map fun i => overlay ps (a + i) (s.spLanded k lvl (a + i))

/-- A byte of a level as core k sees it now. -/
def State.spByte (s : State) (k lvl a : Nat) : Byte := lget (s.spRead k lvl a 1) 0 0

/-- Whether a run of bytes touches a poisoned granule of the level (R57; log 16). -/
def State.spPoison (s : State) (k lvl a n : Nat) : Bool :=
  poisoned (if lvl = 0 then (s.core k).mem.sp1Poi else if lvl = 1 then lget s.mem.sp2Poi (cluster k) [] else s.mem.sp3Poi) a n

/-- A piece without its bytes [a, a + n). -/
def Piece.without (p : Piece) (a n : Nat) : List Piece :=
  let e := p.addr + p.bytes.length
  (if p.addr < a then [{ p with bytes := p.bytes.take (a - p.addr) }] else []) ++
  (if a + n < e then [{ p with addr := Nat.max p.addr (a + n), bytes := p.bytes.drop (a + n - p.addr) }] else [])

/-- What is written of a piece at a home: ARMED of a sync object that the home has served keeps its value (R79; log 66). -/
def State.cutArmed (s : State) (tgt : Nat) (p : Piece) : List Piece :=
  s.mem.syncs.foldl (fun ps (t, a) =>
    if t = tgt then ps.flatMap fun (q : Piece) => if q.addr < a + 10 && a + 8 < q.addr + q.bytes.length then q.without (a + 8) 2 else [q]
    else ps) [p]

/-- The reservations that a write of pieces at a target leaves: those it does not meet (R403). -/
def cutResv (rs : List (Nat × Nat × Nat × Nat)) (tgt : Nat) (ps : List Piece) : List (Nat × Nat × Nat × Nat) :=
  rs.filter fun r => !(r.2.1 = tgt && ps.any fun p => p.addr < r.2.2.1 + r.2.2.2 && r.2.2.1 < p.addr + p.bytes.length)

/-- Pieces of core k land in a level at gang cycle `land`; `id`, `queue` and `deps` serve other gangs and the homes, which see an SP3
write from a free cycle on, no sooner than the members do (R39, R57, R73, R75, R201; log 8). -/
def State.landSp (s : State) (k lvl land id queue : Nat) (deps : List Nat) (ps : List Piece) : State :=
  if lvl = 0 then
    s.modCore k fun c => { c with mem := { c.mem with sp1 := ps.foldl mwriteP c.mem.sp1, sp1Poi := poiWrites c.mem.sp1Poi ps } }
  else
    let unit := if lvl = 1 then cluster k else 0
    let w : SpWrite := { id := id, deps := deps, lvl := lvl, unit := unit, writer := k,
                         berth := (s.core k).run.berth.getD 32, land := land,
                         ps := if lvl = 2 then ps.flatMap (s.cutArmed 3) else ps, queue := queue,
                         due := if lvl = 2 then s.tide + 1 + 2 * (s.core k).run.hop + Config.freeNat s.free else 0 }
    let m := s.mem
    { s with mem := { m with spq := m.spq ++ [w]
                             sp2Poi := if lvl = 1 then lmod m.sp2Poi unit [] fun l => poiWrites l ps else m.sp2Poi
                             sp3Poi := if lvl = 2 then poiWrites m.sp3Poi ps else m.sp3Poi
                             resv := if lvl = 2 then cutResv m.resv 3 ps else m.resv }
             free := if lvl = 2 then s.free + 1 else s.free }

/-- Whether two lists of pieces share a byte. -/
def piecesMeet (ps qs : List Piece) : Bool :=
  ps.any fun p => qs.any fun q => p.addr < q.addr + q.bytes.length && q.addr < p.addr + p.bytes.length

/-- Pieces that a home itself writes into SP3, or that reach it from outside the cores: after what it has shown of their bytes, before
what it has not (R75). `whole` are the pieces of the write, which clear the marks of the granules that they cover (R57). -/
def State.putSp3 (s : State) (ps whole : List Piece) : State :=
  let w : SpWrite := { id := 0, deps := [], lvl := 2, unit := 0, writer := 24, berth := 32, land := 0, ps := ps }
  let later := (s.mem.spq.reverse.takeWhile fun x => !(x.lvl = 2 && s.shown x && piecesMeet x.ps ps)).reverse
  { s with mem := { s.mem with spq := s.mem.spq.take (s.mem.spq.length - later.length) ++ w :: later
                               sp3Poi := poiWrites s.mem.sp3Poi whole, resv := cutResv s.mem.resv 3 whole } }

/-- SP3 writes of a berth become visible to every party: they are performed when the gang completes (R81). -/
def State.showBerth (s : State) (berth : Nat) : State :=
  { s with mem := { s.mem with spq := s.mem.spq.map fun (w : SpWrite) => if w.berth = berth then { w with due := 0, deps := [] } else w } }

/-- Whether every party sees an SP2 or SP3 write: 17 gang cycles after its landing no member's view can differ (R73). -/
def State.spOld (s : State) (w : SpWrite) : Bool :=
  s.shown w &&
    match s.gang w.berth with
    | some g => g.members.all fun m => w.land + 17 ≤ (s.core m).run.g
    | none => true

/-- One write put into its memory. -/
def Mem.absorb (m : Mem) (w : SpWrite) : Mem :=
  if w.lvl = 1 then { m with sp2 := lmod m.sp2 w.unit [] fun x => w.ps.foldl mwriteP x }
  else { m with sp3 := w.ps.foldl mwriteP m.sp3 }

/-- The leading writes that every party sees go into the memories, in order; none while a read of SP3 is yet to be performed that may precede
them (R77). -/
def State.mergeSpq (s : State) : State :=
  let old := if s.late.isEmpty then s.mem.spq.takeWhile s.spOld else []
  { s with mem := { old.foldl Mem.absorb s.mem with spq := s.mem.spq.drop old.length } }

/-! ## Global memory (R54, R75) -/

/-- A byte at a home: HBM, PCIe memory, or (target 3) SP3 with every write that has been performed (R75). -/
def State.gByte (s : State) (tgt a : Nat) : Byte :=
  if tgt = 0 then mread s.mem.hbm a
  else if tgt = 3 then
    (s.mem.spq.filter fun w => w.lvl = 2 && s.shown w).foldl (fun b w => overlay w.ps a b) (mread s.mem.sp3 a)
  else mread s.mem.pcie a

/-- n bytes at a home. -/
def State.gRead (s : State) (tgt a n : Nat) : List Byte := (List.range n).map fun i => s.gByte tgt (a + i)

/-- The little-endian number at a home. -/
def State.gNat (s : State) (tgt a n : Nat) : Nat := leNat (s.gRead tgt a n)

/-- Whether a run of bytes touches a poisoned granule at its home. -/
def State.gPoison (s : State) (tgt a n : Nat) : Bool :=
  poisoned (if tgt = 0 then s.mem.hbmPoi else if tgt = 3 then s.mem.sp3Poi else s.mem.pciePoi) a n

/-- The pieces of one write at a home, but for ARMED (R57, R75, R79). -/
def State.gWrite (s : State) (tgt : Nat) (ps : List Piece) : State :=
  let qs := ps.flatMap (s.cutArmed tgt)
  if tgt = 0 then { s with mem := { s.mem with hbm := qs.foldl mwriteP s.mem.hbm, hbmPoi := poiWrites s.mem.hbmPoi ps, resv := cutResv s.mem.resv 0 ps } }
  else if tgt = 3 then s.putSp3 qs ps
  else { s with mem := { s.mem with pcie := qs.foldl mwriteP s.mem.pcie, pciePoi := poiWrites s.mem.pciePoi ps, resv := cutResv s.mem.resv tgt ps } }

/-! ## Pinned ranges (R70) -/

/-- The physical runs (target, address, length) of n bytes from va on through pins; none where a byte is not pinned. -/
def xlatePins (pins : List Pin) : Nat → Nat → Nat → Option (List (Nat × Nat × Nat))
  | 0, _, n => if n = 0 then some [] else none
  | fuel + 1, va, n =>
    if n = 0 then some []
    else match pins.find? fun p => p.va ≤ va && va < p.va + p.len with
      | none => none
      | some p =>
        let l := Nat.min n (p.va + p.len - va)
        match xlatePins pins fuel (va + l) (n - l) with
        | none => none
        | some r => some ((p.tgt, p.pa + (va - p.va), l) :: r)

/-- The physical runs of n bytes from va on through the pinned range of a descriptor. -/
def Desc.xlate (d : Desc) (va n : Nat) : Option (List (Nat × Nat × Nat)) := xlatePins d.pins (d.pins.length + 1) va n

/-- The bytes of a piece laid over physical runs. -/
def splitRuns : List (Nat × Nat × Nat) → List Byte → Bool → List (Nat × Piece)
  | [], _, _ => []
  | (t, a, l) :: r, bs, poi => (t, { addr := a, bytes := bs.take l, poison := poi }) :: splitRuns r (bs.drop l) poi

/-! ## Queues at their homes (R75 to R77) -/

/-- The physical runs that an operation touches. -/
def GKind.runs : GKind → List (Nat × Nat × Nat)
  | .write ps => ps.map fun (t, p) => (t, p.addr, p.bytes.length)
  | .read rs => rs
  | .srel t a => [(t, a, 8)]
  | .wait t a _ => [(t, a, 8)]
  | .atomic t a _ size _ _ _ => [(t, a, size)]
  | .walk => []

/-- Whether an operation writes. -/
def GKind.writes : GKind → Bool
  | .write _ => true
  | .srel _ _ => true
  | .atomic _ _ _ _ _ _ _ => true
  | _ => false

/-- Whether two lists of physical runs share a byte; host and peer memory share one bus address space. -/
def runsMeet (a b : List (Nat × Nat × Nat)) : Bool :=
  a.any fun (t, x, l) => b.any fun (t', x', l') => (t = t' || (t = 1 && t' = 2) || (t = 2 && t' = 1)) && x < x' + l' && x' < x + l

/-- The first and last byte that an effect in flight writes in an SP level, piece by piece. -/
def Eff.spans : Eff → Nat × List (Int × Int)
  | .sp lvl ps => (lvl, ps.map fun p => ((p.addr : Int), (p.addr : Int) + p.bytes.length - 1))
  | .mcast ps => (0, ps.map fun p => ((p.addr : Int), (p.addr : Int) + p.bytes.length - 1))
  | .spData lvl rs _ => (lvl, rs.map fun (a, _, l) => (((a / 2 : Nat) : Int), (((a + l - 1) / 2 : Nat) : Int)))
  | .spBtc lvl fmt _ dst => (lvl, dst.map fun (a : Nat) => ((a : Int), (a : Int) + ((fmtBits fmt / 8 : Nat) : Int) - 1))
  | .cmap lvl a cap => (lvl, [((a : Int), (a : Int) + cap - 1)])
  | .atomRet (some (a, n)) => (0, [((a : Int), (a : Int) + n - 1)])
  | .manifest lvl a n => (lvl, if n = 0 then [] else [((a : Int), (a : Int) + n - 1)])
  | _ => (0, [])

/-- Whether a run lies in host or peer memory, behind the PCIe link. -/
def pcieRun (r : Nat × Nat × Nat) : Bool := r.1 = 1 || r.1 = 2

/-- The earlier operations of queue `unit` of core k that one of kind `kind` must follow: those on common bytes (R76), for a store of the
sequencer its releases (R225), and at the PCIe link the data queue's posted writes (R407). -/
def State.ownDeps (s : State) (k unit : Nat) (kind : GKind) : List Nat :=
  let store := match kind with | .write _ => true | _ => false
  (s.gops.filter fun o => o.core = k && o.unit = unit && !o.done &&
    (runsMeet o.kind.runs kind.runs ||
     (match o.kind with
      | .srel _ _ => unit = 0 && store
      | .write _ => unit = 3 && o.kind.runs.any pcieRun && kind.runs.any pcieRun
      | _ => false))).map (·.id)

/-- A span (first and last byte) of SP3 as a run. -/
def sp3Run (r : Int × Int) : Nat × Nat × Nat := (3, r.1.toNat, (r.2 + 1 - r.1).toNat)

/-- The SP3 writes of queue `unit` of core k, in flight or landed, that the homes have yet to see (R76, R77): name and runs. -/
def State.openSp3 (s : State) (k unit : Nat) : List (Nat × List (Nat × Nat × Nat)) :=
  (((s.core k).pend.filter fun p => p.unit = unit && p.eff.intoSp3).map fun p => (p.id, p.eff.spans.2.map sp3Run)) ++
  ((s.mem.spq.filter fun w => w.lvl = 2 && w.writer = k && w.queue = unit && w.id != 0 && !s.shown w).map fun w =>
    (w.id, w.ps.map fun p => (3, p.addr, p.bytes.length)))

/-- The operations that those named wait for, through at most n steps. -/
def State.depClosure (s : State) : Nat → List Nat → List Nat
  | 0, ids => ids
  | n + 1, ids =>
    let new := ((s.gops.filter fun o => !o.done && ids.contains o.id).flatMap (·.deps) ++
      (s.mem.spq.filter fun w => ids.contains w.id).flatMap (·.deps)).filter fun d => !ids.contains d
    if new.isEmpty then ids else s.depClosure n (ids ++ new)

/-- The homes of a run: an HBM stack for every 4 KiB unit (R54), the PCIe link (4), SP3 (5), with the bytes there. -/
def runHomes (r : Nat × Nat × Nat) : List (Nat × Nat) :=
  if r.1 = 0 then
    (List.range ((r.2.1 % 4096 + r.2.2 + 4095) / 4096)).map fun i =>
      let lo := Nat.max r.2.1 ((r.2.1 / 4096 + i) * 4096)
      ((r.2.1 / 4096 + i) % 4, Nat.min (r.2.1 + r.2.2) ((r.2.1 / 4096 + i + 1) * 4096) - lo)
  else [(if r.1 = 3 then 5 else 4, r.2.2)]

/-- Bytes of runs at a home. -/
def bytesAt (h : Nat) (rs : List (Nat × Nat × Nat)) : Nat := (((rs.flatMap runHomes).filter fun x => x.1 = h).map (·.2)).sum

/-- Whether an operation is a global read in flight. -/
def GOp.reading (o : GOp) : Bool := !o.done && match o.kind with | .read _ => true | _ => false

/-- Whether a read of class c by queue `unit` of core k finds, at its homes and in the data engine, no more reads of its class or a lower
one in flight than R349 lists, so that its budget holds. -/
def State.withinLimits (s : State) (k unit c : Nat) (rs : List (Nat × Nat × Nat)) : Bool :=
  let flying := s.gops.filter fun o => o.reading && o.cls ≤ c
  (((rs.flatMap runHomes).map (·.1)).all fun h =>
    5 ≤ h || (flying.map fun o => bytesAt h o.kind.runs).sum ≤ (if h < 4 then 262144 else 65536) * 2 ^ c) &&
  (unit != 3 || (flying.filter fun o => o.core = k && o.unit = 3).length ≤ lget [16, 24, 32] c 32)

/-- A new operation of queue `unit` of party k at its home, of class `cls` (R301): after the fences of the queue and those of its earlier
operations that it must follow (R76, R77, R225, R407). When the home performs it is free (log 8), but a read with the budget `bud` is
performed within it where R349 says so (log 8). -/
def State.newOp (s : State) (k unit : Nat) (kind : GKind) (names : List (Nat × Nat × Nat)) (cls : Nat := 0) (bud : Nat := 0) : Nat × State :=
  let hop := (s.core k).run.hop
  let own := s.ownDeps k unit kind ++ ((s.openSp3 k unit).filter fun w => runsMeet w.2 kind.runs).map (·.1)
  let kept := bud != 0 && (match kind with | .read rs => s.withinLimits k unit cls rs | _ => false)
  let due := s.tide + 2 * hop + (if kept then Config.freeNat s.free % (bud - 2 * hop) else Config.freeNat s.free)
  let op : GOp := { id := s.nextId, core := k, unit := unit, kind := kind, deps := lget (s.core k).fences unit [] ++ own,
                    due := due, done := false, data := [],
                    armed := (match kind with | .wait _ _ _ => false | _ => Config.freeNat (s.free + 1) % 2 = 0),
                    lane := s.cur.shadow, names := names, cls := cls }
  let first := if kept then s.depClosure s.gops.length own else []
  let gops := if first.isEmpty then s.gops else s.gops.map fun (o : GOp) => if first.contains o.id then { o with due := Nat.min o.due due } else o
  (s.nextId, { s with gops := gops ++ [op], nextId := s.nextId + 1, free := s.free + 2 })

/-- Operations, SP3 writes and, for the data queue, builder calls that queue `unit` of core k has issued and that are not yet performed (R77,
R200). -/
def State.openOps (s : State) (k unit : Nat) : List Nat :=
  ((s.gops.filter fun o => o.core = k && o.unit = unit && !o.done).map (·.id)) ++ (s.openSp3 k unit).map (·.1) ++
  (if unit = 3 then (s.core k).builds.map (·.id) else [])

/-- Later operations of queue `unit` of core k are performed after the named ones (R77). -/
def State.fence (s : State) (k unit : Nat) (ids : List Nat) : State :=
  s.modCore k fun c => { c with fences := lmod c.fences unit [] fun l => ids ++ l.filter fun i => !s.depDone k i }

/-- QFENCE by queue `unit` of core k over a mask of queues (R77, R201): the matrix queue has no operation to order. -/
def State.qfence (s : State) (k unit : Nat) (mask : List Nat) : State :=
  s.fence k unit (mask.flatMap fun u => if u = unit then [] else s.openOps k u)

/-- A number divided and rounded up. -/
def ceilDiv (a b : Nat) : Nat := (a + b - 1) / b

/-- The landing budget B of a class for b bytes at a target (R301). -/
def budget (cls tgt b : Nat) : Nat :=
  if tgt = 0 then lget [1600 + ceilDiv b 256, 3200 + ceilDiv b 128, 6400 + ceilDiv b 64, 19000 + ceilDiv b 32] cls 0
  else lget [6000 + ceilDiv b 64, 12000 + ceilDiv b 32, 24000 + ceilDiv b 16, 95000 + ceilDiv b 8] cls 0

/-- The target whose budget counts for a set of runs: PCIe where any run lies there (log 24). -/
def runsTarget (rs : List (Nat × Nat × Nat)) : Nat := rs.foldl (fun t r => Nat.max t r.1) 0

/-- CHKINT will be set from the next cycle on if the condition holds (R145). -/
def State.chkIf (s : State) (unit : Nat) (b : Bool) : State := if b then s.addLat unit 1 .chkint else s

end Sys2Proof.Machine
end

