-- ==== Sys2Proof/Machine/Desc.lean ====
section
/-!
DEFINITION. Stream descriptors: formats (R59), element addresses (R61), regions (R62), the checks of R63 and R56, elements
read and written, and the shadow scoreboard (R39, R41).
-/

namespace Sys2Proof.Machine

/-- Bits per element of a descriptor. -/
def Desc.bits (d : Desc) : Nat := fmtBits d.fmt.toNat

/-- Base of the bank that reads use (R45). -/
def Desc.readBase (d : Desc) : Nat := if d.db && d.bank then d.shbase.toNat else d.base.toNat

/-- Base of the bank that writes go to (R45). -/
def Desc.writeBase (d : Desc) : Nat := if d.db && !d.bank then d.shbase.toNat else d.base.toNat

/-- Position in bits of element (i, j) before any swizzle (R61). -/
def Desc.bitPos (d : Desc) (i j : Nat) : Int :=
  let r : Nat := if d.swz = 4 then j else i
  let c : Nat := if d.swz = 4 then i else j
  8 * (r : Int) * d.rstride.toInt + ((c * d.estride.toNat * d.bits : Nat) : Int)

/-- An offset with bits flipped below its kilobyte. -/
def xorLow (off : Int) (m : Nat) : Int := off / 1024 * 1024 + (((off % 1024).toNat ^^^ m : Nat) : Int)

/-- Byte offset of element (i, j) from the base (R61). -/
def Desc.offset (d : Desc) (i j : Nat) : Int :=
  let off := d.bitPos i j / 8
  if d.swz = 1 then xorLow off (i % 16 * 64)
  else if d.swz = 2 then xorLow off (i % 4 * 16)
  else if d.swz = 3 then xorLow off (i / 4 % 16 * 64)
  else off

/-- Whether an INT4 element lies in the high nibble of its byte (R61). -/
def Desc.hiNib (d : Desc) (i j : Nat) : Bool := d.bitPos i j / 4 % 2 = 1

/-- Byte address of element (i, j) in the bank at `base`. -/
def Desc.addrIn (d : Desc) (base i j : Nat) : Int := (base : Int) + d.offset i j

/-- The smallest and the largest of four numbers. -/
def min4 (a b c d : Int) : Int := min (min a b) (min c d)
def max4 (a b c d : Int) : Int := max (max a b) (max c d)

/-- The data region of the bank at `base`: first and last byte (R62). -/
def Desc.region (d : Desc) (base : Nat) : Int × Int :=
  let r := d.rows.toNat - 1
  let c := d.cols.toNat - 1
  let p00 := d.bitPos 0 0
  let p10 := d.bitPos r 0
  let p01 := d.bitPos 0 c
  let p11 := d.bitPos r c
  let lo := (base : Int) + min4 p00 p10 p01 p11 / 8
  let hi := (base : Int) + (max4 p00 p10 p01 p11 + d.bits - 1) / 8
  if 1 ≤ d.swz.toNat && d.swz.toNat ≤ 3 then (lo / 1024 * 1024, hi / 1024 * 1024 + 1023) else (lo, hi)

/-- The scale region: first and last byte (R62). -/
def Desc.scaleRegion (d : Desc) : Option (Int × Int) :=
  if d.sbase = 0 then none
  else
    let last := ((Nat.max d.rows.toNat d.cols.toNat - 1 : Nat) : Int) * d.sstride.toInt
    some ((d.sbase.toNat : Int) + min 0 last, (d.sbase.toNat : Int) + max 0 last + 3)

/-- Whether two closed spans share a byte. -/
def spansMeet (a b : Int × Int) : Bool := a.1 ≤ b.2 && b.1 ≤ a.2

/-- The spans that reads through a descriptor depend on: the active bank and the scales (R41, R62). -/
def Desc.readSpans (d : Desc) : List (Int × Int) :=
  d.region d.readBase :: (match d.scaleRegion with | some r => [r] | none => [])

/-- Whether a span lies outside a level of `size` bytes. -/
def outside (size : Nat) (r : Int × Int) : Bool := r.1 < 0 || (size : Int) ≤ r.2

/-- Bytes that a level's addresses span (R54). -/
def Desc.levelSize (d : Desc) : Nat := if d.level.toNat ≤ 2 then lvlSize d.level.toNat else 2 ^ 48

/-- PERM with the descriptor number (R139, R296). -/
def permD (unit n : Nat) : FaultRec := mkFault unit 0x05 n
/-- ALIGN with the address (R139). -/
def alignA (unit a : Nat) : FaultRec := mkFault unit 0x03 a

/-- The checks of R56, R61 to R63 and R65 on descriptor number n of value d, named by a word or instruction of `unit` on core k;
`write` for a destination. Where several hold, the first of this order is taken (log 22); INFO of ALIGN is the base that is misaligned, BASE for a
stride, and for INT4 the first row that starts on a high nibble (log 73). -/
def State.descFault (s : State) (k unit n : Nat) (d : Desc) (write : Bool) : Option FaultRec :=
  let sp := d.level.toNat ≤ 2
  let swizzled := 1 ≤ d.swz.toNat && d.swz.toNat ≤ 3
  let sz := d.levelSize
  if d.rows = 0 || d.cols = 0 then some (permD unit n)
  else if 5 ≤ d.level.toNat then some (permD unit n)
  else if d.db && !(d.level.toNat ≤ 1) then some (permD unit n)
  else if swizzled && !sp then some (permD unit n)
  else if d.level = 1 && !(s.core k).run.usesp2 then some (permD unit n)
  else if d.level.toNat ≤ 3 && (outside sz (d.region d.base.toNat) || (d.db && outside sz (d.region d.shbase.toNat)) ||
      (match d.scaleRegion with | some r => outside sz r | none => false)) then some (permD unit n)
  else if d.db && spansMeet (d.region d.base.toNat) (d.region d.shbase.toNat) then some (permD unit n)
  else if !sp && !d.bound then some (permD unit n)
  else if write && d.ro then some (permD unit n)
  else if swizzled && (d.base.toNat % 1024 != 0 || (d.db && d.shbase.toNat % 1024 != 0)) then some (alignA unit (if d.base.toNat % 1024 != 0 then d.base.toNat else d.shbase.toNat))
  else if swizzled && d.rstride.toNat % 64 != 0 then some (alignA unit d.base.toNat)
  else if d.fmt = 0 && d.swz = 4 && d.estride.toNat % 2 = 1 && 1 < d.rows.toNat then
    some (alignA unit (d.addrIn (if write then d.writeBase else d.readBase) 1 0).toNat)
  else none

/-- The first fault that a list of checks gives. -/
def firstFault : List (Option FaultRec) → Option FaultRec
  | [] => none
  | some f :: _ => some f
  | none :: r => firstFault r

/-! ## Elements -/

/-- The bit pattern of element (i, j) of an SP descriptor's active bank, as core k sees it. -/
def State.elem (s : State) (k : Nat) (d : Desc) (i j : Nat) : Nat :=
  let a := (d.addrIn d.readBase i j).toNat
  if d.bits = 4 then nibOf (s.spByte k d.level.toNat a) (d.hiNib i j)
  else leNat (s.spRead k d.level.toNat a (d.bits / 8))

/-- Whether an element's granule is poisoned. -/
def State.elemPoison (s : State) (k : Nat) (d : Desc) (i j : Nat) : Bool :=
  s.spPoison k d.level.toNat (d.addrIn d.readBase i j).toNat (Nat.max 1 (d.bits / 8))

/-- The scale entry i of a descriptor, and whether it is poisoned (R58, R62). -/
def State.scale (s : State) (k : Nat) (d : Desc) (i : Nat) : Nat × Bool :=
  let a := ((d.sbase.toNat : Int) + (i : Int) * d.sstride.toInt).toNat
  (leNat (s.spRead k d.level.toNat a 4), s.spPoison k d.level.toNat a 4)

/-- The pieces that write element values (position, value, poison) through a descriptor into its bank for writes. An INT4
element keeps the other nibble of its byte as an earlier element of the list or the level has it at issue (log 23). -/
def State.elemPieces (s : State) (k : Nat) (d : Desc) (base : Nat) (es : List (Nat × Nat × Nat × Bool)) : List Piece :=
  if d.bits = 4 then
    joinPieces (es.foldl (fun ps (i, j, v, poi) =>
      nibPiece (s.spByte k d.level.toNat) ps (d.addrIn base i j).toNat (d.hiNib i j) v poi) []).reverse
  else
    joinPieces (es.map fun (i, j, v, poi) => { addr := (d.addrIn base i j).toNat, bytes := leBytes (d.bits / 8) v, poison := poi })

/-! ## The shadow scoreboard (R39, R41, R312) -/

/-- Whether a pending effect of a core writes into a span of a level, as the scoreboard sees it at clock `now`. -/
def Pend.hits (p : Pend) (now lvl : Nat) (spans : List (Int × Int)) : Bool :=
  p.since ≤ now && p.eff.spans.1 = lvl && p.eff.spans.2.any fun a => spans.any fun b => spansMeet a b

/-- The pending writes of the core that a read of `spans` at level lvl meets (R41); in the shadow context every pending
write of the region is awaited (R141). -/
def State.pendingOn (s : State) (lvl : Nat) (spans : List (Int × Int)) : List Nat :=
  let me := s.me
  (me.pend.filter fun p => p.hits (if p.tide then s.tide else me.run.g) lvl spans).map (·.id)

/-- The pending writes that a read through descriptor d meets (R41). -/
def State.readMiss (s : State) (d : Desc) : List Nat :=
  if d.level.toNat ≤ 2 then s.pendingOn d.level.toNat d.readSpans else []

/-- The first descriptor of a list (number, value) whose read misses, with what it awaits. -/
def State.firstMiss (s : State) : List (Nat × Desc) → Option (Nat × List Nat)
  | [] => none
  | (n, d) :: r => match s.readMiss d with
    | [] => s.firstMiss r
    | ids => some (n, ids)

/-- Whether a write through d goes to a shadow bank (R45). -/
def Desc.phased (d : Desc) : Bool := d.db

/-- SHW set: the shadow bank of descriptor n has been written in the current phase (R60). -/
def State.noteShadow (s : State) (n : Nat) : State :=
  s.modMe fun c => { c with descs := lmod c.descs n Desc.zero fun d => if d.db then { d with shw := true } else d }

end Sys2Proof.Machine
end

