-- ==== Sys2Proof/Machine/LoadStore.lean ====
section
/-!
DEFINITION. Sequencer loads and stores (R209 to R212), and what happens when a global load's data are late (R212).
-/

namespace Sys2Proof.Machine

/-- Bytes of a width code (R179, R209). -/
def widBytes (w : BitVec 3) : Nat := 2 ^ (w.toNat % 4)

/-- The value of a load (R209): B, H, W sign-extended, D as it is, BU, HU, WU zero-extended. -/
def loadValue (w : Nat) (bs : List Byte) : Word :=
  let v := leNat bs
  if w = 0 then (BitVec.ofNat 8 v).signExtend 64
  else if w = 1 then (BitVec.ofNat 16 v).signExtend 64
  else if w = 2 then (BitVec.ofNat 32 v).signExtend 64
  else BitVec.ofNat 64 v

/-- The address o of R209 at SP1, SP2, SP3 and the global level. -/
def effAddr (a : Word) (off : BitVec 13) : Nat := (a + off.signExtend 64).toNat

/-- A width code that the format reserves raises ILLEGAL_INSTR (R179, R185). -/
def widthOk (store : Bool) (w : BitVec 3) : Bool := if store then w.toNat ≤ 3 else w.toNat ≤ 6

/-- The fault of an SP access of n bytes at o (R56, R209, R210; ALIGN first, log 22). -/
def State.spFault (s : State) (lvl o n : Nat) : Option FaultRec :=
  if o % n != 0 then some (alignA 0 o)
  else if lvlSize lvl ≤ o then some (mkFault 0 0x05 o)
  else if lvl = 1 && !s.me.run.usesp2 then some (mkFault 0 0x05 o)
  else none

/-- Latency of a sequencer load and of a store's landing, by level (R205, R206). -/
def ldLat (lvl : Nat) : Nat := lget [6, 12] lvl 48
def stLat (lvl : Nat) : Nat := lget [4, 12] lvl 48

/-- Whether a handler's sequencer load must wait for a pending main write (R141); writes of the handler itself and loads in the main context are not
checked (R33, R206). -/
def State.handlerWaits (s : State) (lvl a n : Nat) : Bool :=
  s.cur.shadow && s.me.pend.any fun p => !p.tide && p.hits s.me.run.g lvl [((a : Int), (a : Int) + n - 1)]

/-- The sequencer tries the same instruction again on the next cycle. -/
def State.retryNext (s : State) : State := s.modCtx fun c => { c with next := s.clk + 1 }

/-- A load from an SP level (R209, R210). -/
def ldSp (i : Instr) (lvl : Nat) (w : BitVec 3) (d a : BitVec 5) (off : BitVec 13) (s : State) : Res :=
  seqRun i anyPlace (fun s =>
    let o := effAddr (s.rd a) off
    let n := widBytes w
    if !widthOk false w then s.illegal i
    else match s.spFault lvl o n with
      | some f => s.takeFault f
      | none =>
        if s.handlerWaits lvl o n then s.retryNext
        else
          let v := loadValue w.toNat (s.spRead s.cur.core lvl o n)
          ((s.wrReg d (ldLat lvl) v).chkIf 0 (s.spPoison s.cur.core lvl o n)).next1) s

/-- A store into an SP level (R206, R209, R210). -/
def stSp (i : Instr) (lvl : Nat) (w : BitVec 3) (d a : BitVec 5) (off : BitVec 13) (s : State) : Res :=
  seqRun i anyPlace (fun s =>
    let o := effAddr (s.rd a) off
    let n := widBytes w
    if !widthOk true w then s.illegal i
    else match s.spFault lvl o n with
      | some f => s.takeFault f
      | none => (s.addLat 0 (stLat lvl) (.sp lvl [{ addr := o, bytes := leBytes n (s.rd d).toNat, poison := false }])).next1) s

/-- LD_SP1 (R209). -/
def execLdSp1 (w : BitVec 3) (d a : BitVec 5) (off : BitVec 13) (s : State) : Res := ldSp (.ldSp1 w d a off) 0 w d a off s
/-- LD_SP2 (R209). -/
def execLdSp2 (w : BitVec 3) (d a : BitVec 5) (off : BitVec 13) (s : State) : Res := ldSp (.ldSp2 w d a off) 1 w d a off s
/-- LD_SP3 (R209). -/
def execLdSp3 (w : BitVec 3) (d a : BitVec 5) (off : BitVec 13) (s : State) : Res := ldSp (.ldSp3 w d a off) 2 w d a off s
/-- ST_SP1 (R209). -/
def execStSp1 (w : BitVec 3) (d a : BitVec 5) (off : BitVec 13) (s : State) : Res := stSp (.stSp1 w d a off) 0 w d a off s
/-- ST_SP2 (R209). -/
def execStSp2 (w : BitVec 3) (d a : BitVec 5) (off : BitVec 13) (s : State) : Res := stSp (.stSp2 w d a off) 1 w d a off s
/-- ST_SP3 (R209). -/
def execStSp3 (w : BitVec 3) (d a : BitVec 5) (off : BitVec 13) (s : State) : Res := stSp (.stSp3 w d a off) 2 w d a off s

/-! ## Global and aperture accesses (R211, R212) -/

/-- Word k of APER[n]. -/
def State.aperWord (s : State) (n k : Nat) : Word := lget (lget s.apers n []) k 0
/-- APER[n].VALID, KIND, VBASE, LEN (R64). -/
def State.aperValid (s : State) (n : Nat) : Bool := (s.aperWord n 0).getLsbD 63
def State.aperKind (s : State) (n : Nat) : Nat := ((s.aperWord n 0).extractLsb' 61 2).toNat
def State.aperVbase (s : State) (n : Nat) : Nat := ((s.aperWord n 0).extractLsb' 0 48).toNat
def State.aperLen (s : State) (n : Nat) : Nat := ((s.aperWord n 2).extractLsb' 0 48).toNat

/-- The translation of n bytes at va through the pinning of a bound descriptor that `ok` admits; the lowest number
first (R211; log 25). -/
def State.pinned (s : State) (allow : Desc → Bool) (va n : Nat) : Option (List (Nat × Nat × Nat)) :=
  s.me.descs.findSome? fun d => if d.bound && allow d then d.xlate va n else none

/-- Where an LD.G, ST.G, LD.AP or ST.AP goes: its device virtual address and physical runs, or its fault (R209, R211). DESIGN CHOICE: only the
first byte's offset is held against LEN (log 91). -/
def State.globalPlace (s : State) (ap store : Bool) (a : Word) (off : BitVec 13) (n : Nat) :
    FaultRec ⊕ (Nat × List (Nat × Nat × Nat)) :=
  if ap then
    let x := (a.extractLsb' 60 4).toNat
    let oi : Int := ((a.extractLsb' 0 48).toNat : Int) + off.toInt
    if a.extractLsb' 48 12 != 0 then .inl (mkFault 0 0x05 a.toNat)
    else if oi < 0 || (2 ^ 48 : Int) ≤ oi then .inl (mkFault 0 0x05 (oi % 2 ^ 64).toNat)
    else
      let o := oi.toNat
      if o % n != 0 then .inl (alignA 0 o)
      else if !s.aperValid x then .inl (mkFault 0 0x05 o)
      else if s.aperKind x = 1 then .inl (mkFault 0 0x06 x)
      else if s.aperLen x ≤ o then .inl (mkFault 0 0x05 o)
      else if store && s.aperKind x = 2 then .inl (mkFault 0 0x05 o)
      else
        let va := s.aperVbase x + o
        match s.pinned (fun d => d.level = 4 && d.apidx.toNat = x && (!store || !d.ro)) va n with
        | some rs => .inr (va, rs)
        | none => .inl (mkFault 0 0x05 o)
  else
    let o := effAddr a off
    if o % n != 0 then .inl (alignA 0 o)
    else match s.pinned (fun d => d.level = 3 && (!store || !d.ro)) o n with
      | some rs => .inr (o, rs)
      | none => .inl (mkFault 0 0x05 o)

/-- A global load: its data arrive when the home has answered and are seen from c + B on (R212). -/
def ldGlobal (i : Instr) (ap : Bool) (w : BitVec 3) (d a : BitVec 5) (off : BitVec 13) (s : State) : Res :=
  seqRun i anyPlace (fun s =>
    if !widthOk false w then s.illegal i
    else match s.globalPlace ap false (s.rd a) off (widBytes w) with
      | .inl f => s.takeFault f
      | .inr (_, rs) =>
        let b := budget 0 (runsTarget rs) (widBytes w)
        let (id, s) := s.newOp s.cur.core 0 (.read rs) [] 0 b
        (s.addPend 0 (s.clk + b - 1) (.ldReg s.cur.shadow d.toNat w.toNat) true (some id)).next1) s

/-- A global store: performed in the sequencer queue's order with no promised cycle (R212). -/
def stGlobal (i : Instr) (ap : Bool) (w : BitVec 3) (d a : BitVec 5) (off : BitVec 13) (s : State) : Res :=
  seqRun i anyPlace (fun s =>
    if !widthOk true w then s.illegal i
    else match s.globalPlace ap true (s.rd a) off (widBytes w) with
      | .inl f => s.takeFault f
      | .inr (va, rs) =>
        let n := widBytes w
        (s.newOp s.cur.core 0 (.write (splitRuns rs (leBytes n (s.rd d).toNat) false)) [(0, va, n)]).2.next1) s

/-- LD_G (R212). -/
def execLdG (w : BitVec 3) (d a : BitVec 5) (off : BitVec 13) (s : State) : Res := ldGlobal (.ldG w d a off) false w d a off s
/-- LD_AP (R211, R212). -/
def execLdAp (w : BitVec 3) (d a : BitVec 5) (off : BitVec 13) (s : State) : Res := ldGlobal (.ldAp w d a off) true w d a off s
/-- ST_G (R212). -/
def execStG (w : BitVec 3) (d a : BitVec 5) (off : BitVec 13) (s : State) : Res := stGlobal (.stG w d a off) false w d a off s
/-- ST_AP (R211, R212). -/
def execStAp (w : BitVec 3) (d a : BitVec 5) (off : BitVec 13) (s : State) : Res := stGlobal (.stAp w d a off) true w d a off s

/-- SEQ_LOAD_BUDGET_EXPIRY (R212): the load named by `cur.arg` has no data at its budget's last cycle: SCHED_MISS with INFO
0x200 + sd, or a hold until they arrive; in the shadow context the sequencer waits. -/
def execSeqLoadBudgetExpiry (s : State) : Res :=
  match s.me.pend.find? fun p => p.id = s.cur.arg with
  | some p =>
    match p.eff with
    | .ldReg sh r _ =>
      if sh then ok (s.modMe fun c => { c with sh := { c.sh with next := s.tide + 1 } })
      else
        let s := s.modMe fun c => { c with pend := c.pend.map fun q => if q.id = p.id then { q with missed := true } else q }
        ok (s.schedMiss 0 (0x200 + r) (.load p.id))
    | _ => ok s
  | none => ok s

end Sys2Proof.Machine
end

