-- ==== Sys2Proof/Machine/DescOps.lean ====
section
/-!
DEFINITION. The descriptor instructions DSET, DBIND, DUNBIND (R218 to R221), translation (R68, R69), pinning and
unpinning (R70, R71), and the checks of aperture views (R65, R66).
-/

namespace Sys2Proof.Machine

/-! ## DSET (R60, R219) -/

/-- A descriptor with a field written from the low bits of a word (R60, R219). -/
def Desc.setField (d : Desc) (f : Nat) (v : Word) : Desc :=
  match f with
  | 0 => { d with level := v.setWidth 3 }
  | 1 => { d with fmt := v.setWidth 4 }
  | 2 => { d with swz := v.setWidth 3 }
  | 3 => { d with db := v.getLsbD 0 }
  | 4 => { d with ro := v.getLsbD 0 }
  | 5 => { d with base := v.setWidth 48 }
  | 6 => { d with rows := v.setWidth 16 }
  | 7 => { d with cols := v.setWidth 16 }
  | 8 => { d with rstride := v.setWidth 32 }
  | 9 => { d with estride := v.setWidth 16 }
  | 10 => { d with sbase := v.setWidth 48 }
  | 11 => { d with sstride := v.setWidth 24 }
  | 12 => { d with fill := v.setWidth 32 }
  | 13 => { d with apidx := v.setWidth 4 }
  | 14 => { d with shbase := v.setWidth 24 }
  | _ => d

/-- The cases of R60 in which DSET of field f with value v raises ILLEGAL_INSTR. -/
def dsetIllegal (d : Desc) (f : Nat) (v : Word) : Bool :=
  15 ≤ f || (f = 0 && (5 ≤ v.toNat % 8 || d.bound)) || (f = 1 && 12 ≤ v.toNat % 16) || (f = 2 && 5 ≤ v.toNat % 8) ||
  ((f = 3 || f = 14) && d.shw)

/-- Descriptor n of the core of the step. -/
def State.desc (s : State) (n : Nat) : Desc := lget s.me.descs n Desc.zero

/-- DSET (R60, R219): the field is seen from c + 2 on. -/
def execDset (n : BitVec 4) (f a : BitVec 5) (s : State) : Res :=
  seqRun (.dset n f a) anyPlace (fun s =>
    if dsetIllegal (s.desc n.toNat) f.toNat (s.rd a) then s.illegal (.dset n f a)
    else (s.addLat 0 2 (.dfield n.toNat f.toNat (s.rd a))).next1) s

/-! ## Unpinning (R71, R221) -/

/-- Descriptor operands of a word, those that a flag of the word says it has. -/
def namedBy (l : List (Bool × BitVec 4)) : List Nat := (l.filter (·.1)).map (·.2.toNat)

/-- The descriptors that an engine word names: a field that is RES0 or holds something else names none (R71, R295). -/
def engDescNums : Instr → List Nat
  | .vld w => [w.desc.toNat]
  | .vst w => [w.desc.toNat]
  | .vldx w => [w.desc.toNat]
  | .vlut w => [w.desc.toNat]
  | .mmul w => [w.a.toNat, w.b.toNat]
  | .mmuls w => [w.a.toNat, w.b.toNat, w.c.toNat]
  | .mlatx w => [w.a.toNat, w.b.toNat]
  | .mlata w => [w.a.toNat, w.b.toNat]
  | .mload w => [w.a.toNat]
  | .mdrain w => namedBy [(w.arg.getLsbD 4, w.a), (w.arg.getLsbD 3, w.b), (!w.arg.getLsbD 9, w.c)]
  | .wxload w => [w.a.toNat]
  | .mfread w => [w.src.toNat]
  | .dfill w => [w.dst.toNat]
  | .dataSrel w => [w.dst.toNat]
  | .dataSacq w => namedBy [(true, w.dst), (!w.arg.getLsbD 13, w.src)]
  | .datom w => namedBy [(true, w.dst), (true, w.src), (w.arg.getLsbD 6, w.aux)]
  | .dcomp w => namedBy [(true, w.dst), (true, w.src), (w.arg.getLsbD 2, w.aux)]
  | i => match i with
    | .tmov w | .dload w | .dstore w | .dphst w => namedBy [(true, w.dst), (true, w.src), (w.arg.getLsbD 13 && w.arg.getLsbD 7, w.aux)]
    | .dgather w | .dscatter w | .mfbuild w => [w.dst.toNat, w.src.toNat, w.aux.toNat]
    | .dmcast w | .dexp w | .dtrans w | .cmfetch w | .tsupd w => [w.dst.toNat, w.src.toNat]
    | _ => []

/-- The 48-bit engine word at a score-memory address (R186). -/
def Core.wordAt (c : Core) (a : Nat) : Nat := c.code a 6

/-- Whether a passage names descriptor d. -/
def Core.passageNames (c : Core) (u : Eng) (q : QEntry) (d : Nat) : Bool :=
  (List.range q.len).any fun i => (engDescNums (decodeEng u (BitVec.ofNat 48 (c.wordAt (q.addr + 6 * i))))).contains d

/-- The passages that must retire before a DUNBIND of descriptor d releases its pages: for each engine, the number of
retired passages to reach (R71). -/
def Core.unpinDeps (c : Core) (d : Nat) : List (Nat × Nat) :=
  [Eng.vec, .mtx, .data].filterMap fun u =>
    let e := lget c.engs (engIdx u) Engine.zero
    let named := (List.range e.q.length).filter fun i =>
      match e.q[i]? with | some q => c.passageNames u q d | none => false
    match named.getLast? with
    | some i => some (engIdx u, e.count + i + 1)
    | none => none

/-- Descriptor d of core k is unbound: its pages wait for the passages that name it (R71). -/
def State.startUnpin (s : State) (k d : Nat) : State :=
  s.modCore k fun c => { c with unpins := c.unpins ++ [{ pins := (lget c.descs d Desc.zero).pins, deps := c.unpinDeps d }] }

/-- Whether a page release is due (R71). DESIGN CHOICE: a passage has retired when the last repeat of its last word has issued (log 99). -/
def Core.unpinDue (c : Core) (u : Unpin) : Bool :=
  u.deps.all fun (e, n) => n ≤ (lget c.engs e Engine.zero).count || (c.run.berth.isNone)

/-- Key of a pinned page: its target and physical base. -/
def Pin.key (p : Pin) : Nat := p.tgt * 2 ^ 52 + p.page

/-- The in-flight counter of a page changed (R70, R71). -/
def bumpPage (l : List (Nat × Nat)) (key : Nat) (up : Bool) : List (Nat × Nat) :=
  if up then
    if l.any fun x => x.1 = key then l.map fun x => if x.1 = key then (key, x.2 + 1) else x else l ++ [(key, 1)]
  else (l.map fun x => if x.1 = key then (key, x.2 - 1) else x).filter fun x => x.2 != 0

/-- The distinct pages of pins. -/
def pinPages (ps : List Pin) : List Nat := ps.foldl (fun l p => if l.contains p.key then l else l ++ [p.key]) []

/-- The counters of the pages of pins changed. -/
def State.bumpPins (s : State) (ps : List Pin) (up : Bool) : State :=
  { s with mem := { s.mem with pinned := (pinPages ps).foldl (fun l k => bumpPage l k up) s.mem.pinned } }

/-- PAGE_UNPIN (R71): the first page release of the core that is due. -/
def execPageUnpin (s : State) : Res :=
  let c := s.me
  match c.unpins.find? c.unpinDue with
  | some u => ok ((s.modMe fun c => { c with unpins := c.unpins.erase u }).bumpPins u.pins false)
  | none => ok s

/-- DUNBIND (R221): without effect when unbound. -/
def State.dunbind (s : State) (n : Nat) : State :=
  if (s.desc n).bound then (s.startUnpin s.cur.core n).addLat 0 1 (.unbind n) else s

/-! ## Aperture views (R65, R66) -/

/-- BUDGET, BFMT, BCOLS, BROWS, SIDEBASE of an aperture (R64). -/
def State.aperBudget (s : State) (n : Nat) : Nat := ((s.aperWord n 0).extractLsb' 59 2).toNat
def State.aperBfmt (s : State) (n : Nat) : Nat := ((s.aperWord n 0).extractLsb' 57 2).toNat
def State.aperBcols (s : State) (n : Nat) : Nat := ((s.aperWord n 1).extractLsb' 48 16).toNat
def State.aperBrows (s : State) (n : Nat) : Nat := ((s.aperWord n 1).extractLsb' 32 16).toNat
def State.aperSide (s : State) (n : Nat) : Nat := ((s.aperWord n 3).extractLsb' 0 48).toNat

/-- The FMT code of a BFMT code (R59, R64). -/
def bfmtFmt (b : Nat) : Nat := lget [8, 9, 2] b 12

/-- Bytes of a coded block, by BUDGET code (R64, R110). -/
def blockBytes (b : Nat) : Nat := 4 * (b + 1)

/-- First row and column of a descriptor on a BTC aperture (R66). -/
def Desc.btcRow (d : Desc) : Nat := d.base.toNat / 2 ^ 24
def Desc.btcCol (d : Desc) : Nat := d.base.toNat % 2 ^ 24

/-- Whether a descriptor meets the conditions of R66 on its BTC aperture. -/
def State.btcOk (s : State) (d : Desc) : Bool :=
  let n := d.apidx.toNat
  d.btcRow % 4 = 0 && d.btcCol % 4 = 0 && d.rows.toNat % 4 = 0 && d.cols.toNat % 4 = 0 && d.rstride = 0 &&
  d.estride = 0 && d.swz = 0 && d.fmt.toNat = bfmtFmt (s.aperBfmt n) &&
  d.btcRow + d.rows.toNat ≤ 4 * s.aperBrows n && d.btcCol + d.cols.toNat ≤ 4 * s.aperBcols n

/-- The checks on a LEVEL 4 descriptor beyond those of `descFault` (R63, R65, R66): the data region and, of a RAW or RO view, the scale
region lie within LEN. A word reads APER[n] as each of its repeats issues; whether a later repeat keeps the register as repeat 0 found it R67
leaves open (log 81). -/
def State.viewFault (s : State) (unit n : Nat) (d : Desc) (write : Bool) : Option FaultRec :=
  if d.level != 4 then none
  else
    let x := d.apidx.toNat
    if !s.aperValid x then some (permD unit n)
    else if write && s.aperKind x = 2 then some (permD unit n)
    else if s.aperKind x = 1 then if s.btcOk d then none else some (permD unit n)
    else if outside (s.aperLen x) (d.region d.base.toNat) ||
        (match d.scaleRegion with | some r => outside (s.aperLen x) r | none => false) then some (permD unit n)
    else none

/-- The fault of a sequencer instruction that takes descriptor n (R63, R296). -/
def State.takesFault (s : State) (n : Nat) (d : Desc) : Option FaultRec :=
  firstFault [s.descFault s.cur.core 0 n d false, s.viewFault 0 n d false]

/-- DUNBIND (R221): without effect when unbound; of a bound descriptor the checks of R63 are made. -/
def execDunbind (n : BitVec 4) (s : State) : Res :=
  seqRun (.dunbind n) mainSlot (fun s =>
    let d := s.desc n.toNat
    match (if d.bound then s.takesFault n.toNat d else none) with
    | some f => s.takeFault f
    | none => (s.dunbind n.toNat).next1) s

/-- The virtual address ranges (first byte, end) that DBIND translates (R70, R220). -/
def State.bindRanges (s : State) (d : Desc) : List (Nat × Nat) :=
  let span (b : Nat) (r : Int × Int) : Nat × Nat := (((b : Int) + r.1).toNat, ((b : Int) + r.2 + 1).toNat)
  let scales (b : Nat) := match d.scaleRegion with | some r => [span b r] | none => []
  if d.level = 3 then span 0 (d.region d.base.toNat) :: scales 0
  else
    let x := d.apidx.toNat
    if s.aperKind x = 1 then
      (List.range (d.rows.toNat / 4)).flatMap fun i =>
        let first := (d.btcRow / 4 + i) * s.aperBcols x + d.btcCol / 4
        let nb := d.cols.toNat / 4
        let bb := blockBytes (s.aperBudget x)
        [(s.aperVbase x + first * bb, s.aperVbase x + (first + nb) * bb), (s.aperSide x + first, s.aperSide x + first + nb)]
    else span (s.aperVbase x) (d.region d.base.toNat) :: scales (s.aperVbase x)

/-! ## Translation (R68, R69) -/

/-- A leaf: virtual base, size, target, physical base; or a fault: code, SUB. -/
structure Leaf where
  va   : Nat
  size : Nat
  tgt  : Nat
  pa   : Nat
  deriving DecidableEq, Repr

/-- Index and page size of a level (R68). -/
def ptIndex (lvl va : Nat) : Nat :=
  if lvl = 1 then va / 2 ^ 37 % 2048 else if lvl = 2 then va / 2 ^ 28 % 512 else va / 2 ^ 19 % 512
def ptPage (lvl : Nat) : Nat := if lvl = 1 then 2 ^ 37 else if lvl = 2 then 2 ^ 28 else 2 ^ 19

/-- A walk from level `lvl` at table `root` for an access that needs RD, W, or both in its leaf (R69). -/
def State.walk (s : State) (rd w : Bool) (va : Nat) : Nat → Nat → Nat → (Nat × Nat) ⊕ Leaf
  | 0, lvl, _ => .inl (0x04, lvl)
  | fuel + 1, lvl, root =>
    if Config.hbmSize ≤ root then .inl (0x04, lvl - (if lvl = 1 then 0 else 1))
    else
      let e := s.gNat 0 (root + 8 * ptIndex lvl va) 8
      let addr := e / 2 ^ 12 % 2 ^ 40 * 2 ^ 12
      let tgt := e / 2 ^ 62
      let leaf := e / 2 % 2 = 1
      if e % 2 = 0 || e / 2 ^ 52 % 2 ^ 10 != 0 || e / 2 ^ 4 % 2 ^ 8 != 0 || tgt = 3 then .inl (0x04, lvl)
      else if leaf then
        if addr % ptPage lvl != 0 || (tgt = 0 && Config.hbmSize ≤ addr) then .inl (0x04, lvl)
        else if (rd && e / 4 % 2 = 0) || (w && e / 8 % 2 = 0) then .inl (0x05, 0)
        else .inr { va := va / ptPage lvl * ptPage lvl, size := ptPage lvl, tgt := tgt, pa := addr }
      else if tgt != 0 || lvl = 3 || Config.hbmSize ≤ addr then .inl (0x04, lvl)
      else s.walk rd w va fuel (lvl + 1) addr

/-- The translation of a virtual address from a level-1 table for an access that needs RD, W, or both. -/
def State.translate (s : State) (root : Nat) (rd w : Bool) (va : Nat) : (Nat × Nat) ⊕ Leaf :=
  if 2 ^ 48 ≤ va then .inl (0x04, 1) else s.walk rd w va 3 1 root

/-- The physical runs (target, address, length) of n bytes from a virtual address on, or the address that does not translate. -/
def State.xlateVa (s : State) (root : Nat) (rd w : Bool) : Nat → Nat → Nat → Nat ⊕ List (Nat × Nat × Nat)
  | 0, _, _ => .inr []
  | fuel + 1, va, n =>
    if n = 0 then .inr []
    else match s.translate root rd w va with
      | .inl _ => .inl va
      | .inr lf =>
        let l := Nat.min n (lf.va + lf.size - va)
        match s.xlateVa root rd w fuel (va + l) (n - l) with
        | .inl a => .inl a
        | .inr r => .inr ((lf.tgt, lf.pa + (va - lf.va), l) :: r)

/-- The physical runs of n bytes from va on; a page has at least 512 KiB (R68). -/
def State.runsOf (s : State) (root : Nat) (rd w : Bool) (va n : Nat) : Nat ⊕ List (Nat × Nat × Nat) :=
  s.xlateVa root rd w (n / 2 ^ 19 + 2) va n

/-- What is left of a range beyond a page. -/
def restOf (lf : Leaf) (r : Nat × Nat) : Option (Nat × Nat) :=
  let hi := Nat.min r.2 (lf.va + lf.size)
  if hi < r.2 then some (if lf.va ≤ r.1 && r.1 < hi then (hi, r.2) else r) else none

/-- The walk of a DBIND over ranges in increasing virtual address (R220): the pins, which are the whole pages (R70; log 26), the number P of pages, and the fault
(code, SUB, INFO) with which it stops, `n` being the descriptor number. -/
def State.walkRanges (s : State) (root : Nat) (ro : Bool) (n : Nat) :
    Nat → List (Nat × Nat) → List Pin → Nat → List Pin × Nat × Option (Nat × Nat × Nat)
  | 0, _, pins, p => (pins, p, some (0x05, 0, n))
  | fuel + 1, rs, pins, p =>
    let rs := rs.filter fun r => r.1 < r.2
    match rs with
    | [] => (pins, p, none)
    | r0 :: _ =>
      let va := rs.foldl (fun m r => Nat.min m r.1) r0.1
      if p = 4096 then (pins, 4097, some (0x05, 0, n))
      else match s.translate root true (!ro) va with
        | .inl (code, sub) => (pins, p + 1, some (code, sub, va))
        | .inr lf =>
          s.walkRanges root ro n fuel (rs.filterMap (restOf lf)) (pins ++ [{ va := lf.va, len := lf.size, tgt := lf.tgt, pa := lf.pa, page := lf.pa }])
            (p + 1)

/-- The level-1 table of the gang of core k (R68, R378). -/
def State.xroot (s : State) (k : Nat) : Nat :=
  match (s.core k).run.berth with
  | some b => (s.bind b).xroot.toNat * 4096
  | none => 0

/-! ## DBIND (R220) -/

/-- DBIND (R220): checks at issue, an unbinding first, the walk, and the occupancy 6,000 + 40 × P. -/
def execDbind (n : BitVec 4) (s : State) : Res :=
  seqRun (.dbind n) mainOnly (fun s =>
    let d := s.desc n.toNat
    if d.level != 3 && d.level != 4 then s.takeFault (permD 0 n.toNat)
    else if d.level = 4 && !s.aperValid d.apidx.toNat then s.takeFault (permD 0 n.toNat)
    else match s.takesFault n.toNat { d with bound := true } with
      | some f => s.takeFault f
      | none =>
        let s := s.dunbind n.toNat
        let w := s.walkRanges (s.xroot s.cur.core) d.ro n.toNat 4100 (s.bindRanges d) [] 0
        let (id, s) := s.newOp s.cur.core 0 .walk []
        let e := s.clk + 6000 + 40 * w.2.1
        (s.waitOn (.dbind n.toNat e id w.1 w.2.2)).modCtx fun c => { c with next := e }) s

/-- Whether a walk of core k has not finished. -/
def State.walking (s : State) (k : Nat) : Bool := s.gops.any fun o => o.core = k && o.kind = .walk && !o.done

/-- TABLE_WALK_FINISHED (R220): the table reads of the walk that `cur.arg` names have finished; a hold that awaits them ends. A walk
that no DBIND waits for any more is dropped. -/
def execTableWalkFinished (s : State) : Res :=
  match s.gops.find? fun o => o.id = s.cur.arg && o.kind = .walk with
  | none => ok s
  | some o =>
    let kept : Bool := match (s.core o.core).seq.wait with | .dbind _ _ id _ _ => id = o.id | _ => false
    let s : State := { s with gops := if kept then s.gops.map fun (p : GOp) => if p.id = o.id then { p with done := true } else p
                                      else s.gops.filter fun p => p.id != o.id }
    match (s.core o.core).run.stop with
    | some st => if st.await = some Await.walk then ok (s.endSource o.core) else ok s
    | none => ok s

/-- The sequencer put back to its DBIND, whose pc is the word before the next instruction's. -/
def SeqCtx.backToDbind (c : SeqCtx) (g : Nat) : SeqCtx := { c with pc := c.pc - 4, wait := .none, next := g }

/-- DBIND_COMPLETE (R220): at the end of the occupancy BOUND is set and the range is pinned, or the walk's fault is taken
with the DBIND's PC; a walk that has not finished is a schedule miss (log 26). -/
def execDbindComplete (s : State) : Res :=
  match s.me.seq.wait with
  | .dbind n _ id pins fault =>
    if s.gops.any fun o => o.id = id && !o.done then
      if s.me.modes.trapMode then
        ok ((s.modMe fun c => { c with seq := c.seq.backToDbind c.run.g }).schedMiss 0 (0x300 + n) .walk)
      else ok (s.schedMiss 0 (0x300 + n) .walk)
    else
      let s : State := { s with gops := s.gops.filter fun (o : GOp) => o.id != id }
      match fault with
      | some (code, sub, info) =>
        ok ((s.modMe fun c => { c with seq := c.seq.backToDbind c.run.g }).takeFault
          { cause := code, sub := sub, unit := 0, info := info, lat := false, skip := 0 })
      | none =>
        ok ((s.bumpPins pins true).modMe fun c =>
          { c with descs := lmod c.descs n Desc.zero fun d => { d with bound := true, pins := pins }
                   seq := { c.seq with wait := .none, next := c.run.g } })
  | _ => ok s

end Sys2Proof.Machine
end

