-- ==== Sys2Proof/Machine/SysReg.lean ====
section
/-!
DEFINITION. The system registers: their packing (R42, R100, R105, R138, R140, R146, R153, R158, R165, R233, R234, R242, R285, R287,
R291, R306, R310), MFS and MTS (R230, R231), and the MTS forms with effects of their own (R116, R195, R235).
-/

namespace Sys2Proof.Machine

/-! ## Packing -/

/-- A field of value v at bit `lo`. -/
def at_ (lo v : Nat) : Nat := v * 2 ^ lo

/-- A Boolean as a bit. -/
def bit (b : Bool) : Nat := if b then 1 else 0

/-- A word from the sum of its fields. -/
def word (n : Nat) : Word := BitVec.ofNat 64 n

/-- SCHEDMODE (R42). -/
def Core.schedmode (c : Core) : Word :=
  let m := c.modes
  word (at_ 32 m.misscnt.toNat + at_ 16 (bit m.late) + at_ 8 (bit m.miss) + bit m.trapMode)
/-- DETMODE (R165). -/
def Core.detmode (c : Core) : Word := word (at_ 32 c.modes.dreads.toNat + bit c.modes.detEn)
/-- PREEMPT (R158). -/
def Core.preempt (c : Core) : Word :=
  let m := c.modes
  word (at_ 32 m.pdl.toNat + at_ 2 (bit m.ybad) + at_ 1 (bit m.forced) + bit m.yieldreq)
/-- PHSTAT (R146). -/
def Core.phstat (c : Core) : Word :=
  let m := c.modes
  word (at_ 44 m.rcnt.toNat + at_ 40 m.retrymax.toNat + at_ 35 (bit m.noretry) + at_ 34 (bit m.cancel) +
    at_ 33 (bit m.refuse) + at_ 32 (bit m.chkint) + m.phase.toNat)
/-- PROMO (R100). -/
def Core.promo (c : Core) : Word := word (at_ 32 (bit c.params.cfgclamp) + at_ 16 c.params.n8.toNat + c.params.n4.toNat)
/-- NPROF (R105). -/
def Core.nprof (c : Core) : Word := word (at_ 8 c.params.allow.toNat + c.params.def_.toNat)
/-- HCTL (R140). -/
def Core.hctl (c : Core) : Word := word (at_ 32 c.params.hmask.toNat + c.params.hentry.toNat)
/-- GATHER (R306). -/
def Core.gather (c : Core) : Word := word (at_ 48 c.params.xu.toNat + at_ 40 c.params.ts.toNat + bit c.params.strict)
/-- GSTAT (R310). -/
def Core.gstat (c : Core) : Word := word (at_ 32 (bit c.params.oobs) + c.params.oob.toNat)
/-- Mask-empty status (R48). -/
def Vec.maskEmpty (v : Vec) : Bool := match v.masks with | m :: _ => m = 0 | [] => false
/-- VSTAT (R242). -/
def Core.vstat (c : Core) : Word :=
  word (at_ 16 c.vec.masks.length + at_ 8 (bit c.vec.maskEmpty) + c.vec.flags.toNat)
/-- The effective checksum mode (R286). -/
def Mtx.mode (m : Mtx) : Nat := Nat.max m.ckmode.toNat m.ckmin.toNat
/-- MSTAT (R287). -/
def Core.mstat (c : Core) : Word :=
  let m := c.mtx
  let h (t : Nat) : Nat := bit (lget m.tiles t Tile.zero).hovf
  word (at_ 48 m.ckcnt.toNat + at_ 32 m.fixcnt.toNat + at_ 30 m.ckmin.toNat + at_ 28 m.mode + at_ 15 (h 3) + at_ 14 (h 2) +
    at_ 13 (h 1) + at_ 12 (h 0) + m.flags.toNat)
/-- ERRINJ (R291). -/
def Core.errinj (c : Core) : Word :=
  let m := c.mtx
  word (at_ 63 (bit m.eiArm) + at_ 62 (bit m.eiEn) + at_ 58 m.eiTile.toNat + at_ 40 m.eiRow.toNat + at_ 32 m.eiCol.toNat +
    m.eiBit.toNat)
/-- TREC[k] (R138). -/
def Trec.word (t : Trec) (k : Nat) : Word :=
  match k with
  | 0 => Machine.word (at_ 56 t.cause.toNat + at_ 48 t.sub.toNat + at_ 47 (bit t.ds) + at_ 46 (bit t.lat) +
      at_ 44 t.unit.toNat + t.pc.toNat)
  | 1 => Machine.word (at_ 46 t.paddr.toNat + at_ 32 t.widx.toNat + at_ 26 t.rep.toNat)
  | 2 => t.info
  | _ => t.gstop
/-- TFREC word k (R153). -/
def Tfrec.word (t : Tfrec) (k : Nat) : Word :=
  match k with
  | 0 => Machine.word (at_ 63 (bit t.valid) + at_ 62 (bit t.taint) + at_ 61 (bit t.rb) + at_ 59 t.tile.toNat +
      at_ 56 t.prof.toNat + at_ 52 t.ckr.toNat + at_ 48 t.fmt.toNat + at_ 40 t.nrow.toNat + at_ 32 t.ncol.toNat +
      at_ 24 t.sgrp.toNat + at_ 18 t.sslot.toNat + at_ 11 t.srow.toNat)
  | 1 => t.rows.setWidth 64
  | 2 => t.rows.extractLsb' 64 64
  | 3 => t.cols.setWidth 64
  | _ => t.cols.extractLsb' 64 64

/-- COREID of core k as member m (R233). -/
def coreidWord (k m : Nat) : Word :=
  word (at_ 24 m + at_ 16 (cluster k) + at_ 11 (coreRow k) + at_ 8 (coreCol k) + k)
/-- GANGID (R234). -/
def Core.gangid (c : Core) : Word :=
  let r := c.run
  word (at_ 32 r.seqNo.toNat + at_ 24 (r.berth.getD 0) + at_ 16 r.stream.toNat + r.group.toNat)

/-- SFIFO.COUNT (R235): entries of c7 that a pop issued now could take. -/
def Core.sfifoCount (c : Core) : Nat := ((lget c.chans 7 Chan.empty).q.filter (·.landed)).length

/-- Word k of the layer slot that LSEL selects (R116). -/
def State.lslotWord (s : State) (k : Nat) : Word :=
  let b := lget s.builders (cluster s.cur.core) { slots := [], calls := [], busy := none }
  lget (lget b.slots s.me.params.lsel.toNat []) k 0

/-- MAINS and MAINPC as a handler reads them (R141): what it has written, else the main context's value. -/
def State.mainRead (s : State) (r : Nat) : Word :=
  let h := s.me.hnd
  if r = 32 then h.mainPc.setWidth 64
  else match h.mains.find? (·.1 = r) with
    | some x => x.2
    | none => s.me.seq.reg r

/-- The value of system register n, or none where no register has the number (R231). -/
def State.sysRead (s : State) (n : Nat) : Option Word :=
  let c := s.me
  if n = 0x000 then some (word (s.actual s.cur.core))
  else if n = 0x001 then some (word c.run.g)
  else if n = 0x002 then some (coreidWord s.cur.core c.run.member)
  else if n = 0x003 then some c.gangid
  else if n = 0x004 then some c.schedmode
  else if n = 0x005 then some c.detmode
  else if n = 0x006 then some c.preempt
  else if n = 0x007 then some c.phstat
  else if n = 0x008 then some c.promo
  else if n = 0x009 then some c.nprof
  else if n = 0x00A then some c.hctl
  else if n = 0x00B then some c.gather
  else if n = 0x00C then some (word c.sfifoCount)
  else if n = 0x010 then some c.vstat
  else if n = 0x011 then some c.mstat
  else if n = 0x012 then some c.gstat
  else if n = 0x013 then some c.errinj
  else if 0x026 ≤ n && n < 0x02A then some ((lget c.mtx.cktol (n - 0x026) 0).setWidth 64)
  else if n = 0x030 then some (c.params.lsel.setWidth 64)
  else if 0x031 ≤ n && n < 0x035 then some (s.lslotWord (n - 0x031))
  else if 0x040 ≤ n && n < 0x044 then some (c.trec.word (n - 0x040))
  else if 0x048 ≤ n && n < 0x04D then some (c.tfrec.word (n - 0x048))
  else if 0x060 ≤ n && n < 0x068 then some (lget c.perf (n - 0x060) 0)
  else if 0x080 ≤ n && n < 0x0C0 then some (s.aperWord ((n - 0x080) / 4) ((n - 0x080) % 4))
  else if 0x0C9 ≤ n && n < 0x0E0 then some (lget c.chmap (n - 0x0C9) 0)
  else if 0x101 ≤ n && n < 0x121 then some (s.mainRead (n - 0x100))
  else none

/-- Whether MFS of n in the main context raises DET_READ under DETMODE (R166, R231). -/
def detReg (n : Nat) : Bool := n = 0 || n = 2 || n = 3 || (0x060 ≤ n && n < 0x068)

/-- Whether n is one of MAINS1 to MAINS31 and MAINPC (R231). -/
def mainReg (n : Nat) : Bool := 0x101 ≤ n && n < 0x121

/-- MFS (R230, R231, R166). -/
def execMfs (d : BitVec 5) (n : BitVec 12) (s : State) : Res :=
  seqRun (.mfs d n) anyPlace (fun s =>
    match s.sysRead n.toNat with
    | none => s.illegal (.mfs d n)
    | some v =>
      if mainReg n.toNat && !s.cur.shadow then s.illegal (.mfs d n)
      else if detReg n.toNat && !s.cur.shadow && s.me.modes.detEn then s.takeFault (mkFault 0 0x0B n.toNat)
      else (s.wrReg d 2 v).next1) s

/-! ## Writes as they land (R11, R12, R230) -/

/-- A bit of a word. -/
def wbit (v : Word) (i : Nat) : Bool := v.getLsbD i

/-- A promotion interval with its clamp (R100). -/
def clampN (v bound : Nat) : Nat × Bool := if v = 0 || bound < v then (bound, true) else (v, false)

/-- PROMO written (R100). -/
def Params.setPromo (p : Params) (v : Word) : Params :=
  let a := clampN (v.extractLsb' 16 12).toNat 512
  let b := clampN (v.extractLsb' 0 12).toNat 2048
  { p with n8 := BitVec.ofNat 12 a.1, n4 := BitVec.ofNat 12 b.1, cfgclamp := (p.cfgclamp && !wbit v 32) || a.2 || b.2 }

/-- NPROF written: ignored as a whole for DEF 5 to 7 (R105). -/
def Params.setNprof (p : Params) (v : Word) : Params :=
  if 5 ≤ v.toNat % 8 then p else { p with allow := v.extractLsb' 8 5, def_ := v.setWidth 3 }

/-- A tolerance exponent as stored (R285). -/
def clampTol (v : Word) : BitVec 6 :=
  let t := v.toNat % 64
  BitVec.ofNat 6 (if t < 8 then 8 else if 40 < t then 40 else t)

/-- ERRINJ written by a timetable or a handler (R291). -/
def Mtx.setErrinj (m : Mtx) (v : Word) : Mtx :=
  { m with eiArm := wbit v 63 && m.eiEn, eiTile := v.extractLsb' 58 2, eiRow := v.extractLsb' 40 8,
           eiCol := v.extractLsb' 32 8, eiBit := v.setWidth 5 }

/-- Fields of a CHMAP word (R195). -/
def chValid (w : Word) : Bool := w.getLsbD 63
def chKind (w : Word) : Nat := (w.extractLsb' 60 3).toNat
def chProd (w : Word) : Nat := (w.extractLsb' 58 2).toNat
def chCons (w : Word) : Nat := (w.extractLsb' 56 2).toNat
def chDrow (w : Word) : Int := (w.extractLsb' 48 4).toInt
def chDcol (w : Word) : Int := (w.extractLsb' 44 4).toInt
def chPeer (w : Word) : Nat := (w.extractLsb' 39 5).toNat

/-- Whether a CHMAP write passes the tests of R195. -/
def chmapOk (w : Word) : Bool :=
  !chValid w || (chKind w ≤ 1 && chProd w != 0 && (chCons w = 1 || chCons w = 3) && (chKind w = 0 || 9 ≤ chPeer w))

/-- The fields of a CHMAP word; the rest reads 0. -/
def chmapMask : Word := 0xFF0FFF8000000000

/-- A write of system register n lands in a core (R12, R195, R230, R231); writes to fields that are read-only or the Pilot
firmware's are ignored. DESIGN CHOICE: a write of CHMAP[k] replaces channel k as it lands by an empty one; entries pushed and credits
used since its test at issue are dropped (log 89). -/
def Core.sysWrite (c : Core) (n : Nat) (v : Word) : Core :=
  if n = 0x004 then { c with modes := { c.modes with late := c.modes.late && !wbit v 16, miss := c.modes.miss && !wbit v 8, trapMode := wbit v 0 } }
  else if n = 0x006 then { c with modes := { c.modes with ybad := c.modes.ybad && !wbit v 2 } }
  else if n = 0x007 then { c with modes := { c.modes with cancel := c.modes.cancel && !wbit v 34, refuse := c.modes.refuse && !wbit v 33 } }
  else if n = 0x008 then { c with params := c.params.setPromo v }
  else if n = 0x009 then { c with params := c.params.setNprof v }
  else if n = 0x00B then { c with params := { c.params with xu := v.extractLsb' 48 16, ts := v.extractLsb' 40 8, strict := wbit v 0 } }
  else if n = 0x010 then { c with vec := { c.vec with flags := c.vec.flags &&& ~~~(v.setWidth 7) } }
  else if n = 0x011 then { c with mtx := { c.mtx with flags := c.mtx.flags &&& ~~~(v.setWidth 5) } }
  else if n = 0x012 then { c with params := { c.params with oobs := c.params.oobs && !wbit v 32, oob := v.setWidth 32 } }
  else if n = 0x013 then { c with mtx := c.mtx.setErrinj v }
  else if 0x026 ≤ n && n < 0x02A then { c with mtx := { c.mtx with cktol := lput c.mtx.cktol (n - 0x026) (clampTol v) 0 } }
  else if n = 0x030 then { c with params := { c.params with lsel := v.setWidth 6 } }
  else if n = 0x048 then { c with tfrec := { c.tfrec with valid := c.tfrec.valid && !wbit v 63 } }
  else if 0x060 ≤ n && n < 0x068 then { c with perf := lput c.perf (n - 0x060) v 0 }
  else if 0x0C9 ≤ n && n < 0x0E0 then
    if chmapOk v then { c with chmap := lput c.chmap (n - 0x0C9) (v &&& chmapMask) 0, chans := lput c.chans (n - 0x0C0) Chan.empty Chan.empty }
    else c
  else if 0x101 ≤ n && n < 0x120 then
    { c with hnd := { c.hnd with mains := (n - 0x100, v) :: c.hnd.mains.filter fun x => x.1 != n - 0x100 } }
  else if n = 0x120 then
    { c with hnd := { c.hnd with mainPc := v.setWidth 18, ds := false, mains := (32, v) :: c.hnd.mains.filter fun x => x.1 != 32 }
             trec := { c.trec with ds := false } }
  else c

/-- A write of system register n by the Pilot firmware lands in a core: beside what every writer sets it sets the PRW fields (R11, R392):
DETMODE.EN, PREEMPT's PDL and YIELDREQ, RETRYMAX, HMASK and HENTRY, CKMIN, and ERRINJ.EN, under which the write may arm. -/
def Core.prwWrite (c : Core) (n : Nat) (v : Word) : Core :=
  if n = 0x005 then { c with modes := { c.modes with detEn := wbit v 0 } }
  else if n = 0x006 then let c := c.sysWrite n v; { c with modes := { c.modes with pdl := v.extractLsb' 32 32, yieldreq := wbit v 0 } }
  else if n = 0x007 then let c := c.sysWrite n v; { c with modes := { c.modes with retrymax := v.extractLsb' 40 4 } }
  else if n = 0x00A then { c with params := { c.params with hmask := v.extractLsb' 32 32, hentry := v.setWidth 18 } }
  else if n = 0x011 then let c := c.sysWrite n v; { c with mtx := { c.mtx with ckmin := v.extractLsb' 30 2 } }
  else if n = 0x013 then { c with mtx := { c.mtx with eiEn := wbit v 62 }.setErrinj v }
  else c.sysWrite n v

/-- The bits of layer-slot word k that hold fields a timetable writes (R115). -/
def slotMask (k : Nat) : Word :=
  lget [0xFFFFFFFFFFFFFFFF, 0xFFFF80FFFF000000, 0xFFFFFFFF00000000, 0x8000000000000000] k 0

/-- Word k of slot n of a cluster's builder written; LOCK only by the Pilot firmware (R115, R116). -/
def State.slotWrite (s : State) (cl n k : Nat) (v : Word) (pilot : Bool) : State :=
  let f (b : Builder) : Builder :=
    { b with slots := lmod b.slots n [] fun ws => lmod ws k 0 fun old =>
        (v &&& slotMask k) ||| ((if pilot then v else old) &&& (if k = 3 then 0x4000000000000000 else 0)) }
  { s with builders := lmod s.builders cl { slots := [], calls := [], busy := none } f }

/-- Name of layer-slot word k of slot n as the target of a write in flight. -/
def slotName (n k : Nat) : Nat := 0x1000 + 4 * n + k

/-- A write of a system register or layer-slot word of core k lands. -/
def State.landSys (s : State) (k n : Nat) (v : Word) : State :=
  if 0x1000 ≤ n then s.slotWrite (cluster k) ((n - 0x1000) / 4) (n % 4) v false
  else s.modCore k fun c => c.sysWrite n v

/-! ## MTS (R230) -/

/-- An MTS whose effect is a register write seen from c + 2 on. -/
def mtsRun (i : Instr) (p : Place) (a : BitVec 5) (n : Nat) (s : State) : Res :=
  seqRun i p (fun s => (s.addLat 0 2 (.sys n (s.rd a))).next1) s

/-- MTS of a register that has no row of its own (R230, R231). -/
def execMts (n : BitVec 12) (a : BitVec 5) (s : State) : Res :=
  seqRun (.mts n a) anyPlace (fun s =>
    match s.sysRead n.toNat with
    | none => s.illegal (.mts n a)
    | some _ =>
      if mainReg n.toNat && !s.cur.shadow then s.illegal (.mts n a)
      else (s.addLat 0 2 (.sys n.toNat (s.rd a))).next1) s

/-- PROMO (R100). -/
def execPromo (a : BitVec 5) (s : State) : Res := mtsRun (.promo a) anyPlace a 0x008 s
/-- NPROF (R105). -/
def execNprof (a : BitVec 5) (s : State) : Res := mtsRun (.nprof a) anyPlace a 0x009 s
/-- ERRINJ (R291). -/
def execErrinj (a : BitVec 5) (s : State) : Res := mtsRun (.errinj a) anyPlace a 0x013 s
/-- CKTOL (R285): k is FMT − 6. -/
def execCktol (k : BitVec 2) (a : BitVec 5) (s : State) : Res := mtsRun (.cktol k a) anyPlace a (0x026 + k.toNat) s

/-- MAINPC (R141): k = 31 is MAINPC, else MAINS(k + 1); only in the shadow context. -/
def execMainpc (k a : BitVec 5) (s : State) : Res :=
  mtsRun (.mainpc k a) { main := false, shadow := true, slot := true } a (if k = 31 then 0x120 else 0x101 + k.toNat) s

/-- LSLOT (R116): PERM when the selected slot has LOCK set. -/
def execLslot (k : BitVec 2) (a : BitVec 5) (s : State) : Res :=
  seqRun (.lslot k a) anyPlace (fun s =>
    let n := s.me.params.lsel.toNat
    if (s.lslotWord 3).getLsbD 62 then s.takeFault (mkFault 0 0x05 (0x800 + n))
    else (s.addLat 0 2 (.sys (slotName n k.toNat) (s.rd a))).next1) s

/-! ## SFIFO (R235) and CHMAP (R195) -/

/-- Depth of a channel (R191, R195). -/
def chanDepth (c : Nat) : Nat := if c ≤ 2 then 16 else if c ≤ 6 then 8 else if c = 7 then 32 else if c = 8 then 64 else 8

/-- Entries that a push issued at cycle `now` of a main queue, or of a handler lane, finds held: those popped at that cycle of the
same clock count until the cycle after their pop (R193, R141). -/
def Chan.heldIn (ch : Chan) (lane : Bool) (now : Nat) : Nat :=
  ch.q.length + (if ch.popLane = lane ∧ ch.popAt = now then ch.popN else 0)

/-- Entries that a push issued by the main program at gang cycle `now` finds held (R193). -/
def Chan.heldAt (ch : Chan) (now : Nat) : Nat := ch.heldIn false now

/-- Channel c of the core of the step. -/
def State.chan (s : State) (c : Nat) : Chan := lget s.me.chans c Chan.empty

/-- Channel c of core k changed. -/
def State.modChan (s : State) (k c : Nat) (f : Chan → Chan) : State :=
  s.modCore k fun x => { x with chans := lmod x.chans c Chan.empty f }

/-- An entry pushed into a local channel that lands at cycle `land`, the phase being the core's (R192). -/
def State.pushLocal (s : State) (unit c land : Nat) (v : List Lane) (drain : Option (Nat × Nat)) : State :=
  let e : ChEntry := { v := v, phase := s.me.modes.phase.toNat, land := land, landed := false, src := s.nextId, drain := drain }
  (s.modChan s.cur.core c fun ch => { ch with q := ch.q ++ [e] }).addPend unit land (.chan c)

/-- SFIFO (R193, R235): a push of a into c7. -/
def execSfifo (a : BitVec 5) (s : State) : Res :=
  seqRun (.sfifo a) mainSlot (fun s =>
    if chanDepth 7 ≤ (s.chan 7).heldAt s.clk then s.schedMiss 0 0x107 (.room 7)
    else
      let v := s.rd a
      (s.pushLocal 0 7 (s.clk + 1) [v.setWidth 32, v.extractLsb' 32 32] none).next1) s

/-- CHMAP (R195). -/
def execChmap (n a : BitVec 5) (s : State) : Res :=
  seqRun (.chmap n a) anyPlace (fun s =>
    let ch := s.chan n.toNat
    if n.toNat < 9 then s.illegal (.chmap n a)
    else if !ch.q.isEmpty || ch.used != 0 then s.illegal (.chmap n a)
    else if chmapOk (s.rd a) then (s.addLat 0 2 (.sys (0x0C0 + n.toNat) (s.rd a &&& chmapMask))).next1
    else s.next1) s

end Sys2Proof.Machine
end

