-- ==== Sys2Proof/Machine/Control.lean ====
section
/-!
DEFINITION. Sequencer control: TRAP, CHKERR, WAITG, PLAY, NOTIFY, HALT (R216, R217, R226, R227, R229), reserved words (R185), the
arrivals at barriers and gang-wide points (R43, R46, R148, R159, R222), and the waits' ends that concern one core.
-/

namespace Sys2Proof.Machine

/-- TRAP (R227): MAINPC will hold PC + 4. -/
def execTrap (code : BitVec 16) (s : State) : Res :=
  seqRun (.trap code) mainOnly (fun s =>
    s.takeFault { cause := 0x20, sub := 0, unit := 0, info := code.toNat, lat := false, skip := 4 }) s

/-- CHKERR (R147, R226). -/
def execChkerr (s : State) : Res :=
  seqRun .chkerr mainSlot (fun s =>
    if s.me.modes.chkint then
      s.takeFault { cause := 0x0A, sub := 2, unit := 0, info := s.ctx.pc.toNat, lat := false, skip := 0 }
    else s.next1) s

/-- WAITG (R217): the next instruction issues at max(c + 1, a). -/
def execWaitg (a : BitVec 5) (s : State) : Res :=
  seqRun (.waitg a) mainOnly (fun s => s.waitOn (.waitg (s.rd a).toNat)) s

/-- WAITG_EXPIRY (R217). -/
def execWaitgExpiry (s : State) : Res :=
  match s.me.seq.wait with
  | .waitg _ => ok (s.modMe fun c => { c with seq := { c.seq with wait := .none, next := c.run.g } })
  | _ => ok s

/-- A word that no instruction has raises ILLEGAL_INSTR when it issues (R185). -/
def execReservedSequencerEncoding (w : BitVec 32) (s : State) : Res :=
  seqRun (.reservedSequencerEncoding w) anyPlace (fun s => s.illegal (.reservedSequencerEncoding w)) s

/-! ## PLAY (R34, R216) -/

/-- The engine of a code of R178. -/
def engOf (e : BitVec 2) : Option Eng :=
  if e = 0 then some .vec else if e = 1 then some .mtx else if e = 2 then some .data else none

/-- An entry appended to a queue or lane. -/
def Engine.push (e : Engine) (q : QEntry) : Engine := { e with q := e.q ++ [q], played := true }

/-- The entries of a queue that a PLAY at gang cycle `now` counts: those that wait, and one whose passage's last word has not run its
last cycle (R34, R346). -/
def Engine.counted (e : Engine) (now : Nat) : Nat := e.q.length + bit (!e.started && now < e.next)

/-- PLAY (R34, R216). In the shadow context it goes to the handler lane and waits while the lane holds four passages. -/
def execPlay (eng : BitVec 2) (a b : BitVec 5) (len : BitVec 14) (s : State) : Res :=
  seqRun (.play eng a b len) anyPlace (fun s =>
    let i : Instr := .play eng a b len
    let addr := (s.rd a).toNat
    let limit := if s.cur.shadow then Config.scoreSize else Config.pilotHandler
    match engOf eng with
    | none => s.illegal i
    | some u =>
      let e := s.eng u
      let entry : QEntry := { addr := addr, len := len.toNat, stamp := (s.rd b).toNat, played := s.clk }
      if len = 0 then s.illegal i
      else if addr % 2 != 0 then s.takeFault (alignA 0 addr)
      else if limit < addr + 6 * len.toNat || Config.scoreSize ≤ addr then s.takeFault (mkFault 0 0x05 addr)
      else if s.cur.shadow then
        if Config.laneDepth ≤ e.q.length then s.retryNext else (s.modEng u fun e => e.push entry).next1
      else if e.ended then s.illegal i
      else if Config.queueDepth ≤ e.counted s.clk then
        let s := s.modMe fun c => { c with modes := c.modes.noteMiss }
        if s.me.modes.trapMode then s.takeFault (mkFault 0 0x07 (0x700 + eng.toNat))
        else s.modCtx fun c => { c with wait := .play eng.toNat }
      else (s.modEng u fun e => e.push entry).next1) s

/-- PLAY_QUEUE_ROOM (R34): the waiting PLAY issues on this cycle, the first that counts fewer than 32 entries. -/
def execPlayQueueRoom (s : State) : Res :=
  match s.me.seq.wait with
  | .play u =>
    if (lget s.me.engs u Engine.zero).counted s.me.run.g < Config.queueDepth then
      ok (s.modMe fun c => { c with seq := { c.seq with wait := .none, next := c.run.g } })
    else ok s
  | _ => ok s

/-! ## The end of a member (R50, R229) -/

/-- NOTIFY (R50, R229). -/
def execNotify (s : State) : Res :=
  seqRun .notify mainOnly (fun s => s.next1.modCtx fun c => { c with ended := true }) s

/-- A queue after HALT (R229): only the word being issued stays; the queue then counts as at its end. -/
def Engine.halt (e : Engine) (now : Nat) : Engine :=
  match e.q with
  | q :: _ =>
    if e.started && (e.rep != 0 || e.sacq.isSome || now < e.next) then
      if e.rep != 0 || e.sacq.isSome then { e with q := [{ q with len := e.widx + 1 }], ended := true, count := e.count + e.q.length - 1 }
      else { e with q := [], ended := true, count := e.count + e.q.length, started := false, widx := 0 }
    else { e with q := [], ended := true, count := e.count + e.q.length, started := false, widx := 0, rep := 0 }
  | [] => { e with ended := true }

/-- HALT (R229): queues emptied of what has not started, engines at their end, CHKINT kept for the record. -/
def execHalt (s : State) : Res :=
  seqRun .halt mainOnly (fun s =>
    (s.next1.modCtx fun c => { c with ended := true }).modMe fun c =>
      { c with engs := c.engs.map fun e => e.halt c.run.g
               run := { c.run with halted := true, poisoned := c.run.poisoned || c.modes.chkint } }) s

/-! ## Arrivals (R43, R46, R148, R159) -/

/-- Whether a core may name group g in GBAR (R43). -/
def State.gbarOk (s : State) (k g : Nat) : Bool :=
  let (v, m) := s.group g
  match s.gangOf k with
  | some gg => v && m.getLsbD k && (coresOf m).all gg.members.contains
  | none => false

/-- GBAR (R43): arrival; a wrong group raises PERM, whose INFO the spec does not name (log 27). -/
def execGbar (d : BitVec 5) (g : BitVec 8) (s : State) : Res :=
  seqRun (.gbar d g) mainOnly (fun s =>
    if s.gbarOk s.cur.core g.toNat then s.waitOn (.gbar g.toNat s.clk d.toNat)
    else
      let (n, s) := s.takeFree
      s.takeFault (mkFault 0 0x05 (Config.freeWord n).toNat)) s

/-- Arrival at a phase point (R46, R148): kind 0 PHASE, 1 PABORT, 2 PABORT.R. -/
def pointRun (i : Instr) (kind : Nat) (mask : BitVec 16) (d : BitVec 5) (s : State) : Res :=
  seqRun i mainOnly (fun s => s.waitOn (.phase kind mask s.clk d.toNat)) s

/-- PHASE (R46). -/
def execPhase (d : BitVec 5) (mask : BitVec 16) (s : State) : Res := pointRun (.phase d mask) 0 mask d s
/-- PABORT (R148). -/
def execPabort (d : BitVec 5) (s : State) : Res := pointRun (.pabort d) 1 0 d s
/-- PABORT_R (R148). -/
def execPabortR (d : BitVec 5) (s : State) : Res := pointRun (.pabortR d) 2 0 d s

/-- YIELD (R159, R160): arrival; live mask bits above 51 raise ILLEGAL_INSTR. -/
def execYield (d a : BitVec 5) (s : State) : Res :=
  seqRun (.yield d a) mainOnly (fun s =>
    if (s.rd a).extractLsb' 52 12 != 0 then s.illegal (.yield d a)
    else s.waitOn (.yield (s.rd a) s.clk d.toNat)) s

/-! ## Barriers (R43) -/

/-- The arrival cycles at group g's barrier, if every member has arrived. -/
def State.barrierArrivals (s : State) (g : Nat) : Option (List Nat) :=
  (coresOf (s.group g).2).mapM fun k =>
    match (s.core k).seq.wait with
    | .gbar g' a _ => if g' = g then some a else none
    | _ => none

/-- The largest of a list. -/
def maxOf (l : List Nat) : Nat := l.foldl Nat.max 0

/-- A core's sequencer goes on at its gang cycle G with G in register d, seen by the next instruction (R43, R222). -/
def Core.goOn (c : Core) (g d : Nat) (id : Nat) : Core :=
  let p : Pend := { id := id, land := g - 1, since := 0, tide := false, unit := 0, goesOn := false, need := none,
                    phased := false, missed := false, eff := .sreg false d (word g) }
  { c with seq := { c.seq with wait := .until_ g, next := g }, pend := c.pend ++ [p] }

/-- BARRIER_RELEASE (R43): every member of the group has arrived; each goes on at G = A + 64. -/
def execBarrierRelease (s : State) : Res :=
  let g := s.cur.arg
  match s.barrierArrivals g with
  | none => ok s
  | some arr =>
    let at64 := maxOf arr + 64
    ok ((coresOf (s.group g).2).foldl (fun s k =>
      { s.modCore k (fun c => match c.seq.wait with | .gbar _ _ d => c.goOn at64 d s.nextId | _ => c) with
        nextId := s.nextId + 1 }) s)

end Sys2Proof.Machine
end

