-- ==== Sys2Proof/Machine/Sync.lean ====
section
/-!
DEFINITION. Homes: sync objects, releases and acquires (R79 to R82, R223 to R225), atomics (R83), and the events with which a
home performs what the queues have issued (R75 to R77).
-/

namespace Sys2Proof.Machine

/-! ## Sync objects (R79) -/

/-- The bound regions of a sync object as its home holds them: BLEVEL, BBASE, BLEN, for entries in use (R79). -/
def State.bindings (s : State) (tgt a : Nat) : List (Nat × Nat × Nat) :=
  [16, 32, 48].filterMap fun o =>
    let w := s.gNat tgt (a + o + 8) 8
    if w % 2 ^ 40 = 0 then none else some (w / 2 ^ 62, s.gNat tgt (a + o) 8 % 2 ^ 48, w % 2 ^ 40)

/-- Whether an entry in use has a reserved BLEVEL (R79). -/
def State.badBinding (s : State) (tgt a : Nat) : Bool := (s.bindings tgt a).any fun b => 2 ≤ b.1

/-- Whether a named write lies in a bound region. -/
def namesMeet (ns bs : List (Nat × Nat × Nat)) : Bool :=
  ns.any fun (l, a, n) => bs.any fun (l', a', n') => l = l' && a < a' + n' && a' < a + n

/-- Where the sync object of an address in the form of R224 lies, or the fault. -/
def State.syncPlace (s : State) (a : Word) : FaultRec ⊕ (Nat × Nat) :=
  let lvl := (a.extractLsb' 62 2).toNat
  let o := (a.extractLsb' 0 48).toNat
  let perm := mkFault 0 0x05 a.toNat
  if a.extractLsb' 48 14 != 0 || 2 ≤ lvl then .inl perm
  else if o % 64 != 0 then .inl (alignA 0 a.toNat)
  else if lvl = 1 then
    if Config.sp3Size ≤ o then .inl perm else if s.badBinding 3 o then .inl perm else .inr (3, o)
  else match s.pinned (fun d => d.level = 3) o 64 with
    | some [(0, pa, _)] => if s.badBinding 0 pa then .inl perm else .inr (0, pa)
    | _ => .inl perm

/-- SREL (R80, R225): the sequencer goes on at c + 1. -/
def execSrel (a : BitVec 5) (s : State) : Res :=
  seqRun (.srel a) anyPlace (fun s =>
    match s.syncPlace (s.rd a) with
    | .inl f => s.takeFault f
    | .inr (t, x) => (s.newOp s.cur.core 0 (.srel t x) []).2.next1) s

/-- SACQ and SWAIT (R80, R225): the sequencer waits for the home's answer. -/
def waitRun (i : Instr) (a b : BitVec 5) (d : Option Nat) (s : State) : Res :=
  seqRun i mainOnly (fun s =>
    match s.syncPlace (s.rd a) with
    | .inl f => s.takeFault f
    | .inr (t, x) =>
      let (id, s') := s.newOp s.cur.core 0 (.wait t x (s.rd b)) []
      s'.waitOn (.sync id d)) s

/-- SACQ (R225). -/
def execSacq (a b : BitVec 5) (s : State) : Res := waitRun (.sacq a b) a b none s
/-- SWAIT (R225). -/
def execSwait (d a b : BitVec 5) (s : State) : Res := waitRun (.swait d a b) a b (some d.toNat) s

/-- The queues that a sequencer QFENCE mask names: bits 0 to 2 of the field are vector, matrix, data (R179, R223). -/
def fenceUnits (m : BitVec 3) : List Nat := [1, 2, 3].filter fun u => m.getLsbD (u - 1)

/-- QFENCE (R77, R223): later operations of the sequencer queue wait; its issue does not. -/
def execQfence (m : BitVec 3) (s : State) : Res :=
  seqRun (.qfence m) anyPlace (fun s => (s.qfence s.cur.core 0 (fenceUnits m)).next1) s

/-! ## Atomics at their homes (R83) -/

/-- The new value of an atomic: operation code of R315, width in bytes, old value, operand, compare value. -/
def atomicNew (op size old x cmp : Nat) : Nat :=
  let w := 8 * size
  let lt := toVal w true x < toVal w true old
  match op with
  | 0 => (old + x) % 2 ^ w
  | 1 => (fpAdd 10 0 old x).1
  | 2 => if lt then x else old
  | 3 => if lt then old else x
  | 4 => if x < old then x else old
  | 5 => if x < old then old else x
  | 6 => old &&& x
  | 7 => old ||| x
  | 8 => old ^^^ x
  | 9 => x
  | _ => if old = cmp then x else old

/-! ## What a home does -/

/-- The armed waits on sync objects whose VERSION meets bytes [a, a + n) of a home: the addresses of VERSION (R79, R82). -/
def State.armedAt (s : State) (tgt a n : Nat) : List Nat :=
  s.gops.filterMap fun o => match o.kind with
    | .wait t x _ => if o.armed && !o.done && t = tgt && x < a + n && a < x + 8 then some x else none
    | _ => none

/-- The armed waits on the sync object at an address: those of the cores' queues, and the stream queues' WAITVs (R79, R366). -/
def State.armedCount (s : State) (tgt x : Nat) : Nat :=
  (s.gops.countP fun o => match o.kind with | .wait t y _ => o.armed && !o.done && t = tgt && y = x | _ => false) +
  s.sched.queues.countP fun q => match q.run.waitv with | some (t, y, _) => t = tgt && y = x | none => false

/-- ARMED of the sync object at an address, as its home keeps it (R79). -/
def State.noteArmed (s : State) (tgt x : Nat) : State :=
  let c := s.armedCount tgt x
  let p : Piece := { addr := x + 8, bytes := leBytes 2 c, poison := false }
  if s.gNat tgt (x + 8) 2 = c % 65536 then s
  else if tgt = 3 then s.putSp3 [p] [p]
  else if tgt = 0 then { s with mem := { s.mem with hbm := mwriteP s.mem.hbm p } }
  else s

/-- The home serves the sync object at an address: from then on it keeps the object's ARMED (R79; log 66). -/
def State.serveSync (s : State) (tgt x : Nat) : State :=
  let s : State := if s.mem.syncs.contains (tgt, x) then s else { s with mem := { s.mem with syncs := (tgt, x) :: s.mem.syncs } }
  s.noteArmed tgt x

/-- After an update of n bytes at a home, every armed wait on a VERSION there is compared again (R82), the answer reaching the waiting
queue at a free later cycle. -/
def State.wakeWaits (s : State) (tgt a n : Nat) : State :=
  let hit (o : GOp) : Bool := match o.kind with
    | .wait t x v => o.armed && !o.done && t = tgt && x < a + n && a < x + 8 && v.toNat ≤ s.gNat t x 8
    | _ => false
  let objs := (s.gops.filter hit).filterMap fun o => match o.kind with | .wait _ x _ => some x | _ => none
  if objs.isEmpty then s
  else
    let s : State := { s with
      gops := s.gops.map fun (o : GOp) =>
        if hit o then { o with done := true, due := s.tide + Config.freeNat s.free
                               data := match o.kind with
                                 | .wait t x _ => [{ addr := x, bytes := s.gRead t x 8, poison := false }]
                                 | _ => [] }
        else o
      free := s.free + 1 }
    objs.foldl (fun s x => s.noteArmed tgt x) s

/-- Operations of the queues dropped, with the armed waits among them disarmed (R82, R157). -/
def State.dropOps (s : State) (drop : GOp → Bool) : State :=
  let objs := (s.gops.filter fun o => drop o && o.armed && !o.done).filterMap fun o => match o.kind with | .wait t x _ => some (t, x) | _ => none
  objs.foldl (fun s x => s.noteArmed x.1 x.2) { s with gops := s.gops.filter fun o => !drop o }

/-- The pieces of a list that go to a target. -/
def piecesTo (ps : List (Nat × Piece)) (t : Nat) : List Piece := ps.filterMap fun x => if x.1 = t then some x.2 else none

/-- The pieces of one write written at their homes, then the waits that they wake (R75, R82). -/
def State.writeHome (s : State) (ps : List (Nat × Piece)) : State :=
  let s := [0, 1, 2, 3].foldl (fun s t => match piecesTo ps t with | [] => s | qs => s.gWrite t qs) s
  ps.foldl (fun s (t, p) => s.wakeWaits t p.addr p.bytes.length) s

/-- Waits armed at SP3 compared again with what the home has come to see of the cores' writes (R82). -/
def State.wakeSp3 (s : State) : State :=
  (s.gops.filterMap fun o => match o.kind with | .wait 3 x _ => if o.armed && !o.done then some x else none | _ => none).foldl
    (fun s x => s.wakeWaits 3 x 8) s

/-- Whether every earlier write of the queue that a release must perform has been performed (R80): those to bound
regions, and the others too when the part also waits for them. -/
def State.releaseReady (s : State) (o : GOp) (tgt a : Nat) : Bool :=
  let bs := s.bindings tgt a
  (s.gops.all fun p => !(p.core = o.core && p.unit = o.unit && p.id < o.id && !p.done && p.kind.writes &&
    (o.armed || namesMeet p.names bs))) &&
  ((s.core o.core).pend.all fun p => !(p.unit = o.unit && p.id < o.id && p.eff.intoSp3)) &&
  (s.mem.spq.all fun w => !(w.lvl = 2 && w.writer = o.core && w.queue = o.unit && w.id < o.id && !s.shown w &&
    (o.armed || namesMeet (w.ps.map fun p => (1, p.addr, p.bytes.length)) bs)))

/-- Whether the home may perform an operation now, but for those of lower classes that it serves ahead (R76, R77, R80). -/
def State.opFree (s : State) (o : GOp) : Bool :=
  !o.done && o.due ≤ s.tide && !s.isLate o.id && (o.deps.all fun d => s.depDone o.core d) &&
    match o.kind with
    | .srel t a => s.releaseReady o t a
    | .atomic t a _ _ _ _ true => s.releaseReady o t a
    | .wait _ _ _ => !o.armed
    | _ => true

/-- Whether an HBM controller or the PCIe link serves operation p ahead of operation o (R301). -/
def GOp.ahead (p o : GOp) : Bool :=
  p.cls < o.cls && (p.kind.runs.flatMap runHomes).any fun x => x.1 < 5 && (o.kind.runs.flatMap runHomes).any fun y => x.1 = y.1

/-- Whether the home performs an operation now (R76, R77, R80, R301). -/
def State.opReady (s : State) (o : GOp) : Bool :=
  s.opFree o && (o.cls = 0 || !(s.gops.any fun p => p.ahead o && s.opFree p))

/-- An operation replaced. -/
def State.setOp (s : State) (o : GOp) : State := { s with gops := s.gops.map fun p => if p.id = o.id then o else p }

/-- An operation that leaves nothing to answer is removed. -/
def State.dropOp (s : State) (id : Nat) : State := { s with gops := s.gops.filter fun p => p.id != id }

/-- What a home answers to a read of a run: its bytes, cut at the 64-byte granules when some of them are poisoned (R145). -/
def State.homePieces (s : State) (t a n : Nat) : List Piece :=
  if s.gPoison t a n then
    joinPieces ((granules a n).map fun g =>
      let lo := Nat.max a (64 * g)
      let l := Nat.min (a + n) (64 * g + 64) - lo
      { addr := lo, bytes := s.gRead t lo l, poison := s.gPoison t lo l })
  else [{ addr := a, bytes := s.gRead t a n, poison := false }]

/-- The home performs operation o (R75, R80, R82, R83). -/
def State.performOp (s : State) (o : GOp) : State :=
  match o.kind with
  | .write ps => (s.dropOp o.id).writeHome ps
  | .read rs => s.setOp { o with done := true, data := rs.flatMap fun (t, a, n) => s.homePieces t a n }
  | .srel t a =>
    ((s.dropOp o.id).serveSync t a).writeHome [(t, { addr := a, bytes := leBytes 8 ((s.gNat t a 8 + 1) % 2 ^ 64), poison := false })]
  | .wait t a v =>
    if v.toNat ≤ s.gNat t a 8 then
      { s.setOp { o with done := true, armed := true, due := s.tide + Config.freeNat s.free
                         data := [{ addr := a, bytes := s.gRead t a 8, poison := false }] } with free := s.free + 1 : State }.serveSync t a
    else (s.setOp { o with armed := true }).serveSync t a
  | .atomic t a op size x cmp rel =>
    let bs := s.gRead t a size
    let poi := s.gPoison t a size
    let s := s.setOp { o with done := true, data := [{ addr := a, bytes := bs, poison := poi }] }
    let s := if rel then s.serveSync t a else s
    if poi then s
    else s.writeHome [(t, { addr := a, bytes := leBytes size (atomicNew op size (leNat bs) x cmp), poison := false })]
  | .walk => s.setOp { o with done := true }

/-- The operation that the step concerns. -/
def State.theOp (s : State) : Option GOp := s.gops.find? fun o => o.id = s.cur.arg

/-- The operation of `cur.arg` is performed if its home may do so now. -/
def State.homeEvent (s : State) (allow : GOp → Bool) : Res :=
  match s.theOp with
  | some o => if allow o && s.opReady o then ok (s.performOp o) else ok s
  | none => ok s

/-- GLOBAL_WRITE_PERFORMED (R75). -/
def execGlobalWritePerformed (s : State) : Res :=
  s.homeEvent fun o => match o.kind with | .write _ => true | _ => false

/-- GLOBAL_READ_ARRIVAL (R40): the home has answered; the data become visible at their landing cycle or, when late, from
the next cycle on. -/
def execGlobalReadArrival (s : State) : Res :=
  match s.theOp with
  | none => ok s
  | some o =>
    match o.kind with
    | .read _ =>
      if !s.opReady o then ok s
      else
        let s := s.performOp o
        match (s.core o.core).run.stop with
        | some st => if st.await = some (.op o.id) then ok (s.endSource o.core) else ok s
        | none => ok s
    | _ => ok s

/-- HOME_UPDATE (R80, R82, R83): a release, an atomic, or the check and arming of a wait reaches its home. -/
def execHomeUpdate (s : State) : Res :=
  s.homeEvent fun o => match o.kind with | .srel _ _ => true | .atomic _ _ _ _ _ _ _ => true | .wait _ _ _ => true | _ => false

/-! ## The end of a wait (R82) -/

/-- A word of `reps` repeats has issued its current repeat, and the queue's next issue is at `next` (R36). -/
def Engine.issued (e : Engine) (reps next : Nat) : Engine :=
  let pos := match e.q with | q :: _ => (q.addr, e.widx, e.rep) | [] => e.last
  let e := { e with last := pos, next := next, started := true }
  if e.rep + 1 < reps then { e with rep := e.rep + 1 }
  else match e.q with
    | q :: r =>
      if e.widx + 1 < q.len then { e with widx := e.widx + 1, rep := 0, latch := [], acc := [] }
      else { e with q := r, widx := 0, rep := 0, latch := [], acc := [], started := false, count := e.count + 1 }
    | [] => { e with rep := 0, latch := [] }

/-- An acquire of the sync object of wait o by its core: what has been performed in the bound SP3 regions is seen by the core from now on
(R81). -/
def State.acquire (s : State) (o : GOp) : State :=
  match o.kind with
  | .wait t a _ =>
    let bs := s.bindings t a
    let gets (w : SpWrite) : Bool := w.lvl = 2 && s.shown w && namesMeet (w.ps.map fun p => (1, p.addr, p.bytes.length)) bs
    { s with mem := { s.mem with spq := s.mem.spq.map fun (w : SpWrite) => if gets w then { w with seen := o.core :: w.seen } else w } }
  | _ => s

/-- SACQ_COMPLETE (R80, R82): the answer reaches the waiting sequencer, whose next instruction issues now, or the waiting data
queue. -/
def execSacqComplete (s : State) : Res :=
  match s.theOp with
  | none => ok s
  | some o =>
    if !o.done then ok s
    else
      let v : Word := BitVec.ofNat 64 (leNat (o.data.flatMap (·.bytes)))
      let acquires : Bool := match (s.core o.core).seq.wait with | .sync id (some _) => id != o.id | _ => true
      let s := if acquires then s.acquire o else s
      let s := s.dropOp o.id
      if o.unit = 0 then
        ok (s.modCore o.core fun c =>
          match c.seq.wait with
          | .sync id d =>
            if id = o.id then
              { c with seq := { (match d with | some r => c.seq.setReg r v | none => c.seq) with wait := .none, next := c.run.g } }
            else c
          | _ => c)
      else
        let s := { s with cur := { s.cur with core := o.core, shadow := o.lane, unit := .data } }
        ok (s.modEng .data fun e => if e.sacq = some o.id then { e with sacq := none }.issued 1 s.clk else e)

end Sys2Proof.Machine
end

