-- ==== Sys2Proof/Machine/Complete.lean ====
section
/-!
DEFINITION. Completion records and interrupts (R381 to R383), and the end of a gang by completion or abort (R51, R71, R157).
-/

namespace Sys2Proof.Machine

/-- Queue n. -/
def State.queue (s : State) (n : Nat) : Queue := lget s.sched.queues n Queue.reset

/-- Queue n changed. -/
def State.modQueue (s : State) (n : Nat) (f : Queue → Queue) : State :=
  { s with sched := { s.sched with queues := lmod s.sched.queues n Queue.reset f } }

/-- The scheduler block changed. -/
def State.modSched (s : State) (f : Sched → Sched) : State := { s with sched := f s.sched }

/-- A completion record (R381). -/
structure Record where
  token   : Nat
  frameno : Nat
  seq     : Nat
  status  : Nat
  reason  : Nat
  flags   : Nat
  gcycles : Nat
  phases  : Nat
  nsave   : Nat
  group   : Nat
  deriving DecidableEq, Repr

/-- A record that carries only a token, a status and a reason. -/
def plainRecord (token status reason : Nat) : Record :=
  { token := token, frameno := 0, seq := 0, status := status, reason := reason, flags := 0, gcycles := 0, phases := 0,
    nsave := 0, group := 0 }

/-- The 32 bytes of a record (R381). -/
def Record.bytes (r : Record) (cphase : Bool) : List Byte :=
  leBytes 4 r.token ++ leBytes 4 r.frameno ++ leBytes 4 r.seq ++ leBytes 1 r.status ++ leBytes 1 r.reason ++
  leBytes 1 r.flags ++ leBytes 1 (bit cphase) ++ leBytes 8 r.gcycles ++ leBytes 4 r.phases ++ leBytes 2 r.nsave ++
  leBytes 1 r.group ++ leBytes 1 0

/-- Index of queue words modulo 2^17 (R364). -/
def mod17 (n : Nat) : Nat := n % 2 ^ 17

/-- CPHASE of completion index j of a queue (R381). -/
def QRing.cphase (q : QRing) (j : Nat) : Bool := j / 2 ^ q.crlog2.toNat % 2 = 0

/-- The queue's interrupt is raised (R383). -/
def State.raiseIrq (s : State) (n : Nat) : State :=
  let q := s.queue n
  (s.irq q.pol.owner q.pol.vec.toNat).modQueue n fun q => { q with run := { q.run with unrep := 0 } }

/-- A record of queue n counts toward its interrupt; `urgent` raises it at once (R383). -/
def State.countIrq (s : State) (n : Nat) (urgent : Bool) : State :=
  let q := s.queue n
  if !q.pol.irqen then s
  else if urgent || q.pol.coalt = 0 || Nat.max 1 q.pol.coaln.toNat ≤ q.run.unrep + 1 then s.raiseIrq n
  else s.modQueue n fun q => { q with run := { q.run with unrep := q.run.unrep + 1
                                                          firstN := if q.run.unrep = 0 then s.tide else q.run.firstN } }

/-- Reserved slots at the front that have their record are released, and CRTAIL advances past them (R381). -/
def advanceSlots : List Resv → BitVec 17 → List Resv × BitVec 17
  | [], t => ([], t)
  | r :: l, t => if r.wrote then advanceSlots l (t + 1) else (r :: l, t)

/-- The queue after its leading slots have their records. -/
def Queue.settle (q : Queue) : Queue :=
  let (l, t) := advanceSlots q.run.resv q.ring.crtail
  { q with ring := { q.ring with crtail := t }, run := { q.run with resv := l } }

/-- A record written into reserved slot idx of queue n with a CPHASE, without the MARKs that waited for it. -/
def State.putRecord (s : State) (n idx : Nat) (cphase : Bool) (r : Record) : State :=
  match (s.queue n).run.resv.find? fun x => x.idx = idx with
  | none => s
  | some v =>
    let s := s.writeHome [(v.tgt, { addr := v.pa, bytes := r.bytes cphase, poison := false })]
    let s := s.modQueue n fun q =>
      { q with run := { q.run with resv := q.run.resv.map fun (x : Resv) => if x.idx = idx then { x with wrote := true } else x } : Queue }.settle
    s.countIrq n (v.irq || r.status != 0)

/-- A record written into reserved slot idx of queue n with a CPHASE (R381), then the records of the MARKs that waited for it only
(R366). -/
def State.writeRecordAs (s : State) (n idx : Nat) (cphase : Bool) (r : Record) : State :=
  let s := s.putRecord n idx cphase r
  let waiting := (s.queue n).run.marks.map fun (i, t, deps) => (i, t, deps.filter (· != idx))
  let ready := waiting.filter fun m => m.2.2.isEmpty
  let s := s.modQueue n fun q => { q with run := { q.run with marks := waiting.filter fun m => !m.2.2.isEmpty } }
  ready.foldl (fun s m => s.putRecord n m.1 ((s.queue n).ring.cphase m.1) (plainRecord m.2.1.toNat 4 0)) s

/-- A record written into reserved slot idx of queue n (R381). -/
def State.writeRecord (s : State) (n idx : Nat) (r : Record) : State := s.writeRecordAs n idx ((s.queue n).ring.cphase idx) r

/-- COALT_EXPIRY (R383): the queue named by `cur.arg`, if its IRQEN is set, reports what it has not reported. -/
def execCoaltExpiry (s : State) : Res :=
  let q := s.queue s.cur.arg
  if q.run.unrep = 0 || !q.pol.irqen then ok s else ok (s.raiseIrq s.cur.arg)

/-- The record slot of a bind record's FRAME: the reservation of its queue at its physical address (R378, R381). -/
def State.bindSlot (s : State) (b : Bind) : Option Nat :=
  ((s.queue b.stream.toNat).run.resv.find? fun x => x.isFrame && !x.wrote && x.pa = b.cplpa.toNat * 32).map (·.idx)

/-- The record of the FRAME of a bind record, at CPLPA with the record's CPHASE (R378, R381). DESIGN CHOICE: a CPLPA that no open reservation
of the queue has is an address of HBM, and settles no reservation (log 93). -/
def State.writeBindRecord (s : State) (b : Bind) (r : Record) : State :=
  match s.bindSlot b with
  | some i => s.writeRecordAs b.stream.toNat i b.cphase r
  | none => s.writeHome [(0, { addr := b.cplpa.toNat * 32, bytes := r.bytes b.cphase, poison := false })]

/-! ## The end of a gang -/

/-- A core that no longer runs its gang: descriptors unbound, units stopped (R71, R157). What its channels hold stands until the next
launch (R23, R326). -/
def Core.leave (c : Core) : Core :=
  { c with
    run := { c.run with berth := none, started := false, stop := none }
    hnd := Handler.idle
    seq := { c.seq with wait := .none, slot := none, ended := true }
    sh := { c.sh with wait := .none, slot := none, ended := true }
    engs := c.engs.map fun e => { Engine.zero with ended := true, played := e.played }
    lanes := List.replicate 3 Engine.zero
    unpins := c.unpins ++ ((c.descs.filter (·.bound)).map fun d => { pins := d.pins, deps := [] })
    descs := c.descs.map fun d => { d with bound := false, pins := [], shw := false }
    mem := { c.mem with held := [] }
    snap := none
    pend := []
    landed := []
    fences := List.replicate 4 []
    builds := []
    mtx := { c.mtx with drain := none, laneDrain := none, reads := none, laneReads := none }
    dread := none, laneDread := none }

/-- The members leave; operations that answer nobody any more are dropped; SP2 and SP3 writes are visible to all. -/
def State.freeGang (s : State) (g : Gang) : State :=
  let s := g.members.foldl (fun s k => s.modCore k Core.leave) s
  let s := (s.dropOps fun o => g.members.contains o.core).showBerth g.berth
  { s with gangs := s.gangs.filter fun x => x.berth != g.berth }

/-- FLAGS of the completion record (R381); a phase counts as open when it has written a shadow bank or holds stores
(log 29). -/
def State.recordFlags (s : State) (g : Gang) : Nat :=
  let cs := g.members.map s.core
  bit (cs.any (·.run.poisoned)) + at_ 1 (bit (cs.any (·.run.halted))) +
  at_ 2 (bit (cs.any fun c => !c.mem.held.isEmpty || c.descs.any (·.shw))) + at_ 3 (bit g.forced) + at_ 4 (bit g.yielded) +
  at_ 5 (bit g.clamped) + at_ 6 (bit (cs.any (·.modes.late)))

/-- The record of a gang at its end (R381). -/
def State.gangRecord (s : State) (g : Gang) (status reason gcycles : Nat) : Record :=
  let b := s.bind g.berth
  { token := b.token.toNat, frameno := b.frameno.toNat, seq := b.seq.toNat, status := status, reason := reason,
    flags := s.recordFlags g, gcycles := gcycles, phases := (s.core g.origin).modes.phase.toNat, nsave := g.nsave,
    group := b.group.toNat }

/-- The save slot that a FRAME held is free again (R387). -/
def State.freeSlotOf (s : State) (b : Bind) : State :=
  s.modQueue b.stream.toNat fun q => { q with run := { q.run with slots := q.run.slots.filter fun x => x.2 != b.seq.toNat } }

/-- The bind record at its end; every Pilot core sees signal 18 rise (R378, R397). -/
def State.endBind (s : State) (berth reason flags end_ : Nat) : State :=
  (s.modBind berth fun b => { b with state := 3, reason := BitVec.ofNat 8 reason, cflags := BitVec.ofNat 8 flags,
                                     end_ := BitVec.ofNat 2 end_ }).signal 18

/-! ## The class-0 latency promise (R436, R437) -/

/-- The effective slice of a class (R385). -/
def Sched.slice_ (x : Sched) (c : Nat) : Nat := Nat.max (lget x.slice c 0).toNat (2 * x.savecost.toNat)

/-- The class of the gang of a bind record: that of its queue. -/
def State.classOf (s : State) (b : Bind) : Nat := (s.queue b.stream.toNat).pol.cls.toNat

/-- The floor clock of a cap in MHz (R434); a cap between two rows has the floor of the lower row (log 20). -/
def floorClock (cap : Nat) : Nat := if 150 ≤ cap then 1900 else if 120 ≤ cap then 1500 else if 100 ≤ cap then 1200 else 800

/-- A sum of fractions. -/
def addFrac (x y : Nat × Nat) : Nat × Nat := (x.1 * y.2 + y.1 * x.2, x.2 * y.2)

/-- The microseconds from tide cycle a to tide cycle b, as a fraction, under the changes of the compute clock (newest first). -/
def wallTime : List (Nat × Nat) → Nat → Nat → Nat × Nat
  | [], a, b => (b - a, 1900)
  | (t, f) :: r, a, b => if a < t then addFrac (wallTime r a t) (b - t, f) else (b - a, f)

/-- B0 in microseconds, as a fraction (R436). -/
def State.bound0 (s : State) : Nat × Nat :=
  let smax := Nat.max (s.sched.slice_ 1) (Nat.max (s.sched.slice_ 2) (s.sched.slice_ 3))
  let f := floorClock s.fleet.cap
  (150 * f + smax + s.fleet.capsule.pdl.toNat + 2 * (lget s.sched.runlim 0 0).toNat, f)

/-- The stock rank program (R374). -/
def stockRank : List (BitVec 32) :=
  [0x2200120F, 0x24012A0F, 0x56500008, 0x2802001D, 0x2A02041F, 0x9D280000, 0x3F980000, 0xC1C00000, 0x22012801, 0x6240001E, 0xB0700000, 0]

/-- The promise of R436 is void on this tide cycle (R437). -/
def State.voidPromise (s : State) : State := { s with fleet := { s.fleet with voidTo := s.tide + 1 } }

/-- Whether the promise of R436 holds for a gang of a bind record that completes, whose FRAME was given at a tide cycle: it has been void on no
cycle since (R437). Whether the class-0 demand fits, whether firmware at the expert level has set CLASSEN or VNOW, and the conditions of R435 are
a free value (log 71). -/
def State.promised (s : State) (g : Gang) (b : Bind) (given : Nat) : Bool :=
  s.classOf b = 0 && lget s.sched.runlim 0 0 != 0 && s.fleet.voidTo ≤ given &&
  (s.queue b.stream.toNat).run.resv.all (fun r => r.pa != b.cplpa.toNat * 32 || r.tgt = 0) && !g.retried && Config.freeNat s.free % 2 = 1

/-- A completion of class 0 after its bound, while the promise holds, is logged with SEV 2 and counted (R437). -/
def State.noteLate (s : State) (g : Gang) (b : Bind) : State :=
  match s.pilot.fw.tails.find? fun x => x.1 = b.seq with
  | none => s
  | some x =>
    let w := wallTime s.fleet.clocks x.2 s.tide
    if s.promised g b x.2 && s.bound0.1 * w.2 < w.1 * s.bound0.2 then
      let s := ({ s with free := s.free + 2 } : State).rasSev 2 8 0xFF g.berth (Config.freeNat s.free % 2 ^ 32) (Config.freeNat (s.free + 1) % 2 ^ 64)
      { s with fleet := { s.fleet with lates := s.fleet.lates ++ [s.tide] } }
    else s

/-- A gang completes (R51, R381, R382). -/
def State.completeGang (s : State) (g : Gang) (gcycles : Nat) : State :=
  let b := s.bind g.berth
  let fl := s.recordFlags g
  let r := s.gangRecord g 0 0 gcycles
  ((((s.noteLate g b).freeGang g).writeBindRecord b r).freeSlotOf b).endBind g.berth 0 fl 0

/-- The unphased writes of core k that are in flight land, with the reads that they need performed (R157, R382; log 52). -/
def State.landIssued (s : State) (k : Nat) : State :=
  ((s.core k).pend.filter fun p => !p.phased).foldl (fun s p =>
    let s := match s.gops.find? fun o => p.need = some o.id && !o.done with
      | some o => s.performOp o
      | none => s
    match s.effPieces (s.spByte k) p with
    | some (lvl, ps, _) => s.landSp k lvl (s.core k).run.g p.id p.unit p.deps ps
    | none => s) s

/-- What the queues of a gang have issued and their homes have not performed is performed, oldest first, and its writes in flight
land; waits, other reads and walks are dropped (R157, R382). -/
def State.flushGang (s : State) (g : Gang) : State :=
  let s := g.members.foldl (fun s k => s.landIssued k) s
  (s.gops.filter fun o => g.members.contains o.core && !o.done && o.kind.writes).foldl (fun s o => s.performOp o) s

/-- A gang is aborted with a reason (R157). -/
def State.abortGang (s : State) (berth reason : Nat) : State :=
  match s.gang berth with
  | none => s
  | some g =>
    let b := s.bind berth
    let fl := s.recordFlags g
    let r := s.gangRecord g 1 reason (s.core g.origin).run.g
    ((((((s.flushGang g).freeGang g).writeBindRecord b r).freeSlotOf b).endBind berth reason fl 1).ras 5 0xFF berth reason 0)

end Sys2Proof.Machine
end

