-- ==== Sys2Proof/Machine/Channel.lean ====
section
/-!
DEFINITION. Channels (R191 to R196): who may use them, pushes with their landing cycles, pops, the return of credits, and
the entries that a cancelled phase discards.
-/

namespace Sys2Proof.Machine

/-! ## Who may use a channel -/

/-- Whether the direction of R191 lets a unit (1 vector, 2 matrix, 3 data) push to or pop from fixed channel c. -/
def fixedOk (unit c : Nat) (push : Bool) : Bool :=
  if 9 ≤ c then true
  else if push then lget [unit = 2, unit = 3, unit = 1, unit = 1, unit = 1, unit = 1, unit = 1, unit = 0, unit = 3] c false
  else lget [unit = 1, unit = 1, unit = 3, unit = 1, unit = 1, unit = 1, unit = 1, unit = 1, unit = 3] c false

/-- The CHMAP word of channel c of core k. -/
def State.chmapOf (s : State) (k c : Nat) : Word := lget (s.core k).chmap (c - 9) 0

/-- Whether channel c of core k is a mesh channel. -/
def State.isMesh (s : State) (k c : Nat) : Bool :=
  (3 ≤ c && c ≤ 6) || (9 ≤ c && chValid (s.chmapOf k c) && chKind (s.chmapOf k c) = 1)

/-- The gang member at an offset from core k. -/
def State.memberAt (s : State) (k : Nat) (dr dc : Int) : Option Nat :=
  let r := (coreRow k : Int) + dr
  let c := (coreCol k : Int) + dc
  if r < 0 || 4 ≤ r || c < 0 || 6 ≤ c then none
  else
    let m := (r * 6 + c).toNat
    match s.gangOf k with
    | some g => if g.members.contains m then some m else none
    | none => none

/-- The member and the channel at which a mesh channel of core k ends (R194, R195). -/
def State.meshPeer (s : State) (k c : Nat) : Option (Nat × Nat) :=
  let at_ (dr dc : Int) (c' : Nat) := (s.memberAt k dr dc).map fun m => (m, c')
  if c = 3 then at_ (-1) 0 5
  else if c = 4 then at_ 0 1 6
  else if c = 5 then at_ 1 0 3
  else if c = 6 then at_ 0 (-1) 4
  else
    let w := s.chmapOf k c
    at_ (chDrow w) (chDcol w) (chPeer w)

/-- PERM for channel c (R194, R196). -/
def permCh (unit c : Nat) : FaultRec := mkFault unit 0x05 (0x100 + c)

/-- Whether the entry of CHMAP at the peer of a mapped mesh channel answers to it (R196). -/
def peerAnswers (w w' : Word) (c : Nat) : Bool :=
  chValid w' && chKind w' = 1 && chPeer w' = c && chDrow w' = -chDrow w && chDcol w' = -chDcol w &&
  chProd w' = chProd w && chCons w' = chCons w

/-- The fault of a push (or a pop or peek) by a unit on channel c (R141, R194, R196). -/
def State.chanFault (s : State) (unit c : Nat) (push : Bool) : Option FaultRec :=
  let k := s.cur.core
  if s.cur.shadow && s.isMesh k c then some (permCh unit c)
  else if c < 3 || 7 ≤ c && c < 9 then none
  else if c ≤ 6 then if push && (s.meshPeer k c).isNone then some (permCh unit c) else none
  else
    let w := s.chmapOf k c
    if !chValid w then some (permCh unit c)
    else if (if push then chProd w else chCons w) != unit then some (permCh unit c)
    else if push && chKind w = 1 then
      match s.meshPeer k c with
      | none => some (permCh unit c)
      | some (m, c') => if peerAnswers w (s.chmapOf m c') c then none else some (permCh unit c)
    else none

/-! ## Pops and peeks (R192) -/

/-- Whether entry i (0 the oldest) of channel c has landed. -/
def State.entryLanded (s : State) (c i : Nat) : Bool :=
  match (s.chan c).q[i]? with
  | some e => e.landed
  | none => false

/-- The words of entry i of channel c. -/
def State.entry (s : State) (c i : Nat) : List Lane :=
  match (s.chan c).q[i]? with
  | some e => e.v
  | none => []

/-- The lanes that a vector word reads from an entry: c7 gives its low word in every lane (R191). -/
def chanLanes (c : Nat) (v : List Lane) : List Lane := if c = 7 then List.replicate 64 (lget v 0 0) else v

/-- A credit for channel c' of sender m, given back by a pop at cycle x of core k (R193). -/
def State.giveCredit (s : State) (k m c' x : Nat) : State :=
  let u := s.meshCycle k m x 0
  if u ≤ (s.core m).run.g then s.modChan m c' fun ch => { ch with used := ch.used - 1 }
  else
    let p : Pend := { id := s.nextId, land := u - 1, since := 0, tide := false, unit := 40 + k, goesOn := false,
                      need := none, phased := false, missed := false, eff := .credit c' }
    { s.modCore m fun c => { c with pend := c.pend ++ [p] } with nextId := s.nextId + 1 }

/-- n credits given back by core k for entries of its inbound channel c at cycle x. -/
def State.giveCredits (s : State) (k c x : Nat) : Nat → State
  | 0 => s
  | n + 1 => match s.meshPeer k c with
    | some (m, c') => (s.giveCredit k m c' x).giveCredits k c x n
    | none => s

/-- A drained row popped from c0 taints the drain (R154). -/
def Core.taintBy (c : Core) (es : List ChEntry) : Core :=
  match c.mtx.drain with
  | none => c
  | some d =>
    if es.any fun e => match e.drain with | some (t, _) => t = d.id | none => false then
      { c with mtx := { c.mtx with drain := some { d with taint := true } } }
    else c

/-- The n oldest entries of channel c are popped by the step (R192, R193). -/
def State.popChan (s : State) (c n : Nat) : State :=
  if n = 0 then s
  else
    let k := s.cur.core
    let es := (s.chan c).q.take n
    let now := s.clk
    let s := s.modChan k c fun ch =>
      { ch with q := ch.q.drop n, popAt := now, popLane := s.cur.shadow,
                popN := n + (if ch.popLane = s.cur.shadow ∧ ch.popAt = now then ch.popN else 0) }
    let s := s.modMe fun x => x.taintBy es
    if s.isMesh k c then s.giveCredits k c now n else s

/-! ## Pushes (R28, R192, R193) -/

/-- Entries of c8 held at cycle `now`, with the reservations of MFBUILD calls until their manifests land (R320). -/
def Core.c8Held (c : Core) (lane : Bool) (now : Nat) : Nat :=
  (lget c.chans 8 Chan.empty).heldIn lane now + (c.builds.map (·.feed)).sum

/-- Whether a push of one more entry to channel c is a schedule miss (R193). -/
def State.pushMiss (s : State) (c : Nat) : Bool :=
  if s.isMesh s.cur.core c then
    match s.meshPeer s.cur.core c with
    | some (_, c') => chanDepth c' ≤ (s.chan c).used
    | none => false
  else if c = 8 then 64 ≤ s.me.c8Held s.cur.shadow s.clk
  else chanDepth c ≤ (s.chan c).heldIn s.cur.shadow s.clk

/-- What a push that misses awaits. -/
def State.pushAwait (s : State) (c : Nat) : Await := if s.isMesh s.cur.core c then .credit c else .room c

/-- A push into a mesh channel with endpoint cost e (R28, R192, R193). -/
def State.pushMesh (s : State) (c e : Nat) (v : List Lane) : State :=
  let k := s.cur.core
  match s.meshPeer k c with
  | none => s
  | some (m, c') =>
    let land := s.meshCycle k m s.clk e - 1
    let en : ChEntry := { v := v, phase := s.me.modes.phase.toNat, land := land, landed := false, src := s.nextId, drain := none }
    let p : Pend := { id := s.nextId, land := land, since := 0, tide := false, unit := 40 + k, goesOn := false,
                      need := none, phased := false, missed := false, eff := .mesh c' }
    let s := s.modChan k c fun ch => { ch with used := ch.used + 1 }
    let s := s.modChan m c' fun ch => { ch with q := ch.q ++ [en] }
    { s.modCore m fun x => { x with pend := x.pend ++ [p] } with nextId := s.nextId + 1 }

/-- A push by `unit` with latency lat at a local channel and endpoint cost e at a mesh channel (R28, R192). -/
def State.push (s : State) (unit c lat e : Nat) (v : List Lane) : State :=
  if s.isMesh s.cur.core c then s.pushMesh c e v else s.pushLocal unit c (s.clk + lat - 1) v none

/-! ## Entries discarded (R47, R193) -/

/-- The entries of channel c of core k that `gone` picks are discarded; a mesh channel's credits go back as from pops at
cycle x. -/
def State.discardIn (s : State) (k c x : Nat) (gone : ChEntry → Bool) : State :=
  let q := (lget (s.core k).chans c Chan.empty).q
  let out := q.filter gone
  if out.isEmpty then s
  else
    let ids := out.map (·.src)
    let s := s.modCore k fun cr => { cr with pend := cr.pend.filter fun p => !ids.contains p.id
                                             chans := lmod cr.chans c Chan.empty fun ch => { ch with q := ch.q.filter fun e => !gone e } }
    if s.isMesh k c then s.giveCredits k c x out.length else s

/-- A cancelled phase discards its data in the inbound mesh channels of core k (R47, R193). -/
def State.discardMesh (s : State) (k x : Nat) : State :=
  let ph := (s.core k).modes.phase.toNat
  (List.range 32).foldl (fun s c => if s.isMesh k c then s.discardIn k c x fun e => e.phase = ph else s) s

/-- A retry discards what the phase has pushed into the local channels, c8 among them (R151, R323; log 30). -/
def State.discardLocal (s : State) (k x : Nat) : State :=
  let ph := (s.core k).modes.phase.toNat
  (List.range 32).foldl (fun s c => if s.isMesh k c then s else s.discardIn k c x fun e => e.phase = ph) s

/-! ## Landings -/

/-- Whether what a STALL source awaits has come (R41, R193). -/
def Core.awaitMet (c : Core) : Await → Bool
  | .pends ids => !(c.pend.any fun p => ids.contains p.id)
  | .entry ch k => match (lget c.chans ch Chan.empty).q[k]? with | some e => e.landed | none => false
  | .room ch => if ch = 8 then c.c8Held false c.run.g < 64 else (lget c.chans ch Chan.empty).heldAt c.run.g < chanDepth ch
  | .credit ch => (lget c.chans ch Chan.empty).used < 8
  | .feed f => c.c8Held false c.run.g + f ≤ 64
  | .load id => !(c.pend.any fun p => p.id = id)
  | .walk => false
  | .op _ => false

/-- A STALL source whose await is met ends (R32). -/
def State.checkAwait (s : State) (k : Nat) : State :=
  match (s.core k).run.stop with
  | some st =>
    match st.await with
    | some a => if (s.core k).awaitMet a then s.endSource k else s
    | none => s
  | none => s

/-- The effect of core `cur.core` that the step concerns. -/
def State.thePend (s : State) : Option Pend := s.me.pend.find? fun p => p.id = s.cur.arg

/-- That effect removed, with the operation that it needed. -/
def State.endPend (s : State) (p : Pend) : State :=
  let s := s.modMe fun c => { c with pend := c.pend.filter fun q => q.id != p.id }
  match p.need with
  | some id => s.dropOp id
  | none => s

/-- CHANNEL_ENTRY_LANDS (R28, R192): the entry pushed by effect `cur.arg` has landed. -/
def execChannelEntryLands (s : State) : Res :=
  match s.thePend with
  | none => ok s
  | some p =>
    let land (c : Nat) : State :=
      ((s.endPend p).modChan s.cur.core c fun ch =>
        { ch with q := ch.q.map fun (e : ChEntry) => if e.src = p.id then { e with landed := true } else e }).checkAwait s.cur.core
    match p.eff with
    | .chan c => ok (land c)
    | .mesh c => ok (land c)
    | _ => ok s

/-- CREDIT_RETURN (R193): a credit becomes usable. -/
def execCreditReturn (s : State) : Res :=
  match s.thePend with
  | none => ok s
  | some p =>
    match p.eff with
    | .credit c => ok (((s.endPend p).modChan s.cur.core c fun ch => { ch with used := ch.used - 1 }).checkAwait s.cur.core)
    | _ => ok s

end Sys2Proof.Machine
end

