-- ==== Sys2Proof/Machine/Hash.lean ====
section
/-!
DEFINITION. The hashes that R355, R418 and R422 name and other documents define (log 15): the SHA-2 family of FIPS 180-4 as one
construction, HMAC, HKDF-SHA-256 of RFC 5869, and the mask generation function MGF1.
-/

namespace Sys2Proof.Machine

/-! ## Constants: fractional parts of roots of primes -/

/-- The largest r below 2^b with r^k at most n. -/
def rootOf (k n : Nat) (b : Nat) : Nat :=
  (List.range b).foldr (fun i r => if (r + 2 ^ i) ^ k ≤ n then r + 2 ^ i else r) 0

/-- The first 80 primes. -/
def primes80 : List Nat :=
  ((List.range 410).filter fun n => 2 ≤ n && (List.range 21).all fun d => d < 2 || n ≤ d || n % d != 0)

/-- The first 64 bits of the fractional part of the k-th root of p. -/
def rootFrac (k p : Nat) : Nat := rootOf k (p * 2 ^ (64 * k)) 70 % 2 ^ 64

/-- A hash of the SHA-2 family: the bits of a word, the rounds, and the counts of its four mixing functions; the last count of the two of
the schedule shifts, the others rotate. -/
structure Sha2 where
  bits   : Nat
  rounds : Nat
  mixA   : Nat × Nat × Nat
  mixE   : Nat × Nat × Nat
  old    : Nat × Nat × Nat
  new    : Nat × Nat × Nat
  deriving DecidableEq, Repr

/-- SHA-256. -/
def kind256 : Sha2 := { bits := 32, rounds := 64, mixA := (2, 13, 22), mixE := (6, 11, 25), old := (7, 18, 3), new := (17, 19, 10) }
/-- SHA-512. -/
def kind512 : Sha2 := { bits := 64, rounds := 80, mixA := (28, 34, 39), mixE := (14, 18, 41), old := (1, 8, 7), new := (19, 61, 6) }

/-- Three rotations of x combined. -/
def mixRot {w : Nat} (c : Nat × Nat × Nat) (x : BitVec w) : BitVec w := x.rotateRight c.1 ^^^ x.rotateRight c.2.1 ^^^ x.rotateRight c.2.2

/-- Two rotations and a shift of x combined. -/
def mixShift {w : Nat} (c : Nat × Nat × Nat) (x : BitVec w) : BitVec w := x.rotateRight c.1 ^^^ x.rotateRight c.2.1 ^^^ (x >>> c.2.2)

/-- A number of 64 bits as its leading bits. -/
def leadBits (w n : Nat) : BitVec w := BitVec.ofNat w (n / 2 ^ (64 - w))

/-- The round constants, from cube roots, and the initial hash value, from square roots. -/
def Sha2.consts (h : Sha2) : List (BitVec h.bits) := (primes80.take h.rounds).map fun p => leadBits h.bits (rootFrac 3 p)
def Sha2.init (h : Sha2) : List (BitVec h.bits) := (primes80.take 8).map fun p => leadBits h.bits (rootFrac 2 p)

/-! ## Compression -/

/-- A number as n big-endian bytes, and the number that big-endian bytes stand for. -/
def beBytes (n v : Nat) : List Byte := (leBytes n v).reverse
def beNat (bs : List Byte) : Nat := leNat bs.reverse

/-- One round with constant k: the window holds the next 16 words of the schedule, oldest first; `top` and `low` are the two halves a to d
and e to h of the working variables. -/
def Sha2.round (h : Sha2) (x : List (BitVec h.bits) × List (BitVec h.bits) × List (BitVec h.bits)) (k : BitVec h.bits) :
    List (BitVec h.bits) × List (BitVec h.bits) × List (BitVec h.bits) :=
  match x.1, x.2.1, x.2.2 with
  | w :: win, [a, b, c, d], [e, f, g, z] =>
    let t := z + mixRot h.mixE e + (g ^^^ (e &&& (f ^^^ g))) + k + w
    let fresh := w + mixShift h.old (lget win 0 0) + lget win 8 0 + mixShift h.new (lget win 13 0)
    (win ++ [fresh], [t + mixRot h.mixA a + ((a &&& b) ||| (c &&& (a ||| b))), a, b, c], [d + t, e, f, g])
  | _, _, _ => x

/-- Bytes of a block: 16 words. -/
def Sha2.block (h : Sha2) : Nat := 2 * h.bits

/-- The hash value after one block. -/
def Sha2.compress (h : Sha2) (ks v : List (BitVec h.bits)) (bs : List Byte) : List (BitVec h.bits) :=
  let win := (List.range 16).map fun i => BitVec.ofNat h.bits (beNat ((bs.drop (i * (h.bits / 8))).take (h.bits / 8)))
  let out := ks.foldl h.round (win, v.take 4, v.drop 4)
  List.zipWith (· + ·) v (out.2.1 ++ out.2.2)

/-- The hash value after n blocks. -/
def Sha2.absorb (h : Sha2) (ks : List (BitVec h.bits)) : Nat → List Byte → List (BitVec h.bits) → List (BitVec h.bits)
  | 0, _, v => v
  | n + 1, bs, v => h.absorb ks n (bs.drop h.block) (h.compress ks v (bs.take h.block))

/-- A message padded to whole blocks: a bit 1, zeros, and its length in bits. -/
def Sha2.padded (h : Sha2) (m : List Byte) : List Byte :=
  let used := m.length + 1 + h.bits / 4
  m ++ 0x80 :: List.replicate ((h.block - used % h.block) % h.block) 0 ++ beBytes (h.bits / 4) (8 * m.length)

/-- The hash of a byte string. -/
def Sha2.hash (h : Sha2) (m : List Byte) : List Byte :=
  let bs := h.padded m
  (h.absorb h.consts (bs.length / h.block) bs h.init).flatMap fun w => beBytes (h.bits / 8) w.toNat

/-- SHA-256 and SHA-512 of a byte string. -/
def sha256 (m : List Byte) : List Byte := kind256.hash m
def sha512 (m : List Byte) : List Byte := kind512.hash m

/-! ## HMAC, HKDF, MGF1 -/

/-- HMAC over a hash of the family. -/
def Sha2.hmac (h : Sha2) (key m : List Byte) : List Byte :=
  let short := if h.block < key.length then h.hash key else key
  let padKey (b : Byte) : List Byte := (short ++ List.replicate (h.block - short.length) 0).map (· ^^^ b)
  h.hash (padKey 0x5C ++ h.hash (padKey 0x36 ++ m))

/-- HKDF-SHA-256 with `len` bytes of output: seed, salt, info. Each piece is the HMAC of the one before it, info and its number. -/
def hkdf (seed salt info : List Byte) (len : Nat) : List Byte :=
  let prk := kind256.hmac salt seed
  let next (x : List Byte × List Byte) (i : Nat) : List Byte × List Byte :=
    let t := kind256.hmac prk (x.2 ++ info ++ [BitVec.ofNat 8 (i + 1)])
    (x.1 ++ t, t)
  ((List.range ((len + 31) / 32)).foldl next ([], [])).1.take len

/-- MGF1 over SHA-512: n bytes from a seed. -/
def mgf512 (seed : List Byte) (n : Nat) : List Byte := ((List.range ((n + 63) / 64)).flatMap fun i => sha512 (seed ++ beBytes 4 i)).take n

end Sys2Proof.Machine
end

