-- ==== Sys2Proof/Machine/Image.lean ====
section
/-!
DEFINITION. Timetable images: their layout (R355, R356), the checks of R360, launch arguments (R358, R359), and what each member is
loaded with (R23, R357, R361).
-/

namespace Sys2Proof.Machine

/-! ## Windows of a memory -/

/-- Bytes [lo, lo + n) of a memory, moved to address 0. -/
def mwindow (m : Memory) (lo n : Nat) : Memory :=
  (m.filter fun c => lo ≤ c.1 && c.1 < lo + n).map fun c => (c.1 - lo, c.2)

/-- A memory with bytes [lo, lo + n) replaced by a window. -/
def mblit (m : Memory) (lo n : Nat) (w : Memory) : Memory :=
  (m.filter fun c => c.1 < lo) ++ ((w.filter fun c => c.1 < n).map fun c => (c.1 + lo, c.2)) ++ m.filter fun c => lo + n ≤ c.1

/-! ## Header and directory -/

/-- An entry of the section directory (R356). -/
structure Sect where
  kind : Nat
  mem  : Nat
  off  : Nat
  len  : Nat
  deriving DecidableEq, Repr

/-- Fields of the image header (R355). -/
def imgMembers (im : Memory) : Nat := mnat im 6 1
def imgUsesp2 (im : Memory) : Bool := mnat im 7 1 % 2 = 1
def imgNsect (im : Memory) : Nat := mnat im 8 4
def imgLen (im : Memory) : Nat := mnat im 12 4
def imgSp3Lo (im : Memory) : Nat := mnat im 16 4
def imgSp3Len (im : Memory) : Nat := mnat im 20 4
def imgDigest (im : Memory) : List Byte := mreadN im 32 32

/-- The section directory. -/
def imgSects (im : Memory) : List Sect :=
  (List.range (imgNsect im)).map fun i =>
    { kind := mnat im (64 + 16 * i) 2, mem := mnat im (66 + 16 * i) 1, off := mnat im (68 + 16 * i) 4, len := mnat im (72 + 16 * i) 4 }

/-- The section of a kind and member. -/
def imgSect (im : Memory) (kind mem : Nat) : Option Sect := (imgSects im).find? fun x => x.kind = kind && x.mem = mem

/-- Mesh offset (row, column) of member m (R356). -/
def imgOffset (im : Memory) (m : Nat) : Int × Int :=
  match imgSect im 1 0xFF with
  | some x => ((BitVec.ofNat 8 (mnat im (x.off + 4 * m) 1)).toInt, (BitVec.ofNat 8 (mnat im (x.off + 4 * m + 1) 1)).toInt)
  | none => (0, 0)

/-- The cores of a gang of the image's shape with its member 0 on core k (R22). -/
def imgCores (im : Memory) (k : Nat) : Option (List Nat) :=
  (List.range (imgMembers im)).mapM fun m =>
    let (dr, dc) := imgOffset im m
    let r := (coreRow k : Int) + dr
    let c := (coreCol k : Int) + dc
    if r < 0 || 4 ≤ r || c < 0 || 6 ≤ c then none else some (r * 6 + c).toNat

/-! ## Records -/

/-- A record of an INIT or SAVE section: level, address, length, offset of its data in the image. -/
structure InitRec where
  lvl  : Nat
  addr : Nat
  len  : Nat
  data : Nat
  deriving DecidableEq, Repr

/-- The INIT records between two offsets, each followed by its data padded to 8 bytes; none when they do not fit. -/
def initRecs (im : Memory) : Nat → Nat → Nat → Option (List InitRec)
  | 0, o, e => if o = e then some [] else none
  | fuel + 1, o, e =>
    if o = e then some []
    else if e < o + 16 then none
    else
      let r : InitRec := { lvl := mnat im o 1, addr := mnat im (o + 4) 4, len := mnat im (o + 8) 4, data := o + 16 }
      let next := o + 16 + (r.len + 7) / 8 * 8
      if e < next then none else (initRecs im fuel next e).map fun l => r :: l

/-- The INIT records of member m. -/
def imgInits (im : Memory) (m : Nat) : List InitRec :=
  match imgSect im 7 m with
  | some x => (initRecs im (x.len / 16 + 1) x.off (x.off + x.len)).getD []
  | none => []

/-- The SAVE records of an image: level, address, length. -/
def imgSaves (im : Memory) : List (Nat × Nat × Nat) :=
  match imgSect im 8 0xFF with
  | some x => (List.range (x.len / 16)).map fun i => (mnat im (x.off + 16 * i) 1, mnat im (x.off + 16 * i + 4) 4, mnat im (x.off + 16 * i + 8) 4)
  | none => []

/-- Bytes of a save area (R387). -/
def saveAreaSize (im : Memory) : Nat :=
  0x1000 + imgMembers im * 0x400000 + (imgSaves im).foldl (fun n r => n + (r.2.2 + 4095) / 4096 * 4096) 0

/-- Entry point and loaded length of member m (R356). -/
def imgEntry (im : Memory) (m : Nat) : Nat := match imgSect im 2 m with | some x => mnat im x.off 4 | none => 0
def imgLoadLen (im : Memory) (m : Nat) : Nat := match imgSect im 2 m with | some x => mnat im (x.off + 4) 4 | none => 0

/-- Score memory of member m (R356). -/
def imgScore (im : Memory) (m : Nat) : Memory :=
  match imgSect im 2 m with
  | some x => mwindow im (x.off + 8) (mnat im (x.off + 4) 4)
  | none => []

/-- Word w of descriptor d of member m, word i of its CHAN and SYSV sections. -/
def imgDescWord (im : Memory) (m d w : Nat) : Word :=
  match imgSect im 3 m with | some x => BitVec.ofNat 64 (mnat im (x.off + 40 * d + 8 * w) 8) | none => 0
def imgChan (im : Memory) (m i : Nat) : Word :=
  match imgSect im 4 m with | some x => BitVec.ofNat 64 (mnat im (x.off + 8 * i) 8) | none => 0
def imgSysv (im : Memory) (m i : Nat) : Word :=
  match imgSect im 5 m with | some x => BitVec.ofNat 64 (mnat im (x.off + 8 * i) 8) | none => 0

/-- A descriptor from its five words (R58). -/
def Desc.ofWords (w : Nat → Word) : Desc :=
  { level := (w 0).extractLsb' 61 3, fmt := (w 0).extractLsb' 57 4, swz := (w 0).extractLsb' 54 3, db := (w 0).getLsbD 53,
    ro := (w 0).getLsbD 52, bound := (w 0).getLsbD 51, base := (w 0).setWidth 48, rows := (w 1).extractLsb' 48 16,
    cols := (w 1).extractLsb' 32 16, rstride := (w 1).setWidth 32, estride := (w 2).extractLsb' 48 16,
    sbase := (w 2).setWidth 48, apidx := (w 3).extractLsb' 60 4, bank := (w 3).getLsbD 59,
    sstride := (w 3).extractLsb' 32 24, fill := (w 3).setWidth 32, shbase := (w 4).setWidth 24, pins := [], shw := false }

/-! ## Checks (R360) -/

/-- Whether two sections share a byte. -/
def sectsMeet (a b : Sect) : Bool := a.off < b.off + b.len && b.off < a.off + a.len

/-- Whether every pair of a list, each with a later one, satisfies a test. -/
def allPairs {α : Type} (t : α → α → Bool) : List α → Bool
  | [] => true
  | x :: r => r.all (t x) && allPairs t r

/-- Whether a section has the length of its kind (R356). -/
def sectForm (im : Memory) (x : Sect) : Bool :=
  match x.kind with
  | 1 => x.len = 4 * imgMembers im
  | 2 => 8 ≤ x.len && mnat im (x.off + 4) 4 + 8 = x.len
  | 3 => x.len = 640
  | 4 => x.len = 184
  | 5 => x.len = 40
  | 6 => 8 ≤ x.len && x.len = 8 + 8 * mnat im x.off 4
  | 7 => (initRecs im (x.len / 16 + 1) x.off (x.off + x.len)).isSome
  | _ => x.len % 16 = 0

/-- Reason 3: the sections (log 31). -/
def badSects (im : Memory) : Bool :=
  let n := imgNsect im
  0x4000000 < imgLen im || imgLen im < 64 + 16 * n ||
  (let ss := imgSects im
   (ss.any fun x => x.kind = 0 || 10 ≤ x.kind || x.off % 8 != 0 || imgLen im < x.off + x.len || x.off < 64 + 16 * n ||
      (if x.kind = 1 || x.kind = 8 then x.mem != 0xFF else imgMembers im ≤ x.mem) || !sectForm im x) ||
   !allPairs (fun a b => !(sectsMeet a b) && !(a.kind = b.kind && a.mem = b.mem)) ss ||
   (imgSect im 1 0xFF).isNone ||
   (List.range (imgMembers im)).any fun m => (imgSect im 2 m).isNone || (imgSect im 3 m).isNone || (imgSect im 5 m).isNone)

/-- Reason 4 without the question of a congruent group: the shape. -/
def badShape (im : Memory) : Bool :=
  let n := imgMembers im
  let off := (List.range n).map (imgOffset im)
  n = 0 || 24 < n || imgOffset im 0 != (0, 0) || !allPairs (fun a b => decide (a.1 * 6 + a.2 < b.1 * 6 + b.2)) off

/-- Reason 5. -/
def badScore (im : Memory) (m : Nat) : Bool :=
  Config.pilotHandler < imgLoadLen im m || imgEntry im m % 4 != 0 || imgLoadLen im m ≤ imgEntry im m

/-- Reason 6: descriptors, channel table and system registers of member m. -/
def badDesc (im : Memory) (m : Nat) : Bool :=
  ((List.range 16).any fun d =>
    let w := imgDescWord im m d
    let x := Desc.ofWords w
    5 ≤ x.level.toNat || 12 ≤ x.fmt.toNat || 5 ≤ x.swz.toNat || x.bound || x.bank || (w 0).extractLsb' 48 3 != 0 ||
    (w 3).extractLsb' 56 3 != 0 || (w 4).extractLsb' 24 40 != 0) ||
  ((List.range 23).any fun i => !(chmapOk (imgChan im m i)) || imgChan im m i &&& ~~~chmapMask != 0) ||
  (let np := imgSysv im m 0
   let hc := imgSysv im m 4
   np &&& ~~~(0x1F07 : Word) != 0 || 5 ≤ np.toNat % 8 || imgSysv im m 1 &&& ~~~(0x10FFF0FFF : Word) != 0 ||
   imgSysv im m 2 &&& ~~~(0xFFFF00010101 : Word) != 0 || imgSysv im m 3 &&& ~~~(0xFFFF00000001 : Word) != 0 ||
   hc &&& ~~~(0xFFFFFFFF0003FFFF : Word) != 0 || (hc.toNat % 2 ^ 18 != 0 && imgLoadLen im m ≤ hc.toNat % 2 ^ 18))

/-- Reason 7. -/
def badInit (im : Memory) (m : Nat) : Bool := (imgInits im m).any fun r => 3 ≤ r.lvl || lvlSize r.lvl < r.addr + r.len
def badSave (im : Memory) : Bool := (imgSaves im).any fun r => r.1 = 0 || 3 ≤ r.1 || lvlSize r.1 < r.2.1 + r.2.2

/-! ## Relocation (R359) -/

/-- Width of a descriptor field of R60 and whether it is signed, for field numbers 5 to 14. -/
def fieldWidth (f : Nat) : Nat × Bool :=
  lget [(48, false), (16, false), (16, false), (32, true), (16, false), (48, false), (24, true), (32, false), (4, false), (24, false)] (f - 5) (0, false)

/-- Whether v fits w bits, unsigned or as a signed value. -/
def fitsIn (v : Word) (w : Nat) (signed : Bool) : Bool :=
  if signed then -(2 ^ (w - 1) : Int) ≤ v.toInt && v.toInt < (2 ^ (w - 1) : Int) else v.toNat < 2 ^ w

/-- What a member is loaded with before its launch: descriptors and INIT pieces (level, address, bytes). -/
structure Load where
  descs : List Desc
  inits : List (Nat × Nat × List Byte)
  deriving DecidableEq, Repr

/-- The load of member m before relocation. -/
def imgLoad (im : Memory) (m : Nat) : Load :=
  { descs := (List.range 16).map fun d => Desc.ofWords (imgDescWord im m d)
    inits := (imgInits im m).map fun r => (r.lvl, r.addr, mreadN im r.data r.len) }

/-- Bytes of a piece replaced from an offset on. -/
def patchBytes (bs : List Byte) (o : Nat) (v : List Byte) : List Byte := bs.take o ++ v ++ bs.drop (o + v.length)

/-- A relocation record of 16 bytes at offset o applied to the loads of all members, or none where it does not fit (R359).
DESIGN CHOICE: where the data of two INIT records hold the item's address, the first is patched (log 105). -/
def relocate (im : Memory) (args : List Word) (ls : List Load) (o : Nat) : Option (List Load) :=
  let kind := mnat im o 1
  let mem := mnat im (o + 1) 1
  let arg := mnat im (o + 2) 1
  let f := mnat im (o + 3) 1
  let loc := mnat im (o + 4) 4
  let v := lget args arg 0 + BitVec.ofNat 64 (mnat im (o + 8) 8)
  match ls[mem]? with
  | none => none
  | some l =>
    if 16 ≤ arg then none
    else if kind = 0 then
      let (w, sg) := fieldWidth f
      if f < 5 || 15 ≤ f || 16 ≤ loc || !fitsIn v w sg then none
      else some (lput ls mem { l with descs := lmod l.descs loc Desc.zero fun d => d.setField f v } l)
    else if kind = 1 then
      let lvl := loc / 2 ^ 30
      let a := loc % 2 ^ 30
      match l.inits.findIdx? fun r => r.1 = lvl && r.2.1 ≤ a && a + f ≤ r.2.1 + r.2.2.length with
      | none => none
      | some i =>
        if (f != 4 && f != 8) || !fitsIn v (8 * f) false then none
        else some (lput ls mem { l with inits := lmod l.inits i (0, 0, []) fun r => (r.1, r.2.1, patchBytes r.2.2 (a - r.2.1) (leBytes f v.toNat)) } l)
    else none

/-- The relocation records of an image. -/
def imgRelocs (im : Memory) : List Nat :=
  (imgSects im).flatMap fun x => if x.kind = 9 then (List.range (x.len / 16)).map fun i => x.off + 16 * i else []

/-- The loads of all members after relocation (R359); none: reason 9. -/
def imgLoads (im : Memory) (args : List Word) : Option (List Load) :=
  (imgRelocs im).foldlM (relocate im args) ((List.range (imgMembers im)).map (imgLoad im))

/-- The reasons of R360 that the image alone decides, in order; `congruent` tells whether a congruent group exists,
`sp3Bad` reason 8. 0 when none holds. -/
def imgReason (im : Memory) (args : List Word) (congruent sp3Bad : Bool) : Nat :=
  let ms := List.range (imgMembers im)
  if mnat im 0 4 != 0x31484B53 || mnat im 4 2 != 0x0100 then 1
  else if imgDigest im != sha256 (mreadN im 64 (imgLen im - 64)) then 2
  else if badSects im then 3
  else if badShape im || !congruent then 4
  else if ms.any (badScore im) then 5
  else if ms.any (badDesc im) then 6
  else if ms.any (badInit im) || badSave im then 7
  else if sp3Bad then 8
  else if (imgLoads im args).isNone then 9
  else 0

/-! ## The launch state (R23, R361) -/

/-- Modes at launch: SCHEDMODE and DETMODE from SYSV, PDL and RETRYMAX from the capsule. -/
def launchModes (cap : Capsule) (sched det : Word) : Modes :=
  { Modes.reset with trapMode := wbit sched 0, detEn := wbit det 0, pdl := cap.pdl, retrymax := cap.retrymax }

/-- Parameters at launch: NPROF, PROMO and HCTL from SYSV. DESIGN CHOICE: the declared PROMO and NPROF are taken as a write would store them
(log 92). -/
def launchParams (nprof promo hctl : Word) : Params :=
  { ((Params.reset.setPromo promo).setNprof nprof) with hmask := hctl.extractLsb' 32 32, hentry := hctl.setWidth 18 }

/-- Core k as member m of a gang in `berth`, at gang cycle 0 and not yet started. -/
def launchCore (im : Memory) (cap : Capsule) (l : Load) (m : Nat) (old : Core) (run : Run) : Core :=
  { Core.reset with
    run := run
    seq := { SeqCtx.zero with pc := BitVec.ofNat 18 (imgEntry im m) }
    mtx := { Mtx.reset with ckmin := cap.ckmin, eiEn := cap.errinjEn }
    descs := l.descs
    chmap := (List.range 23).map (imgChan im m)
    modes := launchModes cap (imgSysv im m 2) (imgSysv im m 3)
    params := launchParams (imgSysv im m 0) (imgSysv im m 1) (imgSysv im m 4)
    mem := { Core.reset.mem with
      score := imgScore im m
      sp1 := (l.inits.filter fun r => r.1 = 0).foldl (fun mm r => mwriteL mm r.2.1 r.2.2) [] }
    unpins := old.unpins }

end Sys2Proof.Machine
end

