-- ==== Sys2Proof/Machine/Phases.lean ====
section
/-!
DEFINITION. Phases (R45 to R47, R146 to R152): the entry snapshot, commit, cancellation, retry, and the phase point of a gang.
-/

namespace Sys2Proof.Machine

/-! ## The entry snapshot (R149) -/

/-- The entry snapshot of a core; `pt` is the register that the phase point wrote. -/
def Core.snapshot (c : Core) (pt : Option Nat) : Core :=
  { c with snap := some { regs := c.seq.regs, pc := c.seq.pc, ptReg := pt, descs := c.descs, chmap := c.chmap,
                          masks := c.vec.masks, vflags := c.vec.flags, mstat := c.mtx, modes := c.modes,
                          params := c.params, ends := c.engs.map (·.ended) } }

/-! ## Cancellation (R47, R146) -/

/-- Effects in flight to shadow banks are gone (R47). The effect of an MFBUILD stays, for its call goes on at the builder (R128), and writes
nothing (`Build.write`). -/
def Pend.cancelled (p : Pend) : Option Pend :=
  if !p.phased then some p
  else match p.eff with
    | .manifest lvl a _ => some { p with phased := false, eff := .manifest lvl a 0 }
    | _ => none

/-- Core k discards its open phase: held stores, what is in flight to shadow banks, CHKINT, and the phase's data in its
inbound mesh channels, whose credits go back as from pops at cycle `gp` (R47, R193). -/
def State.cancelPhase (s : State) (k gp : Nat) : State :=
  (s.modCore k fun c =>
    { c with mem := { c.mem with held := [] }
             builds := c.builds.map fun (b : Build) => { b with write := b.write && !c.pend.any fun p => p.id = b.id && p.phased }
             pend := c.pend.filterMap Pend.cancelled
             descs := c.descs.map fun d => { d with shw := false }
             modes := { c.modes with chkint := false } }).discardMesh k gp

/-! ## Retry (R151) -/

/-- Whether a retry drops an effect in flight: those on the state that the snapshot restores or that becomes 0. -/
def Eff.restored : Eff → Bool
  | .sreg sh _ _ => !sh
  | .vreg _ _ _ => true
  | .mask _ => true
  | .vflag _ => true
  | .mflag _ => true
  | .hovf _ => true
  | .gstat _ => true
  | .dfield _ _ _ => true
  | .sys n _ => n < 0x1000
  | .ldReg sh _ _ => !sh
  | .errinj _ => true
  | .verdict => true
  | .chkint => true
  | .fixEnd _ _ => true
  | _ => false

/-- Whether effect p is the manifest of an MFBUILD whose entry has not been checked: a retry drops it with its word. -/
def Core.unchecked (c : Core) (p : Pend) : Bool := c.builds.any fun b => b.id = p.id && !b.checked

/-- The MFBUILD calls that go on after a retry: those whose entry has been checked; those of the cancelled phase feed no entries (R323). -/
def Core.keptBuilds (c : Core) : List Build :=
  (c.builds.filter (·.checked)).map fun (b : Build) => if b.phase = c.modes.phase.toNat then { b with feed := 0 } else b

/-- A queue emptied by a retry (R151). -/
def Engine.emptied (e : Engine) (ended : Bool) : Engine :=
  { Engine.zero with ended := ended, played := e.played, count := e.count + e.q.length }

/-- The matrix array after a retry: tiles without shape, empty expander banks, MSTAT from the snapshot (R151, R277, R292). -/
def Mtx.retried (m sn : Mtx) : Mtx :=
  { m with tiles := sn.tiles.map fun t => { Tile.zero with hovf := t.hovf }
           banks := List.replicate 2 Bank.empty
           laneDrain := none, reads := none, laneReads := none
           ckcnt := sn.ckcnt, fixcnt := sn.fixcnt, ckmode := sn.ckmode, flags := sn.flags, drain := none, faultDrain := none }

/-- The snapshot restored on a core, which resumes at gang cycle gr (R151). -/
def Core.restore (c : Core) (sn : Snapshot) (gr : Nat) : Core :=
  let regs := match sn.ptReg with
    | some d => if d = 0 then sn.regs else lput sn.regs d (word gr) 0
    | none => sn.regs
  let v : Vec := { Vec.zero with masks := sn.masks, flags := sn.vflags }
  { c with
    seq := { regs := regs, pc := sn.pc, next := gr, slot := none, wait := .until_ gr, ended := false }
    vec := { v with hist := List.replicate 3 v.maskEmpty }
    mtx := c.mtx.retried sn.mstat
    descs := sn.descs.map fun d => { d with shw := false }
    chmap := sn.chmap
    modes := { c.modes with misscnt := sn.modes.misscnt, late := sn.modes.late, miss := sn.modes.miss, trapMode := sn.modes.trapMode }
    params := { c.params with cfgclamp := sn.params.cfgclamp, n8 := sn.params.n8, n4 := sn.params.n4, allow := sn.params.allow,
                              def_ := sn.params.def_, oobs := sn.params.oobs, oob := sn.params.oob, lsel := sn.params.lsel }
    engs := (c.engs.zip sn.ends).map fun x => x.1.emptied x.2
    lanes := List.replicate 3 Engine.zero
    pend := c.pend.filter fun p => !p.eff.restored && !c.unchecked p
    builds := c.keptBuilds
    ports := { vec := [], data := [] }
    lanePorts := { vec := [], data := [] }
    dread := none, laneDread := none
    hnd := Handler.idle }

/-- Pages pinned by the bound descriptors of a list. -/
def boundPins (ds : List Desc) : List (List Pin) := (ds.filter (·.bound)).map (·.pins)

/-- Core k retries its phase from gang cycle gr; RCNT counts it when `count` (R151, R154; log 28). -/
def State.retryCore (s : State) (k gr : Nat) (count : Bool) : State :=
  match (s.core k).snap with
  | none => s
  | some sn =>
    let waits := match (s.core k).seq.wait with | .sync id _ => [id] | _ => []
    let sacqs := (s.core k).engs.filterMap (·.sacq)
    let s := s.dropOps fun o => (waits ++ sacqs).contains o.id
    let s := (boundPins (s.core k).descs).foldl (fun s ps => s.bumpPins ps false) s
    let s := (boundPins sn.descs).foldl (fun s ps => s.bumpPins ps true) s
    let s := s.discardLocal k gr
    s.modCore k fun c =>
      let c := c.restore sn gr
      { c with modes := { c.modes with rcnt := if count && c.modes.rcnt != 15 then c.modes.rcnt + 1 else c.modes.rcnt } }

/-- Every member of a gang cancels and retries from gr (R151), or the gang is aborted when its phase cannot be retried
(R150). -/
def State.retryGang (s : State) (g : Gang) (gr : Nat) (count : Bool) : State :=
  if g.members.any fun k => (s.core k).modes.noretry then s.abortGang g.berth 3
  else
    let s := g.members.foldl (fun s k => s.cancelPhase k (gr - 64)) s
    let s := g.members.foldl (fun s k => s.retryCore k gr count) s
    { s with gangs := s.gangs.map fun (x : Gang) => if x.berth = g.berth then { x with retried := true } else x }

/-! ## Commit (R46) -/

/-- The held stores of core k are performed, one after another, as writes of its data queue (R46, R305). -/
def State.performHeld (s : State) (k : Nat) : State :=
  let hs := (s.core k).mem.held
  let s := s.modCore k fun c => { c with mem := { c.mem with held := [] } }
  (hs.foldl (fun (st : State × List Nat) h =>
    let (id, s) := st.1.newOp k 3 (.write h.ps) h.names h.cls
    ({ s with gops := s.gops.map fun (o : GOp) => if o.id = id then { o with deps := st.2 ++ o.deps } else o }, [id])) (s, [])).1

/-- Whether no queue of a core holds an entry and no word is issuing at gang cycle g (R150, R159). -/
def Core.quiet (c : Core) (g : Nat) : Bool := c.engs.all fun e => e.q.isEmpty && e.next ≤ g

/-- A commit on core k with region mask `mask` (R46, R146, R153); the last phase point has then cancelled nothing (R146; log 54). -/
def State.commitCore (s : State) (k : Nat) (mask : BitVec 16) (noretry : Bool) : State :=
  (s.performHeld k).modCore k fun c =>
    { c with
      descs := c.descs.mapIdx fun i d => { d with bank := if d.db && mask.getLsbD i then !d.bank else d.bank, shw := false }
      modes := { c.modes with phase := c.modes.phase + 1, rcnt := 0, noretry := noretry, chkint := false, cancel := false }
      tfrec := { c.tfrec with rb := false }
      run := { c.run with dborne := false }
      pend := c.pend.map fun (p : Pend) => { p with phased := false } }

/-! ## The phase point (R148) -/

/-- Register `d` of the main context written and the sequencer going on at gang cycle g. -/
def Core.goOnAt (c : Core) (g d : Nat) : Core :=
  { c with seq := { c.seq.setReg d (word g) with wait := .none, next := g } }

/-- The arrivals of a gang's members at a phase point: kind, mask, cycle and destination, when all have arrived. -/
def State.pointArrivals (s : State) (g : Gang) : Option (List (Nat × BitVec 16 × Nat × Nat)) :=
  g.members.mapM fun k => match (s.core k).seq.wait with
    | .phase kind mask a d => some (kind, mask, a, d)
    | _ => none

/-- Whether the gang stands at gang cycle g: no member stopped, every member at g. -/
def State.allAt (s : State) (gg : Gang) (g : Nat) : Bool :=
  gg.members.all fun k => (s.core k).run.stop.isNone && (s.core k).run.g = g

/-- Every member goes on at g with g in its destination register (R46). -/
def State.allGoOn (s : State) (gg : Gang) (arr : List (Nat × BitVec 16 × Nat × Nat)) (g : Nat) : State :=
  (gg.members.zip arr).foldl (fun s (k, a) => s.modCore k fun c => c.goOnAt g a.2.2.2) s

/-- The outcome of a phase point at gang cycle g (R148, R151, R152). DESIGN CHOICE: at POISON SUB 3 the point has written g, and TREC.PC and
MAINPC hold the instruction after it (log 87). -/
def State.phasePoint (s : State) (gg : Gang) (arr : List (Nat × BitVec 16 × Nat × Nat)) (g : Nat) : State :=
  let m := (s.core gg.origin).modes
  let full := m.retrymax.toNat < m.rcnt.toNat + 1
  let bad := gg.members.filter fun k => (s.core k).modes.chkint
  if !bad.isEmpty then
    let s := gg.members.foldl (fun s k => s.modCore k fun c => { c with modes := { c.modes with refuse := true } }) s
    if full then
      let s := (gg.members.foldl (fun s k => s.cancelPhase k g) s).allGoOn gg arr g
      bad.foldl (fun s k => s.faultMain k
        { cause := 0x0A, sub := 3, unit := 0, info := m.phase.toNat, lat := false, skip := 0 }) s
    else s.retryGang gg (g + 64) true
  else if arr.any fun a => a.1 = 2 then
    if full then s.abortGang gg.berth 4 else s.retryGang gg (g + 64) true
  else if arr.any fun a => a.1 = 1 then
    gg.members.foldl (fun s k => s.modCore k fun c => { c with modes := { c.modes with cancel := true } })
      ((gg.members.foldl (fun s k => s.cancelPhase k g) s).allGoOn gg arr g)
  else
    let noretry := gg.members.any fun k => !(s.core k).quiet g
    let s := (gg.members.zip arr).foldl (fun s (k, a) => s.commitCore k a.2.1 noretry) s
    (gg.members.zip arr).foldl (fun s (k, a) => s.modCore k fun c => c.snapshot (some a.2.2.2)) (s.allGoOn gg arr g)

/-- PHASE_POINT_RELEASE (R46, R148): the gang of berth `cur.arg` reaches G = A + 64. -/
def execPhasePointRelease (s : State) : Res :=
  match s.gang s.cur.arg with
  | none => ok s
  | some gg =>
    match s.pointArrivals gg with
    | none => ok s
    | some arr =>
      let g := maxOf (arr.map fun a => a.2.2.1) + 64
      if s.allAt gg g then ok (s.phasePoint gg arr g) else ok s

end Sys2Proof.Machine
end

