-- ==== Sys2Proof/Machine/Holds.lean ====
section
/-!
DEFINITION. The start of a gang (R25), hold waves and releases (R30 to R32), the run limit (R386), and completion of a member and
of the gang (R50, R51).
-/

namespace Sys2Proof.Machine

/-! ## Start (R25) -/

/-- GANG_START (R25): the gang of berth `cur.arg` starts; on the normalised clock every member's gang time starts now (log 2).
A member that a restore resumes keeps its place (R162). -/
def execGangStart (s : State) : Res :=
  match s.gang s.cur.arg with
  | none => ok s
  | some g =>
    if g.started then ok s
    else
      let s := g.members.foldl (fun s k => s.modCore k fun c =>
        let c := { c with run := { c.run with started := true } }
        if c.snap.isNone then c.snapshot none else c) s
      ok (s.modGang g.berth fun g => { g with started := true, startedAt := s.tide })

/-! ## Hold waves (R30, R136) -/

/-- Whether a core's sequencer would issue a delay slot now (R136). -/
def Core.slotNow (c : Core) : Bool :=
  c.seq.slot.isSome && c.seq.wait = .none && c.seq.next ≤ c.run.g && !c.seq.ended

/-- HOLD_WAVE (R30): the wave reaches the core of the step, which stops at its issue boundary; a wave that finds it stopped
has no effect. -/
def execHoldWave (s : State) : Res :=
  let k := s.cur.core
  match s.gangOf k with
  | none => ok s
  | some g =>
    let s := s.modGang g.berth fun g => { g with hold := g.hold.map fun h => { h with waves := h.waves.filter fun w => w.1 != k } }
    if (s.core k).run.stop.isSome then ok s
    else ok (s.modCore k fun c =>
      { c with run := { c.run with stop := some { slotDue := c.slotNow, source := false, await := none, until_ := none }, held := 0 } })

/-! ## Release (R32) -/

/-- Whether every member of a gang is stopped with nothing more to come: no wave under way, no slot due, every source but those
of a forced save ended (R32, R163). -/
def State.holdOver (s : State) (g : Gang) (h : HoldRec) : Bool :=
  h.waves.isEmpty && (h.srcs.all fun x => x.ended.isSome || (x.cause = 2 && g.saveReq)) &&
  g.members.all fun k => match (s.core k).run.stop with
    | some st => !st.slotDue && st.until_.isNone
    | none => false

/-- The length of the hold: a free choice among those that R32 allows (log 6). A forced save that a phase point puts off ends as a source
now (R163). -/
def State.holdLength (s : State) (g : Gang) (h : HoldRec) : Nat :=
  let last := maxOf (h.srcs.map fun x => x.ended.getD (s.actual x.core))
  let first := h.srcs.foldl (fun m x => Nat.min m x.stopA) (match h.srcs with | x :: _ => x.stopA | [] => 0)
  let low := Nat.max (last - first) (maxOf (g.members.map fun k => (s.core k).run.held))
  let high := last + 256 - first
  if low ≤ high then low + Config.freeNat s.free % (high - low + 1) else low

/-- Whether a hold has a STALL miss among its sources (R236). -/
def HoldRec.stall (h : HoldRec) : Bool := h.srcs.any fun x => x.cause = 1

/-- Whether a forced save takes the place of the release: one is asked for, and no phase point stands between its arrival and its G, where no
save falls (R163). -/
def State.saveTakes (s : State) (g : Gang) : Bool := g.saveReq && (s.pointArrivals g).isNone

/-- RELEASE (R32): every source of the hold of berth `cur.arg` has ended; each member will have been held for the same number of
cycles when it resumes. A rollback that a handler requested is made first (R142, R151). -/
def execRelease (s : State) : Res :=
  match s.gang s.cur.arg with
  | none => ok s
  | some g =>
    match g.hold with
    | none => ok s
    | some h =>
      if !s.holdOver g h || s.saveTakes g then ok s
      else
        let d := s.holdLength g h
        let s := { s with free := s.free + 1 }
        let s := s.modGang g.berth fun g => { g with hold := none }
        let s := g.members.foldl (fun s k => s.modCore k fun c =>
          { c with run := { c.run with stop := c.run.stop.map fun st => { st with until_ := some (s.tide - c.run.held + d), stall := h.stall } }
                   hnd := Handler.idle }) s
        ok (if h.rb then s.retryGang g (64 + maxOf (g.members.map fun k => (s.core k).run.g)) h.rbCount else s)

/-- The hold of a berth's gang rolls back at its release (R142, R155). -/
def State.rollBack (s : State) (berth : Nat) : State :=
  s.modGang berth fun g => { g with hold := g.hold.map fun h => { h with rb := true } }

/-- Core k holds its gang as the source of a hold that is over at once and rolls back (R155). -/
def State.errorHold (s : State) (k : Nat) : State :=
  let s := (s.startHold k 0 none).endSource k
  match (s.core k).run.berth with
  | some b => s.rollBack b
  | none => s

/-- RELEASE_WAVE (R32): the member resumes at the gang cycle at which it stopped; an error met since its release was picked holds the gang
again there (R155). -/
def execReleaseWave (s : State) : Res :=
  match s.me.run.stop with
  | some st =>
    match st.until_ with
    | some t =>
      if s.tide < t then ok s
      else
        let due := s.me.run.errDue
        let s := s.modMe fun c => { c with run := { c.run with stop := none, held := 0, errDue := false } }
        ok (if due then s.errorHold s.cur.core else s)
    | none => ok s
  | none => ok s

/-! ## Completion (R50, R51) -/

/-- Whether an effect in flight is a write into a memory level. -/
def Eff.isWrite : Eff → Bool
  | .sp _ _ => true
  | .mcast _ => true
  | .spData _ _ _ => true
  | .spBtc _ _ _ _ => true
  | .cmap _ _ _ => true
  | .atomRet _ => true
  | .manifest _ _ _ => true
  | _ => false

/-- Whether an effect lands on registers, without an event of its own. -/
def Eff.quiet : Eff → Bool
  | .sreg _ _ _ => true
  | .vreg _ _ _ => true
  | .mask _ => true
  | .vflag _ => true
  | .mflag _ => true
  | .hovf _ => true
  | .gstat _ => true
  | .dfield _ _ _ => true
  | .unbind _ => true
  | .sys _ _ => true
  | .ldReg _ _ _ => true
  | .chkint => true
  | _ => false

/-- Whether an effect goes on through a hold (R31): transfers, global accesses and atomics; register results and flags keep their gang
cycles (R37). -/
def Pend.moves (p : Pend) : Bool := !p.eff.quiet && (p.goesOn || p.unit = 3 || (10 ≤ p.unit && p.unit < 40))

/-- Whether every write that core k has issued has landed, those it sends to other members among them, and every global write
has been performed (R51, R159). -/
def State.writesDone (s : State) (k : Nat) : Bool :=
  ((s.core k).pend.all fun p => !(p.eff.isWrite && p.unit < 10)) &&
  (s.cores.all fun c => c.pend.all fun p => !(p.eff.isWrite && p.unit = 10 + k)) &&
  (s.gops.all fun o => !(o.core = k && !o.done && o.kind.writes)) && (s.core k).builds.isEmpty

/-- Whether a core's units have all reached their end (R50). -/
def Core.unitsEnded (c : Core) : Bool :=
  c.seq.ended && c.mtx.drain.all (fun d => !d.open_) &&
  c.engs.all fun e => (e.ended || !e.played) && (e.q.isEmpty || (e.ended && !e.started)) && e.next ≤ c.run.g + 1

/-- Whether the combiner of core k fires now (R51). -/
def State.combinerDue (s : State) (k : Nat) : Bool :=
  let c := s.core k
  c.run.berth.isSome && c.run.started && c.run.stop.isNone && c.run.fired.isNone && c.unitsEnded && s.writesDone k

/-- COMBINER_FIRES (R51): the member's combiner fires at its present gang cycle; when it is the last, the gang completes. -/
def execCombinerFires (s : State) : Res :=
  let k := s.cur.core
  if !s.combinerDue k then ok s
  else
    let s := s.modCore k fun c => { c with run := { c.run with fired := some c.run.g } }
    match s.gangOf k with
    | none => ok s
    | some g =>
      match g.members.mapM fun m => (s.core m).run.fired.map fun f => f + 2 * (s.core m).run.hop with
      | some fs => ok (s.completeGang g (maxOf fs))
      | none => ok s

/-- RUN_LIMIT_EXPIRY (R44, R386): the origin's gang time has reached RUNLIM. -/
def execRunLimitExpiry (s : State) : Res :=
  match s.gang s.cur.arg with
  | none => ok s
  | some g =>
    let lim := (s.bind g.berth).runlim.toNat
    if lim != 0 && lim ≤ (s.core g.origin).run.g then ok (s.abortGang g.berth 6) else ok s

end Sys2Proof.Machine
end

