-- ==== Sys2Proof/Machine/Saves.lean ====
section
/-!
DEFINITION. Pre-emption (R158 to R163): the request, YIELD's release, cooperative and forced saves, and what a restore puts back
(R162, R387).
-/

namespace Sys2Proof.Machine

/-! ## The request (R158) -/

/-- YIELDREQ (R158): the request becomes visible on the member at the gang's cycle y. -/
def execYieldreq (s : State) : Res :=
  match s.gangOf s.cur.core with
  | some g => match g.y with
    | some y => if y ≤ s.me.run.g then ok (s.modMe fun c => { c with modes := { c.modes with yieldreq := true } }) else ok s
    | none => ok s
  | none => ok s

/-- The arrivals of a gang's members at a YIELD: live mask, cycle and destination. -/
def State.yieldArrivals (s : State) (g : Gang) : Option (List (Word × Nat × Nat)) :=
  g.members.mapM fun k => match (s.core k).seq.wait with
    | .yield l a d => some (l, a, d)
    | _ => none

/-- Whether the deadline of a request visible from y on makes no save now: between a phase point's arrival and its G (R163), or when a
YIELD has been taken (R159, R161). -/
def State.saveBarred (s : State) (g : Gang) (y : Nat) : Bool :=
  (s.pointArrivals g).isSome || match s.yieldArrivals g with
    | some arr => y ≤ maxOf (arr.map fun x => x.2.1)
    | none => false

/-- Whether the deadline of a gang's request has come (R161). -/
def State.pdlOver (s : State) (g : Gang) : Bool :=
  match g.y with
  | some y => decide (y + (s.core g.origin).modes.pdl.toNat ≤ (s.core g.origin).run.g) && !s.saveBarred g y
  | none => false

/-- Whether a forced save that a phase point has put off is to be made now: its gang runs again and the point is behind it (R163). -/
def State.savePutOff (s : State) (g : Gang) : Bool :=
  g.saveReq && g.hold.isNone && (s.core g.origin).run.stop.isNone && (s.pointArrivals g).isNone

/-- PDL_EXPIRY (R161, R163): no YIELD has been taken by y + PDL, or a save put off is due: the origin becomes the source of a hold, or the
save takes the place of the release of the hold in force. -/
def execPdlExpiry (s : State) : Res :=
  match s.gang s.cur.arg with
  | none => ok s
  | some g =>
    let c := s.core g.origin
    if !((s.pdlOver g && !g.saveReq) || s.savePutOff g) then ok s
    else
      let s := s.modGang g.berth fun g => { g with saveReq := true, saveAt := c.run.g }
      if c.run.stop.isSome then ok s else ok (s.startHold g.origin 2 none)

/-! ## Writing a save area (R387) -/

/-- Marked granules of a window of a level moved with it; both starts are multiples of 64 apart. -/
def poiMove (dst src : List Nat) (slo n dlo : Nat) : List Nat :=
  (dst.filter fun g => !(dlo ≤ 64 * g + 63 && 64 * g < dlo + n)) ++
  (src.filter fun g => slo ≤ 64 * g + 63 && 64 * g < slo + n).map fun g => g + dlo / 64 - slo / 64

/-- First byte of member m's block of a save area, and of its SP1 image (R387). -/
def saveBlock (savepa m : Nat) : Nat := savepa + 0x1000 + m * 0x400000
def sp1Image (savepa m : Nat) : Nat := saveBlock savepa m + 0x100000

/-- The SP1 regions of member m's core written to its save area. -/
def State.saveSp1 (s : State) (savepa m : Nat) (c : Core) (rs : List (Nat × Nat)) : State :=
  rs.foldl (fun s (lo, n) =>
    let d := sp1Image savepa m + lo
    { s with mem := { s.mem with hbm := mblit s.mem.hbm d n (mwindow c.mem.sp1 lo n), hbmPoi := poiMove s.mem.hbmPoi c.mem.sp1Poi lo n d } }) s

/-- The header of a save area (R387). -/
def State.saveHeader (s : State) (savepa kind members seq : Nat) (digest : List Byte) (gcyc : Nat) : State :=
  let h := leBytes 4 kind ++ leBytes 1 members ++ leBytes 1 Config.siliconRev ++ leBytes 2 0 ++ leBytes 4 seq ++ leBytes 4 0 ++
    digest.take 32 ++ leBytes 8 gcyc
  { s with mem := { s.mem with hbm := mblit s.mem.hbm savepa 0x1000 (mwriteL [] 0 h) } }

/-- The contexts of n members: the part's own layout names the save by a number in the first bytes of each block (R387; log 10). -/
def State.saveContexts (s : State) (savepa n num : Nat) : State :=
  (List.range n).foldl (fun s m =>
    { s with mem := { s.mem with hbm := mblit s.mem.hbm (saveBlock savepa m) 0x100000 (mwriteL [] 0 (leBytes 8 num)) } }) s

/-- The save that the blocks of an area hold, wherever the area lies now; none when this part wrote no such contexts (R161, R387). -/
def State.saveAt (s : State) (savepa : Nat) : Option Saved :=
  match s.saves.find? fun x => (List.range x.mems.length).all fun m => s.gNat 0 (saveBlock savepa m) 8 = x.num with
  | some sv => some { sv with savepa := savepa }
  | none => none

/-- The SAVE regions of an image with their places behind the members' blocks of an area: level, start, length, place (R356, R387). -/
def savePlaces (im : Memory) (savepa : Nat) : List (Nat × Nat × Nat × Nat) :=
  ((imgSaves im).foldl (fun (st : List (Nat × Nat × Nat × Nat) × Nat) r =>
    (st.1 ++ [(r.1, r.2.1, r.2.2, st.2)], st.2 + (r.2.2 + 4095) / 4096 * 4096)) ([], saveBlock savepa (imgMembers im))).1

/-- The image's SAVE regions written behind the members' blocks, SP2 from the origin's cluster (log 32). -/
def State.saveRegions (s : State) (im : Memory) (savepa cl : Nat) : State :=
  (savePlaces im savepa).foldl (fun s (lvl, lo, n, d) =>
    let m := s.mem
    let src := if lvl = 1 then lget m.sp2 cl [] else m.sp3
    let poi := if lvl = 1 then lget m.sp2Poi cl [] else m.sp3Poi
    { s with mem := { m with hbm := mblit m.hbm d n (mwindow src lo n), hbmPoi := poiMove m.hbmPoi poi lo n d } }) s

/-- SP2 and SP3 writes of a berth that have landed go into the memories. -/
def State.settleBerth (s : State) (berth : Nat) : State :=
  let mine := s.mem.spq.filter fun w => w.berth = berth
  { s with mem := { mine.foldl Mem.absorb s.mem with spq := s.mem.spq.filter fun w => w.berth != berth } }

/-! ## What a save keeps -/

/-- The first byte and length of the active bank of a descriptor at an SP level (R62). -/
def Desc.activeSpan (d : Desc) : Nat × Nat :=
  let r := d.region d.readBase
  (r.1.toNat, (r.2 + 1 - r.1).toNat)

/-- The descriptors that a live mask selects (R160). -/
def liveDescs (c : Core) (live : Word) : List Desc :=
  ((List.range 16).filter fun i => live.getLsbD (36 + i)).map fun i => lget c.descs i Desc.zero

/-- A core as a cooperative save keeps it (R160): what the live mask does not select, and what R160 does not list, reads 0. -/
def Core.coopSaved (c : Core) (live : Word) : Core :=
  { Core.reset with
    run := c.run
    seq := c.seq
    sh := { SeqCtx.zero with regs := c.sh.regs }
    vec := { c.vec with v := c.vec.v.mapIdx fun i x => if live.getLsbD i then x else List.replicate 64 0
                        hist := List.replicate 3 c.vec.maskEmpty }
    mtx := { c.mtx with tiles := c.mtx.tiles.mapIdx fun i t => if live.getLsbD (32 + i) then t else { Tile.zero with hovf := t.hovf }
                        banks := List.replicate 2 Bank.empty, drain := none, laneDrain := none, reads := none, laneReads := none }
    descs := c.descs
    chmap := c.chmap
    engs := c.engs.map fun e => { Engine.zero with ended := e.ended, played := e.played, count := e.count }
    modes := { c.modes with yieldreq := false, forced := false }
    params := { c.params with xu := 0, ts := 0, strict := false }
    trec := c.trec
    tfrec := c.tfrec
    unpins := c.unpins.filter fun u => !c.unpinDue u
    mem := { Core.reset.mem with
      sp1 := (((liveDescs c live).filter fun d => d.level = 0).map Desc.activeSpan).foldl
        (fun m (lo, n) => mblit m lo n (mwindow c.mem.sp1 lo n)) []
      sp1Poi := c.mem.sp1Poi }
    snap := c.snap }

/-- VALID and LOCK of the words of a layer slot (R115). -/
def slotValid (w : List Word) : Bool := (lget w 3 0).getLsbD 63
def slotLocked (w : List Word) : Bool := (lget w 3 0).getLsbD 62

/-- The layer slots of a cluster. -/
def State.slotsOf (s : State) (cl : Nat) : List (List Word) := (lget s.builders cl { slots := [], calls := [], busy := none }).slots

/-- The words that the Pilot firmware keeps of the valid slots of a core's cluster: its presets at every save, the unlocked slots at a
forced one (R133). DESIGN CHOICE: every valid locked slot of the cluster counts as a preset of the gang's stream (log 94). -/
def State.keptSlots (s : State) (k : Nat) (forced : Bool) : List (Nat × List Word) :=
  (List.range 64).filterMap fun n =>
    let w := lget (s.slotsOf (cluster k)) n []
    if slotValid w && (slotLocked w || forced) then some (n, w) else none

/-- DESIGN CHOICE: with the words of a forced save kept, the Pilot firmware frees the unlocked slots of the clusters in which no gang is left
(R133; log 94). -/
def State.freeSlots (s : State) (members : List Nat) : State :=
  let used := (s.gangs.flatMap (·.members)).map cluster
  { s with builders := s.builders.mapIdx fun cl b =>
      if (members.map cluster).contains cl && !used.contains cl
      then { b with slots := b.slots.map fun w => if slotValid w && !slotLocked w then List.replicate 4 0 else w } else b }

/-- A core that a saved gang leaves: its pinned pages stay pinned for the restore, those of releases that wait for passages too (R221). -/
def Core.leaveSaved (c : Core) : Core :=
  { (({ c with descs := c.descs.map fun d => { d with bound := false, pins := [] } } : Core).leave) with unpins := c.unpins.filter c.unpinDue }

/-- A saved gang leaves its cores; what it kept is numbered in the blocks of its area, and the save goes on until a free tide cycle. -/
def State.beginSave (s : State) (g : Gang) (sv : Saved) : State :=
  let s := s.saveContexts sv.savepa sv.mems.length sv.num
  let s := g.members.foldl (fun s k => s.modCore k Core.leaveSaved) s
  let s := s.dropOps fun o => g.members.contains o.core
  let w : Saving := { berth := g.berth, from_ := s.tide, due := s.tide + Config.freeNat s.free, savepa := sv.savepa }
  { s with gangs := s.gangs.filter fun x => x.berth != g.berth
           saves := sv :: s.saves
           nextId := s.nextId + 1
           sched := { s.sched with saving := s.sched.saving ++ [w] }
           free := s.free + 1 }

/-- A save is over: its record ends with END 2 and SAVECYC, and the Pilot firmware keeps the FRAME (R378, R379). -/
def State.endSaved (s : State) (w : Saving) : State :=
  let s := s.modBind w.berth fun b => { b with savecyc := BitVec.ofNat 32 (s.tide - w.from_) }
  let fw := s.pilot.fw
  let s := { s with sched := { s.sched with saving := s.sched.saving.filter fun x => x.berth != w.berth }
                    pilot := { s.pilot with fw := { fw with
                      savedFrames := (w.savepa, s.bind w.berth) :: fw.savedFrames.filter fun x => x.1 != w.savepa } } }
  s.endBind w.berth 0 0 2

/-- The save under way of the berth of the step ends, if it is due. -/
def State.saveOver (s : State) : State :=
  match s.sched.saving.find? fun w => w.berth = s.cur.arg && w.due ≤ s.tide with
  | some w => s.endSaved w
  | none => s

/-- The image of a berth's gang (R378). -/
def State.imageOf (s : State) (berth : Nat) : Memory :=
  let pa := (s.bind berth).imgpa.toNat
  mwindow s.mem.hbm pa (mnat s.mem.hbm (pa + 12) 4)

/-- The window [lo, lo + n) of the SP2 of member i's core k, with its marked granules, which travel with the data (R145). -/
def State.savedWin (s : State) (i k lo n : Nat) : SavedWin :=
  { member := i, start := lo, len := n, bytes := mwindow (lget s.mem.sp2 (cluster k) []) lo n,
    marks := poiMove [] (lget s.mem.sp2Poi (cluster k) []) lo n lo }

/-- A cooperative save at gang cycle g (R160); `lives` are the members' live masks. -/
def State.coopSave (s : State) (g : Gang) (lives : List Word) (gc : Nat) : State :=
  let b := s.bind g.berth
  let pa := b.savepa.toNat * 4096
  let s := s.settleBerth g.berth
  let mems := (g.members.zip lives).map fun (k, l) =>
    { core := (s.core k).coopSaved l, slots := s.keptSlots k false,
      sp1s := ((liveDescs (s.core k) l).filter fun d => d.level = 0).map Desc.activeSpan : SavedMember }
  let sp2 := (g.members.zip lives).mapIdx fun i (k, l) =>
    (((liveDescs (s.core k) l).filter fun d => d.level = 1).map Desc.activeSpan).map fun (lo, n) => s.savedWin i k lo n
  let s := s.saveHeader pa 1 g.members.length b.seq.toNat g.digest gc
  let s := (mems.zipIdx).foldl (fun s (m, i) => s.saveSp1 pa i m.core m.sp1s) s
  s.beginSave g { num := s.nextId, savepa := pa, kind := 1, gcyc := gc,
                  gang := { g with nsave := g.nsave + 1, yielded := true, y := none, asked := false, saveReq := false },
                  mems := mems, sp2 := sp2.flatten, ops := [] }

/-- A save that will never be restored is discarded: what its gang had pinned is released (R221). -/
def State.discardSave (s : State) (pa : Nat) : State :=
  match s.saves.find? fun x => x.savepa = pa with
  | none => s
  | some sv =>
    let pins (c : Core) : List (List Pin) := ((c.descs.filter (·.bound)).map (·.pins)) ++ c.unpins.map (·.pins)
    (sv.mems.flatMap fun m => pins m.core).foldl (fun s ps => s.bumpPins ps false) { s with saves := s.saves.filter fun x => x.savepa != pa }

/-! ## YIELD's release (R159) -/

/-- Whether core k is at a phase boundary at gang cycle g (R159). -/
def State.atBoundary (s : State) (k g : Nat) : Bool :=
  let c := s.core k
  c.quiet g && s.writesDone k && (c.descs.all fun d => !d.shw) && c.mem.held.isEmpty

/-- YIELD_RELEASE (R159): the gang of berth `cur.arg` reaches G = A + 64, or its save is over. A taken YIELD that finds a member off a phase boundary saves
nothing; it has been taken, so the request's deadline makes no save either (R161), and YIELDREQ stays set (log 53). -/
def execYieldRelease (s : State) : Res :=
  match s.gang s.cur.arg with
  | none => ok s.saveOver
  | some gg =>
    match s.yieldArrivals gg with
    | none => ok s
    | some arr =>
      let a := maxOf (arr.map fun x => x.2.1)
      let g := a + 64
      if !s.allAt gg g then ok s
      else
        let taken := gg.asked || match gg.y with | some y => decide (y ≤ a) | none => false
        let boundary := gg.members.all fun k => s.atBoundary k g
        let s := (gg.members.zip arr).foldl (fun s (k, x) => s.modCore k fun c => c.goOnAt g x.2.2) s
        if !taken then ok s
        else if boundary then ok (s.coopSave gg (arr.map (·.1)) g)
        else ok ((gg.members.foldl (fun s k => s.modCore k fun c => { c with modes := { c.modes with ybad := true } }) s).modGang
          gg.berth fun g => { g with y := none, asked := true })

/-! ## Forced saves (R161, R163) -/

/-- Whether a transfer, global access, builder call or atomic of core k is still under way (R161, R323). -/
def State.inFlight (s : State) (k : Nat) : Bool :=
  ((s.core k).pend.any fun p => p.moves) ||
  (s.cores.any fun c => c.pend.any fun p => p.unit = 10 + k) ||
  (s.gops.any fun o => o.core = k && !o.done && (match o.kind with | .wait _ _ _ => !o.armed | _ => true)) ||
  !(s.core k).builds.isEmpty

/-- Whether the forced save of a gang may be made now (R161, R163). -/
def State.saveReady (s : State) (g : Gang) : Bool :=
  s.saveTakes g && match g.hold with
    | some h => s.holdOver g h && g.members.all fun k => !s.inFlight k
    | none => false

/-- An effect in flight as a save keeps it: a load whose data have come keeps their value, since the operation at the home is over
(R161). -/
def State.keptPend (s : State) (p : Pend) : List Pend :=
  match p.eff with
  | .ldReg sh r wid =>
    let a := s.answer p
    { p with need := none, eff := .sreg sh r (loadValue wid (a.flatMap (·.bytes))) } ::
      (if a.any (·.poison) then [{ p with need := none, eff := .chkint }] else [])
  | _ => [p]

/-- FORCED_SAVE (R161): everything of the gang of berth `cur.arg` is saved and its cores are freed; or its save is over. -/
def execForcedSave (s : State) : Res :=
  match s.gang s.cur.arg with
  | none => ok s.saveOver
  | some g =>
    if !s.saveReady g then ok s
    else
      let b := s.bind g.berth
      let pa := b.savepa.toNat * 4096
      let im := s.imageOf g.berth
      let s := s.settleBerth g.berth
      let gc := (s.core g.origin).run.g
      let mems := g.members.map fun k =>
        { core := { s.core k with hnd := Handler.idle, unpins := (s.core k).unpins.filter (fun u => !(s.core k).unpinDue u), perf := List.replicate 8 0,
                                  pend := (s.core k).pend.flatMap s.keptPend },
          slots := s.keptSlots k true, sp1s := [(0, Config.sp1Size)] : SavedMember }
      let sp2 := g.members.mapIdx fun i k => if cluster k = cluster g.origin then [] else
        ((imgSaves im).filter fun r => r.1 = 1).map fun (_, lo, n) => s.savedWin i k lo n
      let ops := (s.gops.filter fun o => g.members.contains o.core && match o.kind with | .wait _ _ _ => true | _ => false).map
        fun (o : GOp) => { o with core := g.members.findIdx (· = o.core) }
      let s := s.saveHeader pa 2 g.members.length b.seq.toNat g.digest gc
      let s := (mems.zipIdx).foldl (fun s (m, i) => s.saveSp1 pa i m.core m.sp1s) s
      let s := s.saveRegions im pa (cluster g.origin)
      let rb := match g.hold with | some h => if h.rb then some h.rbCount else none | none => none
      let gg := { g with nsave := g.nsave + 1, forced := true, y := none, saveReq := false, hold := none, asked := (s.core g.origin).modes.yieldreq }
      let sv : Saved := { num := s.nextId, savepa := pa, kind := 2, gcyc := gc, gang := gg, mems := mems, sp2 := sp2.flatten, ops := ops, rb := rb }
      ok ((s.beginSave g sv).freeSlots g.members)

/-! ## Restore (R162, R387) -/

/-- The number of a unit of an effect in flight after its sender has moved. -/
def moveUnit (old new : List Nat) (u : Nat) : Nat :=
  let mv (b : Nat) : Nat := match old.findIdx? (· = u - b) with | some i => b + lget new i 0 | none => u
  if 40 ≤ u then mv 40 else if 10 ≤ u then mv 10 else u

/-- Member i of a saved gang put back on core k: `run` gives its new place; a forced save resumes it at `t` on the normalised
clock. -/
def State.restoreMember (s : State) (im : Memory) (sv : Saved) (new : List Nat) (i k : Nat) (run : Run) (t : Nat) : State :=
  match sv.mems[i]? with
  | none => s
  | some m =>
    let pa := sp1Image sv.savepa i
    let c := m.core
    let sp1 := m.sp1s.foldl (fun mm (lo, n) => mblit mm lo n (mwindow s.mem.hbm (pa + lo) n)) []
    let poi := m.sp1s.foldl (fun pp (lo, n) => poiMove pp s.mem.hbmPoi (pa + lo) n lo) []
    s.modCore k fun old =>
      { c with
        run := { run with g := c.run.g, heldAll := c.run.heldAll, dborne := c.run.dborne, halted := c.run.halted,
                          poisoned := c.run.poisoned, fired := c.run.fired,
                          stop := if sv.kind = 2 then some { slotDue := false, source := false, await := none, until_ := some t } else none }
        modes := { c.modes with forced := sv.kind = 2 }
        pend := c.pend.map fun (p : Pend) => { p with unit := moveUnit sv.gang.members new p.unit }
        fences := c.fences.map fun l => l.filter fun id => sv.ops.any fun o => o.id = id
        mem := { c.mem with sp1 := sp1, sp1Poi := poi, score := imgScore im i, scorePoi := [] }
        unpins := old.unpins ++ c.unpins }

/-- The kept words of unlocked slots, or the presets, written into the same slot numbers of the new clusters, the lower member's standing
(R133). -/
def State.writeKept (s : State) (sv : Saved) (new : List Nat) (locked : Bool) : State :=
  (((List.range new.length).reverse).foldl (fun s i =>
    match sv.mems[i]? with
    | some m => (m.slots.filter fun x => slotLocked x.2 = locked).foldl (fun s (n, ws) =>
        { s with builders := lmod s.builders (cluster (lget new i 0)) { slots := [], calls := [], busy := none } fun b =>
            { b with slots := lput b.slots n ws [] } }) s
    | none => s) s)

/-- What the Pilot firmware writes into layer slots before a restore (R133). DESIGN CHOICE: where clusters merge, a preset stands before an
unlocked slot of the same number (log 94). -/
def State.restoreSlots (s : State) (sv : Saved) (new : List Nat) : State := (s.writeKept sv new false).writeKept sv new true

/-- Whether the slots that a save's unlocked words go to are free in the clusters of a set of cores (R133). -/
def State.slotsFree (s : State) (sv : Saved) (new : List Nat) : Bool :=
  (new.zip sv.mems).all fun (k, m) => (m.slots.filter fun x => !slotLocked x.2).all fun (n, _) =>
    let w := lget (s.slotsOf (cluster k)) n []
    !slotValid w && !slotLocked w

/-- SP2 of clusters reads 0, and writes into it that are under way are gone (R160, R361). -/
def State.clearSp2 (s : State) (cls : List Nat) : State :=
  let m := s.mem
  { s with mem := { m with sp2 := m.sp2.mapIdx fun i x => if cls.contains i then [] else x
                           sp2Poi := m.sp2Poi.mapIdx fun i x => if cls.contains i then [] else x
                           spq := m.spq.filter fun w => !(w.lvl = 1 && cls.contains w.unit) } }

/-- The n bytes of a SAVE region kept at d, as pieces at lo with their poison marks. -/
def regionPieces (hbm : Memory) (poi : List Nat) (lo n d : Nat) : List Piece :=
  { addr := lo, bytes := mreadN hbm d n, poison := false } :: (poiMove [] poi d n lo).map fun g =>
    let a := Nat.max (64 * g) lo
    { addr := a, bytes := mreadN hbm (d + (a - lo)) (Nat.min (64 * g + 64) (lo + n) - a), poison := true }

/-- The SP2 of the gang's clusters reads 0 outside the saved regions (R160), and the saved SP2 and SP3 bytes are back: those of the contexts,
and at a forced save those of the SAVE regions, from the area (R387; log 32). -/
def State.restoreShared (s : State) (im : Memory) (sv : Saved) (new : List Nat) : State :=
  let s := if imgUsesp2 im then s.clearSp2 (new.map cluster) else s
  let cl (w : SavedWin) : Nat := cluster (lget new w.member 0)
  let sp2 := sv.sp2.foldl (fun l w => lmod l (cl w) [] fun x => mblit x w.start w.len w.bytes) s.mem.sp2
  let poi := sv.sp2.foldl (fun l w => lmod l (cl w) [] fun x => poiMove x w.marks w.start w.len w.start) s.mem.sp2Poi
  let s := { s with mem := { s.mem with sp2 := sp2, sp2Poi := poi } }
  if sv.kind = 2 then
    (savePlaces im sv.savepa).foldl (fun s (lvl, lo, n, d) =>
      if lvl = 1 then
        let m := s.mem
        let cl := cluster (new.headD 0)
        { s with mem := { m with sp2 := lmod m.sp2 cl [] (fun x => mblit x lo n (mwindow m.hbm d n))
                                 sp2Poi := lmod m.sp2Poi cl [] (fun l => poiMove l m.hbmPoi d n lo) } }
      else let ps := regionPieces s.mem.hbm s.mem.hbmPoi lo n d; s.putSp3 ps ps) s
  else s

end Sys2Proof.Machine
end

