-- ==== Sys2Proof/Machine/Handler.lean ====
section
/-!
DEFINITION. Handlers (R141 to R144): entry, the return in its three forms, escalation, the value supplied for a DET_READ, fault posts
and the answers to them (R399).
-/

namespace Sys2Proof.Machine

/-- Whether a handler waits to be entered on a core: a fault source whose handler has not started (R141). -/
def Core.handlerDue (c : Core) : Bool := !c.hnd.active && c.hnd.entry != 0 && !c.hnd.posted

/-- TRAP_ENTRY (R141): the shadow context starts at the handler's entry. -/
def execTrapEntry (s : State) : Res :=
  if s.me.handlerDue then
    ok (s.modMe fun c => { c with hnd := { c.hnd with active := true }, sh := { c.sh with next := s.tide } })
  else ok s

/-- HANDLER_DEADLINE (R143): a handler that has not returned in time, or a second case inside the Pilot firmware's handler, which aborts
the gang with reason 8. -/
def execHandlerDeadline (s : State) : Res :=
  let h := s.me.hnd
  if h.entry = 0 || (!h.fatal && (h.posted || h.answer.isSome)) then ok s
  else if h.fatal || (h.pilot && h.entry + Config.handlerDeadline ≤ s.tide) then
    match s.me.run.berth with
    | some b => ok (s.abortGang b 8)
    | none => ok s
  else if h.entry + Config.handlerDeadline ≤ s.tide then ok (s.escalate s.cur.core)
  else ok s

/-! ## TRET (R142) -/

/-- Whether an effect is a write of the shadow context's own registers, which TRET does not await. -/
def Eff.ofShadow : Eff → Bool
  | .sreg sh _ _ => sh
  | .ldReg sh _ _ => sh
  | _ => false

/-- Whether the handler lanes are empty and every write of their passages has landed or been performed (R142). -/
def State.lanesDone (s : State) (k : Nat) : Bool :=
  ((s.core k).lanes.all fun e => e.q.isEmpty && e.next ≤ s.tide) &&
  ((s.core k).pend.all fun p => !p.tide || p.eff.ofShadow) &&
  s.gops.all fun o => !(o.core = k && o.lane && !o.done && o.kind.writes)

/-- The staged main registers (R141). -/
def SeqCtx.stage (c : SeqCtx) (ms : List (Nat × Word)) : SeqCtx :=
  ms.foldr (fun m c => if m.1 < 32 then c.setReg m.1 m.2 else c) c

/-- The destination of the MFS at a score-memory address. -/
def Core.mfsDest (c : Core) (pc : BitVec 18) : Nat :=
  match decodeSeq (BitVec.ofNat 32 (c.code pc.toNat 4)) with
  | .mfs d _ => d.toNat
  | _ => 0

/-- The sequencer as a returning handler leaves it (R136, R141, R142, R144). DESIGN CHOICE: out of a slot the instruction after an MFS that
TSUPPLY completed issues at the stop cycle itself (log 83). -/
def Core.resumeSeq (c : Core) : SeqCtx :=
  let h := c.hnd
  let s := c.seq.stage h.mains
  if h.mains.any fun m => m.1 = 32 then { s with pc := h.mainPc, slot := none }
  else match c.seq.slot with
    | some sl =>
      if h.ds then
        let r := reeval s sl.brPc sl.mask (decodeSeq (BitVec.ofNat 32 (c.code sl.brPc.toNat 4)))
        if h.supply.isSome then { s with pc := r.1, slot := none, next := c.run.g + 1 }
        else { s with pc := sl.brPc + 4, slot := some { sl with dest := r.1 }, next := c.run.g }
      else { s with pc := h.mainPc }
    | none => { s with pc := h.mainPc }

/-- The register writes that a returning handler leaves in flight: the branch's link made again and the value supplied for an MFS
(R136, R144). -/
def Core.resumeRegs (c : Core) : List (Nat × Word) :=
  let h := c.hnd
  let link := match c.seq.slot with
    | some sl => if h.ds then
        match (reeval (c.seq.stage h.mains) sl.brPc sl.mask (decodeSeq (BitVec.ofNat 32 (c.code sl.brPc.toNat 4)))).2 with
        | some d => [(d.toNat, sl.brPc.setWidth 64 + 8)]
        | none => []
      else []
    | none => []
  let sup := match h.supply with
    | some v => [(c.mfsDest (match c.seq.slot with | some sl => sl.brPc + 4 | none => c.trec.pc), v)]
    | none => []
  link ++ sup

/-- Whether the delay slot of a handler's return is an MFS that TSUPPLY completed: it issues at the stop cycle (R136, R144), and PERF0 counts it
(R236). -/
def Core.slotSupplied (c : Core) : Bool :=
  c.hnd.ds && c.hnd.supply.isSome && c.seq.slot.isSome && !(c.hnd.mains.any fun m => m.1 = 32)

/-- Whether TREC holds the miss of an entry of a drain, whose word has issued (R281). -/
def Trec.ofDrain (t : Trec) : Bool := t.cause = 0x07 && t.unit = 2 && 0x100 ≤ t.info.toNat && t.info.toNat < 0x200

/-- The drain whose entry missed is discarded: what it has not pushed, its verdict and the later repeats of its word; the next word may issue
at the stop cycle (R142, R281; log 85). -/
def Core.skipDrain (c : Core) : Core :=
  let left (p : Pend) : Bool := p.unit = 2 && !p.tide && (match p.eff with | .verdict => true | _ => false)
  { c with
    pend := c.pend.filter fun p => !left p
    mtx := { c.mtx with drain := c.mtx.drain.map fun d => { d with open_ := false }, reads := none }
    engs := lmod c.engs 1 Engine.zero fun e => if e.rep = 0 then { e with next := c.run.g } else { e.issued (e.rep + 1) c.run.g with last := e.last } }

/-- The faulting engine's word is discarded from its repeat on, and the next word may issue at the stop cycle (R142). -/
def Core.skipWord (c : Core) : Core :=
  if c.trec.unit = 0 || c.trec.cause = 0x08 then c
  else if c.trec.ofDrain then c.skipDrain
  else { c with engs := lmod c.engs (c.trec.unit.toNat - 1) Engine.zero fun e => { e.issued (e.rep + 1) c.run.g with last := e.last } }

/-- Whether the sequencer that a handler leaves stands again at the PLAY whose full queue raised SCHED_MISS, in its slot or, when `plain`,
out of one: the PLAY then waits as under STALL (R34, R139). -/
def Core.playAgain (c : Core) (plain : Bool) : Bool :=
  c.trec.cause = 0x07 && 0x700 ≤ c.trec.info.toNat && c.trec.unit = 0 &&
    match c.seq.slot with
    | some sl => c.seq.pc = sl.brPc + 4
    | none => plain && c.seq.pc = c.trec.pc

/-- A handler has returned on core k (R142): 0 TRET, 1 TRET.SKIP, 2 TRET.RB; the source's condition ends. -/
def State.finishHandler (s : State) (k form : Nat) : State :=
  let c := s.core k
  let s :=
    if form = 2 then
      let cksum := c.trec.cause = 0x08
      let s := s.modCore k fun c => if cksum then { c with tfrec := { c.tfrec with rb := true } } else c
      match c.run.berth with
      | some b => s.modGang b fun g => { g with hold := g.hold.map fun h => { h with rb := true, rbCount := h.rbCount || !cksum } }
      | none => s
    else
      let plain := c.seq.slot.isNone
      let s := s.modCore k fun c =>
        let c := (({ c with seq := c.resumeSeq } : Core).perfAdd 0 (bit c.slotSupplied))
        let c := if form = 1 then c.skipWord else c
        if c.playAgain plain then
          { c with seq := { c.seq with wait := .play (c.trec.info.toNat - 0x700) } }
        else c
      c.resumeRegs.foldl (fun s (d, v) =>
        let p : Pend := { id := s.nextId, land := c.run.g + 1, since := c.run.g, tide := false, unit := 0, goesOn := false,
                          need := none, phased := false, missed := false, eff := .sreg false d v }
        { s.modCore k fun c => { c with pend := c.pend ++ [p] } with nextId := s.nextId + 1 }) s
  (s.modCore k fun c => { c with hnd := Handler.idle, sh := { c.sh with wait := .none, slot := none } }).endSource k

/-- TRET of a form: it waits for the handler lanes (R142). -/
def tretRun (i : Instr) (form : Nat) (s : State) : Res :=
  seqRun i shadowOnly (fun s => if s.lanesDone s.cur.core then s.finishHandler s.cur.core form else s.retryNext) s

/-- TRET (R142). -/
def execTret (s : State) : Res := tretRun .tret 0 s
/-- TRET_SKIP (R142). -/
def execTretSkip (s : State) : Res := tretRun .tretSkip 1 s
/-- TRET_RB (R142). -/
def execTretRb (s : State) : Res := tretRun .tretRb 2 s

/-! ## TSUPPLY (R144) -/

/-- TSUPPLY (R144): only in a handler entered for DET_READ. -/
def execTsupply (a : BitVec 5) (s : State) : Res :=
  seqRun (.tsupply a) shadowOnly (fun s =>
    if s.me.trec.cause != 0x0B then s.illegal (.tsupply a)
    else
      let v := s.rd a
      s.next1.modMe fun c =>
        { c with hnd := { c.hnd with supply := some v
                                     mainPc := if c.hnd.ds || c.hnd.supply.isSome then c.hnd.mainPc else c.hnd.mainPc + 4 } }) s

/-! ## TESC and fault posts (R143, R399) -/

/-- The 64 bytes of a fault post (R399). -/
def State.postBytes (s : State) (k : Nat) : List Byte :=
  let c := s.core k
  let w (v : Word) := leBytes 8 v.toNat
  leBytes 1 k ++ leBytes 1 (c.run.berth.getD 0) ++ leBytes 2 0 ++ leBytes 4 c.run.seqNo.toNat ++
  w (c.trec.word 0) ++ w (c.trec.word 1) ++ w (c.trec.word 2) ++ w (c.trec.word 3) ++ w (c.tfrec.word 0) ++
  w (c.hnd.mainPc.setWidth 64) ++ leBytes 8 0

/-- A fault post goes to the ring, or waits in its core when the ring is full (R399). -/
def State.postFault (s : State) (k : Nat) : State :=
  let p := (k, s.postBytes k)
  let s := s.modCore k fun c => { c with hnd := { c.hnd with posted := true } }
  { s with pilot := if s.pilot.posts.length < Config.faultRing then { s.pilot with posts := s.pilot.posts ++ [p] }
                    else { s.pilot with waiting := s.pilot.waiting ++ [p] } }

/-- TESC (R143): from the timetable's handler to the Pilot firmware's, from that one to the Pilot complex. -/
def execTesc (s : State) : Res :=
  seqRun .tesc shadowOnly (fun s =>
    let k := s.cur.core
    let s := s.next1
    if s.me.hnd.pilot then s.postFault k
    else s.modMe fun c =>
      { c with hnd := { c.hnd with pilot := true, entry := s.tide + 1, active := false }
               sh := { c.sh with pc := c.entryOf true, slot := none, wait := .none, next := s.tide + 1 } }) s

/-- A waiting fault post enters the ring when there is room (R399). -/
def Pilot.admitPost (p : Pilot) : Pilot :=
  match p.waiting with
  | [] => p
  | w :: r => if p.posts.length < Config.faultRing then { p with posts := p.posts ++ [w], waiting := r } else p

/-- The post of core k is outstanding no more. -/
def State.dropPost (s : State) (k : Nat) : State :=
  let s := s.modCore k fun c => { c with hnd := { c.hnd with posted := false } }
  let others (l : List (Nat × List Byte)) := l.filter fun p => p.1 != k
  let p := s.pilot
  { s with pilot := ({ p with posts := others p.posts, waiting := others p.waiting, out := others p.out } : Pilot).admitPost }

/-- The Pilot firmware answers core k's post with a return of a form (0 TRET, 2 TRET.RB), which waits for the handler lanes as TRET does
(R142, R399). -/
def State.answerFault (s : State) (k form : Nat) : State :=
  if s.lanesDone k then s.finishHandler k form
  else s.modCore k fun c => { c with hnd := { c.hnd with answer := some form } }

/-- A FRESP write to the core of the step, ignored when it has no post outstanding (R399). -/
def frespRun (act : State → Nat → State) (s : State) : Res :=
  let k := s.cur.core
  if s.me.hnd.posted then ok (act (s.dropPost k) k) else ok s

/-- FRESP_RESUME (R399): as TRET. -/
def execFrespResume (s : State) : Res := frespRun (fun s k => s.answerFault k 0) s
/-- FRESP_ROLLBACK (R399): as TRET.RB. -/
def execFrespRollback (s : State) : Res := frespRun (fun s k => s.answerFault k 2) s

/-- FRESP_FORCED_SAVE (R161, R163, R399): the save takes the place of the release. -/
def execFrespForcedSave (s : State) : Res :=
  frespRun (fun s k =>
    let s := s.answerFault k 0
    match (s.core k).run.berth with
    | some b => s.modGang b fun g => { g with saveReq := true, saveAt := (s.core g.origin).run.g }
    | none => s) s

/-- Core k taken out of service: out of every group, marked failed, logged (R154, R156). -/
def State.failCore (s : State) (k : Nat) (berth code : Nat) : State :=
  let off : BitVec 24 := ~~~(1 <<< k)
  (s.modSched fun x => { x with groups := x.groups.map fun g => (g.1 && (g.2 &&& off) != 0, g.2 &&& off)
                                failed := x.failed ||| (1 <<< k) }).ras 4 k berth code 0

/-- FRESP_ABORT (R154, R399): reason 5; after a checksum fault whose rollback has been made, reason 7, and the core leaves service. -/
def execFrespAbort (s : State) : Res :=
  frespRun (fun s k =>
    match (s.core k).run.berth with
    | none => s
    | some b =>
      if (s.core k).trec.cause = 0x08 && (s.core k).tfrec.rb then (s.abortGang b 7).failCore k b 7
      else s.abortGang b 5) s

end Sys2Proof.Machine
end

