-- ==== Sys2Proof/Machine/Landing.lean ====
section
/-!
DEFINITION. Landings (R37 to R40): register-like effects, and when an effect in flight lands.
-/

namespace Sys2Proof.Machine

/-! ## Register-like effects -/

/-- The lanes of a vector register after a masked write (R37, R239). -/
def mergeLanes (m : BitVec 64) (old new : List Lane) : List Lane :=
  (List.range 64).map fun i => if m.getLsbD i then lget new i 0 else lget old i 0

/-- The top of the mask stack, all ones when it is empty (R250). -/
def topMask : List (BitVec 64) → BitVec 64
  | [] => BitVec.allOnes 64
  | m :: _ => m

/-- A change of the mask stack at its landing (R48, R250). -/
def MaskOp.apply (op : MaskOp) (l : List (BitVec 64)) : List (BitVec 64) :=
  match op, l with
  | .push m, l => (topMask l &&& m) :: l
  | .inv, m :: r => (topMask r &&& ~~~m) :: r
  | .inv, [] => []
  | .pop, l => l.drop 1
  | .clr, _ => []

/-- The effect of a landing on the core itself. -/
def Core.landReg (c : Core) : Eff → Core
  | .sreg sh r v => if sh then { c with sh := c.sh.setReg r v } else { c with seq := c.seq.setReg r v }
  | .vreg r m v => { c with vec := { c.vec with v := lmod c.vec.v r (List.replicate 64 0) fun o => mergeLanes m o v } }
  | .mask op => { c with vec := { c.vec with masks := op.apply c.vec.masks } }
  | .vflag f => { c with vec := { c.vec with flags := c.vec.flags ||| f } }
  | .mflag f => { c with mtx := { c.mtx with flags := c.mtx.flags ||| f } }
  | .hovf t => { c with mtx := { c.mtx with tiles := lmod c.mtx.tiles t Tile.zero fun x => { x with hovf := true } } }
  | .gstat n =>
    { c with params := { c.params with oobs := c.params.oobs || n != 0, oob := BitVec.ofNat 32 (Nat.min 0xFFFFFFFF (c.params.oob.toNat + n)) } }
  | .dfield d f v => { c with descs := lmod c.descs d Desc.zero fun x => x.setField f v }
  | .unbind d => { c with descs := lmod c.descs d Desc.zero fun x => { x with bound := false, pins := [] } }
  | .chkint => { c with modes := { c.modes with chkint := true } }
  | _ => c

/-- A register-like effect of the step's core lands (R37); a global load takes what its home answered (R212). -/
def State.landQuiet (s : State) (p : Pend) : State :=
  let k := s.cur.core
  match p.eff with
  | .sys n v => (s.endPend p).landSys k n v
  | .ldReg sh r wid =>
    let a := s.answer p
    let s := s.endPend p
    let s := s.modCore k fun c => c.landReg (.sreg sh r (loadValue wid (a.flatMap (·.bytes))))
    let s := if a.any (·.poison) then s.modCore k fun c => c.landReg .chkint else s
    s.checkAwait k
  | e => (s.endPend p).modCore k fun c => c.landReg e

/-! ## When an effect lands -/

/-- The clock of an effect in flight: the tide for a handler's; gang time otherwise, which goes on through a hold for what R31 lets go
on; a late load whose miss stopped the core lands when its data come (R31, R141, R212). -/
def State.pendClock (s : State) (k : Nat) (p : Pend) : Nat :=
  let r := (s.core k).run
  if p.tide then s.tide
  else if r.stop.isNone || p.missed then r.g
  else if p.moves then r.g + r.held
  else r.g - 1

/-- The writes into SP levels and pushes into local channels of its own sequencer, vector or matrix unit that the STALL hold of core k
lets complete (R31): those up to the awaited write or entry. -/
def Core.stallFlush (c : Core) (p : Pend) : Bool :=
  match c.run.stop with
  | some st =>
    let awaited : List Nat := match st.await with
      | some (.pends ids) => ids
      | some (.entry ch k) => match (lget c.chans ch Chan.empty).q[k]? with | some e => [e.src] | none => []
      | _ => []
    p.unit < 3 && !p.tide && (match p.eff with | .chan _ => true | e => e.isWrite) &&
      c.pend.any fun q => awaited.contains q.id && q.unit = p.unit && p.id ≤ q.id
  | none => false

/-- A mesh entry or a credit awaited by the STALL source core k, which lands when its cycle comes with the cycles held counted
(R29, R31; log 33). -/
def Core.stallMesh (c : Core) (p : Pend) : Bool :=
  match c.run.stop with
  | some st =>
    match st.await, p.eff with
    | some (.entry ch _), .mesh c' => ch = c' && p.land ≤ c.run.g + c.run.held
    | some (.credit ch), .credit c' => ch = c' && p.land ≤ c.run.g + c.run.held
    | _, _ => false
  | none => false

/-- Whether an effect in flight of core k lands now. -/
def State.pendDue (s : State) (k : Nat) (p : Pend) : Bool :=
  (p.land ≤ s.pendClock k p || (s.core k).stallFlush p || (s.core k).stallMesh p) && s.needMet p

end Sys2Proof.Machine
end

