-- ==== Sys2Proof/Machine/Errors.lean ====
section
/-!
DEFINITION. Errors that the part detects (R57, R137, R155, R156).
-/

namespace Sys2Proof.Machine

/-- Core k's gang is held by an error in k's own state, and rolls back at release (R155): k is the source; where the gang is held already, that
hold rolls back; and where k is stopped with no hold in force, the hold starts when k resumes (`State.errorHold`). -/
def State.holdForError (s : State) (k : Nat) : State :=
  let s := s.modCore k fun c => { c with run := { c.run with dborne := true } }
  match (s.core k).run.stop, s.gangOf k with
  | none, _ => s.errorHold k
  | some _, some g =>
    if g.hold.isSome then s.rollBack g.berth else s.modCore k fun c => { c with run := { c.run with errDue := true } }
  | some _, none => s

/-- Whether a member of berth b's gang has met a data-borne error in the open phase (R155). -/
def State.dborneIn (s : State) (b : Nat) : Bool :=
  match s.gang b with
  | some g => g.members.any fun m => (s.core m).run.dborne
  | none => false

/-- A granule marked poisoned in the level `lvl` (0 SP1, 1 SP2, 2 SP3, 3 HBM) (R57, R155). -/
def State.markGranule (s : State) (k lvl addr : Nat) : State :=
  let g := addr / 64
  let add (l : List Nat) : List Nat := if l.contains g then l else g :: l
  if lvl = 0 then s.modCore k fun c => { c with mem := { c.mem with sp1Poi := add c.mem.sp1Poi } }
  else if lvl = 1 then { s with mem := { s.mem with sp2Poi := lmod s.mem.sp2Poi (cluster k) [] add } }
  else if lvl = 2 then { s with mem := { s.mem with sp3Poi := add s.mem.sp3Poi } }
  else { s with mem := { s.mem with hbmPoi := add s.mem.hbmPoi } }

/-- The ADDR of an error in the level `lvl` (R389, R428): the physical address in SP3 and HBM; SP1 and SP2 have none, and theirs is the level's own
(log 20). -/
def errAddr (lvl addr : Nat) : Nat := if lvl = 2 then 0x2000000000 + addr else addr

/-- UNCORRECTABLE_ERROR (R155, R156). -/
def execUncorrectableError (e : ErrSite) (s : State) : Res :=
  let k := e.core
  let berth := (s.core k).run.berth
  match e.cls with
  | .memory => ok ((s.markGranule k e.lvl e.addr).ras 3 k (berth.getD 0xFF) e.lvl (errAddr e.lvl e.addr))
  | .logic =>
    let s := match berth with | some b => s.abortGang b 1 | none => s
    ok (s.failCore k (berth.getD 0xFF) 1)
  | .dataBorne =>
    let s := s.ras 3 k (berth.getD 0xFF) 2 e.addr
    match berth with
    | none => ok s
    | some b => if s.dborneIn b then ok (s.abortGang b 2) else ok (s.holdForError k)

/-- CORRECTABLE_ERROR (R57, R155): corrected and logged; an error of a memory is counted for the telemetry of R426. -/
def execCorrectableError (e : ErrSite) (s : State) : Res :=
  let s := if e.cls = .memory then { s with fleet := { s.fleet with memErrs := s.fleet.memErrs ++ [s.tide] } } else s
  ok (s.ras 1 e.core ((s.core e.core).run.berth.getD 0xFF) e.lvl (errAddr e.lvl e.addr))

/-- FETCH_AHEAD_ERROR (R137): the line is poisoned and the error is logged as latent. -/
def execFetchAheadError (core addr : Nat) (s : State) : Res :=
  let g := addr / 64
  ok ((s.modCore core fun c =>
    { c with mem := { c.mem with scorePoi := if c.mem.scorePoi.contains g then c.mem.scorePoi else g :: c.mem.scorePoi } }).ras 2 core
      ((s.core core).run.berth.getD 0xFF) 0 addr)

end Sys2Proof.Machine
end

