-- ==== Sys2Proof/Machine/Queue.lean ====
section
/-!
DEFINITION. Stream queues (R362 to R371): queue contexts as registers, their writes, the fetchers, and what each packet does at
its fetch.
-/

namespace Sys2Proof.Machine

/-! ## The context as registers (R363) -/

/-- Word k of a queue context as every party reads it (R363). -/
def Queue.word (q : Queue) (k : Nat) : Word :=
  let r := q.ring
  let p := q.pol
  match k with
  | 0 => Machine.word (at_ 62 r.state.toNat + at_ 56 r.rlog2.toNat + r.rbase.toNat)
  | 1 => Machine.word (at_ 32 r.tail.toNat + at_ 31 (bit r.tailerr) + r.head.toNat)
  | 2 => Machine.word (at_ 56 r.crlog2.toNat + r.crbase.toNat)
  | 3 => Machine.word (at_ 32 r.crhead.toNat + r.crtail.toNat)
  | 4 => Machine.word (at_ 12 r.qxroot.toNat)
  | 5 => Machine.word (at_ 56 p.coalt.toNat + at_ 48 p.coaln.toNat + at_ 43 (bit p.irqen) + at_ 33 p.vec.toNat + at_ 32 (bit p.owner) +
      at_ 16 p.invw.toNat + at_ 8 p.weight.toNat + p.cls.toNat)
  | 6 => Machine.word (at_ 58 p.sslog2.toNat + at_ 52 p.sslots.toNat + at_ 12 p.savebase.toNat)
  | 7 => Machine.word (at_ 56 p.fcode.toNat + at_ 53 p.fdepth.toNat + p.qstate.toNat)
  | 8 => Machine.word p.faddr.toNat
  | _ => if 12 ≤ k && k < 16 then Machine.word (at_ 48 (lget p.iidx (k - 12) 0).toNat + (lget p.istart (k - 12) 0).toNat) else 0

/-- Whether a party may write the context (R362). -/
def Queue.mayWrite (q : Queue) (who : Party) : Bool :=
  match who with
  | .pilot => true
  | .host => !q.pol.owner
  | .external => q.pol.owner
  | .timetable => false

/-- The number of open indirect levels (R370). -/
def Queue.depth (q : Queue) : Nat := (q.run.counts.filter (· != 0)).length

/-- Every indirect level closed. -/
def Queue.closeAll (q : Queue) : Queue :=
  { q with pol := { q.pol with iidx := List.replicate 4 0, istart := List.replicate 4 0 }, run := { q.run with counts := List.replicate 4 0 } }

/-! ## TAIL (R364) -/

/-- A TAIL write of the value v at a tide cycle (R364), which covers the packets up to v (R436). -/
def Queue.writeTail (q : Queue) (v : BitVec 17) (tide : Nat) : Queue :=
  if 2 ^ q.ring.rlog2.toNat < (v - q.ring.head).toNat then { q with ring := { q.ring with tailerr := true } }
  else { q with ring := { q.ring with tail := v }, run := { q.run with tails := if v = q.ring.tail then q.run.tails else q.run.tails ++ [(v.toNat, tide)] } }

/-- HEAD moved past the packet of its ring: TAIL writes whose packets are then all fetched are dropped. -/
def Queue.advance (q : Queue) : Queue :=
  let h := q.ring.head + 1
  { q with ring := { q.ring with head := h }, run := { q.run with tails := match q.run.tails with | (v, _) :: r => if v = h.toNat then r else q.run.tails | [] => [] } }

/-- TAIL (R364): the doorbell; a part in recovery has none (R425). -/
def execTail (who : Party) (n : Nat) (v : BitVec 17) (s : State) : Res :=
  if (s.queue n).mayWrite who && !s.fleet.recovery then ok (s.modQueue n fun q => q.writeTail v s.tide) else ok s

/-! ## STATE (R364, R371) -/

/-- A FRAME of queue n that is purged: its record has STATUS 2 and REASON 15 (R364). -/
def State.purge (s : State) (n : Nat) (f : Frame) : State :=
  s.writeRecord n f.slot { plainRecord (bnat f.bytes 4 4) 2 15 with frameno := bnat f.bytes 20 4 }

/-- The WAITV in force of queue n is over: its home no longer counts it in ARMED (R79, R366). -/
def State.endWaitv (s : State) (n : Nat) : State :=
  match (s.queue n).run.waitv with
  | some (t, a, _) => (s.modQueue n fun q => { q with run := { q.run with waitv := none } }).noteArmed t a
  | none => s

/-- A write of OFF to queue n (R364). -/
def State.queueOff (s : State) (n : Nat) : State :=
  let s := (s.endWaitv n).modQueue n fun q =>
    let q := q.closeAll
    { q with ring := { q.ring with state := 0, head := q.ring.tail }, run := { q.run with tails := [] } }
  let sc := s.sched
  let re := sc.rank
  let inPifo := (sc.pifo.filter fun e => e.frame.queue = n).map (·.frame)
  let ranking := match re.cur with | some f => if f.queue = n then [f] else [] | none => []
  let waiting := re.wait.filter fun f => f.queue = n
  let s := s.modSched fun x =>
    { x with pifo := x.pifo.filter fun e => e.frame.queue != n
             rank := { x.rank with wait := x.rank.wait.filter fun f => f.queue != n
                                   cur := if ranking.isEmpty then x.rank.cur else none
                                   result := if ranking.isEmpty then x.rank.result else none
                                   stq := if ranking.isEmpty then x.rank.stq else none } }
  (inPifo ++ ranking ++ waiting).foldl (fun s f => s.purge n f) s

/-- The STATE field of queue n written with v, SKIP beside it (R363, R364, R371). -/
def State.queueState (s : State) (n v : Nat) (skip : Bool) : State :=
  if v = 0 then s.queueOff n
  else if v = 2 then s
  else s.modQueue n fun q =>
    let q := if v = 1 && skip && q.ring.state = 2 then q.closeAll.advance else q
    { q with ring := { q.ring with state := BitVec.ofNat 2 v } }

/-- A write of STATE by the party of the step to the queue of the step; none in recovery (R425). -/
def queueRunTo (v : Nat) (skip : Bool) (s : State) : Res :=
  if (s.queue s.cur.arg).mayWrite s.cur.who && !s.fleet.recovery then ok (s.queueState s.cur.arg v skip) else ok s

/-- QUEUE_OFF (R364). -/
def execQueueOff (s : State) : Res := queueRunTo 0 false s
/-- QUEUE_RUN (R364, R371). -/
def execQueueRun (s : State) : Res := queueRunTo 1 false s
/-- QUEUE_RUN_SKIP (R371). -/
def execQueueRunSkip (s : State) : Res := queueRunTo 1 true s
/-- QUEUE_DRAIN (R364). -/
def execQueueDrain (s : State) : Res := queueRunTo 3 false s

/-- Whether a reservation of the queue lacks its record (R364). -/
def Queue.owes (q : Queue) : Bool := q.run.resv.any fun r => !r.wrote

/-- The fields of word k that a write with v sets, but for STATE, SKIP and TAIL (R363, R364). -/
def Queue.writeFields (q : Queue) (k : Nat) (v : Word) : Queue :=
  let off := q.ring.state = 0
  match k with
  | 0 => if off then { q with ring := { q.ring with rlog2 := v.extractLsb' 56 4, rbase := v.setWidth 48 } } else q
  | 1 => if v.getLsbD 31 then { q with ring := { q.ring with tailerr := false } } else q
  | 2 => if off && !q.owes then { q with ring := { q.ring with crlog2 := v.extractLsb' 56 4, crbase := v.setWidth 48 } } else q
  | 3 => { q with ring := { q.ring with crhead := v.extractLsb' 32 17 } }
  | 4 => if off then { q with ring := { q.ring with qxroot := v.extractLsb' 12 40 } } else q
  | 5 => { q with pol := { q.pol with coalt := v.extractLsb' 56 8, coaln := v.extractLsb' 48 8, irqen := v.getLsbD 43,
                                      vec := v.extractLsb' 33 10, owner := v.getLsbD 32, invw := v.extractLsb' 16 16,
                                      weight := v.extractLsb' 8 8, cls := v.setWidth 2 }
                  run := { q.run with unrep := if v.getLsbD 43 then q.run.unrep else 0 } }
  | 6 => { q with pol := { q.pol with sslog2 := v.extractLsb' 58 6, sslots := v.extractLsb' 52 6, savebase := v.extractLsb' 12 40 } }
  | 7 => { q with pol := { q.pol with qstate := v.setWidth 32 } }
  | _ => q

/-- A 64-bit write of word k of queue n by a party (R362 to R364). -/
def State.writeQueue (s : State) (who : Party) (n k : Nat) (v : Word) : State :=
  if !(s.queue n).mayWrite who then s
  else
    let s := s.modQueue n fun q => q.writeFields k v
    if k = 0 then s.queueState n (v.extractLsb' 62 2).toNat (v.getLsbD 61)
    else if k = 1 then s.modQueue n fun q => q.writeTail (v.extractLsb' 32 17) s.tide
    else s

/-! ## Parking (R371) -/

/-- A queue fault (R371): code, level and address. -/
def State.parkQueue (s : State) (n code level addr : Nat) : State :=
  let s := s.modQueue n fun q =>
    { q with ring := { q.ring with state := 2 }
             pol := { q.pol with fcode := BitVec.ofNat 8 code, fdepth := BitVec.ofNat 3 level, faddr := BitVec.ofNat 48 addr } }
  let s := if (s.queue n).pol.irqen then s.raiseIrq n else s
  (s.signal 19).ras 6 0xFF 0xFF code n

/-! ## The next packet (R364, R368, R370) -/

/-- The virtual address of the next packet of a queue. -/
def Queue.packetVa (q : Queue) : Nat :=
  let l := q.depth
  if l = 0 then q.ring.rbase.toNat + 64 * (q.ring.head.toNat % 2 ^ q.ring.rlog2.toNat)
  else (lget q.pol.istart (l - 1) 0).toNat + 64 * (lget q.pol.iidx (l - 1) 0).toNat

/-- The level-1 table of a queue's fetches (R68). -/
def Queue.root (q : Queue) : Nat := q.ring.qxroot.toNat * 4096

/-- The bytes of physical runs. -/
def State.readRuns (s : State) (rs : List (Nat × Nat × Nat)) : List Byte := rs.flatMap fun (t, a, n) => s.gRead t a n

/-- The 64 bytes of the next packet, or the address that does not translate (R369). -/
def State.packet (s : State) (q : Queue) : Nat ⊕ List Byte :=
  match s.runsOf q.root true false q.packetVa 64 with
  | .inl a => .inl a
  | .inr rs => .inr (s.readRuns rs)

/-- Whether all bytes of a packet from offset o on are 0. -/
def zeroFrom (bs : List Byte) (o : Nat) : Bool := (bs.drop o).all (· == 0)

/-- Whether a packet fails the checks of R366 and R367 that need no translation. -/
def packetBad (bs : List Byte) : Bool :=
  let typ := bnat bs 0 1
  let fl := bnat bs 1 1
  bnat bs 2 2 != 0 || 5 ≤ typ || (if typ = 1 then 8 ≤ fl else fl != 0) ||
  (if typ = 1 then 16 < bnat bs 17 1 || (bnat bs 17 1 = 0 && bnat bs 24 8 != 0) || !zeroFrom bs 40
   else if typ = 2 then bnat bs 8 8 % 64 != 0 || bnat bs 16 4 = 0 || 65535 < bnat bs 16 4 || !zeroFrom bs 20
   else if typ = 3 then
     (let o := bnat bs 8 8
      o / 2 ^ 48 % 2 ^ 14 != 0 || 2 ≤ o / 2 ^ 62 || o % 64 != 0 || (o / 2 ^ 62 = 1 && Config.sp3Size ≤ o % 2 ^ 48) || !zeroFrom bs 24)
   else !zeroFrom bs 8)

/-- Whether a FRAME of the queue lacks its record (R366, R367). -/
def Queue.frameOpen (q : Queue) : Bool := q.run.resv.any fun r => r.isFrame && !r.wrote

/-- Whether the completion ring has a free slot (R368). -/
def Queue.slotFree (q : Queue) : Bool := mod17 (q.run.nresv + 2 ^ 17 - q.ring.crhead.toNat) < 2 ^ q.ring.crlog2.toNat

/-- Whether a queue by itself voids the promise of R436 now (R437): it is of class 0 and PARKED or in DRAIN, its ring or its completion ring does
not lie in HBM, or a SERIAL FRAME waits in it with packets queued behind it. -/
def State.voids (s : State) (q : Queue) : Bool :=
  let far (write : Bool) (a : Nat) : Bool := match s.translate q.root (!write) write a with | .inr lf => lf.tgt != 0 | .inl _ => true
  q.ring.state != 0 && q.pol.cls = 0 &&
  (q.ring.state != 1 || far false q.ring.rbase.toNat || far true q.ring.crbase.toNat ||
   (q.ring.head != q.ring.tail && q.ring.head + 1 != q.ring.tail &&
    match s.packet q with
    | .inl _ => false
    | .inr bs => bnat bs 0 1 = 1 && bnat bs 1 1 / 2 % 2 = 1))

/-- Whether the part voids the promise now (R437): by a class-0 queue, another rank program, a full self-test, or heat. -/
def State.voidNow (s : State) : Bool :=
  s.sched.rank.prog.take 12 != stockRank || s.fleet.test.level = 2 || 105 < lget s.fleet.sensors 0 0 || s.sched.queues.any s.voids

/-- Whether a visit to queue n yields a packet (R367, R368, R375). -/
def State.canFetch (s : State) (n : Nat) : Bool :=
  let q := s.queue n
  q.ring.state = 1 && 4 ≤ q.ring.rlog2.toNat && 4 ≤ q.ring.crlog2.toNat && (q.depth != 0 || q.ring.head != q.ring.tail) &&
  q.run.waitv.isNone && q.slotFree && s.sched.pifo.length < Config.pifoDepth &&
  match s.packet q with
  | .inl _ => true
  | .inr bs => !(bnat bs 0 1 = 1 && bnat bs 1 1 / 2 % 2 = 1 && !packetBad bs && q.frameOpen)

/-- The queue after the packet at its innermost level has been taken: finished levels close (R370). -/
def closeLevels : Nat → Queue → Queue
  | 0, q => q.advance
  | l + 1, q =>
    if (lget q.pol.iidx l 0).toNat = lget q.run.counts l 0 then
      closeLevels l { q with pol := { q.pol with iidx := lput q.pol.iidx l 0 0, istart := lput q.pol.istart l 0 0 }
                             run := { q.run with counts := lput q.run.counts l 0 0 } }
    else q

/-- The next packet has been taken (R370). -/
def Queue.taken (q : Queue) : Queue :=
  match q.depth with
  | 0 => closeLevels 0 q
  | l + 1 => closeLevels (l + 1) { q with pol := { q.pol with iidx := lmod q.pol.iidx l 0 (· + 1) } }

/-- A buffer opened by an INDIRECT at the innermost level (R370). -/
def Queue.openBuf (q : Queue) (buf count : Nat) : Queue :=
  let l := q.depth
  { q with pol := { q.pol with iidx := lput (if l = 0 then q.pol.iidx else lmod q.pol.iidx (l - 1) 0 (· + 1)) l 0 0
                               istart := lput q.pol.istart l (BitVec.ofNat 48 buf) 0 }
           run := { q.run with counts := lput q.run.counts l count 0 } }

/-- A completion slot reserved at a physical address (R368, R369). -/
def Queue.reserve (q : Queue) (tgt pa : Nat) (isFrame irq : Bool) : Queue :=
  { q with run := { q.run with resv := q.run.resv ++ [{ idx := q.run.nresv, tgt := tgt, pa := pa, wrote := false, isFrame := isFrame, irq := irq }]
                               nresv := mod17 (q.run.nresv + 1) } }

/-- Where the next completion slot lies, or its virtual address when that does not translate (R369). -/
def State.slotPlace (s : State) (q : Queue) : Nat ⊕ (Nat × Nat) :=
  let va := q.ring.crbase.toNat + 32 * (q.run.nresv % 2 ^ q.ring.crlog2.toNat)
  match s.translate q.root false true va with
  | .inl _ => .inl va
  | .inr lf => .inr (lf.tgt, lf.pa + (va - lf.va))

/-! ## Packets at their fetch (R366, R367, R370) -/

/-- A malformed packet (R366): its record, with its TYPE as the REASON. -/
def State.takeMalformed (s : State) (n : Nat) (bs : List Byte) (at_ : Nat × Nat) : State :=
  let idx := (s.queue n).run.nresv
  (s.modQueue n fun q => (q.reserve at_.1 at_.2 false false).taken).writeRecord n idx (plainRecord (bnat bs 4 4) 3 (bnat bs 0 1))

/-- The arguments of a FRAME, or the address that does not translate (R367, R369). -/
def State.frameArgs (s : State) (q : Queue) (bs : List Byte) : Nat ⊕ List Word :=
  let n := bnat bs 17 1
  match s.runsOf q.root true false (bnat bs 24 8) (8 * n) with
  | .inl a => .inl a
  | .inr rs =>
    let b := s.readRuns rs
    .inr ((List.range 16).map fun i => if i < n then word (bnat b (8 * i) 8) else 0)

/-- A well-formed FRAME (R367): copied with its arguments and handed to the rank engine. A SERIAL one with packets queued behind it voids the
promise (R437). -/
def State.takeFrame (s : State) (n : Nat) (bs : List Byte) (at_ : Nat × Nat) : State :=
  let q := s.queue n
  match s.frameArgs q bs with
  | .inl a => s.parkQueue n 0x0F q.depth a
  | .inr args =>
    let near : Bool := match s.translate q.root true false q.ring.rbase.toNat with | .inr lf => lf.tgt = 0 | .inl _ => false
    let behind : Bool := bnat bs 1 1 / 2 % 2 = 1 && q.ring.head + 1 != q.ring.tail
    let f : Frame := { queue := n, bytes := bs, args := args, slot := q.run.nresv, prog := s.sched.rank.prog
                       tailed := if near && !behind then q.run.tails.head?.map (·.2) else none }
    ((if behind then s.voidPromise else s).modQueue n fun q => (q.reserve at_.1 at_.2 true (bnat bs 1 1 % 2 = 1)).taken).modSched
      fun x => { x with rank := { x.rank with wait := x.rank.wait ++ [f] } }

/-- A well-formed INDIRECT (R370). -/
def State.takeIndirect (s : State) (n : Nat) (bs : List Byte) : State :=
  let q := s.queue n
  let buf := bnat bs 8 8
  if q.depth = 4 then s.parkQueue n 0x0D q.depth buf
  else if (List.range q.depth).any fun l => (lget q.pol.istart l 0).toNat = buf then s.parkQueue n 0x0E q.depth buf
  else s.modQueue n fun q => q.openBuf buf (bnat bs 16 4)

/-- A WAITV whose fields are in order (R82, R366): the object must translate to HBM or lie in SP3; fetching goes on when VERSION
reaches VER, and until then its home counts the wait in ARMED (R79). -/
def State.takeWaitv (s : State) (n : Nat) (bs : List Byte) (at_ : Nat × Nat) : State :=
  let q := s.queue n
  let o := bnat bs 8 8
  let wait (t pa : Nat) : State :=
    let v := word (bnat bs 16 8)
    (s.modQueue n fun q =>
      let q := q.taken
      if v.toNat ≤ s.gNat t pa 8 then q else { q with run := { q.run with waitv := some (t, pa, v) } }).serveSync t pa
  if o / 2 ^ 62 = 1 then wait 3 (o % 2 ^ 48)
  else match s.translate q.root true false o with
    | .inl _ => s.parkQueue n 0x0F q.depth o
    | .inr lf => if lf.tgt != 0 then s.takeMalformed n bs at_ else wait 0 (lf.pa + (o - lf.va))

/-- A well-formed MARK (R366): its record waits for those of the FRAMEs fetched earlier. -/
def State.takeMark (s : State) (n : Nat) (bs : List Byte) (at_ : Nat × Nat) : State :=
  let q := s.queue n
  let idx := q.run.nresv
  let open_ := (q.run.resv.filter fun r => r.isFrame && !r.wrote).map (·.idx)
  let s := s.modQueue n fun q => (q.reserve at_.1 at_.2 false false).taken
  if open_.isEmpty then s.writeRecord n idx (plainRecord (bnat bs 4 4) 4 0)
  else s.modQueue n fun q => { q with run := { q.run with marks := q.run.marks ++ [(idx, BitVec.ofNat 32 (bnat bs 4 4), open_)] } }

/-- The fetcher of queue n has fetched: its next fetch is 64 cycles later, from the next queue on (R368). -/
def State.fetched (s : State) (n : Nat) : State :=
  s.modSched fun x => { x with fetch := lput x.fetch (n / 32) (n / 32 * 32 + (n + 1) % 32, s.tide + 64) (0, 0) }

/-- One fetch from queue n (R366 to R371): the packet, its completion slot, its checks, and its effect. -/
def State.fetchQueue (s : State) (n : Nat) : State :=
  let q := s.queue n
  (match s.packet q with
    | .inl a => s.parkQueue n 0x0F q.depth a
    | .inr bs =>
      match s.slotPlace q with
      | .inl a => s.parkQueue n 0x0F q.depth a
      | .inr at_ =>
        if packetBad bs then s.takeMalformed n bs at_
        else match bnat bs 0 1 with
          | 0 => s.modQueue n Queue.taken
          | 1 => s.takeFrame n bs at_
          | 2 => s.takeIndirect n bs
          | 3 => s.takeWaitv n bs at_
          | _ => s.takeMark n bs at_).fetched n

/-- The TYPE of the next packet of queue n; one that cannot be read or whose TYPE is reserved counts as a FRAME. -/
def State.packetType (s : State) (n : Nat) : Nat :=
  match s.packet (s.queue n) with
  | .inl _ => 1
  | .inr bs => if 5 ≤ bnat bs 0 1 then 1 else bnat bs 0 1

/-- A visit to the queue of the step whose next packet has TYPE `typ`. -/
def fetchRun (typ : Nat) (s : State) : Res :=
  let n := s.cur.arg
  if s.canFetch n && s.packetType n = typ then ok (s.fetchQueue n) else ok s

/-- NOP_PACKET (R366). -/
def execNopPacket (s : State) : Res := fetchRun 0 s
/-- FRAME (R367). -/
def execFrame (s : State) : Res := fetchRun 1 s
/-- INDIRECT (R370). -/
def execIndirect (s : State) : Res := fetchRun 2 s
/-- WAITV (R366). -/
def execWaitv (s : State) : Res := fetchRun 3 s
/-- MARK (R366). -/
def execMark (s : State) : Res := fetchRun 4 s

/-- Whether the WAITV in force of queue n is satisfied (R82, R366). -/
def State.waitvOver (s : State) (n : Nat) : Bool :=
  match (s.queue n).run.waitv with
  | some (t, a, v) => v.toNat ≤ s.gNat t a 8
  | none => false

/-- WAITV_SATISFIED (R366): the queue of the step fetches again. -/
def execWaitvSatisfied (s : State) : Res :=
  if s.waitvOver s.cur.arg then ok (s.endWaitv s.cur.arg) else ok s

/-- The queue that fetcher f fetches from next, when it may fetch now (R368). -/
def State.fetchTurn (s : State) (f : Nat) : Option Nat :=
  let (start, t) := lget s.sched.fetch f (32 * f, 0)
  if s.tide < t then none else ((List.range 32).map fun i => 32 * f + (start + i) % 32).find? s.canFetch

end Sys2Proof.Machine
end

