-- ==== Sys2Proof/Machine/Rank.lean ====
section
/-!
DEFINITION. The rank engine and the PIFO (R372 to R376).
-/

namespace Sys2Proof.Machine

/-- The rank engine changed. -/
def State.modRank (s : State) (f : RankEngine → RankEngine) : State := s.modSched fun x => { x with rank := f x.rank }

/-- Register q of the rank engine. -/
def State.rq (s : State) (r : BitVec 3) : BitVec 32 := lget s.sched.rank.q r.toNat 0

/-- A rank instruction has executed, in one cycle (R373). -/
def RankEngine.step (r : RankEngine) (tide : Nat) : RankEngine := { r with slot := r.slot + 1, next := tide + 1 }

/-- A rank instruction that writes v to qd (R372). -/
def rankSet (qd : BitVec 3) (v : BitVec 32) (s : State) : Res :=
  ok (s.modRank fun r => { r with q := lput r.q qd.toNat v 0 }.step s.tide)

/-- RANK_END (R372): the rank is qa, and QSTATE of the packet's queue takes what an STQ has kept. -/
def execRankEnd (qa : BitVec 3) (s : State) : Res :=
  let v := s.rq qa
  let re := s.sched.rank
  let s := match re.cur, re.stq with
    | some f, some w => s.modQueue f.queue fun q => { q with pol := { q.pol with qstate := w } }
    | _, _ => s
  ok (s.modRank fun r => { r with result := some v }.step s.tide)

/-- RANK_LDI (R372). -/
def execRankLdi (qd : BitVec 3) (imm : BitVec 19) (s : State) : Res := rankSet qd (imm.setWidth 32) s

/-- The word that an LDF reads (R372): of the packet, of the queue's context, or a special. -/
def State.ldfWord (s : State) (src wd : Nat) : BitVec 32 :=
  match s.sched.rank.cur with
  | none => 0
  | some f =>
    if src = 0 then BitVec.ofNat 32 (bnat f.bytes (4 * wd) 4)
    else if src = 1 then ((s.queue f.queue).word (wd / 2)).extractLsb' (32 * (wd % 2)) 32
    else lget [s.sched.vnow.setWidth 32, (s.queue f.queue).pol.qstate, BitVec.ofNat 32 f.queue, BitVec.ofNat 32 (s.tide / 2 ^ 10)] wd 0

/-- RANK_LDF (R372). -/
def execRankLdf (qd src : BitVec 3) (wd : BitVec 6) (pos len : BitVec 5) (s : State) : Res :=
  rankSet qd (BitVec.ofNat 32 ((s.ldfWord src.toNat wd.toNat).toNat / 2 ^ pos.toNat % 2 ^ (len.toNat + 1))) s

/-- RANK_ADD (R372). -/
def execRankAdd (qd qa qb : BitVec 3) (s : State) : Res := rankSet qd (s.rq qa + s.rq qb) s
/-- RANK_SUB (R372). -/
def execRankSub (qd qa qb : BitVec 3) (s : State) : Res := rankSet qd (s.rq qa - s.rq qb) s
/-- RANK_MULSH (R372). -/
def execRankMulsh (qd qa qb : BitVec 3) (sh : BitVec 5) (s : State) : Res :=
  rankSet qd (BitVec.ofNat 32 (Nat.min ((s.rq qa).toNat * (s.rq qb).toNat / 2 ^ sh.toNat) 0xFFFFFFFF)) s
/-- RANK_SHL (R372). -/
def execRankShl (qd qa : BitVec 3) (sh : BitVec 5) (s : State) : Res := rankSet qd (s.rq qa <<< sh.toNat) s
/-- RANK_SHR (R372). -/
def execRankShr (qd qa : BitVec 3) (sh : BitVec 5) (s : State) : Res := rankSet qd (s.rq qa >>> sh.toNat) s
/-- RANK_MIN (R372). -/
def execRankMin (qd qa qb : BitVec 3) (s : State) : Res := rankSet qd (if (s.rq qb).toNat < (s.rq qa).toNat then s.rq qb else s.rq qa) s

/-- The later of two 30-bit serial numbers (R372). -/
def serialMax (a b : BitVec 30) : BitVec 30 := if (a - b).toNat < 2 ^ 29 then a else b

/-- RANK_SMAX (R372). -/
def execRankSmax (qd qa qb : BitVec 3) (s : State) : Res :=
  rankSet qd ((serialMax ((s.rq qa).setWidth 30) ((s.rq qb).setWidth 30)).setWidth 32) s
/-- RANK_AND (R372). -/
def execRankAnd (qd qa qb : BitVec 3) (s : State) : Res := rankSet qd (s.rq qa &&& s.rq qb) s
/-- RANK_OR (R372). -/
def execRankOr (qd qa qb : BitVec 3) (s : State) : Res := rankSet qd (s.rq qa ||| s.rq qb) s
/-- RANK_STQ (R372): QSTATE takes qa when the program stops. -/
def execRankStq (qa : BitVec 3) (s : State) : Res :=
  let v := s.rq qa
  ok (s.modRank fun r => { r with stq := some v }.step s.tide)
/-- RANK_SLTU (R372). -/
def execRankSltu (qd qa qb : BitVec 3) (s : State) : Res := rankSet qd (if (s.rq qa).toNat < (s.rq qb).toNat then 1 else 0) s

/-! ## The PIFO (R374 to R376) -/

/-- Whether rank x precedes rank y (R376). -/
def precedes (x y : BitVec 32) : Bool :=
  (x.extractLsb' 30 2).toNat < (y.extractLsb' 30 2).toNat ||
  (x.extractLsb' 30 2 = y.extractLsb' 30 2 && 2 ^ 29 ≤ (x.setWidth 30 - y.setWidth 30).toNat)

/-- An entry placed before the first that it precedes (R376). -/
def pifoInsert (e : PifoEntry) : List PifoEntry → List PifoEntry
  | [] => [e]
  | x :: r => if precedes e.rank x.rank then e :: x :: r else x :: pifoInsert e r

/-- The rank with which a FRAME of queue q is inserted: not before the one inserted last (R374). -/
def Queue.orderRank (q : Queue) (r : BitVec 32) : BitVec 32 :=
  match q.run.last with
  | some l => if precedes r l then l else r
  | none => r

/-- RANK (R374): the FRAME whose program has stopped enters the PIFO. -/
def execRank (s : State) : Res :=
  let re := s.sched.rank
  match re.cur, re.result with
  | some f, some r =>
    if Config.pifoDepth ≤ s.sched.pifo.length then ok s
    else
      let rank := (s.queue f.queue).orderRank r
      let s := s.modQueue f.queue fun q => { q with run := { q.run with last := some rank } }
      ok (s.modSched fun x =>
        { x with pifo := pifoInsert { rank := rank, frame := f, arr := x.rank.arrivals } x.pifo
                 rank := { x.rank with cur := none, result := none, stq := none, arrivals := x.rank.arrivals + 1 } })
  | _, _ => ok s

/-- Whether a pop may take an entry: the class bit of CLASSEN (R376), of a class whose weight is not 0, which disables it (R384). -/
def Sched.mayPop (x : Sched) (e : PifoEntry) : Bool :=
  let c := (e.rank.extractLsb' 30 2).toNat
  x.classen.getLsbD c && lget x.classw c 0 != 0

/-- The entry that a pop returns (R376). -/
def Sched.popHead (x : Sched) : Option PifoEntry := x.pifo.find? x.mayPop

/-- The engine takes the next FRAME, under the program that ran when it reached the engine (R372, R373). -/
def RankEngine.begin_ (r : RankEngine) : RankEngine :=
  match r.wait with
  | [] => r
  | f :: l => { r with wait := l, cur := some f, curProg := f.prog, q := List.replicate 8 0, slot := 0, stq := none, result := none }

/-- RANKCTL_LOAD (R373): the staged program is taken when each slot holds an instruction and one of them is an END. -/
def execRankctlLoad (s : State) : Res :=
  let is := s.sched.rank.staged.map decodeRank
  if is.all (·.isSome) && is.any fun i => match i with | some (.rankEnd _) => true | _ => false
  then ok (s.modRank fun r => { r with prog := r.staged })
  else ok (s.modRank fun r => { r with lderr := true })

end Sys2Proof.Machine
end

