-- ==== Sys2Proof/Machine/Berth.lean ====
section
/-!
DEFINITION. The group table, bind records and dispatch (R23, R162, R377 to R379, R384 to R386): launch, restore, refusal, and the
triggers of word 8.
-/

namespace Sys2Proof.Machine

/-! ## Bind records as registers (R378) -/

/-- Word k of a bind record as every party reads it. -/
def Bind.word (b : Bind) (k : Nat) : Word :=
  match k with
  | 0 => Machine.word (at_ 62 b.state.toNat + at_ 61 (bit b.restore) + at_ 48 b.group.toNat + at_ 40 b.stream.toNat + at_ 32 b.members.toNat +
      b.seq.toNat)
  | 1 => Machine.word b.imgpa.toNat
  | 2 => Machine.word (at_ 12 b.xroot.toNat)
  | 3 => Machine.word (at_ 12 b.savepa.toNat)
  | 4 => Machine.word (at_ 5 b.cplpa.toNat + bit b.cphase)
  | 5 => Machine.word b.runlim.toNat
  | 6 => Machine.word (at_ 32 b.token.toNat + b.frameno.toNat)
  | 9 => b.t0
  | 10 => Machine.word (at_ 32 b.savecyc.toNat + at_ 16 b.reason.toNat + at_ 8 b.cflags.toNat + b.end_.toNat)
  | 11 => Machine.word b.restcyc.toNat
  | _ => if 16 ≤ k && k < 32 then lget b.args (k - 16) 0 else 0

/-- The fields of word k set from v, but for STATE. -/
def Bind.setWord (b : Bind) (k : Nat) (v : Word) : Bind :=
  match k with
  | 0 => { b with restore := v.getLsbD 61, group := v.extractLsb' 48 8, stream := v.extractLsb' 40 8, members := v.extractLsb' 32 5,
                  seq := v.setWidth 32 }
  | 1 => { b with imgpa := v.setWidth 52 }
  | 2 => { b with xroot := v.extractLsb' 12 40 }
  | 3 => { b with savepa := v.extractLsb' 12 40 }
  | 4 => { b with cplpa := v.extractLsb' 5 47, cphase := v.getLsbD 0 }
  | 5 => { b with runlim := v.setWidth 48 }
  | 6 => { b with token := v.extractLsb' 32 32, frameno := v.setWidth 32 }
  | _ => if 16 ≤ k && k < 32 then { b with args := lput b.args (k - 16) v 0 } else b

/-! ## Slices (R384, R385) -/

/-- Whether SLICE of class c is below 2 × SAVECOST (R385). -/
def Sched.shortSlice (x : Sched) (c : Nat) : Bool := (lget x.slice c 0).toNat < 2 * x.savecost.toNat

/-- SLICECLAMP is set for every class whose slice is too short (R385). -/
def Sched.noteClamp (x : Sched) : Sched :=
  { x with clamp := (List.range 4).foldl (fun m c => if x.shortSlice c then m ||| BitVec.ofNat 4 (2 ^ c) else m) x.clamp }

/-! ## The group table (R377) -/

/-- Whether a record is ARMED or RUNNING. -/
def Bind.live (b : Bind) : Bool := b.state = 1 || b.state = 2

/-- Whether an ARMED or RUNNING record names group g. -/
def State.groupInUse (s : State) (g : Nat) : Bool := s.sched.berths.any fun b => b.live && b.group.toNat = g

/-- Whether a write of (valid, cores) to entry g would place a core in a fifth valid entry (R377). -/
def State.fifthGroup (s : State) (g : Nat) (valid : Bool) (cores : BitVec 24) : Bool :=
  valid && (coresOf cores).any fun k => 4 ≤ ((List.range 256).filter fun i => i != g && (s.group i).1 && (s.group i).2.getLsbD k).length

/-- A write of entry g (R377). -/
def State.writeGroup (s : State) (g : Nat) (v : Word) : State :=
  let valid := v.getLsbD 63
  let cores : BitVec 24 := v.setWidth 24
  if s.groupInUse g || s.fifthGroup g valid cores then s.modSched fun x => { x with gterr := true }
  else s.modSched fun x => { x with groups := lput x.groups g (valid, cores) (false, 0) }

/-- GROUP_TABLE_WRITE (R362, R377): the Pilot firmware's; any other party's is ignored. -/
def execGroupTableWrite (who : Party) (g : Nat) (v : Word) (s : State) : Res :=
  if who = .pilot && g < 256 then ok (s.writeGroup g v) else ok s

/-! ## The checks of dispatch (R379) -/

/-- The cores of a bind record: those of its running gang, else those of its group. -/
def State.bindCores (s : State) (berth : Nat) : List Nat :=
  match s.gang berth with
  | some g => g.members
  | none => coresOf (s.group (s.bind berth).group.toNat).2

/-- The cores of ARMED and RUNNING records other than that of `berth` (R379, R380). -/
def State.busyCores (s : State) (berth : Nat) : List Nat :=
  ((List.range 32).filter fun b => b != berth && (s.bind b).live).flatMap s.bindCores

/-- Whether dispatch takes a save area: its KIND is not 0 and its REV is the part's (R379). -/
def State.saveUsable (s : State) (pa : Nat) : Bool := s.gNat 0 pa 4 != 0 && s.gNat 0 (pa + 5) 1 = Config.siliconRev

/-- The save of an area that this part can restore for an image: one whose DIGEST is the image's and whose contexts it has written (R161,
R387). -/
def State.saveFor (s : State) (pa : Nat) (im : Memory) : Option Saved :=
  if s.gRead 0 (pa + 16) 32 == imgDigest im then s.saveAt pa else none

/-- The reason with which dispatch refuses the record of a berth; 0 when it does not (R379). -/
def State.armReason (s : State) (berth : Nat) : Nat :=
  let b := s.bind berth
  let g := s.group b.group.toNat
  let cores := coresOf g.2
  if !g.1 || cores.length != b.members.toNat then 11
  else if cores.any fun k => s.sched.failed.getLsbD k then 12
  else if cores.any fun k => (s.busyCores berth).contains k then 13
  else if b.restore && !s.saveUsable (b.savepa.toNat * 4096) then 14
  else 0

/-- A record refused by dispatch: STATUS 2 with the reason (R379, R381). -/
def State.refuseBind (s : State) (berth reason : Nat) : State :=
  let b := s.bind berth
  let r : Record := { token := b.token.toNat, frameno := b.frameno.toNat, seq := b.seq.toNat, status := 2, reason := reason, flags := 0,
                      gcycles := 0, phases := 0, nsave := 0, group := b.group.toNat }
  ((s.writeBindRecord b r).freeSlotOf b).endBind berth reason 0 3

/-- The ARMED records with their images: what dispatch is about to run counts as running in the Pilot firmware's checks (R360, R380). -/
def State.armedImages (s : State) : List (Memory × List Nat) :=
  ((List.range 32).filter fun b => (s.bind b).state == 1).map fun b => (s.imageOf b, s.bindCores b)

/-! ## Launch (R23, R357, R361) -/

/-- A member's place at launch. -/
def launchRun (s : State) (berth m k origin : Nat) (im : Memory) : Run :=
  let b := s.bind berth
  { Run.idle with berth := some berth, member := m, hop := hops origin k, usesp2 := imgUsesp2 im, seqNo := b.seq, stream := b.stream,
                  group := b.group }

/-- The INIT bytes of every member for SP2 and SP3, in member order (R357). -/
def State.initShared (s : State) (members : List Nat) (ls : List Load) : State :=
  (members.zip ls).foldl (fun s (k, l) => l.inits.foldl (fun s r =>
    let p : Piece := { addr := r.2.1, bytes := r.2.2, poison := false }
    if r.1 = 1 then { s with mem := { s.mem with sp2 := lmod s.mem.sp2 (cluster k) [] fun x => mwriteP x p } }
    else if r.1 = 2 then s.putSp3 [p] [p]
    else s) s) s

/-- The start cycle T0: after the load, whose length is free, and within 4,096 tide cycles of its end (R23; log 6). -/
def State.startCycle (s : State) : Nat := s.tide + Config.freeNat s.free + 1 + Config.freeNat (s.free + 1) % 4096

/-- The record of a gang that starts at tide cycle t0. -/
def State.newGang (s : State) (berth t0 : Nat) (members : List Nat) (im : Memory) : Gang :=
  { berth := berth, members := members, origin := members.headD 0, t0 := t0, started := false, hold := none, y := none, asked := false, nsave := 0,
    yielded := false, forced := false, clamped := s.sched.shortSlice (s.classOf (s.bind berth)), saveReq := false, saveAt := 0,
    startedAt := t0, sp3lo := imgSp3Lo im, sp3len := imgSp3Len im, digest := imgDigest im }

/-- Dispatch launches the record of a berth (R23). -/
def State.launch (s : State) (berth : Nat) : State :=
  let b := s.bind berth
  let im := s.imageOf berth
  let members := coresOf (s.group b.group.toNat).2
  let origin := members.headD 0
  let ls := (imgLoads im b.args).getD ((List.range members.length).map (imgLoad im))
  let t0 := s.startCycle
  let s : State := { s with free := s.free + 2 }
  let s := if imgUsesp2 im then s.clearSp2 (members.map cluster) else s
  let s := s.initShared members ls
  let cap := s.fleet.capsule
  let s := ((members.zip ls).zipIdx).foldl (fun s ((k, l), m) => s.modCore k fun old => launchCore im cap l m old (launchRun s berth m k origin im)) s
  let s := { s with gangs := s.gangs ++ [s.newGang berth t0 members im] }
  (s.modBind berth fun b => { b with state := 2, t0 := word t0 }).modSched Sched.noteClamp

/-! ## Restore (R133, R162, R387) -/

/-- Armed waits of a saved gang recorded again, to be checked and armed in one step (R82, R162). -/
def State.restoreOps (s : State) (sv : Saved) (new : List Nat) : State :=
  sv.ops.foldl (fun s (o : GOp) =>
    { s with gops := s.gops ++ [{ o with core := lget new o.core 0, done := false, armed := false, data := [], deps := [],
                                         due := s.tide + Config.freeNat s.free }]
             free := s.free + 1 }) s

/-- Dispatch restores a saved gang on the cores of a record's group (R162): members resume at the gang cycles at which they were
saved, a forced save by a release wave from the origin; a rollback asked for before the save is made now (R142, R163). -/
def State.restoreGang (s : State) (berth : Nat) (sv : Saved) : State :=
  let b := s.bind berth
  let im := s.imageOf berth
  let new := coresOf (s.group b.group.toNat).2
  let origin := new.headD 0
  let t0 := s.startCycle
  let cyc := BitVec.ofNat 32 (t0 - s.tide)
  let s : State := { s with free := s.free + 2 }
  let first := sv.mems.foldl (fun m x => Nat.min m x.core.run.g) ((sv.mems.map fun x => x.core.run.g).headD 0)
  let s := s.restoreShared im sv new
  let s := (new.zipIdx).foldl (fun s (k, i) =>
    let g := match sv.mems[i]? with | some x => x.core.run.g | none => 0
    s.restoreMember im sv new i k (launchRun s berth i k origin im) (t0 + (g - first))) s
  let s := s.restoreSlots sv new
  let s := s.restoreOps sv new
  let short := s.sched.shortSlice (s.classOf b)
  let gg : Gang := { sv.gang with berth := berth, members := new, origin := origin, t0 := t0, started := false, startedAt := t0, holdAsked := false, yieldAsked := false,
                                  clamped := sv.gang.clamped || short }
  let s := { s with gangs := s.gangs ++ [gg] }
  let old := match s.pilot.fw.savedFrames.find? fun x => x.1 = sv.savepa with | some x => x.2.savecyc.toNat | none => 0
  let s := { s with pilot := { s.pilot with fw := { s.pilot.fw with costs := ((old + cyc.toNat) :: s.pilot.fw.costs).take 64
                                                                    savedFrames := s.pilot.fw.savedFrames.filter fun x => x.1 != sv.savepa } } }
  let s := (s.modBind berth fun b => { b with state := 2, t0 := word t0, restcyc := cyc }).modSched Sched.noteClamp
  match sv.rb with
  | some count => s.retryGang gg (64 + maxOf (new.map fun k => (s.core k).run.g)) count
  | none => s

/-- ARMED (R379): dispatch acts on the record of the berth of the step. DESIGN CHOICE: a restore from an area that holds no save which this
part can restore for the image starts the gang from its start (R387; log 10). -/
def execArmed (s : State) : Res :=
  let berth := s.cur.arg
  let b := s.bind berth
  if b.state != 1 then ok s
  else
    let r := s.armReason berth
    if r != 0 then ok (s.refuseBind berth r)
    else if b.restore then
      match s.saveFor (b.savepa.toNat * 4096) (s.imageOf berth) with
      | some sv => ok (s.restoreGang berth sv)
      | none => ok (s.launch berth)
    else ok (s.launch berth)

/-! ## Word 8 (R29, R158, R378) -/

/-- A trigger acts on the gang of a record that is RUNNING; otherwise it is ignored (R379). -/
def triggerOn (act : State → Gang → State) (s : State) : State :=
  if (s.bind s.cur.arg).state != 2 then s
  else match s.gang s.cur.arg with
    | some g => act s g
    | none => s

/-- ABORT (R378): reason 5. -/
def State.trigAbort (s : State) : State := triggerOn (fun s g => s.abortGang g.berth 5) s

/-- The gang has a Pilot hold in force. -/
def HoldRec.pilotHeld (h : HoldRec) : Bool := h.srcs.any fun x => x.cause = 3 && x.ended.isNone

/-- HOLD (R29, R378): the origin becomes a source, at its present stop when it is stopped already; while a release wave is on its
way to it the hold waits for the wave (log 61). -/
def State.trigHold (s : State) : State :=
  triggerOn (fun s g =>
    let wait (b : Bool) : State := s.modGang g.berth fun gg => { gg with holdAsked := b }
    let s := wait false
    match (s.core g.origin).run.stop, g.hold with
    | none, _ => s.startHold g.origin 3 none
    | some st, some h =>
      if h.pilotHeld then s
      else match st.until_ with
        | some _ => wait true
        | none =>
          let r := (s.core g.origin).run
          let src : HoldSrc := { core := g.origin, stopN := s.tide - r.held, stopA := s.actual g.origin - r.held, cause := 3, ended := none }
          s.modGang g.berth fun gg => { gg with hold := some { h with srcs := h.srcs ++ [src] } }
    | some st, none =>
      match st.until_ with
      | some _ => wait true
      | none => s.startHold g.origin 3 none) s

/-- RELEASE (R29, R378): the Pilot hold ends, and one that still waits is dropped. -/
def State.trigRelease (s : State) : State :=
  triggerOn (fun s g => s.modGang g.berth fun gg =>
    { gg with holdAsked := false
              hold := gg.hold.map fun h => { h with srcs := h.srcs.map fun x =>
                if x.cause = 3 ∧ x.ended = none then { x with ended := some (s.actual x.core) } else x } }) s

/-- Whether the effective slice of a gang is over (R164, R385). -/
def State.sliceOver (s : State) (g : Gang) : Bool := g.startedAt + s.sched.slice_ (s.classOf (s.bind g.berth)) ≤ s.tide

/-- YIELDREQ (R158, R378): the request becomes visible on every member at one gang cycle; how soon is free (log 6). Before the end of the gang's
effective slice it is kept for that end (R385; log 68). -/
def State.trigYieldreq (s : State) : State :=
  triggerOn (fun s g =>
    if g.y.isSome then s
    else if !s.sliceOver g then s.modGang g.berth fun gg => { gg with yieldAsked := true }
    else ({ s with free := s.free + 1 } : State).modGang g.berth fun gg =>
      { gg with yieldAsked := false, y := some ((s.core g.origin).run.g + Config.freeNat s.free) }) s

/-- ABORT (R378). -/
def execAbort (s : State) : Res := ok s.trigAbort
/-- HOLD (R378). -/
def execHold (s : State) : Res := ok s.trigHold
/-- BIND_RELEASE (R378). -/
def execBindRelease (s : State) : Res := ok s.trigRelease
/-- BIND_YIELDREQ (R378). -/
def execBindYieldreq (s : State) : Res := ok s.trigYieldreq

/-- A write of word 8 of a bind record: its triggers, from the lowest bit up. -/
def State.writeTriggers (s : State) (v : Word) : State :=
  let s := if v.getLsbD 0 then s.trigYieldreq else s
  let s := if v.getLsbD 1 then s.trigHold else s
  let s := if v.getLsbD 2 then s.trigRelease else s
  if v.getLsbD 3 then s.trigAbort else s

/-- A write of word k of the record of a berth by the Pilot firmware (R378, R379). -/
def State.writeBind (s : State) (berth k : Nat) (v : Word) : State :=
  let b := s.bind berth
  let st := v.extractLsb' 62 2
  if k = 8 then { (({ s with cur := { s.cur with arg := berth } } : State).writeTriggers v) with cur := s.cur }
  else if b.state = 0 then
    s.modBind berth fun b => let b := b.setWord k v; if k = 0 && st = 1 then { b with state := 1 } else b
  else if k = 0 && b.state = 3 && st = 0 then s.modBind berth fun b => { b with state := 0 }
  else s

end Sys2Proof.Machine
end

