-- ==== Sys2Proof/Machine/Place.lean ====
section
/-!
DEFINITION. The Pilot firmware's decisions on a popped FRAME (R360, R367, R380, R387): its image, the reasons for a refusal, and where the
gang may run.
-/

namespace Sys2Proof.Machine

/-- The bytes of physical runs as a memory from address 0. -/
def State.runsMemory (s : State) (rs : List (Nat × Nat × Nat)) : Memory :=
  (rs.foldl (fun (m : Memory × Nat) r => (mblit m.1 m.2 r.2.2 (mwindow (if r.1 = 0 then s.mem.hbm else s.mem.pcie) r.2.1 r.2.2), m.2 + r.2.2)) ([], 0)).1

/-- Where the image of a FRAME lies; none: reason 17 (R360). -/
def State.imageRuns (s : State) (root : Nat) (f : Frame) : Option (List (Nat × Nat × Nat)) :=
  let va := bnat f.bytes 8 8
  match s.runsOf root true false va 64 with
  | .inl _ => none
  | .inr rs =>
    let n := Nat.max 64 (mnat (s.runsMemory rs) 12 4)
    match s.runsOf root true false va n with
    | .inl _ => none
    | .inr rs => some rs

/-- The working cores of a list. -/
def State.working (s : State) (cs : List Nat) : Bool := cs.all fun k => !s.sched.failed.getLsbD k

/-- The sets of cores of the image's shape (R22). -/
def shapeSets (im : Memory) : List (List Nat) := (List.range 24).filterMap (imgCores im)

/-- Whether group g is VALID, of the image's member count, and congruent to it (R380). -/
def State.groupFits (s : State) (im : Memory) (g : Nat) : Bool :=
  (s.group g).1 && (shapeSets im).contains (coresOf (s.group g).2)

/-- Reason 8: the SP3 range leaves SP3 or meets that of a running gang, or of one that dispatch is about to run (R360). -/
def State.sp3Bad (s : State) (im : Memory) : Bool :=
  let lo := imgSp3Lo im
  let n := imgSp3Len im
  let others := (s.gangs.map fun g => (g.sp3lo, g.sp3len)) ++ s.armedImages.map fun x => (imgSp3Lo x.1, imgSp3Len x.1)
  n != 0 && (Config.sp3Size < lo + n || others.any fun (a, l) => l != 0 && lo < a + l && a < lo + n)

/-- Reason 10: a cluster of the cores is in use by a gang with USESP2, or by one that dispatch is about to run (R360). -/
def State.sp2Busy (s : State) (im : Memory) (cs : List Nat) : Bool :=
  let mine := cs.map cluster
  imgUsesp2 im && ((s.gangs.any fun g => g.members.any fun k => (s.core k).run.usesp2 && mine.contains (cluster k)) ||
    s.armedImages.any fun x => imgUsesp2 x.1 && x.2.any fun k => mine.contains (cluster k))

/-- The number of save slots of a queue (R363, R387). -/
def QPolicy.saveSlots (p : QPolicy) : Nat := if 23 ≤ p.sslog2.toNat && p.sslog2.toNat ≤ 40 then p.sslots.toNat + 1 else 0

/-- A save slot that no gang of the queue holds (R387). -/
def Queue.freeSave (q : Queue) : Option Nat := (List.range q.pol.saveSlots).find? fun k => !(q.run.slots.any fun x => x.1 = k)

/-- Reason 16: the save area does not fit, or no save slot is free (R360, R387). -/
def Queue.noSave (q : Queue) (im : Memory) : Bool := 2 ^ q.pol.sslog2.toNat < saveAreaSize im || q.freeSave.isNone

/-- What the Pilot firmware does with a FRAME: refuses it with a reason, waits, or places it in an existing group or on cores for
which it writes an entry. -/
inductive Decision where
  | refuse (reason : Nat)
  | wait
  | place (g : Nat) (cores : List Nat)
  | write (cores : List Nat)
  deriving DecidableEq, Repr

/-- An element of a list that the part is free to choose (log 6, log 11). -/
def pick {α : Type} (s : State) (l : List α) : Option α := l[Config.freeNat s.free % l.length]?

/-- The group that a set of cores already has. -/
def State.groupOf (s : State) (cs : List Nat) : Option Nat := (List.range 256).find? fun g => (s.group g).1 && coresOf (s.group g).2 = cs

/-- A group whose entry is free for a new set of cores (R377, R380). -/
def State.freeGroup (s : State) (cs : List Nat) : Option Nat :=
  let v : BitVec 24 := cs.foldl (fun m k => m ||| BitVec.ofNat 24 (2 ^ k)) 0
  (List.range 256).find? fun g => !(s.group g).1 && !(s.sched.berths.any fun b => b.state != 0 && b.group.toNat = g) && !s.fifthGroup g true v

/-- Whether no ARMED or RUNNING record names a core of a set, and no self-test runs on one (R380, R430). -/
def State.coresFree (s : State) (cs : List Nat) : Bool :=
  let busy := s.busyCores 32
  cs.all fun k => !busy.contains k && !s.fleet.test.on.contains k

/-- The group that a FRAME names, and whether it lets the firmware choose another (R367). -/
def Frame.named (f : Frame) : Nat := bnat f.bytes 16 1
def Frame.anyg (f : Frame) : Bool := bnat f.bytes 1 1 / 4 % 2 = 1

/-- Whether the named group is VALID, congruent and free (R380). -/
def State.namedReady (s : State) (im : Memory) (f : Frame) : Bool := s.groupFits im f.named && s.coresFree (coresOf (s.group f.named).2)

/-- Whether a FRAME may run on some cores: a congruent group of cores exists and, with ANYG, one of working cores or the named group, free
(reason 4 of R360; R380). -/
def State.congruent (s : State) (im : Memory) (f : Frame) : Bool :=
  !(shapeSets im).isEmpty && (!f.anyg || s.namedReady im f || (shapeSets im).any s.working)

/-- The choice among the groups that a FRAME may use, when the image itself is in order (R380). -/
def State.choose (s : State) (im : Memory) (f : Frame) : Decision :=
  if s.namedReady im f then .place f.named (coresOf (s.group f.named).2)
  else if !f.anyg then if s.groupFits im f.named then .wait else .refuse 11
  else match pick s (((shapeSets im).filter s.working).filter fun cs =>
      s.coresFree cs && ((s.groupOf cs).isSome || (s.freeGroup cs).isSome)) with
    | none => .wait
    | some cs => match s.groupOf cs with | some g => .place g cs | none => .write cs

/-- The cores of a choice. -/
def Decision.cores : Decision → List Nat
  | .place _ cs => cs
  | .write cs => cs
  | _ => []

/-- The decision on a FRAME under the tables at `root` (R360, R379, R380): reason 17, then 1 to 9, then 10 for the group chosen, 16, and
11. -/
def State.decide_ (s : State) (root : Nat) (f : Frame) : Decision :=
  match s.imageRuns root f with
  | none => .refuse 17
  | some rs =>
    let im := s.runsMemory rs
    let r := imgReason im f.args (s.congruent im f) (s.sp3Bad im)
    let d := s.choose im f
    if r != 0 then .refuse r
    else if s.sp2Busy im d.cores then .refuse 10
    else if (s.queue f.queue).noSave im then .refuse 16
    else d

/-- A FRAME refused by the Pilot firmware (R360, R381). -/
def State.refuseFrame (s : State) (f : Frame) (reason : Nat) : State :=
  s.writeRecord f.queue f.slot { plainRecord (bnat f.bytes 4 4) 2 reason with frameno := bnat f.bytes 20 4 }

/-- A FREE bind record. -/
def State.freeBerth (s : State) : Option Nat := (List.range 32).find? fun b => (s.bind b).state = 0

/-- Whether the class-0 reads in flight leave room at every HBM stack and at the PCIe link (R349, R380; log 11). -/
def State.class0Room (s : State) : Bool :=
  (List.range 5).all fun h =>
    ((s.gops.filter fun o => o.reading && o.cls = 0).map fun o => bytesAt h o.kind.runs).sum ≤ (if h < 4 then 262144 else 65536)

/-- Whether the Pilot firmware can deal with a FRAME at once, so that it may pop it: none that it has popped waits for its cores, and it can
refuse the FRAME or place it (R349, R380). -/
def State.canPlace (s : State) (root : Nat) (f : Frame) : Bool :=
  s.pilot.fw.popped.isEmpty &&
  match s.decide_ root f with
  | .refuse _ => true
  | .wait => false
  | _ => s.freeBerth.isSome && s.class0Room

end Sys2Proof.Machine
end

