-- ==== Sys2Proof/Machine/Pilot.lean ====
section
/-!
DEFINITION. The Xquay instructions of the Pilot cores (R393 to R398).
-/

namespace Sys2Proof.Machine

/-- Pilot core k. -/
def State.pcore (s : State) (k : Nat) : PilotCore := lget s.pilot.cores k PilotCore.reset

/-- Pilot core k changed. -/
def State.modPcore (s : State) (k : Nat) (f : PilotCore → PilotCore) : State :=
  { s with pilot := { s.pilot with cores := lmod s.pilot.cores k PilotCore.reset f } }

/-- Register r of a Pilot core; x0 reads 0 (log 12). -/
def PilotCore.reg (c : PilotCore) (r : BitVec 5) : Word := if r = 0 then 0 else lget c.x r.toNat 0

/-- Register r written; x0 ignores writes (log 12). -/
def PilotCore.setReg (c : PilotCore) (r : BitVec 5) (v : Word) : PilotCore := if r = 0 then c else { c with x := lput c.x r.toNat v 0 }

/-- A trap of a Pilot core into machine mode (R394; log 12): `base` or, for an interrupt with vectored entry, the cause's own slot. -/
def PilotCore.trap (c : PilotCore) (cause tval : Word) : PilotCore :=
  let base := c.mtvec / 4 * 4
  let st := c.mstatus
  let mpie := (st / 8 % 2) * 128
  let keep := st &&& ~~~(0x1888 : Word)
  { c with mcause := cause, mtval := tval, mepc := c.pc, mode := 3, mstatus := keep ||| mpie ||| (c.mode.setWidth 64 <<< 11), wait := none
           pc := if cause.getLsbD 63 && c.mtvec.getLsbD 0 then base + 4 * (cause &&& 0x7FFFFFFFFFFFFFFF) else base }

/-- An Xquay fault: precise, mcause 24, the code in mtval (R394). -/
def State.xquayFault (s : State) (code : Nat) : Res := ok (s.modPcore s.cur.arg fun c => c.trap 24 (word code))

/-- An Xquay instruction that writes rd and goes on (R394). -/
def State.xquayNext (s : State) (rd : BitVec 5) (v : Word) : State :=
  s.modPcore s.cur.arg fun c => { (c.setReg rd v) with pc := c.pc + 4, next := s.tide + 1, mcycle := c.mcycle + 1, minstret := c.minstret + 1 }

/-- A source register of the Pilot core of the step. -/
def State.px (s : State) (r : BitVec 5) : Word := (s.pcore s.cur.arg).reg r

/-! ## QBFX (R395) -/

/-- The field that QBFX extracts: x, POS, LEN; `sg` for QBFX.S. -/
def bfxValue (x : Word) (pos len : Nat) (sg : Bool) : Word :=
  let f := x.toNat / 2 ^ pos % 2 ^ len
  if len = 0 then 0 else if sg && f / 2 ^ (len - 1) % 2 = 1 then word (f + 2 ^ 64 - 2 ^ len) else word f

/-- QBFX and QBFX.S (R395). -/
def bfxRun (sg : Bool) (rd rs1 rs2 : BitVec 5) (s : State) : Res :=
  let v := s.px rs2
  let len := v.toNat / 256 % 128
  if 64 < len then s.xquayFault 0x20
  else if v &&& ~~~(0x7F3F : Word) != 0 then s.xquayFault 0x21
  else ok (s.xquayNext rd (bfxValue (s.px rs1) (v.toNat % 64) len sg))

/-- QBFX (R395). -/
def execQbfx (rd rs1 rs2 : BitVec 5) (s : State) : Res := bfxRun false rd rs1 rs2 s
/-- QBFX.S (R395). -/
def execQbfxS (rd rs1 rs2 : BitVec 5) (s : State) : Res := bfxRun true rd rs1 rs2 s

/-! ## QFETCH (R396) -/

/-- Whether 256 bytes from an address lie in the Pilot SRAM. -/
def inSram (a : Nat) : Bool := Config.sramBase ≤ a && a + 256 ≤ Config.sramBase + Config.sramSize

/-- 256 bytes written to the Pilot SRAM, zero-filled. -/
def State.putSram (s : State) (a : Nat) (bs : List Byte) : State :=
  { s with pilot := { s.pilot with sram := mwriteL s.pilot.sram a ((bs ++ List.replicate 256 0).take 256) } }

/-- The 256 bytes of a PIFO entry (R396). -/
def PifoEntry.bytes (e : PifoEntry) : List Byte :=
  (e.frame.bytes ++ List.replicate 64 0).take 64 ++ (List.range 16).flatMap (fun i => leBytes 8 (lget e.frame.args i 0).toNat) ++
  leBytes 4 e.rank.toNat ++ leBytes 4 (e.frame.queue % 256) ++ leBytes 4 e.arr.toNat

/-- Microseconds in tide cycles at the compute clock in force (R9, R434). -/
def State.micros (s : State) (n : Nat) : Nat := n * s.fleet.clock

/-- The Pilot firmware takes a popped entry (R374, R380): it refuses the FRAME at once when it must, or keeps it until it places it,
at a free cycle within 50 µs (log 11). -/
def State.takePopped (s : State) (e : PifoEntry) : State :=
  let root := (s.queue e.frame.queue).ring.qxroot
  let fw := s.pilot.fw
  match s.decide_ (root.toNat * 4096) e.frame with
  | .refuse r => ({ s with pilot := { s.pilot with fw := { fw with vnow := some (e.rank.setWidth 30) } } } : State).refuseFrame e.frame r
  | _ =>
    let p : Popped := { frame := e.frame, rank := e.rank, xroot := root, due := s.tide + Config.freeNat s.free % (s.micros 50 + 1) }
    { s with pilot := { s.pilot with fw := { fw with popped := fw.popped ++ [p], vnow := some (e.rank.setWidth 30) } }, free := s.free + 1 }

/-- A mailbox. -/
def State.mbox (s : State) (m : Nat) : Mailbox :=
  lget s.pilot.mbox m { req := [], resp := [], door := false, busy := false, done := false, clash := false, owner := false, vec := 0 }

/-- A mailbox changed. -/
def State.modMbox (s : State) (m : Nat) (f : Mailbox → Mailbox) : State :=
  { s with pilot := { s.pilot with mbox := lput s.pilot.mbox m (f (s.mbox m)) (s.mbox 16) } }

/-- The head of source n of QFETCH: the entry's bytes, rd without bit 63, and the state without the entry (R396). -/
def State.fetchHead (s : State) (n : Nat) : Option (List Byte × Nat × State) :=
  if n = 0 then
    match s.sched.popHead with
    | none => none
    | some e => some (e.bytes, at_ 32 (e.frame.queue % 256) + e.rank.toNat,
        (s.modSched fun x => { x with pifo := x.pifo.erase e }).takePopped e)
  else if n ≤ 16 then
    if (s.mbox (n - 1)).door then
      some (((s.mbox (n - 1)).req ++ List.replicate 64 0).take 64, n - 1, s.modMbox (n - 1) fun m => { m with door := false, busy := true })
    else none
  else
    match s.pilot.posts with
    | [] => none
    | p :: r => some (p.2, p.1, { s with pilot := ({ s.pilot with posts := r, out := s.pilot.out ++ [p] } : Pilot).admitPost })

/-- QFETCH (R396). -/
def execQfetch (rd rs1 rs2 : BitVec 5) (s : State) : Res :=
  let n := (s.px rs1).toNat
  let a := (s.px rs2).toNat
  if 17 < n then s.xquayFault 0x10
  else if a % 256 != 0 || !inSram a then s.xquayFault 0x11
  else match s.fetchHead n with
    | none => ok (s.xquayNext rd 0)
    | some (bs, v, s') => ok ((s'.putSram a bs).xquayNext rd (word (2 ^ 63 + v)))

/-! ## QWAIT (R397) -/

/-- The signals of a Pilot core: edges as they stand, levels by their conditions. -/
def State.sigpend (s : State) (k : Nat) : Word :=
  let edges := (s.pcore k).sigpend &&& (0xFF1DFFFE : Word)
  edges ||| word (bit s.sched.popHead.isSome) ||| word (at_ 17 (bit (!s.pilot.posts.isEmpty)))

/-- QWAIT ends on core k with the value v, whose edges are cleared. -/
def State.endQwait (s : State) (k : Nat) (rd : BitVec 5) (v : Word) : State :=
  s.modPcore k fun c =>
    { (c.setReg rd v) with
      sigpend := c.sigpend &&& ~~~v, pc := c.pc + 4, wait := none, next := s.tide + 1, mcycle := c.mcycle + 1, minstret := c.minstret + 1 }

/-- QWAIT (R397): the check and the arming are one step; a timeout counts Pilot cycles of 1.2 GHz. -/
def execQwait (rd rs1 rs2 : BitVec 5) (s : State) : Res :=
  let k := s.cur.arg
  let mask := s.px rs1
  let t := (s.px rs2).toNat
  if mask = 0 && t = 0 then s.xquayFault 0x30
  else if s.sigpend k &&& mask != 0 then ok (s.endQwait k rd (s.sigpend k &&& mask))
  else ok (s.modPcore k fun c =>
    { c with wait := some { rd := rd.toNat, mask := mask, limit := if t = 0 then 0 else s.tide + (t * s.fleet.clock + 1199) / 1200 } })

/-- Whether the wait of Pilot core k is over. -/
def State.qwaitOver (s : State) (k : Nat) : Bool :=
  match (s.pcore k).wait with
  | some w => s.sigpend k &&& w.mask != 0 || (w.limit != 0 && w.limit ≤ s.tide)
  | none => false

/-- QWAIT_COMPLETE (R397): on the Pilot core of the step. -/
def execQwaitComplete (s : State) : Res :=
  let k := s.cur.arg
  match (s.pcore k).wait with
  | some w => if s.qwaitOver k then ok (s.endQwait k (BitVec.ofNat 5 w.rd) (s.sigpend k &&& w.mask)) else ok s
  | none => ok s

/-- PILOT_INTERRUPT (R397): an interrupt traps with mepc at the instruction, here a waiting QWAIT, and clears no signal. -/
def execPilotInterrupt (k : Nat) (cause : Word) (s : State) : Res := ok (s.modPcore k fun c => c.trap cause 0)

/-! ## QDISP (R398) -/

/-- Word k of a staged record. -/
def State.staged (s : State) (a k : Nat) : Word := word (mnat s.pilot.sram (a + 8 * k) 8)

/-- The staged record at an address in the Pilot SRAM, as a bind record not yet ARMED. -/
def State.stagedBind (s : State) (a : Nat) : Bind := (List.range 32).foldl (fun b k => b.setWord k (s.staged a k)) Bind.zero

/-- Whether a staged record fails the checks of code 0x43 (R394): STATE, words 8 to 11, RES0 fields. -/
def State.stagedBad (s : State) (a : Nat) : Bool :=
  let b := { s.stagedBind a with state := 1 }
  (List.range 32).any fun k => s.staged a k != b.word k

/-- QDISP (R398). -/
def execQdisp (rd rs1 rs2 : BitVec 5) (s : State) : Res :=
  let b := (s.px rs1).toNat
  let a := (s.px rs2).toNat
  if 31 < b then s.xquayFault 0x41
  else if (s.bind b).state != 0 then s.xquayFault 0x40
  else if a % 64 != 0 || !inSram a then s.xquayFault 0x42
  else if s.stagedBad a then s.xquayFault 0x43
  else ok ((s.modBind b fun _ => { s.stagedBind a with state := 1 }).xquayNext rd 0)

end Sys2Proof.Machine
end

