-- ==== Sys2Proof/Machine/Regs.lean ====
section
/-!
DEFINITION. The device register space (R11, R12, R389 to R391): scheduler block, mailboxes, windows, core control blocks, Pilot
control block, decoders, Ethernet, PTP clock, MSI-X table, RAS log and capability list; apertures (R64).
-/

namespace Sys2Proof.Machine

/-- The state that a step ends in; the state before it when it does not go on. -/
def resState (s : State) : Res → State
  | .next t => t
  | _ => s

/-! ## Apertures (R64) -/

/-- The bits of aperture word k that hold fields (R64). -/
def aperMask (k : Nat) : Word := lget [0xFE00FFFFFFFFFFFF, 0xFFFFFFFF00000000, 0x0000FFFFFFFFFFFF, 0x0000FFFFFFFFFFFF] k 0

/-- Whether a write of word k is ignored as a whole: KIND 3 or BFMT 3 (R64). -/
def aperBad (k : Nat) (v : Word) : Bool := k = 0 && (v.extractLsb' 61 2 = 3 || v.extractLsb' 57 2 = 3)

/-- Word k of aperture n written by the Pilot firmware (R64). -/
def State.writeAper (s : State) (n k : Nat) (v : Word) : State :=
  if aperBad k v then s else { s with apers := lmod s.apers n [] fun ws => lput ws k (v &&& aperMask k) 0 }

/-- APER (R64). -/
def execAper (n : BitVec 4) (k : BitVec 2) (v : Word) (s : State) : Res := ok (s.writeAper n.toNat k.toNat v)

/-! ## The scheduler registers (R362, R384) -/

/-- The cores of ARMED and RUNNING records as a set (R380). -/
def State.busySet (s : State) : BitVec 24 := (s.busyCores 32).foldl (fun m k => m ||| BitVec.ofNat 24 (2 ^ k)) 0

/-- A scheduler register by its offset (R384). -/
def State.readSched (s : State) (o : Nat) : Word :=
  let x := s.sched
  if o < 0x20 then (lget x.slice (o / 8) 0).setWidth 64
  else if o < 0x40 then (lget x.runlim ((o - 0x20) / 8) 0).setWidth 64
  else if o = 0x40 then word (lget x.classw 0 0).toNat ||| word (at_ 8 (lget x.classw 1 0).toNat) ||| word (at_ 16 (lget x.classw 2 0).toNat) |||
    word (at_ 24 (lget x.classw 3 0).toNat)
  else if o = 0x48 then x.savecost.setWidth 64
  else if o = 0x50 then word (at_ 8 (bit x.gterr) + x.noteClamp.clamp.toNat)
  else if o = 0x58 then x.vnow.setWidth 64
  else if o = 0x60 then word (at_ 31 (bit (Config.pifoDepth ≤ x.pifo.length)) + at_ 16 x.pifo.length + x.classen.toNat)
  else if o = 0x68 then word (at_ 1 (bit x.rank.lderr))
  else if 0x80 ≤ o && o < 0xC0 then (lget x.rank.staged ((o - 0x80) / 4) 0).setWidth 64
  else if o = 0xC0 then word (at_ 32 s.busySet.toNat + x.failed.toNat)
  else 0

/-- A write of a scheduler register by the Pilot firmware (R384). DESIGN CHOICE: a 64-bit access of RANKPROG touches the one slot at its offset
(log 106). -/
def State.writeSched (s : State) (o : Nat) (v : Word) : State :=
  let put (f : Sched → Sched) : State := s.modSched fun x => (f x.noteClamp).noteClamp
  if o < 0x20 then put fun x => { x with slice := lput x.slice (o / 8) (v.setWidth 32) 0 }
  else if o < 0x40 then put fun x => { x with runlim := lput x.runlim ((o - 0x20) / 8) (v.setWidth 48) 0 }
  else if o = 0x40 then put fun x => { x with classw := [v.setWidth 8, v.extractLsb' 8 8, v.extractLsb' 16 8, v.extractLsb' 24 8] }
  else if o = 0x48 then put fun x => { x with savecost := v.setWidth 32 }
  else if o = 0x50 then put fun x => { x with gterr := x.gterr && !v.getLsbD 8, clamp := x.clamp &&& ~~~(v.setWidth 4) }
  else if o = 0x58 then put fun x => { x with vnow := v.setWidth 30 }
  else if o = 0x60 then put fun x => { x with classen := v.setWidth 4 }
  else if o = 0x68 then
    let s := if v.getLsbD 1 then s.modRank fun r => { r with lderr := false } else s
    if v.getLsbD 0 then resState s (execRankctlLoad s) else s
  else if 0x80 ≤ o && o < 0xC0 then s.modRank fun r => { r with staged := lput r.staged ((o - 0x80) / 4) (v.setWidth 32) 0 }
  else if o = 0xC0 then put fun x => { x with failed := v.setWidth 24 }
  else s

/-- A read in the scheduler block (R362). -/
def State.readSchedBlock (s : State) (o : Nat) : Word :=
  if o < 0x100 then s.readSched o
  else if o < 0x900 then let g := s.group ((o - 0x100) / 8); word (at_ 63 (bit g.1) + g.2.toNat)
  else if 0x1000 ≤ o && o < 0x3000 then (s.bind ((o - 0x1000) / 256)).word (o % 256 / 8)
  else if 0x4000 ≤ o && o < 0xC000 then (s.queue ((o - 0x4000) / 128)).word (o % 128 / 8)
  else 0

/-- A write in the scheduler block (R362). -/
def State.writeSchedBlock (s : State) (who : Party) (o : Nat) (v : Word) : State :=
  if 0x4000 ≤ o && o < 0xC000 then s.writeQueue who ((o - 0x4000) / 128) (o % 128 / 8) v
  else if who != .pilot then s
  else if o < 0x100 then s.writeSched o v
  else if o < 0x900 then s.writeGroup ((o - 0x100) / 8) v
  else if 0x1000 ≤ o && o < 0x3000 then s.writeBind ((o - 0x1000) / 256) (o % 256 / 8) v
  else s

/-! ## Mailboxes (R400) -/

/-- The party that owns a mailbox. -/
def Mailbox.party (m : Mailbox) : Party := if m.owner then .external else .host

/-- A mailbox by its offset (R400); DONE's alias at 0x88 is W1S and reads the current value (R11). -/
def Mailbox.read (m : Mailbox) (o : Nat) : Word :=
  if o < 0x40 then word (bnat (m.req ++ List.replicate 64 0) o 8)
  else if o < 0x80 then word (bnat (m.resp ++ List.replicate 64 0) (o - 0x40) 8)
  else if o = 0x80 then word (at_ 63 (bit m.door) + at_ 62 (bit m.busy) + at_ 61 (bit m.done) + at_ 60 (bit m.owner) + m.vec.toNat)
  else if o = 0x88 then word (at_ 61 (bit m.done))
  else 0

/-- Bytes [o, o + 8) of a 64-byte block replaced. -/
def put8 (bs : List Byte) (o : Nat) (v : Word) : List Byte := patchBytes ((bs ++ List.replicate 64 0).take 64) o (leBytes 8 v.toNat)

/-- The doorbell of mailbox m rings (R397, R400). -/
def State.ring (s : State) (m : Nat) : State :=
  if (s.mbox m).door then s else (s.modMbox m fun x => { x with door := true }).signal (m + 1)

/-- DOORBELL (R400): by the party of the step; only the owner's rings, and none in recovery (R425). -/
def execDoorbell (s : State) : Res :=
  if s.cur.arg < 16 && !s.fleet.recovery && s.cur.who = (s.mbox s.cur.arg).party then ok (s.ring s.cur.arg) else ok s

/-- A request word written by the owner; one that finds DOORBELL or BUSY set leaves a request of undefined content (R400; log 3). -/
def State.writeRequest (s : State) (m o : Nat) (v : Word) : State :=
  let x := s.mbox m
  if x.door || x.busy then
    ({ s with free := s.free + 1 } : State).modMbox m fun x => { x with req := (Config.freeBytes s.free ++ List.replicate 64 0).take 64, clash := true }
  else s.modMbox m fun x => { x with req := put8 x.req o v, clash := false }

/-- The Pilot firmware completes mailbox m: DONE is set and its interrupt raised (R383, R400). -/
def State.mboxDone (s : State) (m : Nat) : State :=
  let x := s.mbox m
  (s.modMbox m fun x => { x with busy := false, done := true }).irq x.owner x.vec.toNat

/-- A write to a mailbox by a party (R400). -/
def State.writeMbox (s : State) (who : Party) (m o : Nat) (v : Word) : State :=
  let mine := who = (s.mbox m).party
  if o < 0x40 then if mine then s.writeRequest m o v else s
  else if o < 0x80 then if who = .pilot then s.modMbox m fun x => { x with resp := put8 x.resp (o - 0x40) v } else s
  else if o = 0x80 then
    if !mine && who != .pilot then s
    else
      let s := s.modMbox m fun x => { x with done := x.done && !v.getLsbD 61, vec := v.setWidth 10, owner := if who = .pilot then v.getLsbD 60 else x.owner }
      if v.getLsbD 63 then s.ring m else s
  else if o = 0x88 && who = .pilot && v.getLsbD 61 then s.mboxDone m
  else s

/-! ## Windows, core control, Pilot control (R391, R397, R399, R405, R407, R408) -/

/-- A grant window's words (R405). -/
def Grant.word (g : Grant) (k : Nat) : Word :=
  if k = 0 then Machine.word (at_ 63 (bit g.valid) + at_ 62 (bit g.w) + at_ 12 g.base.toNat) else Machine.word (at_ 12 g.limit.toNat)

/-- Word k of a grant window set (R405). -/
def Grant.set (g : Grant) (k : Nat) (v : Word) : Grant :=
  if k = 0 then { g with valid := v.getLsbD 63, w := v.getLsbD 62, base := v.extractLsb' 12 36 } else { g with limit := v.extractLsb' 12 36 }

/-- An inbound window's words (R408). -/
def PeerWin.word (p : PeerWin) (k : Nat) : Word :=
  if k = 0 then Machine.word (at_ 63 (bit p.valid) + at_ 62 (bit p.rd) + at_ 61 (bit p.w) + at_ 60 (bit p.anyrid) + at_ 59 (bit p.space) + p.rid.toNat)
  else Machine.word (at_ 32 p.base.toNat + p.count.toNat)

/-- Word k of an inbound window set (R408). -/
def PeerWin.set (p : PeerWin) (k : Nat) (v : Word) : PeerWin :=
  if k = 0 then { p with valid := v.getLsbD 63, rd := v.getLsbD 62, w := v.getLsbD 61, anyrid := v.getLsbD 60, space := v.getLsbD 59, rid := v.setWidth 16 }
  else { p with base := v.extractLsb' 32 32, count := v.setWidth 32 }

/-- A window that is not there. -/
def Grant.zero : Grant := { valid := false, w := false, base := 0, limit := 0 }
def PeerWin.zero : PeerWin := { valid := false, rd := false, w := false, anyrid := false, space := false, rid := 0, base := 0, count := 0 }

/-- Word k of a grant window written. -/
def State.writeGrant (s : State) (n k : Nat) (v : Word) : State :=
  { s with io := { s.io with grants := lmod s.io.grants n Grant.zero fun g => g.set k v } }

/-- Word k of an inbound window written. -/
def State.writePeer (s : State) (n k : Nat) (v : Word) : State :=
  { s with io := { s.io with peers := lmod s.io.peers n PeerWin.zero fun p => p.set k v } }

/-- The window block (R391). -/
def State.readWindow (s : State) (o : Nat) : Word :=
  if o = 0 then s.io.obbase
  else if 0x100 ≤ o && o < 0x180 then (lget s.io.grants ((o - 0x100) / 16) Grant.zero).word (o / 8 % 2)
  else if 0x200 ≤ o && o < 0x280 then (lget s.io.peers ((o - 0x200) / 16) PeerWin.zero).word (o / 8 % 2)
  else 0

/-- A write in the window block by the Pilot firmware (R391). -/
def State.writeWindow (s : State) (o : Nat) (v : Word) : State :=
  if o = 0 then { s with io := { s.io with obbase := v } }
  else if 0x100 ≤ o && o < 0x180 then s.writeGrant ((o - 0x100) / 16) (o / 8 % 2) v
  else if 0x200 ≤ o && o < 0x280 then s.writePeer ((o - 0x200) / 16) (o / 8 % 2) v
  else s

/-- CSTAT of core k (R399). -/
def State.cstat (s : State) (k : Nat) : Word :=
  let r := (s.core k).run
  let st := if s.sched.failed.getLsbD k then 3 else if r.berth.isNone then 0 else if r.stop.isSome then 2 else 1
  word (at_ 16 (bit (s.core k).hnd.posted) + at_ 8 (r.berth.getD 0) + st)

/-- The outstanding fault post of core k (R399). -/
def State.postOf (s : State) (k : Nat) : List Byte :=
  match (s.pilot.posts ++ s.pilot.waiting ++ s.pilot.out).find? fun p => p.1 = k with
  | some p => p.2
  | none => []

/-- A core control block (R391, R399). -/
def State.readCore (s : State) (k o : Nat) : Word :=
  if o = 0 then s.cstat k else if 0x40 ≤ o && o < 0x80 then word (bnat (s.postOf k ++ List.replicate 64 0) (o - 0x40) 8) else 0

/-- FRESP of core k written with an action (R399). -/
def State.writeFresp (s : State) (k a : Nat) : State :=
  let t := { s with cur := { s.cur with core := k } }
  let r := match a with
    | 1 => resState t (execFrespResume t)
    | 2 => resState t (execFrespRollback t)
    | 3 => resState t (execFrespForcedSave t)
    | 4 => resState t (execFrespAbort t)
    | _ => t
  { r with cur := s.cur }

/-- SIGSET of Pilot core k (R397): software signals. -/
def State.writeSigset (s : State) (k : Nat) (v : Word) : State := s.modPcore k fun c => { c with sigpend := c.sigpend ||| (v &&& 0xFF000000) }

/-! ## Decoders (R413) -/

/-- A decoder engine that stands still. -/
def DecEng.zero : DecEng := { ringbase := 0, tail := 0, head := 0, run := false, err := false, blocked := false, due := 0 }

/-- A decoder context that holds nothing. -/
def DecCtx.zero : DecCtx := { bytes := [], out := 0, held := [], emit := 0 }

/-- A decoder engine, and that engine changed. -/
def State.dec (s : State) (e : Nat) : DecEng := lget s.io.dec e DecEng.zero
def State.modDec (s : State) (e : Nat) (f : DecEng → DecEng) : State := { s with io := { s.io with dec := lmod s.io.dec e DecEng.zero f } }

/-- A decoder context, and that context changed. -/
def State.dctx (s : State) (c : Nat) : DecCtx := lget s.io.ctx c DecCtx.zero
def State.modDctx (s : State) (c : Nat) (f : DecCtx → DecCtx) : State := { s with io := { s.io with ctx := lmod s.io.ctx c DecCtx.zero f } }

/-- The decoder block (R413). -/
def State.readDec (s : State) (o : Nat) : Word :=
  if o < 0x4000 then word (bnat ((s.dctx (o / 64)).bytes ++ List.replicate 64 0) (o % 64) 8)
  else if 0x8000 ≤ o && o < 0x8200 then
    let d := s.dec ((o - 0x8000) / 32)
    lget [d.ringbase, d.tail.setWidth 64, d.head.setWidth 64, word (at_ 1 (bit d.err) + bit d.run)] (o % 32 / 8) 0
  else 0

/-- RUN of a decoder engine set or cleared (R413); the engine then looks at its ring at a free later cycle. -/
def State.decRun (s : State) (e : Nat) (run : Bool) : State :=
  ({ s with free := s.free + 1 } : State).modDec e fun d => { d with run := run, due := s.tide + Config.freeNat s.free }

/-- A write in the decoder block (R413): RES0 bytes of a context stay 0 (R12), and RINGBASE keeps its 8 KiB alignment (log 14). -/
def State.writeDec (s : State) (o : Nat) (v : Word) : State :=
  if o < 0x4000 then
    if 40 ≤ o % 64 then s
    else s.modDctx (o / 64) fun c => { c with bytes := put8 c.bytes (o % 64) (if o % 64 = 24 then v &&& 0xFFFFFFFF else v) }
  else if 0x8000 ≤ o && o < 0x8200 then
    let e := (o - 0x8000) / 32
    match o % 32 / 8 with
    | 0 => s.modDec e fun d => if d.run then d else { d with ringbase := v / 8192 * 8192 }
    | 1 => s.modDec e fun d => { d with tail := v.setWidth 8 }
    | 3 => (s.decRun e (v.getLsbD 0)).modDec e fun d => { d with err := d.err && !v.getLsbD 1 }
    | _ => s
  else s

/-- DECODER_TAIL (R413); a part in recovery takes none (R425). -/
def execDecoderTail (e : Nat) (v : BitVec 8) (s : State) : Res := if e < 16 && !s.fleet.recovery then ok (s.modDec e fun d => { d with tail := v }) else ok s

/-- DECODER_RUN (R413); a part in recovery takes none (R425). -/
def execDecoderRun (e : Nat) (run : Bool) (s : State) : Res := if e < 16 && !s.fleet.recovery then ok (s.decRun e run) else ok s

/-! ## Ethernet, PTP, MSI-X (R390, R391, R411, R412) -/

/-- An Ethernet ring that is not set up, and a port without link. -/
def EthRing.zero : EthRing := { base := 0, size := 0, prod := 0, cons := 0 }
def EthPort.zero : EthPort := { up := false, rx := List.replicate 4 EthRing.zero, tx := List.replicate 4 EthRing.zero }

/-- Port p changed. -/
def State.modPort (s : State) (p : Nat) (f : EthPort → EthPort) : State := { s with io := { s.io with eth := lmod s.io.eth p EthPort.zero f } }

/-- Port p. -/
def State.port (s : State) (p : Nat) : EthPort := lget s.io.eth p EthPort.zero

/-- A ring's registers by word: BASE, SIZE, PROD, CONS (log 13). -/
def EthRing.word (r : EthRing) (k : Nat) : Word := Machine.word (lget [r.base, r.size, r.prod, r.cons] k 0)

/-- A ring's register written; CONS is the part's own (log 13). -/
def EthRing.set (r : EthRing) (k v : Nat) : EthRing :=
  match k with
  | 0 => { r with base := v }
  | 1 => { r with size := v }
  | 2 => { r with prod := v }
  | _ => r

/-- An Ethernet block: receive rings 0 to 3, transmit rings 4 to 7, 32 bytes each (log 13). -/
def EthPort.read (p : EthPort) (o : Nat) : Word :=
  if o < 0x80 then (lget p.rx (o / 32) EthRing.zero).word (o % 32 / 8) else if o < 0x100 then (lget p.tx (o / 32 - 4) EthRing.zero).word (o % 32 / 8) else 0

/-- A write in an Ethernet block (log 13). -/
def EthPort.write (p : EthPort) (o : Nat) (v : Word) : EthPort :=
  if o < 0x80 then { p with rx := lmod p.rx (o / 32) EthRing.zero fun r => r.set (o % 32 / 8) v.toNat }
  else if o < 0x100 then { p with tx := lmod p.tx (o / 32 - 4) EthRing.zero fun r => r.set (o % 32 / 8) v.toNat }
  else p

/-- XTSCAP (R412): TIDE and the clock on one cycle. -/
def State.capture (s : State) : State :=
  let p := s.io.ptp
  { s with io := { s.io with ptp := { p with xtstide := word s.tide, xtsptp := word (at_ 30 (p.sec.toNat % 2 ^ 32) + p.ns.toNat) } } }

/-- The PTP clock's registers (R391). -/
def Ptp.read (p : Ptp) (o : Nat) : Word :=
  lget [p.sec.setWidth 64, p.ns.setWidth 64, p.incr.setWidth 64, 0, p.xtstide, p.xtsptp] (o / 8) 0

/-- A write to the PTP clock (R391, R412). -/
def State.writePtp (s : State) (o : Nat) (v : Word) : State :=
  let p := s.io.ptp
  match o / 8 with
  | 0 => { s with io := { s.io with ptp := { p with sec := v.setWidth 48 } } }
  | 1 => { s with io := { s.io with ptp := { p with ns := v.setWidth 30 } } }
  | 2 => { s with io := { s.io with ptp := { p with incr := v.setWidth 40 } } }
  | 3 => if v.getLsbD 0 then s.capture else s
  | _ => s

/-- Whether a party drives the Ethernet ports: the host cores, which this part has (R411), or the Pilot firmware (R391). -/
def ethOwner (who : Party) : Bool := who = .host || who = .pilot

/-- XTSCAP (R412); none in recovery (R425). -/
def execXtscap (s : State) : Res := if ethOwner s.cur.who && !s.fleet.recovery then ok s.capture else ok s

/-- A write of word i of the MSI-X table; a pending vector that it unmasks is sent (R383; log 19). -/
def State.writeMsix (s : State) (i : Nat) (v : Word) : State :=
  let s := { s with io := { s.io with msix := (i, v) :: s.io.msix.filter fun x => x.1 != i } }
  let vec := i / 2
  if i % 2 = 1 && !v.getLsbD 32 && s.io.pendIrq.contains vec then
    ({ s with io := { s.io with pendIrq := s.io.pendIrq.filter (· != vec) } } : State).out (.irq true vec)
  else s

/-- Word i of the MSI-X pending-bit array. -/
def State.msixPending (s : State) (i : Nat) : Word := (s.io.pendIrq.filter fun v => v / 64 = i).foldl (fun w v => w ||| word (2 ^ (v % 64))) 0

/-! ## RAS log (R428) -/

/-- The 64 bytes of a RAS entry. -/
def RasEntry.bytes (e : RasEntry) : List Byte :=
  leBytes 8 e.seq ++ leBytes 8 e.tide ++ leBytes 1 e.cls ++ leBytes 1 e.sev ++ leBytes 1 e.core ++ leBytes 1 e.berth ++ leBytes 4 e.code ++
  leBytes 8 e.addr ++ (e.data ++ List.replicate 24 0).take 24 ++ leBytes 8 0

/-- The RAS log by its offset at a tide cycle (R428, R429): an entry that is being written has SEQ 0, and its body may be torn. -/
def Fleet.readRas (f : Fleet) (tide o : Nat) : Word :=
  if o = 0 then word f.head
  else if o = 8 then word f.lost
  else if o < 0x40 then 0
  else match f.ras.find? fun e => (e.seq - 1) % Config.rasSlots = (o - 0x40) / 64 with
    | some e => if e.ready ≤ tide then word (bnat e.bytes (o % 64) 8) else if o % 64 = 0 then 0 else Config.rasTorn tide o
    | none => 0

/-! ## The capability list (R424) -/

/-- The entries: ID and the words of the body, in a layout of the model's own (log 19); a part in recovery lists IDENT only. -/
def State.caps (s : State) : List (Nat × List Word) :=
  let f := s.fleet
  let ident : Nat × List Word := (1, [Config.partNumber, word (at_ 16 0x0100 + Config.siliconRev), Config.serial,
    word (at_ 33 (bit f.recovery) + at_ 32 (bit f.capFail) + f.slot), word f.svn])
  if f.recovery then [ident]
  else [ident, (2, [8, word s.io.hostBase, word s.io.hostLen]), (3, [2, 256]), (4, [128, 64]), (5, [word (at_ 32 128 + 32), 7]), (6, [0x1F]), (7, []),
        (8, [16, 0x7, Config.decLevels, 1958400]), (9, [8, 0x1C])]

/-- The words of the list: each entry its header and its body, NEXT 0 in the last (R424). -/
def capWords : Nat → List (Nat × List Word) → List Word
  | _, [] => []
  | o, (id, body) :: r =>
    let len := 8 * (body.length + 1)
    (word (at_ 48 (if r.isEmpty then 0 else o + len) + at_ 32 len + at_ 16 1 + id) :: body) ++ capWords (o + len) r

/-! ## The whole space (R390) -/

/-- A 64-bit read at an offset by a party (R390, R391). -/
def State.readReg (s : State) (who : Party) (off : Nat) : Word :=
  if off < 0x1000 then lget (capWords 0 s.caps) (off / 8) 0
  else if s.fleet.recovery then 0
  else if 0x10000 ≤ off && off < 0x20000 then s.readSchedBlock (off - 0x10000)
  else if 0x20000 ≤ off && off < 0x21000 then (s.mbox ((off - 0x20000) / 256)).read (off % 256)
  else if 0x30000 ≤ off && off < 0x31000 then s.readWindow (off - 0x30000)
  else if 0x40000 ≤ off && off < 0x41800 then s.readCore ((off - 0x40000) / 256) (off % 256)
  else if 0x50000 ≤ off && off < 0x50020 then if who = .pilot then s.sigpend ((off - 0x50000) / 8) else 0
  else if 0x50040 ≤ off && off < 0x50060 then if who = .pilot then s.sigpend ((off - 0x50040) / 8) &&& 0xFF000000 else 0
  else if 0x100000 ≤ off && off < 0x200000 then s.readDec (off - 0x100000)
  else if 0x200000 ≤ off && off < 0x280000 then (s.port 0).read (off - 0x200000)
  else if 0x280000 ≤ off && off < 0x300000 then (s.port 1).read (off - 0x280000)
  else if 0x300000 ≤ off && off < 0x300030 then s.io.ptp.read (off - 0x300000)
  else if 0x400000 ≤ off && off < 0x404000 then s.io.msixWord ((off - 0x400000) / 8)
  else if 0x404000 ≤ off && off < 0x404080 then s.msixPending ((off - 0x404000) / 8)
  else if 0x800000 ≤ off && off < 0x900000 then s.fleet.readRas s.tide (off - 0x800000)
  else 0

/-- The n bytes that a read at an offset by a party gets (R384, R391): a 32-bit register of RANKPROG by its own offset, every other register
by its 64 bits. -/
def State.readBytes (s : State) (who : Party) (off n : Nat) : List Byte :=
  let unit := if 0x10080 ≤ off && off < 0x100C0 && n ≤ 4 then 4 else 8
  ((leBytes 8 (s.readReg who (off / unit * unit)).toNat).drop (off % unit)).take n

/-- A write at an offset by a party: 64 bits, or 32 bits for RANKPROG; a misaligned one is ignored (R11, R12, R362, R390, R391). -/
def State.writeReg (s : State) (who : Party) (off : Nat) (v : Word) : State :=
  if s.fleet.recovery then s
  else if off % 8 != 0 && !(0x10080 ≤ off && off < 0x100C0 && off % 4 = 0) then s
  else if 0x10000 ≤ off && off < 0x20000 then s.writeSchedBlock who (off - 0x10000) v
  else if 0x20000 ≤ off && off < 0x21000 then s.writeMbox who ((off - 0x20000) / 256) (off % 256) v
  else if 0x30000 ≤ off && off < 0x31000 then if who = .pilot then s.writeWindow (off - 0x30000) v else s
  else if 0x40000 ≤ off && off < 0x41800 then if who = .pilot && off % 256 = 8 then s.writeFresp ((off - 0x40000) / 256) (v.toNat % 8) else s
  else if 0x50040 ≤ off && off < 0x50060 then if who = .pilot then s.writeSigset ((off - 0x50040) / 8) v else s
  else if 0x100000 ≤ off && off < 0x200000 then s.writeDec (off - 0x100000) v
  else if 0x200000 ≤ off && off < 0x280000 then if ethOwner who then s.modPort 0 fun p => p.write (off - 0x200000) v else s
  else if 0x280000 ≤ off && off < 0x300000 then if ethOwner who then s.modPort 1 fun p => p.write (off - 0x280000) v else s
  else if 0x300000 ≤ off && off < 0x300020 then if ethOwner who then s.writePtp (off - 0x300000) v else s
  else if 0x400000 ≤ off && off < 0x404000 then s.writeMsix ((off - 0x400000) / 8) v
  else s

/-- System register n of core k written by a party (R11, R392): the Pilot firmware sets the PRW fields too, apertures and LOCK among them; a
timetable does not; nobody else reaches it. -/
def State.writeCoreReg (s : State) (who : Party) (k n : Nat) (v : Word) : State :=
  let pilot : Bool := who = .pilot
  if 24 ≤ k || !(pilot || who = .timetable) then s
  else if 0x031 ≤ n && n < 0x035 then
    let sel := (s.core k).params.lsel.toNat
    if !pilot && ((lget (lget (lget s.builders (cluster k) { slots := [], calls := [], busy := none }).slots sel []) 3 0).getLsbD 62) then s
    else s.slotWrite (cluster k) sel (n - 0x031) v pilot
  else if 0x080 ≤ n && n < 0x0C0 then if pilot then s.writeAper ((n - 0x080) / 4) ((n - 0x080) % 4) v else s
  else s.modCore k fun c => if pilot then c.prwWrite n v else c.sysWrite n v

/-- The number by which REGISTER_WRITE names system register n of core k: above the device register space, where no access reaches (log 96). -/
def coreReg (k n : Nat) : Nat := 0x4000000 + 0x10000 * k + 8 * n

/-- REGISTER_WRITE (R11): a write by a party, at an offset of the device register space or of a core's system register. -/
def execRegisterWrite (who : Party) (off : Nat) (v : Word) (s : State) : Res :=
  if coreReg 0 0 ≤ off then ok (s.writeCoreReg who ((off - coreReg 0 0) / 0x10000) (off % 0x10000 / 8) v) else ok (s.writeReg who off v)

end Sys2Proof.Machine
end

