-- ==== Sys2Proof/Machine/Mailbox.lean ====
section
/-!
DEFINITION. The mailbox commands that the Pilot firmware serves (R400, R401), and the power cap and self-test that they start (R430,
R432, R434).
-/

namespace Sys2Proof.Machine

/-- Response to a request (R401): TAG, STATUS, RES0, data from byte 8. -/
def response (req : List Byte) (status : Nat) (data : List Byte) : List Byte :=
  ((req.drop 2).take 2 ++ leBytes 2 status ++ leBytes 4 0 ++ data ++ List.replicate 64 0).take 64

/-- The response of mailbox m written; DONE is still to be set. -/
def State.respond (s : State) (m status : Nat) (data : List Byte) : State :=
  let s := s.modMbox m fun x => { x with resp := response x.req status data }
  { s with pilot := { s.pilot with fw := { s.pilot.fw with serving := s.pilot.fw.serving ++ [m] } } }

/-- Whether mailbox m holds a request taken and not yet answered, nor at a self-test (R400, R430). -/
def State.serving (s : State) (m : Nat) : Bool :=
  (s.mbox m).busy && !s.pilot.fw.serving.contains m && s.fleet.test.mbox != some m

/-- The OPC of the request of mailbox m. -/
def State.opcOf (s : State) (m : Nat) : Nat := bnat (s.mbox m).req 0 2

/-- A command served in the mailbox of the step when its request carries the OPC: `act` takes the request and answers with the status,
the response data and the state; a request that was written over is answered with status 3 (R400, R401). -/
def mboxRun (opc : Nat) (act : List Byte → State → Nat × List Byte × State) (s : State) : Res :=
  let m := s.cur.arg
  if !s.serving m || s.opcOf m != opc then ok s
  else if (s.mbox m).clash then ok (s.respond m 3 [])
  else
    let (st, d, s') := act (s.mbox m).req s
    ok (s'.respond m st d)

/-- A command that answers OK or, where its arguments are out of range or the write is ignored, bad argument. -/
def mboxWrite (opc : Nat) (good : List Byte → State → Bool) (act : List Byte → State → State) (s : State) : Res :=
  mboxRun opc (fun req s => if good req s then (0, [], act req s) else (2, [], s)) s

/-- Word k of the arguments from byte 16. -/
def argWord (req : List Byte) (k : Nat) : Word := word (bnat req (16 + 8 * k) 8)

/-- GROUP_SET (R377, R401). -/
def execGroupSet (s : State) : Res :=
  mboxWrite 0x0001 (fun req s => bnat req 9 7 = 0 && !s.groupInUse (bnat req 8 1) &&
      !s.fifthGroup (bnat req 8 1) ((argWord req 0).getLsbD 63) ((argWord req 0).setWidth 24))
    (fun req s => s.writeGroup (bnat req 8 1) (argWord req 0)) s

/-- APER_SET (R64, R401). -/
def execAperSet (s : State) : Res :=
  mboxWrite 0x0002 (fun req _ => bnat req 8 1 < 16 && bnat req 9 7 = 0 && !aperBad 0 (argWord req 0))
    (fun req s => (List.range 4).foldl (fun s k => s.writeAper (bnat req 8 1) k (argWord req k)) s) s

/-- LAYER_SET (R115, R131, R401): the four words, with LOCK as the command gives it. -/
def execLayerSet (s : State) : Res :=
  mboxWrite 0x0003 (fun req _ => bnat req 8 1 < 6 && bnat req 9 1 < 64 && bnat req 10 1 < 2 && bnat req 11 5 = 0)
    (fun req s => (List.range 4).foldl (fun s k =>
      let v := argWord req k
      let lock : Word := if bnat req 10 1 = 1 then 0x4000000000000000 else 0
      s.slotWrite (bnat req 8 1) (bnat req 9 1) k (if k = 3 then (v &&& 0xBFFFFFFFFFFFFFFF) ||| lock else v) true) s) s

/-- BERTH_CTL (R378, R401): the Pilot firmware writes the trigger. -/
def execBerthCtl (s : State) : Res :=
  mboxWrite 0x0004 (fun req _ => bnat req 8 1 < 32 && bnat req 9 1 < 4)
    (fun req s => s.writeBind (bnat req 8 1) 8 (lget [2, 4, 8, 1] (bnat req 9 1) 0)) s

/-- GRANT_SET (R401, R405). -/
def execGrantSet (s : State) : Res :=
  mboxWrite 0x0005 (fun req _ => bnat req 8 1 < 8 && bnat req 9 7 = 0)
    (fun req s => (s.writeGrant (bnat req 8 1) 0 (argWord req 0)).writeGrant (bnat req 8 1) 1 (argWord req 1)) s

/-- PEERWIN_SET (R401, R408). -/
def execPeerwinSet (s : State) : Res :=
  mboxWrite 0x0006 (fun req _ => bnat req 8 1 < 8 && bnat req 9 7 = 0)
    (fun req s => (s.writePeer (bnat req 8 1) 0 (argWord req 0)).writePeer (bnat req 8 1) 1 (argWord req 1)) s

/-- POWER_CAP (R401, R434): from 75 to 200 watts; the part looks at its clock and power at once. -/
def execPowerCap (s : State) : Res :=
  mboxWrite 0x0007 (fun req _ => 75 ≤ bnat req 8 2 && bnat req 8 2 ≤ 200)
    (fun req s => { s with fleet := { s.fleet with cap := bnat req 8 2, fresh := Nat.max 1 s.fleet.fresh } }) s

/-- Whether a start request for a self-test is refused (R432): while one runs, while an update is transferred (an activation is one step), and
in recovery, when the part serves none (R425). -/
def State.testBusy (s : State) : Bool := s.fleet.test.level != 0 || s.fleet.update.isSome || s.fleet.recovery

/-- A self-test of a level starts, for mailbox m or a switch, on the cores that serve and on every decoder engine (R430, R431): the full
test stops the taking of FRAMEs. -/
def State.startTest (s : State) (level : Nat) (m : Option Nat) : State :=
  let cores := (List.range 24).filter fun k => !s.sched.failed.getLsbD k
  { s with fleet := { s.fleet with test := { level := level, mbox := m, lamp := 1, todo := cores, decs := List.range 16 } }
           pilot := if level = 2 then { s.pilot with fw := { s.pilot.fw with taking := false } } else s.pilot }

/-- SELF_TEST (R401, R430, R432): the response comes with the verdict. -/
def execSelfTest (s : State) : Res :=
  let m := s.cur.arg
  if !s.serving m || s.opcOf m != 0x0008 then ok s
  else
    let level := bnat (s.mbox m).req 8 1
    if (s.mbox m).clash || s.testBusy then ok (s.respond m 3 [])
    else if level = 0 || 2 < level then ok (s.respond m 2 [])
    else ok (s.startTest level (some m))

/-- RAS_READ (R401, R428, R429): the entry of an index, its first 56 bytes, which hold every field; it counts as read. Status 2 where there is
none that is wholly written. -/
def execRasRead (s : State) : Res :=
  mboxRun 0x0009 (fun req s =>
    let i := bnat req 8 4
    match s.fleet.ras.find? fun e => e.seq = i && e.ready ≤ s.tide with
    | some e => (0, e.bytes.take 56,
        { s with fleet := { s.fleet with ras := s.fleet.ras.map fun (x : RasEntry) => if x.seq = i then { x with read := true } else x } })
    | none => (2, [], s)) s

/-- DONE (R400): the Pilot firmware completes the mailbox of the step; a request that was written over is answered with status 3, one that no
command has served with status 1. -/
def execDone (s : State) : Res :=
  let m := s.cur.arg
  if !(s.mbox m).busy then ok s
  else
    let s := if s.pilot.fw.serving.contains m && !(s.mbox m).clash then s
             else s.modMbox m fun x => { x with resp := response x.req (if x.clash then 3 else 1) [] }
    let s := { s with pilot := { s.pilot with fw := { s.pilot.fw with serving := s.pilot.fw.serving.filter (· != m) } } }
    ok (s.mboxDone m)

end Sys2Proof.Machine
end

