-- ==== Sys2Proof/Machine/HostIo.lean ====
section
/-!
DEFINITION. Accesses from outside the cores: host cores (R84, R389, R403 to R405), inbound PCIe requests (R406, R408, R409), and the
Ethernet ports (R411, R412).
-/

namespace Sys2Proof.Machine

/-! ## Host cores -/

/-- What a physical address range belongs to, for a host core (R389). -/
inductive Place_ where
  | hbm (a : Nat)
  | sp3 (a : Nat)
  | reg (off : Nat)
  | pcie (bus : Nat)
  | none
  deriving DecidableEq, Repr

/-- The part of the physical map in which n bytes from an address lie (R389, R407). -/
def State.placeOf (s : State) (a n : Nat) : Place_ :=
  let inside (lo hi : Nat) : Bool := lo ≤ a && a + n ≤ hi
  if inside 0 Config.hbmSize then .hbm a
  else if inside 0x2000000000 (0x2000000000 + Config.sp3Size) then .sp3 (a - 0x2000000000)
  else if inside 0x2020000000 0x2024000000 then .reg (a - 0x2020000000)
  else if inside 0x4000000000 0x8000000000 then .pcie ((a - 0x4000000000 + s.io.obbase.toNat) % 2 ^ 64)
  else .none

/-- Whether a grant covers n bytes from an HBM address (R405). -/
def Grant.covers (g : Grant) (store : Bool) (a n : Nat) : Bool :=
  g.valid && (g.w || !store) && g.base.toNat * 4096 ≤ a && a + n ≤ (g.limit.toNat + 1) * 4096

/-- Whether a host core may access n bytes from an HBM address (R404, R405). -/
def State.hostMay (s : State) (store : Bool) (a n : Nat) : Bool :=
  (s.io.hostBase ≤ a && a + n ≤ s.io.hostBase + s.io.hostLen) || s.io.grants.any fun g => g.covers store a n

/-- The home of n bytes from a physical address that a host core may access: target and address (R389, R405); none in recovery, when the
part serves nothing of the kind (R425). -/
def State.hostHome (s : State) (store : Bool) (a n : Nat) : Option (Nat × Nat) :=
  if s.fleet.recovery then none
  else match s.placeOf a n with
  | .hbm a => if s.hostMay store a n then some (0, a) else none
  | .sp3 a => some (3, a)
  | .pcie b => some (1, b)
  | _ => none

/-- A host core takes an access fault, without effect (R389, R405). -/
def State.hostFault (s : State) (hart : Nat) (store : Bool) : State := s.out (.accessFault hart (if store then 7 else 5))

/-- A completion with the n bytes at a home. -/
def State.outData (s : State) (tgt a n : Nat) : State := s.out (.data (s.gRead tgt a n) (s.gPoison tgt a n))

/-- HOST_ACCESS (R389, R405): a load of `len` bytes or a store of `data`. -/
def execHostAccess (hart : Nat) (store : Bool) (addr len : Nat) (data : List Byte) (s : State) : Res :=
  let n := if store then data.length else len
  match s.placeOf addr n with
  | .reg off =>
    if store then if n = 8 || n = 4 && 0x10080 ≤ off && off < 0x100C0 then ok (s.writeReg .host off (word (leNat data))) else ok s
    else ok (s.out (.data (s.readBytes .host off n) false))
  | _ =>
    match s.hostHome store addr n with
    | none => ok (s.hostFault hart store)
    | some (t, a) =>
      if store then ok (s.writeHome [(t, { addr := a, bytes := data, poison := false })]) else ok (s.outData t a n)

/-- The operation code of R315 of an AMO of the RISC-V architecture. -/
def hartOp : HartAtomic → Nat
  | .add => 0
  | .min => 2
  | .max => 3
  | .minu => 4
  | .maxu => 5
  | .and => 6
  | .or => 7
  | .xor => 8
  | _ => 9

/-- A reservation of an owner on n bytes of a target, in place of the one it held (R403). -/
def State.reserve (s : State) (who tgt a n : Nat) : State :=
  { s with mem := { s.mem with resv := (who, tgt, a, n) :: s.mem.resv.filter fun r => r.1 != who } }

/-- Whether an owner holds a reservation on n bytes of a target, and the state in which it holds none (R403). -/
def State.reserved (s : State) (who tgt a n : Nat) : Bool := s.mem.resv.contains (who, tgt, a, n)
def State.unreserve (s : State) (who : Nat) : State := { s with mem := { s.mem with resv := s.mem.resv.filter fun r => r.1 != who } }

/-- HOST_AMO_RELEASE (R80, R403): an AMO of v on 4 or 8 bytes, or the store-conditional of an LR/SC pair, performed at the home after every
earlier memory operation of the hart, with or without rl; an AMO returns the old value, a store-conditional 0 when it has stored and else 1. A
misaligned one takes mcause 6 (log 12). -/
def execHostAmoRelease (hart : Nat) (p : HartPlace) (o : HartAmo) (s : State) : Res :=
  let addr := p.addr
  let size := p.size
  let op := o.op
  let v := o.value
  match s.hostHome true addr size with
  | none => ok (s.hostFault hart true)
  | some (t, a) =>
    let put (s : State) (x : Nat) : State := s.writeHome [(t, { addr := a, bytes := leBytes size x, poison := false })]
    if addr % size != 0 then ok (s.out (.accessFault hart 6))
    else if op = .sc then
      if s.reserved hart t a size then ok (put ((s.unreserve hart).out (.data (leBytes 8 0) false)) v.toNat)
      else ok ((s.unreserve hart).out (.data (leBytes 8 1) false))
    else ok (put (s.outData t a size) (atomicNew (hartOp op) size (s.gNat t a size) (v.toNat % 2 ^ (8 * size)) 0))

/-- HOST_LR_ACQUIRE (R80, R403): a load of 4 or 8 bytes, before every later memory operation of the hart, which reserves them. -/
def execHostLrAcquire (hart : Nat) (p : HartPlace) (s : State) : Res :=
  let addr := p.addr
  let size := p.size
  match s.hostHome false addr size with
  | none => ok (s.hostFault hart false)
  | some (t, a) => if addr % size != 0 then ok (s.out (.accessFault hart 4)) else ok ((s.outData t a size).reserve hart t a size)

/-! ## Inbound PCIe requests (R406, R408, R409) -/

/-- Whether a window admits n bytes from an offset of BAR2 or BAR4, for a write or a read, by a requester (R408). -/
def PeerWin.admits (p : PeerWin) (bar4 wr : Bool) (rid : BitVec 16) (off n : Nat) : Bool :=
  p.valid && p.space = bar4 && (if wr then p.w else p.rd) && (p.anyrid || p.rid = rid) && p.base.toNat * 4096 ≤ off &&
  off + n ≤ (p.base.toNat + p.count.toNat) * 4096

/-- A BAR of the function (R406): its number, whether it is prefetchable (all are of 64 bits), its bytes, and the target and the bytes of
the memory behind it; the device registers for BAR0. -/
structure PcieBar where
  number   : BitVec 3
  prefetch : Bool
  size     : Nat
  memory   : Option (Nat × Nat)
  deriving DecidableEq, Repr

/-- The three BARs (R406). -/
def pcieBars : List PcieBar :=
  [{ number := 0, prefetch := false, size := 0x4000000, memory := none },
   { number := 2, prefetch := true, size := 0x2000000000, memory := some (0, Config.hbmSize) },
   { number := 4, prefetch := true, size := 0x2000000, memory := some (3, Config.sp3Size) }]

/-- Words 2 and 4 to 9 of the function's configuration space (R406): the class code over the revision, and each BAR's type in its low bits
(PRESUMED: PCI Express; log 19). -/
def configWord (i : Nat) : BitVec 32 :=
  if i = 2 then BitVec.ofNat 32 (at_ 8 Config.pcieClass + Config.siliconRev)
  else match pcieBars.find? fun b => 4 + b.number.toNat = i with
    | some b => BitVec.ofNat 32 (4 + at_ 3 (bit b.prefetch))
    | none => 0

/-- The home of an inbound request: target and address, when a window admits it and memory lies there (R406, R408); none in recovery
(R425). -/
def State.inboundHome (s : State) (bar : BitVec 3) (wr : Bool) (rid : BitVec 16) (off n : Nat) : Option (Nat × Nat) :=
  if s.fleet.recovery then none
  else match pcieBars.find? fun b => b.number = bar with
    | some { memory := some (tgt, len), .. } => if off + n ≤ len && s.io.peers.any fun p => p.admits (bar = 4) wr rid off n then some (tgt, off) else none
    | _ => none

/-- The physical address of an offset of a BAR (R389, R406). -/
def barPhys (bar : BitVec 3) (off : Nat) : Nat := (if bar = 0 then 0x2020000000 else if bar = 4 then 0x2000000000 else 0) + off

/-- A rejected request is logged with its physical address (R389, R408, R428). -/
def State.rejectInbound (s : State) (o : Out) (bar : BitVec 3) (off : Nat) : State := (s.out o).ras 7 0xFF 0xFF 0 (barPhys bar off)

/-- INBOUND_WRITE (R408, R409): a posted write; requests of one requester are performed in the order of their arrival, so that a write of
a VERSION comes after its earlier ones. -/
def execInboundWrite (rid : BitVec 16) (bar : BitVec 3) (off : Nat) (data : List Byte) (_relaxed : Bool) (s : State) : Res :=
  if bar = 0 && off < 0x4000000 then
    if data.length = 8 || data.length = 4 && 0x10080 ≤ off && off < 0x100C0 then ok (s.writeReg .external off (word (leNat data))) else ok s
  else match s.inboundHome bar true rid off data.length with
    | none => ok (s.rejectInbound .dropped bar off)
    | some (t, a) => ok (s.writeHome [(t, { addr := a, bytes := data, poison := false })])

/-- INBOUND_READ (R408). -/
def execInboundRead (rid : BitVec 16) (bar : BitVec 3) (off len : Nat) (s : State) : Res :=
  if bar = 0 && off < 0x4000000 then ok (s.out (.data (s.readBytes .external off len) false))
  else match s.inboundHome bar false rid off len with
    | none => ok (s.rejectInbound .unsupported bar off)
    | some (t, a) => ok (s.outData t a len)

/-- The sizes in bytes that an AtomicOp has (R406). -/
def pcieSizes : PcieAtomic → List Nat
  | .fetchAdd => [4, 8]
  | .swap => [4, 8]
  | .cas => [4, 8, 16]

/-- The operation code of R315 of an AtomicOp. -/
def pcieOp : PcieAtomic → Nat
  | .fetchAdd => 0
  | .swap => 9
  | .cas => 10

/-- INBOUND_ATOMICOP (R83, R406, R408, R409): performed at the home; its completion carries the old value. -/
def execInboundAtomicop (rid : BitVec 16) (bar : BitVec 3) (off : Nat) (op : PcieAtomic) (size operand compare : Nat) (s : State) : Res :=
  match s.inboundHome bar true rid off size with
  | none => ok (s.rejectInbound .unsupported bar off)
  | some (t, a) =>
    if !(pcieSizes op).contains size || off % size != 0 then ok (s.rejectInbound .unsupported bar off)
    else
      let old := s.gNat t a size
      let poi := s.gPoison t a size
      let s := s.outData t a size
      if poi then ok s
      else ok (s.writeHome [(t, { addr := a, bytes := leBytes size (atomicNew (pcieOp op) size old operand compare), poison := false })])

/-! ## Ethernet (R411, R412; log 13) -/

/-- The time-stamp of the PTP clock as a descriptor's last 8 bytes hold it: SEC[31:0] and NS (R412). -/
def Ptp.stamp (p : Ptp) : List Byte := leBytes 4 (p.sec.toNat % 2 ^ 32) ++ leBytes 4 p.ns.toNat

/-- The address of a ring's next descriptor, when software has given one. -/
def EthRing.nextDesc (r : EthRing) : Option Nat := if r.cons = r.prod || r.size = 0 then none else some (r.base + 16 * (r.cons % r.size))

/-- ETHERNET_RECEIVE (R411, R412): a frame goes to the buffer of its ring's next descriptor, which takes the length and the time-stamp. -/
def execEthernetReceive (port ring : Nat) (bytes : List Byte) (s : State) : Res :=
  let p := s.port port
  let r := lget p.rx ring EthRing.zero
  match r.nextDesc with
  | none => ok (s.out .dropped)
  | some d =>
    if !p.up || s.fleet.recovery || Config.ethMax < bytes.length then ok (s.out .dropped)
    else
      match s.placeOf d 16 with
      | .hbm d =>
        let buf := s.gNat 0 d 6
        let s := s.writeHome [(0, { addr := buf, bytes := bytes, poison := false }),
          (0, { addr := d + 6, bytes := leBytes 2 bytes.length ++ s.io.ptp.stamp, poison := false })]
        ok (s.modPort port fun p => { p with rx := lmod p.rx ring EthRing.zero fun r => { r with cons := r.cons + 1 } })
      | _ => ok (s.out .dropped)

/-- Where the PTP message of a frame begins, and whether its UDP checksum must be zeroed: Layer 2, or UDP over IPv4 (R412). -/
def ptpStart (f : List Byte) : Option (Nat × Option Nat) :=
  let ty := leNat ((f.drop 12).take 2).reverse
  if ty = 0x88F7 then some (14, none)
  else if ty = 0x0800 && bnat f 23 1 = 17 then
    let ihl := 4 * (bnat f 14 1 % 16)
    some (14 + ihl + 8, some (14 + ihl + 6))
  else none

/-- A Sync message with originTimestamp inserted (R412). -/
def oneStep (p : Ptp) (f : List Byte) : List Byte :=
  match ptpStart f with
  | none => f
  | some (o, ck) =>
    if bnat f o 1 % 16 != 0 then f
    else
      let f := patchBytes f (o + 34) (beBytes 6 p.sec.toNat ++ beBytes 4 p.ns.toNat)
      match ck with
      | some c => patchBytes f c [0, 0]
      | none => f

/-- ETHERNET_TRANSMIT (R411, R412): the frame of the ring's next descriptor leaves; bit 14 of its length word asks for the time-stamp, bit 15
for one-step time-stamping. DESIGN CHOICE: a frame of more than 9,216 bytes does not leave, and its descriptor is taken (log 13). -/
def execEthernetTransmit (port ring : Nat) (s : State) : Res :=
  let p := s.port port
  let r := lget p.tx ring EthRing.zero
  match r.nextDesc with
  | none => ok s
  | some d =>
    match s.placeOf d 16 with
    | .hbm d =>
      if !p.up || s.fleet.recovery then ok s
      else
        let ctl := s.gNat 0 (d + 6) 2
        let f := s.gRead 0 (s.gNat 0 d 6) (ctl % 2 ^ 14)
        let f := if ctl / 2 ^ 15 % 2 = 1 then oneStep s.io.ptp f else f
        let fits : Bool := f.length ≤ Config.ethMax
        let s := if fits then s.out (.frame port f) else s
        let s := if fits && ctl / 2 ^ 14 % 2 = 1 then s.writeHome [(0, { addr := d + 8, bytes := s.io.ptp.stamp, poison := false })] else s
        ok (s.modPort port fun p => { p with tx := lmod p.tx ring EthRing.zero fun r => { r with cons := r.cons + 1 } })
    | _ => ok s

/-- AUTO_NEGOTIATION (R411): the port's link comes up or goes down; a part in recovery serves none (R425). -/
def execAutoNegotiation (port : Nat) (up : Bool) (s : State) : Res := if s.fleet.recovery then ok s else ok (s.modPort port fun p => { p with up := up })

end Sys2Proof.Machine
end

