-- ==== Sys2Proof/Machine/Riscv.lean ====
section
/-!
DEFINITION. The base instructions of the Pilot cores: RV64IMAC with Zicsr in machine and user mode, which the spec names and the RISC-V
manuals define (PRESUMED, log 12), over the physical map of R389.
-/

namespace Sys2Proof.Machine

/-! ## Syntax -/

/-- The operations of the integer and multiplication groups. -/
inductive RvOp where
  | add | sub | sll | slt | sltu | xor | srl | sra | or | and
  | mul | mulh | mulhsu | mulhu | div | divu | rem | remu
  deriving DecidableEq, Repr

/-- The conditions of branches. -/
inductive RvCond where
  | eq | ne | lt | ge | ltu | geu
  deriving DecidableEq, Repr

/-- A base instruction: registers by number, immediates extended to 64 bits, widths in bytes; `half` marks a form on the low 32 bits. -/
inductive Rv where
  | lui (rd : BitVec 5) (v : Word)
  | auipc (rd : BitVec 5) (v : Word)
  | jal (rd : BitVec 5) (off : Word)
  | jalr (rd rs1 : BitVec 5) (off : Word)
  | branch (c : RvCond) (rs1 rs2 : BitVec 5) (off : Word)
  | load (n : Nat) (signed : Bool) (rd rs1 : BitVec 5) (off : Word)
  | store (n : Nat) (rs1 rs2 : BitVec 5) (off : Word)
  | opImm (o : RvOp) (half : Bool) (rd rs1 : BitVec 5) (v : Word)
  | op (o : RvOp) (half : Bool) (rd rs1 rs2 : BitVec 5)
  | fence
  | ecall
  | ebreak
  | mret
  | wfi
  | csr (how : Nat) (imm : Bool) (rd rs1 : BitVec 5) (n : BitVec 12)
  | lr (n : Nat) (rd rs1 : BitVec 5)
  | amo (o : HartAtomic) (n : Nat) (rd rs1 rs2 : BitVec 5)
  deriving DecidableEq, Repr

/-! ## Decoding -/

/-- The n low bits of v as a signed number in 64 bits. -/
def rvSign (n v : Nat) : Word := word (if v / 2 ^ (n - 1) % 2 = 1 then v % 2 ^ n + 2 ^ 64 - 2 ^ n else v % 2 ^ n)

/-- A register number. -/
def rvReg (v : Nat) : BitVec 5 := BitVec.ofNat 5 v

/-- The operation of a register form by funct3 and funct7. -/
def rvOp (f3 f7 : Nat) : Option RvOp :=
  if f7 = 0 then ([.add, .sll, .slt, .sltu, .xor, .srl, .or, .and] : List RvOp)[f3]?
  else if f7 = 1 then ([.mul, .mulh, .mulhsu, .mulhu, .div, .divu, .rem, .remu] : List RvOp)[f3]?
  else if f7 = 32 then (if f3 = 0 then some .sub else if f3 = 5 then some .sra else none)
  else none

/-- The operations that the 32-bit forms have. -/
def RvOp.hasHalf : RvOp → Bool
  | .add | .sub | .sll | .srl | .sra | .mul | .div | .divu | .rem | .remu => true
  | _ => false

/-- An immediate form: shifts take `bits` bits of amount and the bits above them as the kind. -/
def rvOpImm (half : Bool) (f3 n : Nat) (rd rs1 : BitVec 5) : Option Rv :=
  let bits := if half then 5 else 6
  let top := fld n (20 + bits) (12 - bits)
  let sh := word (fld n 20 bits)
  let v := rvSign 12 (fld n 20 12)
  let kind := 2 ^ (10 - bits)
  if f3 = 1 then (if top = 0 then some (.opImm .sll half rd rs1 sh) else none)
  else if f3 = 5 then (if top = 0 then some (.opImm .srl half rd rs1 sh) else if top = kind then some (.opImm .sra half rd rs1 sh) else none)
  else match rvOp f3 0 with
    | some o => if half && f3 != 0 then none else some (.opImm o half rd rs1 v)
    | none => none

/-- An AMO's operation by funct5. -/
def rvAmo : Nat → Option HartAtomic
  | 0 => some .add
  | 1 => some .swap
  | 3 => some .sc
  | 4 => some .xor
  | 8 => some .or
  | 12 => some .and
  | 16 => some .min
  | 20 => some .max
  | 24 => some .minu
  | 28 => some .maxu
  | _ => none

/-- The instruction of a 32-bit word, where it has one. -/
def rvWord (w : BitVec 32) : Option Rv :=
  let n := w.toNat
  let rd := rvReg (fld n 7 5); let r1 := rvReg (fld n 15 5); let r2 := rvReg (fld n 20 5)
  let f3 := fld n 12 3; let f7 := fld n 25 7
  let up := rvSign 32 (fld n 12 20 * 2 ^ 12)
  let imm := rvSign 12 (fld n 20 12)
  match fld n 0 7 with
  | 0x37 => some (.lui rd up)
  | 0x17 => some (.auipc rd up)
  | 0x6F => some (.jal rd (rvSign 21 (fld n 31 1 * 2 ^ 20 + fld n 12 8 * 2 ^ 12 + fld n 20 1 * 2 ^ 11 + fld n 21 10 * 2)))
  | 0x67 => if f3 = 0 then some (.jalr rd r1 imm) else none
  | 0x63 =>
    let off := rvSign 13 (fld n 31 1 * 2 ^ 12 + fld n 7 1 * 2 ^ 11 + fld n 25 6 * 2 ^ 5 + fld n 8 4 * 2)
    match f3 with
    | 0 => some (.branch .eq r1 r2 off)
    | 1 => some (.branch .ne r1 r2 off)
    | 4 => some (.branch .lt r1 r2 off)
    | 5 => some (.branch .ge r1 r2 off)
    | 6 => some (.branch .ltu r1 r2 off)
    | 7 => some (.branch .geu r1 r2 off)
    | _ => none
  | 0x03 => if f3 = 7 then none else some (.load (2 ^ (f3 % 4)) (f3 < 4) rd r1 imm)
  | 0x23 => if 4 ≤ f3 then none else some (.store (2 ^ f3) r1 r2 (rvSign 12 (f7 * 32 + fld n 7 5)))
  | 0x13 => rvOpImm false f3 n rd r1
  | 0x1B => rvOpImm true f3 n rd r1
  | 0x33 => (rvOp f3 f7).map fun o => .op o false rd r1 r2
  | 0x3B => match rvOp f3 f7 with
    | some o => if o.hasHalf then some (.op o true rd r1 r2) else none
    | none => none
  | 0x0F => if f3 = 0 then some .fence else none
  | 0x2F =>
    let len := if f3 = 2 then 4 else 8
    if f3 != 2 && f3 != 3 then none
    else if fld n 27 5 = 2 then (if r2 = 0 then some (.lr len rd r1) else none)
    else (rvAmo (fld n 27 5)).map fun o => .amo o len rd r1 r2
  | 0x73 =>
    if f3 = 0 then
      if n = 0x00000073 then some .ecall
      else if n = 0x00100073 then some .ebreak
      else if n = 0x30200073 then some .mret
      else if n = 0x10500073 then some .wfi
      else none
    else if f3 = 4 then none
    else some (.csr (f3 % 4) (4 < f3) rd r1 (BitVec.ofNat 12 (fld n 20 12)))
  | _ => none

/-- A register of the compressed forms with three bits: x8 to x15. -/
def rvReg3 (v : Nat) : BitVec 5 := rvReg (8 + v % 8)

/-- The instruction of a compressed parcel of quadrant 0. -/
def rvC0 (n : Nat) : Option Rv :=
  let ra := rvReg3 (fld n 7 3); let rb := rvReg3 (fld n 2 3)
  let w := word (fld n 10 3 * 8 + fld n 6 1 * 4 + fld n 5 1 * 64)
  let d := word (fld n 10 3 * 8 + fld n 5 2 * 64)
  match fld n 13 3 with
  | 0 =>
    let v := fld n 11 2 * 16 + fld n 7 4 * 64 + fld n 6 1 * 4 + fld n 5 1 * 8
    if v = 0 then none else some (.opImm .add false rb 2 (word v))
  | 2 => some (.load 4 true rb ra w)
  | 3 => some (.load 8 true rb ra d)
  | 6 => some (.store 4 ra rb w)
  | 7 => some (.store 8 ra rb d)
  | _ => none

/-- The instruction of a compressed parcel of quadrant 1. -/
def rvC1 (n : Nat) : Option Rv :=
  let r := rvReg (fld n 7 5)
  let ra := rvReg3 (fld n 7 3); let rb := rvReg3 (fld n 2 3)
  let imm6 := fld n 12 1 * 32 + fld n 2 5
  let v := rvSign 6 imm6
  let boff := rvSign 9 (fld n 12 1 * 256 + fld n 10 2 * 8 + fld n 5 2 * 64 + fld n 3 2 * 2 + fld n 2 1 * 32)
  match fld n 13 3 with
  | 0 => some (.opImm .add false r r v)
  | 1 => if r = 0 then none else some (.opImm .add true r r v)
  | 2 => some (.opImm .add false r 0 v)
  | 3 =>
    if r = 2 then
      let x := fld n 12 1 * 512 + fld n 6 1 * 16 + fld n 5 1 * 64 + fld n 3 2 * 128 + fld n 2 1 * 32
      if x = 0 then none else some (.opImm .add false 2 2 (rvSign 10 x))
    else if imm6 = 0 then none else some (.lui r (rvSign 18 (imm6 * 4096)))
  | 4 =>
    match fld n 10 2 with
    | 0 => some (.opImm .srl false ra ra (word imm6))
    | 1 => some (.opImm .sra false ra ra (word imm6))
    | 2 => some (.opImm .and false ra ra v)
    | _ => match fld n 12 1 * 4 + fld n 5 2 with
      | 0 => some (.op .sub false ra ra rb)
      | 1 => some (.op .xor false ra ra rb)
      | 2 => some (.op .or false ra ra rb)
      | 3 => some (.op .and false ra ra rb)
      | 4 => some (.op .sub true ra ra rb)
      | 5 => some (.op .add true ra ra rb)
      | _ => none
  | 5 =>
    some (.jal 0 (rvSign 12 (fld n 12 1 * 2048 + fld n 11 1 * 16 + fld n 9 2 * 256 + fld n 8 1 * 1024 + fld n 7 1 * 64 + fld n 6 1 * 128 +
      fld n 3 3 * 2 + fld n 2 1 * 32)))
  | 6 => some (.branch .eq ra 0 boff)
  | _ => some (.branch .ne ra 0 boff)

/-- The instruction of a compressed parcel of quadrant 2. -/
def rvC2 (n : Nat) : Option Rv :=
  let r := rvReg (fld n 7 5); let r2 := rvReg (fld n 2 5)
  match fld n 13 3 with
  | 0 => some (.opImm .sll false r r (word (fld n 12 1 * 32 + fld n 2 5)))
  | 2 => if r = 0 then none else some (.load 4 true r 2 (word (fld n 12 1 * 32 + fld n 4 3 * 4 + fld n 2 2 * 64)))
  | 3 => if r = 0 then none else some (.load 8 true r 2 (word (fld n 12 1 * 32 + fld n 5 2 * 8 + fld n 2 3 * 64)))
  | 4 =>
    if fld n 12 1 = 0 then
      if r2 != 0 then some (.op .add false r 0 r2) else if r = 0 then none else some (.jalr 0 r 0)
    else if r2 != 0 then some (.op .add false r r r2)
    else if r = 0 then some .ebreak
    else some (.jalr 1 r 0)
  | 6 => some (.store 4 2 r2 (word (fld n 9 4 * 4 + fld n 7 2 * 64)))
  | 7 => some (.store 8 2 r2 (word (fld n 10 3 * 8 + fld n 7 3 * 64)))
  | _ => none

/-- The instruction at the start of four bytes, and its length: 2 for a compressed parcel. -/
def rvDecode (w : BitVec 32) : Option Rv × Nat :=
  let n := w.toNat % 2 ^ 16
  match n % 4 with
  | 0 => (rvC0 n, 2)
  | 1 => (rvC1 n, 2)
  | 2 => (rvC2 n, 2)
  | _ => (rvWord w, 4)

/-! ## Arithmetic -/

/-- An operation on words of w bits; shift amounts count modulo w. -/
def rvCalc {w : Nat} (o : RvOp) (a b : BitVec w) : BitVec w :=
  let sh := b.toNat % w
  let truth (p : Bool) : BitVec w := if p then 1 else 0
  match o with
  | .add => a + b
  | .sub => a - b
  | .sll => a <<< sh
  | .slt => truth (a.slt b)
  | .sltu => truth (a.ult b)
  | .xor => a ^^^ b
  | .srl => a >>> sh
  | .sra => a.sshiftRight sh
  | .or => a ||| b
  | .and => a &&& b
  | .mul => a * b
  | .mulh => BitVec.ofInt w (a.toInt * b.toInt / 2 ^ w)
  | .mulhsu => BitVec.ofInt w (a.toInt * (b.toNat : Int) / 2 ^ w)
  | .mulhu => BitVec.ofNat w (a.toNat * b.toNat / 2 ^ w)
  | .div => if b = 0 then -1 else a.sdiv b
  | .divu => if b = 0 then -1 else a / b
  | .rem => if b = 0 then a else a.srem b
  | .remu => if b = 0 then a else a % b

/-- An operation on registers: on all 64 bits, or on the low 32 with the result extended by its sign. -/
def rvAlu (o : RvOp) (half : Bool) (a b : Word) : Word :=
  if half then (rvCalc o (a.setWidth 32) (b.setWidth 32)).signExtend 64 else rvCalc o a b

/-- Whether a branch is taken. -/
def RvCond.holds (c : RvCond) (a b : Word) : Bool :=
  match c with
  | .eq => a == b
  | .ne => a != b
  | .lt => a.slt b
  | .ge => !a.slt b
  | .ltu => a.ult b
  | .geu => !a.ult b

/-! ## What an instruction asks for -/

/-- The value of n bytes that a load puts into a register. -/
def rvExtend (n : Nat) (signed : Bool) (bs : List Byte) : Word := if signed then rvSign (8 * n) (leNat bs) else word (leNat bs)

/-- What a base instruction asks of the core that executes it: a register and the next pc; an access of n bytes at an address, which the core
makes as its view of memory lets it; or what the core's mode and its control registers decide. -/
inductive RvAct where
  | go (rd : BitVec 5) (v pc : Word)
  | load (n : Nat) (signed : Bool) (rd : BitVec 5) (a : Word)
  | store (n : Nat) (a v : Word)
  | lr (n : Nat) (rd : BitVec 5) (a : Word)
  | amo (o : HartAtomic) (n : Nat) (rd : BitVec 5) (a v : Word)
  | ecall
  | ebreak
  | mret
  | wfi
  | csr (how : Nat) (writes : Bool) (rd : BitVec 5) (n : Nat) (src : Word)
  deriving DecidableEq, Repr

/-- What a base instruction asks for, over the values of the registers, its own address and that of the instruction after it. -/
def Rv.act (x : BitVec 5 → Word) (pc next : Word) : Rv → RvAct
  | .lui rd v => .go rd v next
  | .auipc rd v => .go rd (pc + v) next
  | .jal rd off => .go rd next (pc + off)
  | .jalr rd r1 off => .go rd next ((x r1 + off) &&& ~~~(1 : Word))
  | .branch cond r1 r2 off => .go 0 0 (if cond.holds (x r1) (x r2) then pc + off else next)
  | .load n sg rd r1 off => .load n sg rd (x r1 + off)
  | .store n r1 r2 off => .store n (x r1 + off) (x r2)
  | .opImm o half rd r1 v => .go rd (rvAlu o half (x r1) v) next
  | .op o half rd r1 r2 => .go rd (rvAlu o half (x r1) (x r2)) next
  | .fence => .go 0 0 next
  | .ecall => .ecall
  | .ebreak => .ebreak
  | .mret => .mret
  | .wfi => .wfi
  | .csr how imm rd r1 n => .csr how (how = 1 || r1 != 0) rd n.toNat (if imm then r1.setWidth 64 else x r1)
  | .lr n rd r1 => .lr n rd (x r1)
  | .amo o n rd r1 r2 => .amo o n rd (x r1) (x r2)

/-- The value that a CSR instruction writes: 1 sets it, 2 sets bits, 3 clears bits. -/
def csrValue (how : Nat) (old src : Word) : Word := if how = 1 then src else if how = 2 then old ||| src else old &&& ~~~src

/-- Whether a CSR of a number may not be accessed: its lowest privilege mode is above the core's, or it is read-only and would be written. -/
def csrBarred (mode : BitVec 2) (n : Nat) (writes : Bool) : Bool := mode.toNat < n / 256 % 4 || (writes && n / 1024 % 4 = 3)

/-! ## Memory as a Pilot core sees it (R389) -/

/-- Where n bytes of the physical map lie for a Pilot core: target and address (4 the Pilot SRAM, 5 the device registers); none in a hole. -/
def State.pilotHome (s : State) (a n : Nat) : Option (Nat × Nat) :=
  if Config.sramBase ≤ a && a + n ≤ Config.sramBase + Config.sramSize then some (4, a)
  else match s.placeOf a n with
    | .hbm x => some (0, x)
    | .sp3 x => some (3, x)
    | .reg off => some (5, off)
    | .pcie b => some (1, b)
    | .none => none

/-- n bytes at a home of a Pilot core. -/
def State.pilotRead (s : State) (h : Nat × Nat) (n : Nat) : List Byte :=
  if h.1 = 4 then mreadN s.pilot.sram h.2 n else if h.1 = 5 then s.readBytes .pilot h.2 n else s.gRead h.1 h.2 n

/-- Bytes stored at a home of a Pilot core; a register takes 8 bytes, or 4 in RANKPROG (R384, R391). -/
def State.pilotWrite (s : State) (h : Nat × Nat) (bs : List Byte) : State :=
  if h.1 = 4 then { s with pilot := { s.pilot with sram := mwriteL s.pilot.sram h.2 bs }
                           mem := { s.mem with resv := cutResv s.mem.resv 4 [{ addr := h.2, bytes := bs, poison := false }] } }
  else if h.1 = 5 then
    if bs.length = 8 || bs.length = 4 && 0x10080 ≤ h.2 && h.2 < 0x100C0 then s.writeReg .pilot h.2 (word (leNat bs)) else s
  else s.writeHome [(h.1, { addr := h.2, bytes := bs, poison := false })]

/-! ## Control and status registers -/

/-- The bits of mstatus that a Pilot core holds: MIE, MPIE, MPP, MPRV, TW. -/
def mstatusMask : Word := 0x221888

/-- A CSR of Pilot core k; none where it has none of the number. -/
def PilotCore.csr (c : PilotCore) (k n : Nat) : Option Word :=
  if n = 0x300 then some (c.mstatus ||| 0x200000000)
  else if n = 0x301 then some 0x8000000000101105
  else if n = 0x304 then some c.mie
  else if n = 0x305 then some c.mtvec
  else if n = 0x306 then some (c.mcounteren.setWidth 64)
  else if n = 0x340 then some c.mscratch
  else if n = 0x341 then some c.mepc
  else if n = 0x342 then some c.mcause
  else if n = 0x343 then some c.mtval
  else if n = 0xB00 then some c.mcycle
  else if n = 0xB02 then some c.minstret
  else if n = 0xF14 then some (word k)
  else if n = 0x30A || n = 0x320 || n = 0x344 || (0x323 ≤ n && n ≤ 0x33F) || (0xB03 ≤ n && n ≤ 0xB1F) || n = 0xF11 || n = 0xF12 || n = 0xF13 || n = 0xF15
  then some 0
  else none

/-- A CSR written; MPP takes machine or user mode only, and mtvec direct or vectored entry. -/
def PilotCore.setCsr (c : PilotCore) (n : Nat) (v : Word) : PilotCore :=
  if n = 0x300 then { c with mstatus := (v &&& mstatusMask &&& ~~~(0x1800 : Word)) ||| (if v.extractLsb' 11 2 = 3 then 0x1800 else 0) }
  else if n = 0x304 then { c with mie := v &&& 0x888 }
  else if n = 0x305 then { c with mtvec := v &&& ~~~(2 : Word) }
  else if n = 0x306 then { c with mcounteren := v.setWidth 32 &&& 7 }
  else if n = 0x340 then { c with mscratch := v }
  else if n = 0x341 then { c with mepc := v &&& ~~~(1 : Word) }
  else if n = 0x342 then { c with mcause := v }
  else if n = 0x343 then { c with mtval := v }
  else if n = 0xB00 then { c with mcycle := v }
  else if n = 0xB02 then { c with minstret := v }
  else c

/-- Return from a machine-mode trap: the mode of MPP and the interrupt enable of MPIE come back. -/
def PilotCore.mret (c : PilotCore) : PilotCore :=
  let mode : BitVec 2 := c.mstatus.extractLsb' 11 2
  let mprv : Word := if mode = 3 then 0 else 0x20000
  { c with pc := c.mepc, mode := mode, mstatus := (c.mstatus &&& ~~~(0x1888 ||| mprv)) ||| (c.mstatus / 128 % 2) * 8 ||| 128 }

/-! ## Execution -/

/-- Pilot core k takes a synchronous trap. -/
def State.rvTrap (s : State) (k cause : Nat) (tval : Word) : State := s.modPcore k fun c => { (c.trap (word cause) tval) with next := s.tide + 1 }

/-- Pilot core k writes rd and goes on at an address. -/
def State.rvGo (s : State) (k : Nat) (rd : BitVec 5) (v pc : Word) : State :=
  s.modPcore k fun c => { (c.setReg rd v) with pc := pc, next := s.tide + 1, mcycle := c.mcycle + 1, minstret := c.minstret + 1 }

/-- A base instruction of `len` bytes, the word `w`, on Pilot core k. -/
def State.rvExec (s : State) (k : Nat) (w : BitVec 32) (len : Nat) (i : Rv) : State :=
  let c := s.pcore k
  let next := c.pc + word len
  let illegal := s.rvTrap k 2 (w.setWidth 64)
  match i.act c.reg c.pc next with
  | .go rd v pc => s.rvGo k rd v pc
  | .load n sg rd a =>
    if a.toNat % n != 0 then s.rvTrap k 4 a
    else match s.pilotHome a.toNat n with
      | none => s.rvTrap k 5 a
      | some h => s.rvGo k rd (rvExtend n sg (s.pilotRead h n)) next
  | .store n a v =>
    if a.toNat % n != 0 then s.rvTrap k 6 a
    else match s.pilotHome a.toNat n with
      | none => s.rvTrap k 7 a
      | some h => (s.pilotWrite h (leBytes n v.toNat)).rvGo k 0 0 next
  | .ecall => s.rvTrap k (if c.mode = 3 then 11 else 8) 0
  | .ebreak => s.rvTrap k 3 c.pc
  | .mret => if c.mode = 3 then s.modPcore k fun c => { c.mret with next := s.tide + 1, mcycle := c.mcycle + 1, minstret := c.minstret + 1 } else illegal
  | .wfi => if c.mode != 3 && c.mstatus.getLsbD 21 then illegal else s.rvGo k 0 0 next
  | .csr how writes rd n src =>
    match c.csr k n with
    | none => illegal
    | some old =>
      if csrBarred c.mode n writes then illegal
      else
        let s := s.rvGo k rd old next
        if writes then s.modPcore k fun c => c.setCsr n (csrValue how old src) else s
  | .lr n rd a =>
    if a.toNat % n != 0 then s.rvTrap k 4 a
    else match s.pilotHome a.toNat n with
      | none => s.rvTrap k 5 a
      | some h => if h.1 = 5 then s.rvTrap k 5 a else (s.reserve (8 + k) h.1 h.2 n).rvGo k rd (rvExtend n true (s.pilotRead h n)) next
  | .amo o n rd a v =>
    if a.toNat % n != 0 then s.rvTrap k 6 a
    else match s.pilotHome a.toNat n with
      | none => s.rvTrap k 7 a
      | some h =>
        if h.1 = 5 then s.rvTrap k 7 a
        else if o = .sc then
          if s.reserved (8 + k) h.1 h.2 n then ((s.unreserve (8 + k)).pilotWrite h (leBytes n v.toNat)).rvGo k rd 0 next
          else (s.unreserve (8 + k)).rvGo k rd 1 next
        else
          let old := s.pilotRead h n
          (s.pilotWrite h (leBytes n (atomicNew (hartOp o) n (leNat old) (v.toNat % 2 ^ (8 * n)) 0))).rvGo k rd (rvExtend n true old) next

/-- The four bytes at the pc of Pilot core k, or of the two that are there; none where a hole is fetched. -/
def State.rvFetch (s : State) (k : Nat) : Option (BitVec 32) :=
  let a := (s.pcore k).pc.toNat
  match s.pilotHome a 4 with
  | some h => some (BitVec.ofNat 32 (leNat (s.pilotRead h 4)))
  | none => match s.pilotHome a 2 with
    | some h => some (BitVec.ofNat 32 (leNat (s.pilotRead h 2)))
    | none => none

/-- Pilot core k executes the word at its pc, which is no Xquay instruction: a base instruction, or the exception of an encoding that is
none, of custom-0 and custom-1 among them (R393), or of a hole (R389). -/
def State.rvStep (s : State) (k : Nat) : State :=
  match s.rvFetch k with
  | none => s.rvTrap k 1 (s.pcore k).pc
  | some w => match rvDecode w with
    | (some i, len) => s.rvExec k w len i
    | (none, len) => s.rvTrap k 2 (if len = 2 then (w.setWidth 16).setWidth 64 else w.setWidth 64)

end Sys2Proof.Machine
end

