-- ==== Sys2Proof/Machine/RvFloat.lean ====
section
/-!
DEFINITION. The floating-point arithmetic of the host cores: the F and D extensions of RV64GC, which R402 names and the RISC-V manual and
IEEE 754 define (PRESUMED, log 98), over the exact values of `Fl`.
-/

namespace Sys2Proof.Machine

/-! ## Formats -/

/-- The two formats: binary64 and binary32. Widths of the exponent and mantissa fields, the bias, and the width. -/
def rvExpW (d : Bool) : Nat := if d then 11 else 8
def rvManW (d : Bool) : Nat := if d then 52 else 23
def rvBias (d : Bool) : Nat := if d then 1023 else 127
def rvWidth (d : Bool) : Nat := if d then 64 else 32

/-- The flags NX, UF, OF, DZ, NV of fcsr. -/
abbrev RvFlags := BitVec 5
def rvNX : RvFlags := 1
def rvUF : RvFlags := 2
def rvOF : RvFlags := 4
def rvDZ : RvFlags := 8
def rvNV : RvFlags := 16

/-- The pattern of a sign and a magnitude; an infinity's, the largest finite value's and the canonical NaN's magnitude. -/
def rvPat (d s : Bool) (mag : Nat) : Nat := (if s then 2 ^ (rvWidth d - 1) else 0) + mag
def rvInf (d : Bool) : Nat := (2 ^ rvExpW d - 1) * 2 ^ rvManW d
def rvMax (d : Bool) : Nat := rvInf d - 1
def rvNaN (d : Bool) : Nat := rvInf d + 2 ^ (rvManW d - 1)

/-- Sign, exponent field and mantissa field of a pattern. -/
def rvSignBit (d : Bool) (p : Nat) : Bool := p / 2 ^ (rvWidth d - 1) % 2 = 1
def rvExpOf (d : Bool) (p : Nat) : Nat := p / 2 ^ rvManW d % 2 ^ rvExpW d
def rvManOf (d : Bool) (p : Nat) : Nat := p % 2 ^ rvManW d

/-- The value of a pattern. -/
def rvFl (d : Bool) (p : Nat) : Fl :=
  let e := rvExpOf d p
  let m := rvManOf d p
  let s := rvSignBit d p
  if e = 2 ^ rvExpW d - 1 then (if m = 0 then .inf s else .nan)
  else if e = 0 then .fin s m (1 - (rvBias d : Int) - rvManW d)
  else .fin s (m + 2 ^ rvManW d) ((e : Int) - rvBias d - rvManW d)

/-- Whether a pattern is a signaling NaN. -/
def rvSnan (d : Bool) (p : Nat) : Bool := (rvFl d p).isNaN && rvManOf d p / 2 ^ (rvManW d - 1) = 0

/-! ## Rounding -/

/-- Whether a quotient q with a remainder rounds away from zero: modes 0 to 3 as `roundsUp`, 4 to the nearest with ties away (RMM). -/
def rvUp (mode : Nat) (s : Bool) (q half : Nat) : Bool := if mode = 4 then 1 ≤ half else roundsUp mode s q half

/-- m × 2^e as a multiple of 2^k, rounded: the multiple and whether it is inexact. -/
def rvRoundAt (mode : Nat) (s : Bool) (m : Nat) (e k : Int) : Nat × Bool :=
  if k ≤ e then (m * 2 ^ (e - k).toNat, false)
  else
    let d := (k - e).toNat
    if m.log2 + 2 < d then ((if m != 0 && rvUp mode s 0 0 then 1 else 0), m != 0)
    else
      let q := m / 2 ^ d
      let r := m % 2 ^ d
      let half := if 2 * r < 2 ^ d then 0 else if 2 * r = 2 ^ d then 1 else 2
      if r = 0 then (q, false) else (if rvUp mode s q half then q + 1 else q, true)

/-- What overflows: the infinity or the largest finite value, as the mode says. -/
def rvOver (d : Bool) (mode : Nat) (s : Bool) : Nat :=
  rvPat d s (if mode = 1 || (mode = 2 && !s) || (mode = 3 && s) then rvMax d else rvInf d)

/-- A finite value rounded to a format: pattern and flags; tininess is detected after rounding. -/
def rvRound (d : Bool) (mode : Nat) (s : Bool) (m : Nat) (e : Int) : Nat × RvFlags :=
  if m = 0 then (rvPat d s 0, 0)
  else
    let emin := 1 - (rvBias d : Int)
    let top := (m.log2 : Int) + e
    let k := max top emin - rvManW d
    let (q, inexact) := rvRoundAt mode s m e k
    let mb := 2 ^ rvManW d
    let mag := if q < mb then q else (k + rvManW d + rvBias d).toNat * mb + (q - mb)
    let carried : Bool := top = emin - 1 && 2 * mb ≤ (rvRoundAt mode s m e (top - rvManW d)).1
    let tiny : Bool := top < emin && !carried
    if rvMax d < mag then (rvOver d mode s, rvOF ||| rvNX)
    else (rvPat d s mag, (if inexact then rvNX else 0) ||| (if inexact && tiny then rvUF else 0))

/-- A value rounded to a format: every NaN is the canonical one. -/
def rvRoundFl (d : Bool) (mode : Nat) : Fl → Nat × RvFlags
  | .nan => (rvNaN d, 0)
  | .inf s => (rvPat d s (rvInf d), 0)
  | .fin s m e => rvRound d mode s m e

/-- The invalid flag where an exact operation had no value, or an operand is a signaling NaN. -/
def rvInvalid (b : Bool) : RvFlags := if b then rvNV else 0

/-! ## Arithmetic -/

/-- The operations that round. -/
inductive RvArith where
  | add | sub | mul | div | sqrt | madd | msub | nmsub | nmadd
  deriving DecidableEq, Repr

/-- The quotient of two values, and its flags before rounding; 64 bits beyond the format's and a last bit that keeps the remainder. -/
def rvQuot : Fl → Fl → Fl × RvFlags
  | .nan, _ => (.nan, 0)
  | _, .nan => (.nan, 0)
  | .inf _, .inf _ => (.nan, rvNV)
  | .inf s, .fin t _ _ => (.inf (s != t), 0)
  | .fin s _ _, .inf t => (.fin (s != t) 0 0, 0)
  | .fin s m e, .fin t n f =>
    if n = 0 then (if m = 0 then (.nan, rvNV) else (.inf (s != t), rvDZ))
    else
      let sh := 64 + n.log2 + 1
      let q := m * 2 ^ sh / n
      (.fin (s != t) (2 * q + (if m * 2 ^ sh % n = 0 then 0 else 1)) (e - f - sh - 1), 0)

/-- The square root of a value. -/
def rvRoot : Fl → Fl × RvFlags
  | .nan => (.nan, 0)
  | .inf s => if s then (.nan, rvNV) else (.inf false, 0)
  | .fin s m e =>
    if m = 0 then (.fin s 0 0, 0)
    else if s then (.nan, rvNV)
    else
      let m' := if e % 2 = 0 then m * 2 ^ 128 else m * 2 ^ 129
      let e' := if e % 2 = 0 then e - 128 else e - 129
      let r := isqrt m'
      (.fin false (2 * r + (if r * r = m' then 0 else 1)) (e' / 2 - 1), 0)

/-- The sum and the product of two values, with the invalid flag of `flAdd` and `flMul`. -/
def rvSum (mode : Nat) (a b : Fl) : Fl × RvFlags := let (v, x) := flAdd mode a b; (v, rvInvalid (x != 0))
def rvProd (a b : Fl) : Fl × RvFlags := let (v, x) := flMul a b; (v, rvInvalid (x != 0))

/-- a × b + c with one rounding; 0 × ∞ is invalid whatever c is. -/
def rvFused (mode : Nat) (a b c : Fl) : Fl × RvFlags :=
  let (p, x) := rvProd a b
  let (v, y) := rvSum mode p c
  (v, x ||| y)

/-- The exact result of an operation on three patterns, of which it takes as many as it has operands. -/
def RvArith.exact (o : RvArith) (d : Bool) (mode a b c : Nat) : Fl × RvFlags :=
  let x := rvFl d a
  let y := rvFl d b
  let z := rvFl d c
  match o with
  | .add => rvSum mode x y
  | .sub => rvSum mode x (flNeg y)
  | .mul => rvProd x y
  | .div => rvQuot x y
  | .sqrt => rvRoot x
  | .madd => rvFused mode x y z
  | .msub => rvFused mode x y (flNeg z)
  | .nmsub => rvFused mode (flNeg x) y z
  | .nmadd => rvFused mode (flNeg x) y (flNeg z)

/-- How many operands an operation has. -/
def RvArith.arity : RvArith → Nat
  | .sqrt => 1
  | .add | .sub | .mul | .div => 2
  | _ => 3

/-- An operation of the arithmetic: pattern and flags. -/
def rvArith (o : RvArith) (d : Bool) (mode a b c : Nat) : Nat × RvFlags :=
  let (v, x) := o.exact d mode a b c
  let (p, y) := rvRoundFl d mode v
  (p, x ||| y ||| rvInvalid (([a, b, c].take o.arity).any (rvSnan d)))

/-- The operations that give one of their operands: sign injection, minimum and maximum. -/
inductive RvPick where
  | sgnj | sgnjn | sgnjx | min | max
  deriving DecidableEq, Repr

/-- Minimum and maximum of two patterns: −0 lies below +0, a NaN gives the other operand, two NaNs the canonical one. -/
def rvMinMax (d wantMax : Bool) (a b : Nat) : Nat :=
  let x := rvFl d a
  let y := rvFl d b
  let below (p q : Nat) : Bool :=
    let c := flCmp (rvFl d p) (rvFl d q)
    c < 0 || (c = 0 && rvSignBit d p && !rvSignBit d q)
  if x.isNaN && y.isNaN then rvNaN d
  else if x.isNaN then b
  else if y.isNaN then a
  else if wantMax then (if below a b then b else a)
  else if below b a then b else a

/-- One of them on two patterns. -/
def rvPick (o : RvPick) (d : Bool) (a b : Nat) : Nat × RvFlags :=
  let mag := a % 2 ^ (rvWidth d - 1)
  let nan := rvInvalid (rvSnan d a || rvSnan d b)
  match o with
  | .sgnj => (rvPat d (rvSignBit d b) mag, 0)
  | .sgnjn => (rvPat d (!rvSignBit d b) mag, 0)
  | .sgnjx => (rvPat d (rvSignBit d a != rvSignBit d b) mag, 0)
  | .min => (rvMinMax d false a b, nan)
  | .max => (rvMinMax d true a b, nan)

/-- The operations that give an integer: comparisons, and the class of a value. -/
inductive RvTest where
  | eq | lt | le | cls
  deriving DecidableEq, Repr

/-- The class of a pattern: one bit of ten. -/
def rvClass (d : Bool) (p : Nat) : Nat :=
  let s := rvSignBit d p
  match rvFl d p with
  | .nan => if rvSnan d p then 2 ^ 8 else 2 ^ 9
  | .inf _ => if s then 1 else 2 ^ 7
  | .fin _ m _ =>
    if m = 0 then (if s then 2 ^ 3 else 2 ^ 4)
    else if rvExpOf d p = 0 then (if s then 2 ^ 2 else 2 ^ 5)
    else if s then 2 else 2 ^ 6

/-- One of them on two patterns: a comparison with a NaN is false, and invalid but for the equality of quiet ones. -/
def rvTest (o : RvTest) (d : Bool) (a b : Nat) : Nat × RvFlags :=
  let x := rvFl d a
  let y := rvFl d b
  let nan := x.isNaN || y.isNaN
  let truth (p : Bool) : Nat := if !nan && p then 1 else 0
  match o with
  | .eq => (truth (flCmp x y = 0), rvInvalid (rvSnan d a || rvSnan d b))
  | .lt => (truth (flCmp x y < 0), rvInvalid nan)
  | .le => (truth (flCmp x y ≤ 0), rvInvalid nan)
  | .cls => (rvClass d a, 0)

/-! ## Conversions -/

/-- A pattern as an integer of w bits: out of range it is the nearest bound, for NaN the largest, and invalid. -/
def rvToInt (d : Bool) (w : Nat) (signed : Bool) (mode p : Nat) : Int × RvFlags :=
  match rvFl d p with
  | .nan => (iMax w signed, rvNV)
  | .inf s => (if s then iMin w signed else iMax w signed, rvNV)
  | .fin s m e =>
    let (q, inexact) := rvRoundAt mode s m e 0
    let n := sgn s q
    if n < iMin w signed then (iMin w signed, rvNV)
    else if iMax w signed < n then (iMax w signed, rvNV)
    else (n, if inexact then rvNX else 0)

/-- An integer as a pattern. -/
def rvFromInt (d : Bool) (mode : Nat) (n : Int) : Nat × RvFlags := rvRound d mode (n < 0) n.natAbs 0

/-- A pattern of one format in the other. -/
def rvConvert (toD : Bool) (mode p : Nat) : Nat × RvFlags :=
  let (q, x) := rvRoundFl toD mode (rvFl (!toD) p)
  (q, x ||| rvInvalid (rvSnan (!toD) p))

end Sys2Proof.Machine
end

