-- ==== Sys2Proof/Machine/Hart.lean ====
section
/-!
DEFINITION. The host cores (R402 to R405): RV64GC with Zba, Zbb and Zbs, Sv48, three modes and an incoming interrupt file per hart, which
the spec names and the RISC-V manuals define (PRESUMED, log 98), over the physical map of R389 as R404 and R405 let a host core reach it.
-/

namespace Sys2Proof.Machine

/-! ## Zba, Zbb, Zbs -/

/-- The operations of the bit-manipulation extensions; `shadd k` adds to 2^k times the first operand, or with `uw` to its low word. -/
inductive ZbOp where
  | andn | orn | xnor | min | minu | max | maxu | rol | ror | bclr | bext | binv | bset | slliuw | clz | ctz | cpop | sextb | sexth | zexth
  | orcb | rev8
  | shadd (k : Nat) (uw : Bool)
  deriving DecidableEq, Repr

/-- The bits of a word, the least significant first. -/
def wordBits {w : Nat} (a : BitVec w) : List Bool := (List.range w).map a.getLsbD

/-- How many Booleans at the front are false. -/
def leadFalse : List Bool → Nat
  | [] => 0
  | b :: r => if b then 0 else leadFalse r + 1

/-- The operations that count bits or rotate, on words of w bits. -/
def zbWide {w : Nat} (o : ZbOp) (a b : BitVec w) : BitVec w :=
  match o with
  | .rol => a.rotateLeft (b.toNat % w)
  | .ror => a.rotateRight (b.toNat % w)
  | .clz => BitVec.ofNat w (leadFalse (wordBits a).reverse)
  | .ctz => BitVec.ofNat w (leadFalse (wordBits a))
  | .cpop => BitVec.ofNat w ((wordBits a).filter id).length
  | _ => a

/-- An operation on registers: on all 64 bits, or on the low 32 with the result extended by its sign. -/
def zbCalc (o : ZbOp) (half : Bool) (a b : Word) : Word :=
  let one : Word := word (2 ^ (b.toNat % 64))
  match o with
  | .andn => a &&& ~~~b
  | .orn => a ||| ~~~b
  | .xnor => ~~~(a ^^^ b)
  | .min => if a.slt b then a else b
  | .minu => if a.ult b then a else b
  | .max => if a.slt b then b else a
  | .maxu => if a.ult b then b else a
  | .bclr => a &&& ~~~one
  | .bext => word (bit (a.getLsbD (b.toNat % 64)))
  | .binv => a ^^^ one
  | .bset => a ||| one
  | .slliuw => ((a.setWidth 32).setWidth 64) <<< (b.toNat % 64)
  | .sextb => (a.setWidth 8).signExtend 64
  | .sexth => (a.setWidth 16).signExtend 64
  | .zexth => (a.setWidth 16).setWidth 64
  | .orcb => word (leNat ((leBytes 8 a.toNat).map fun x => if x = 0 then 0 else 0xFF))
  | .rev8 => word (leNat (leBytes 8 a.toNat).reverse)
  | .shadd k uw => ((if uw then (a.setWidth 32).setWidth 64 else a) <<< k) + b
  | o => if half then (zbWide o (a.setWidth 32) (b.setWidth 32)).signExtend 64 else zbWide o a b

/-! ## Syntax and decoding -/

/-- An instruction of a host core: a base instruction, or one that a Pilot core lacks. `d` marks binary64, `long` 64-bit integers, `rm` is the
rounding mode's field. -/
inductive Hv where
  | base (i : Rv)
  | bits (o : ZbOp) (half : Bool) (rd r1 : BitVec 5) (src : BitVec 5 ⊕ Nat)
  | fload (d : Bool) (rd r1 : BitVec 5) (off : Word)
  | fstore (d : Bool) (r1 r2 : BitVec 5) (off : Word)
  | arith (o : RvArith) (d : Bool) (rm : Nat) (rd r1 r2 r3 : BitVec 5)
  | pick (o : RvPick) (d : Bool) (rd r1 r2 : BitVec 5)
  | test (o : RvTest) (d : Bool) (rd r1 r2 : BitVec 5)
  | toInt (d long signed : Bool) (rm : Nat) (rd r1 : BitVec 5)
  | fromInt (d long signed : Bool) (rm : Nat) (rd r1 : BitVec 5)
  | convert (toD : Bool) (rm : Nat) (rd r1 : BitVec 5)
  | toX (d : Bool) (rd r1 : BitVec 5)
  | fromX (d : Bool) (rd r1 : BitVec 5)
  | sret
  | sfence
  | fencei
  deriving DecidableEq, Repr

/-- The bit-manipulation operation of a register form, and whether it is on 32 bits. -/
def zbReg (half : Bool) (f3 f7 r2 : Nat) : Option (ZbOp × Bool) :=
  match half, f7, f3 with
  | false, 0x20, 7 => some (.andn, false)
  | false, 0x20, 6 => some (.orn, false)
  | false, 0x20, 4 => some (.xnor, false)
  | false, 0x05, 4 => some (.min, false)
  | false, 0x05, 5 => some (.minu, false)
  | false, 0x05, 6 => some (.max, false)
  | false, 0x05, 7 => some (.maxu, false)
  | false, 0x24, 1 => some (.bclr, false)
  | false, 0x24, 5 => some (.bext, false)
  | false, 0x34, 1 => some (.binv, false)
  | false, 0x14, 1 => some (.bset, false)
  | true, 0x04, 0 => some (.shadd 0 true, false)
  | true, 0x04, 4 => if r2 = 0 then some (.zexth, false) else none
  | uw, 0x10, 2 => some (.shadd 1 uw, false)
  | uw, 0x10, 4 => some (.shadd 2 uw, false)
  | uw, 0x10, 6 => some (.shadd 3 uw, false)
  | w, 0x30, 1 => some (.rol, w)
  | w, 0x30, 5 => some (.ror, w)
  | _, _, _ => none

/-- The bit-manipulation operation of an immediate form, whether it is on 32 bits, and its immediate. -/
def zbImm (half : Bool) (f3 imm : Nat) : Option (ZbOp × Bool × Nat) :=
  match half, f3 with
  | false, 1 =>
    match imm / 64 with
    | 0x12 => some (.bclr, false, imm % 64)
    | 0x1A => some (.binv, false, imm % 64)
    | 0x0A => some (.bset, false, imm % 64)
    | 0x18 => (match imm % 64 with
      | 0 => some (.clz, false, 0)
      | 1 => some (.ctz, false, 0)
      | 2 => some (.cpop, false, 0)
      | 4 => some (.sextb, false, 0)
      | 5 => some (.sexth, false, 0)
      | _ => none)
    | _ => none
  | false, 5 =>
    if imm = 0x287 then some (.orcb, false, 0)
    else if imm = 0x6B8 then some (.rev8, false, 0)
    else if imm / 64 = 0x18 then some (.ror, false, imm % 64)
    else if imm / 64 = 0x12 then some (.bext, false, imm % 64)
    else none
  | true, 1 =>
    if imm / 64 = 2 then some (.slliuw, false, imm % 64)
    else if imm = 0x600 then some (.clz, true, 0)
    else if imm = 0x601 then some (.ctz, true, 0)
    else if imm = 0x602 then some (.cpop, true, 0)
    else none
  | true, 5 => if imm / 32 = 0x30 then some (.ror, true, imm % 32) else none
  | _, _ => none

/-- The instruction of opcode OP-FP. -/
def hvFp (n : Nat) : Option Hv :=
  let rd := rvReg (fld n 7 5); let r1 := rvReg (fld n 15 5); let r2 := rvReg (fld n 20 5)
  let rm := fld n 12 3
  let d : Bool := fld n 25 2 = 1
  let src := fld n 20 5
  let ints (i : Bool → Bool → Hv) : Option Hv := if src < 4 then some (i (src / 2 = 1) (src % 2 = 0)) else none
  if 2 ≤ fld n 25 2 then none
  else match fld n 27 5 with
    | 0x00 => some (.arith .add d rm rd r1 r2 0)
    | 0x01 => some (.arith .sub d rm rd r1 r2 0)
    | 0x02 => some (.arith .mul d rm rd r1 r2 0)
    | 0x03 => some (.arith .div d rm rd r1 r2 0)
    | 0x0B => if src = 0 then some (.arith .sqrt d rm rd r1 0 0) else none
    | 0x04 => (([.sgnj, .sgnjn, .sgnjx] : List RvPick)[rm]?).map fun o => .pick o d rd r1 r2
    | 0x05 => (([.min, .max] : List RvPick)[rm]?).map fun o => .pick o d rd r1 r2
    | 0x08 => if src = bit (!d) then some (.convert d rm rd r1) else none
    | 0x14 => (([.le, .lt, .eq] : List RvTest)[rm]?).map fun o => .test o d rd r1 r2
    | 0x18 => ints fun long sg => .toInt d long sg rm rd r1
    | 0x1A => ints fun long sg => .fromInt d long sg rm rd r1
    | 0x1C => if src != 0 then none else if rm = 0 then some (.toX d rd r1) else if rm = 1 then some (.test .cls d rd r1 0) else none
    | 0x1E => if src = 0 && rm = 0 then some (.fromX d rd r1) else none
    | _ => none

/-- The instruction of a 32-bit word that a Pilot core lacks. -/
def hvWord (w : BitVec 32) : Option Hv :=
  let n := w.toNat
  let rd := rvReg (fld n 7 5); let r1 := rvReg (fld n 15 5); let r2 := rvReg (fld n 20 5)
  let f3 := fld n 12 3; let f7 := fld n 25 7
  let fused (o : RvArith) : Option Hv := if 2 ≤ fld n 25 2 then none else some (.arith o (fld n 25 2 = 1) f3 rd r1 r2 (rvReg (fld n 27 5)))
  match fld n 0 7 with
  | 0x13 => (zbImm false f3 (fld n 20 12)).map fun x => .bits x.1 x.2.1 rd r1 (.inr x.2.2)
  | 0x1B => (zbImm true f3 (fld n 20 12)).map fun x => .bits x.1 x.2.1 rd r1 (.inr x.2.2)
  | 0x33 => (zbReg false f3 f7 (fld n 20 5)).map fun x => .bits x.1 x.2 rd r1 (.inl r2)
  | 0x3B => (zbReg true f3 f7 (fld n 20 5)).map fun x => .bits x.1 x.2 rd r1 (.inl r2)
  | 0x07 => if f3 = 2 || f3 = 3 then some (.fload (f3 = 3) rd r1 (rvSign 12 (fld n 20 12))) else none
  | 0x27 => if f3 = 2 || f3 = 3 then some (.fstore (f3 = 3) r1 r2 (rvSign 12 (f7 * 32 + fld n 7 5))) else none
  | 0x43 => fused .madd
  | 0x47 => fused .msub
  | 0x4B => fused .nmsub
  | 0x4F => fused .nmadd
  | 0x53 => hvFp n
  | 0x0F => if f3 = 1 then some .fencei else none
  | 0x73 => if n = 0x10200073 then some .sret else if f3 = 0 && f7 = 9 && fld n 7 5 = 0 then some .sfence else none
  | _ => none

/-- The compressed loads and stores of binary64. -/
def hvParcel (n : Nat) : Option Hv :=
  let off := word (fld n 10 3 * 8 + fld n 5 2 * 64)
  match n % 4, fld n 13 3 with
  | 0, 1 => some (.fload true (rvReg3 (fld n 2 3)) (rvReg3 (fld n 7 3)) off)
  | 0, 5 => some (.fstore true (rvReg3 (fld n 7 3)) (rvReg3 (fld n 2 3)) off)
  | 2, 1 => some (.fload true (rvReg (fld n 7 5)) 2 (word (fld n 12 1 * 32 + fld n 5 2 * 8 + fld n 2 3 * 64)))
  | 2, 5 => some (.fstore true 2 (rvReg (fld n 2 5)) (word (fld n 10 3 * 8 + fld n 7 3 * 64)))
  | _, _ => none

/-- The instruction at the start of four bytes, and its length; custom-0 and custom-1 have none on a hart (R393). -/
def hvDecode (w : BitVec 32) : Option Hv × Nat :=
  let n := w.toNat % 2 ^ 16
  match (if n % 4 = 3 then hvWord w else hvParcel n) with
  | some i => (some i, if n % 4 = 3 then 4 else 2)
  | none => ((rvDecode w).1.map .base, (rvDecode w).2)

/-! ## Interrupts (R383, R402) -/

/-- The pending and enabled identity of the interrupt file that comes first, 0 for none. -/
def Hart.topei (h : Hart) : Nat :=
  let on := h.eip &&& h.eie
  if on = 0 then 0
  else ((List.range 1024).find? fun i => 1 ≤ i && on.getLsbD i && (h.threshold = 0 || i < h.threshold.toNat)).getD 0

/-- The interrupts that pend: SSIP, STIP and SEIP as software has set them, and the file's signal. -/
def Hart.ip (h : Hart) : Word := h.mip ||| (if h.deliver && h.topei != 0 then 0x200 else 0)

/-- The first of a set of interrupts in the order of the architecture. -/
def firstCause (w : Word) : Option Nat := [11, 3, 7, 9, 1, 5].find? w.getLsbD

/-- The interrupt that a hart takes now. -/
def Hart.interrupt (h : Hart) : Option Nat :=
  let on := h.ip &&& h.mie
  let m := on &&& ~~~h.mideleg
  let sv := on &&& h.mideleg
  if (h.mode != 3 || h.mstatus.getLsbD 3) && m != 0 then firstCause m
  else if h.mode = 0 || (h.mode = 1 && h.mstatus.getLsbD 1) then firstCause sv
  else none

/-! ## Traps and returns -/

/-- Bits of a word replaced. -/
def putBits (w mask v : Word) : Word := (w &&& ~~~mask) ||| (v &&& mask)

/-- Where a trap with a vector register enters. -/
def trapEntry (vec : Word) (irq : Bool) (cause : Nat) : Word :=
  let base := vec &&& ~~~(3 : Word)
  if irq && vec.getLsbD 0 then base + 4 * word cause else base

/-- A trap of a hart: into supervisor mode where it is delegated and the hart is not in machine mode, else into machine mode. -/
def Hart.trap (h : Hart) (irq : Bool) (cause : Nat) (tval : Word) : Hart :=
  let c := word ((if irq then 2 ^ 63 else 0) + cause)
  if h.mode != 3 && (if irq then h.mideleg else h.medeleg).getLsbD cause then
    { h with scause := c, stval := tval, sepc := h.pc, mode := 1, pc := trapEntry h.stvec irq cause
             mstatus := putBits h.mstatus 0x122 (word (at_ 5 (bit (h.mstatus.getLsbD 1)) + at_ 8 (bit (h.mode = 1)))) }
  else
    { h with mcause := c, mtval := tval, mepc := h.pc, mode := 3, pc := trapEntry h.mtvec irq cause
             mstatus := putBits h.mstatus 0x1888 (word (at_ 7 (bit (h.mstatus.getLsbD 3)) + at_ 11 h.mode.toNat)) }

/-- MRET. -/
def Hart.mret (h : Hart) : Hart :=
  let mode : BitVec 2 := h.mstatus.extractLsb' 11 2
  let st := putBits h.mstatus 0x1888 (word (at_ 3 (bit (h.mstatus.getLsbD 7)) + at_ 7 1))
  { h with pc := h.mepc, mode := mode, mstatus := if mode = 3 then st else putBits st 0x20000 0 }

/-- SRET. -/
def Hart.sret (h : Hart) : Hart :=
  { h with pc := h.sepc, mode := if h.mstatus.getLsbD 8 then 1 else 0
           mstatus := putBits h.mstatus 0x20122 (word (at_ 1 (bit (h.mstatus.getLsbD 5)) + at_ 5 1)) }

/-! ## Control and status registers -/

/-- The writable bits of mstatus: SIE, MIE, SPIE, MPIE, SPP, MPP, FS, MPRV, SUM, MXR, TVM, TW, TSR; and those of sstatus. -/
def hartStatus : Word := 0x7E79AA
def hartSstatus : Word := 0xC6122

/-- Whether the floating registers are off. -/
def Hart.fpOff (h : Hart) : Bool := h.mstatus.extractLsb' 13 2 = 0

/-- mstatus as it reads: SXL and UXL 2, SD where the floating registers are dirty. -/
def Hart.status (h : Hart) : Word := h.mstatus ||| 0xA00000000 ||| (if h.mstatus.extractLsb' 13 2 = 3 then 0x8000000000000000 else 0)

/-- What a hart's interrupt registers hold at the number in siselect: eidelivery, eithreshold, eip and eie by 64 identities; none at a number
that names none. -/
def Hart.sireg (h : Hart) : Option Word :=
  let n := h.siselect.toNat
  if n = 0x70 then some (word (bit h.deliver))
  else if n = 0x72 then some (h.threshold.setWidth 64)
  else if 0x70 ≤ n && n < 0x80 then some 0
  else if 0x80 ≤ n && n < 0xC0 then (if n % 2 = 0 then some (h.eip.extractLsb' (32 * (n - 0x80)) 64) else none)
  else if 0xC0 ≤ n && n < 0x100 then (if n % 2 = 0 then some (h.eie.extractLsb' (32 * (n - 0xC0)) 64) else none)
  else if 0x30 ≤ n && n < 0x40 then (if n % 2 = 0 then some 0 else none)
  else none

/-- 64 bits of a register of 1,024 replaced; identity 0 stays 0. -/
def putEi (e : BitVec 1024) (lo : Nat) (v : Word) : BitVec 1024 :=
  ((e &&& ~~~((BitVec.ofNat 1024 (2 ^ 64 - 1)) <<< lo)) ||| ((v.setWidth 1024) <<< lo)) &&& ~~~(1 : BitVec 1024)

/-- A write of those registers. -/
def Hart.setSireg (h : Hart) (v : Word) : Hart :=
  let n := h.siselect.toNat
  if n = 0x70 then { h with deliver := v.getLsbD 0 }
  else if n = 0x72 then { h with threshold := v.setWidth 10 }
  else if 0x80 ≤ n && n < 0xC0 then { h with eip := putEi h.eip (32 * (n - 0x80)) v }
  else if 0xC0 ≤ n && n < 0x100 then { h with eie := putEi h.eie (32 * (n - 0xC0)) v }
  else h

/-- The first pending and enabled interrupt of a set, as mtopi and stopi read. -/
def topi (w : Word) : Word := match firstCause w with | some c => word (at_ 16 c + 1) | none => 0

/-- A CSR of hart k; none where it has none of the number. -/
def Hart.csr (h : Hart) (k n : Nat) : Option Word :=
  if n = 0x001 then some ((h.fcsr.extractLsb' 0 5).setWidth 64)
  else if n = 0x002 then some ((h.fcsr.extractLsb' 5 3).setWidth 64)
  else if n = 0x003 then some (h.fcsr.setWidth 64)
  else if n = 0x100 then some (h.status &&& (hartSstatus ||| 0x8000000200000000))
  else if n = 0x104 then some (h.mie &&& h.mideleg)
  else if n = 0x105 then some h.stvec
  else if n = 0x106 then some (h.scounteren.setWidth 64)
  else if n = 0x140 then some h.sscratch
  else if n = 0x141 then some h.sepc
  else if n = 0x142 then some h.scause
  else if n = 0x143 then some h.stval
  else if n = 0x144 then some (h.ip &&& h.mideleg)
  else if n = 0x150 then some h.siselect
  else if n = 0x151 then h.sireg
  else if n = 0x15C then some (word (at_ 16 h.topei + h.topei))
  else if n = 0x180 then some h.satp
  else if n = 0x300 then some h.status
  else if n = 0x301 then some 0x800000000014112D
  else if n = 0x302 then some h.medeleg
  else if n = 0x303 then some h.mideleg
  else if n = 0x304 then some h.mie
  else if n = 0x305 then some h.mtvec
  else if n = 0x306 then some (h.mcounteren.setWidth 64)
  else if n = 0x309 || n = 0x344 then some h.ip
  else if n = 0x340 then some h.mscratch
  else if n = 0x341 then some h.mepc
  else if n = 0x342 then some h.mcause
  else if n = 0x343 then some h.mtval
  else if n = 0x350 then some h.miselect
  else if n = 0x351 then (if 0x30 ≤ h.miselect.toNat && h.miselect.toNat < 0x40 && h.miselect.toNat % 2 = 0 then some 0 else none)
  else if n = 0xB00 then some h.mcycle
  else if n = 0xB02 then some h.minstret
  else if n = 0xDB0 then some (topi (h.ip &&& h.mie &&& h.mideleg))
  else if n = 0xFB0 then some (topi (h.ip &&& h.mie &&& ~~~h.mideleg))
  else if n = 0xF14 then some (word k)
  else if n = 0x10A || n = 0x308 || n = 0x30A || n = 0x320 || (0x323 ≤ n && n ≤ 0x33F) || (0xB03 ≤ n && n ≤ 0xB1F) || n = 0xF11 || n = 0xF12 || n = 0xF13 ||
      n = 0xF15 then some 0
  else none

/-- Whether a hart's state makes a CSR illegal: the floating ones while their registers are off, satp in supervisor mode under TVM. -/
def Hart.csrOff (h : Hart) (n : Nat) : Bool := (n ≤ 3 && h.fpOff) || (n = 0x180 && h.mode = 1 && h.mstatus.getLsbD 20)

/-- The floating registers are dirty. -/
def Hart.dirty (h : Hart) : Hart := { h with mstatus := h.mstatus ||| 0x6000 }

/-- A write of mstatus: MPP takes no mode 2. -/
def Hart.setStatus (h : Hart) (mask v : Word) : Hart :=
  let mask := if v.extractLsb' 11 2 = 2 then mask &&& ~~~(0x1800 : Word) else mask
  { h with mstatus := putBits h.mstatus (mask &&& hartStatus) v }

/-- A CSR written; reserved values of satp's mode leave it as it is. -/
def Hart.setCsr (h : Hart) (n : Nat) (v : Word) : Hart :=
  if n = 0x001 then { h with fcsr := h.fcsr &&& 0xE0 ||| (v.setWidth 8 &&& 0x1F) }.dirty
  else if n = 0x002 then { h with fcsr := h.fcsr &&& 0x1F ||| ((v.setWidth 8 &&& 7) <<< 5) }.dirty
  else if n = 0x003 then { h with fcsr := v.setWidth 8 }.dirty
  else if n = 0x100 then h.setStatus hartSstatus v
  else if n = 0x104 then { h with mie := putBits h.mie h.mideleg v }
  else if n = 0x105 then { h with stvec := v &&& ~~~(2 : Word) }
  else if n = 0x106 then { h with scounteren := v.setWidth 32 &&& 7 }
  else if n = 0x140 then { h with sscratch := v }
  else if n = 0x141 then { h with sepc := v &&& ~~~(1 : Word) }
  else if n = 0x142 then { h with scause := v }
  else if n = 0x143 then { h with stval := v }
  else if n = 0x144 then { h with mip := putBits h.mip (h.mideleg &&& 2) v }
  else if n = 0x150 then { h with siselect := v &&& 0xFFF }
  else if n = 0x151 then h.setSireg v
  else if n = 0x15C then { h with eip := h.eip &&& ~~~(BitVec.ofNat 1024 (2 ^ h.topei)) }
  else if n = 0x180 then
    if v.extractLsb' 60 4 = 0 || v.extractLsb' 60 4 = 8 || v.extractLsb' 60 4 = 9 then { h with satp := v } else h
  else if n = 0x300 then h.setStatus hartStatus v
  else if n = 0x302 then { h with medeleg := v &&& 0xB3FF }
  else if n = 0x303 then { h with mideleg := v &&& 0x222 }
  else if n = 0x304 then { h with mie := v &&& 0xAAA }
  else if n = 0x305 then { h with mtvec := v &&& ~~~(2 : Word) }
  else if n = 0x306 then { h with mcounteren := v.setWidth 32 &&& 7 }
  else if n = 0x309 || n = 0x344 then { h with mip := v &&& 0x222 }
  else if n = 0x340 then { h with mscratch := v }
  else if n = 0x341 then { h with mepc := v &&& ~~~(1 : Word) }
  else if n = 0x342 then { h with mcause := v }
  else if n = 0x343 then { h with mtval := v }
  else if n = 0x350 then { h with miselect := v &&& 0xFFF }
  else if n = 0xB00 then { h with mcycle := v }
  else if n = 0xB02 then { h with minstret := v }
  else h

/-! ## Memory as a host core sees it (R389, R402, R404, R405) -/

/-- What a host core does at an address. -/
inductive HartUse where
  | fetch | load | store
  deriving DecidableEq, Repr

/-- The causes of a page fault and of an access fault. -/
def HartUse.page : HartUse → Nat
  | .fetch => 12
  | .load => 13
  | .store => 15
def HartUse.access : HartUse → Nat
  | .fetch => 1
  | .load => 5
  | .store => 7

/-- Whether a leaf entry lets a mode use its page; A must be set, and D for a store. -/
def Hart.leafOk (h : Hart) (mode : BitVec 2) (u : HartUse) (pte : Nat) : Bool :=
  let p (i : Nat) : Bool := pte / 2 ^ i % 2 = 1
  let who : Bool := if mode = 0 then p 4 else !p 4 || (u != .fetch && h.mstatus.getLsbD 18)
  let right : Bool := match u with
    | .fetch => p 3
    | .load => p 1 || (h.mstatus.getLsbD 19 && p 3)
    | .store => p 2 && p 7
  who && right && p 6

/-- A table walk from a level down: the physical address, or the cause of the fault. -/
def State.hartWalk (s : State) (h : Hart) (mode : BitVec 2) (u : HartUse) (va : Nat) : Nat → Nat → Nat ⊕ Nat
  | 0, _ => .inl u.page
  | l + 1, table =>
    match s.hostHome false (table + 8 * (va / 2 ^ (12 + 9 * l) % 512)) 8 with
    | none => .inl u.access
    | some (t, a) =>
      let pte := s.gNat t a 8
      let ppn := pte / 2 ^ 10 % 2 ^ 44
      if pte % 2 = 0 || pte / 2 % 4 = 2 || 2 ^ 54 ≤ pte then .inl u.page
      else if pte / 2 % 8 = 0 then (if pte / 2 ^ 4 % 2 = 1 || pte / 2 ^ 6 % 4 != 0 then .inl u.page else s.hartWalk h mode u va l (ppn * 4096))
      else if ppn % 2 ^ (9 * l) != 0 || !h.leafOk mode u pte then .inl u.page
      else .inr (ppn * 4096 + va % 2 ^ (12 + 9 * l))

/-- The mode whose rights an access has: MPP's for a load or store of machine mode under MPRV. -/
def Hart.useMode (h : Hart) (u : HartUse) : BitVec 2 := if u != .fetch && h.mode = 3 && h.mstatus.getLsbD 17 then h.mstatus.extractLsb' 11 2 else h.mode

/-- The physical address of a virtual one under Sv48 or Sv39, or the cause of the fault. -/
def State.hartTranslate (s : State) (h : Hart) (u : HartUse) (va : Word) : Nat ⊕ Nat :=
  let mode := h.useMode u
  let sv := (h.satp.extractLsb' 60 4).toNat
  let levels := if sv = 9 then 4 else 3
  let table := h.satp.toNat % 2 ^ 44 * 4096
  if mode = 3 || sv = 0 then .inr va.toNat
  else if rvSign (12 + 9 * levels) va.toNat != va then .inl u.page
  else s.hartWalk h mode u va.toNat levels table

/-- Where n bytes at a virtual address lie: target and address (5 the device registers), or the cause of the fault. -/
def State.hartHome (s : State) (h : Hart) (u : HartUse) (va : Word) (n : Nat) : Nat ⊕ (Nat × Nat) :=
  match s.hartTranslate h u va with
  | .inl c => .inl c
  | .inr pa => match s.placeOf pa n with
    | .reg off => if u = .fetch then .inl u.access else .inr (5, off)
    | _ => match s.hostHome (u = .store) pa n with
      | some x => .inr x
      | none => .inl u.access

/-- n bytes at a home of a host core; bytes stored there: a register takes 8 bytes, or 4 in RANKPROG (R384, R391). -/
def State.hartRead (s : State) (p : Nat × Nat) (n : Nat) : List Byte := if p.1 = 5 then s.readBytes .host p.2 n else s.gRead p.1 p.2 n
def State.hartWrite (s : State) (p : Nat × Nat) (bs : List Byte) : State :=
  if p.1 = 5 then if bs.length = 8 || bs.length = 4 && 0x10080 ≤ p.2 && p.2 < 0x100C0 then s.writeReg .host p.2 (word (leNat bs)) else s
  else s.writeHome [(p.1, { addr := p.2, bytes := bs, poison := false })]

/-! ## Execution -/

/-- A register, and a register written: x0 reads 0 and discards writes. -/
def Hart.reg (h : Hart) (r : BitVec 5) : Word := if r = 0 then 0 else lget h.x r.toNat 0
def Hart.setReg (h : Hart) (r : BitVec 5) (v : Word) : Hart := if r = 0 then h else { h with x := lput h.x r.toNat v 0 }

/-- A floating register as a pattern of a format: a binary32 that is not boxed is the canonical NaN. -/
def Hart.freg (h : Hart) (d : Bool) (r : BitVec 5) : Nat :=
  let v := lget h.f r.toNat 0
  if d then v.toNat else if v.extractLsb' 32 32 = 0xFFFFFFFF then v.toNat % 2 ^ 32 else rvNaN false

/-- A floating register written with a pattern, a binary32 boxed. -/
def Hart.setFreg (h : Hart) (d : Bool) (r : BitVec 5) (p : Nat) : Hart :=
  { h with f := lput h.f r.toNat (word (if d then p else 0xFFFFFFFF00000000 + p)) 0 }.dirty

/-- Flags accrued. -/
def Hart.accrue (h : Hart) (x : RvFlags) : Hart := if x = 0 then h else { h with fcsr := h.fcsr ||| x.setWidth 8 }.dirty

/-- Hart k takes a trap. -/
def State.hartTrap (s : State) (k cause : Nat) (tval : Word) : State := s.modHart k fun h => { (h.trap false cause tval) with next := s.tide + 1 }

/-- Hart k has executed an instruction that changes it so and goes on at an address. -/
def State.hartDone (s : State) (k : Nat) (pc : Word) (f : Hart → Hart) : State :=
  s.modHart k fun h =>
    let h := f h
    { h with pc := pc, next := s.tide + 1, mcycle := h.mcycle + 1, minstret := h.minstret + 1 }

/-- The rounding mode of an instruction: its own, or that of fcsr; none where it is reserved. -/
def Hart.round (h : Hart) (rm : Nat) : Option Nat :=
  let m := if rm = 7 then (h.fcsr.extractLsb' 5 3).toNat else rm
  if m ≤ 4 then some m else none

/-- An access of n bytes of hart k, which must be aligned: `act` goes on at its home. -/
def State.hartAccess (s : State) (k : Nat) (u : HartUse) (a : Word) (n : Nat) (act : Nat × Nat → State) : State :=
  if a.toNat % n != 0 then s.hartTrap k (if u = .store then 6 else 4) a
  else match s.hartHome (s.hart k) u a n with
    | .inl c => s.hartTrap k c a
    | .inr p => act p

/-- A base instruction of a host core. -/
def State.hartBase (s : State) (k : Nat) (illegal : State) (next : Word) (a : RvAct) : State :=
  let h := s.hart k
  match a with
  | .go rd v pc => s.hartDone k pc fun h => h.setReg rd v
  | .load n sg rd a => s.hartAccess k .load a n fun p => s.hartDone k next fun h => h.setReg rd (rvExtend n sg (s.hartRead p n))
  | .store n a v => s.hartAccess k .store a n fun p => (s.hartWrite p (leBytes n v.toNat)).hartDone k next id
  | .lr n rd a => s.hartAccess k .load a n fun p =>
      if p.1 = 5 then s.hartTrap k 5 a
      else (s.reserve k p.1 p.2 n).hartDone k next fun h => h.setReg rd (rvExtend n true (s.hartRead p n))
  | .amo o n rd a v => s.hartAccess k .store a n fun p =>
      if p.1 = 5 then s.hartTrap k 7 a
      else if o = .sc then
        if s.reserved k p.1 p.2 n then ((s.unreserve k).hartWrite p (leBytes n v.toNat)).hartDone k next fun h => h.setReg rd 0
        else (s.unreserve k).hartDone k next fun h => h.setReg rd 1
      else
        let old := s.hartRead p n
        (s.hartWrite p (leBytes n (atomicNew (hartOp o) n (leNat old) (v.toNat % 2 ^ (8 * n)) 0))).hartDone k next fun h => h.setReg rd (rvExtend n true old)
  | .ecall => s.hartTrap k (8 + h.mode.toNat) 0
  | .ebreak => s.hartTrap k 3 h.pc
  | .mret => if h.mode = 3 then s.hartDone k h.mepc Hart.mret else illegal
  | .wfi => if h.mode != 3 && h.mstatus.getLsbD 21 then illegal else s.hartDone k next id
  | .csr how writes rd n src =>
    match h.csr k n with
    | none => illegal
    | some old =>
      if csrBarred h.mode n writes || h.csrOff n then illegal
      else s.hartDone k next fun h => (if writes then h.setCsr n (csrValue how old src) else h).setReg rd old

/-- An instruction of `len` bytes, the word `w`, on hart k. -/
def State.hartExec (s : State) (k : Nat) (w : BitVec 32) (len : Nat) (i : Hv) : State :=
  let h := s.hart k
  let next := h.pc + word len
  let illegal := s.hartTrap k 2 (if len = 2 then (w.setWidth 16).setWidth 64 else w.setWidth 64)
  let fp (t : State) : State := if h.fpOff then illegal else t
  let rounded (rm : Nat) (act : Nat → State) : State := fp (match h.round rm with | some m => act m | none => illegal)
  let putF (d : Bool) (rd : BitVec 5) (r : Nat × RvFlags) : State := s.hartDone k next fun h => (h.setFreg d rd r.1).accrue r.2
  let putX (rd : BitVec 5) (v : Word) (x : RvFlags) : State := s.hartDone k next fun h => (h.setReg rd v).accrue x
  match i with
  | .base i => s.hartBase k illegal next (i.act h.reg h.pc next)
  | .bits o half rd r1 src => putX rd (zbCalc o half (h.reg r1) (match src with | .inl r => h.reg r | .inr n => word n)) 0
  | .fload d rd r1 off =>
    let n := if d then 8 else 4
    fp (s.hartAccess k .load (h.reg r1 + off) n fun p => s.hartDone k next fun h => h.setFreg d rd (leNat (s.hartRead p n)))
  | .fstore d r1 r2 off =>
    let n := if d then 8 else 4
    fp (s.hartAccess k .store (h.reg r1 + off) n fun p => (s.hartWrite p (leBytes n (lget h.f r2.toNat 0).toNat)).hartDone k next id)
  | .arith o d rm rd r1 r2 r3 => rounded rm fun m => putF d rd (rvArith o d m (h.freg d r1) (h.freg d r2) (h.freg d r3))
  | .pick o d rd r1 r2 => fp (putF d rd (rvPick o d (h.freg d r1) (h.freg d r2)))
  | .test o d rd r1 r2 => fp (let r := rvTest o d (h.freg d r1) (h.freg d r2); putX rd (word r.1) r.2)
  | .toInt d long sg rm rd r1 => rounded rm fun m =>
      let w := if long then 64 else 32
      let r := rvToInt d w sg m (h.freg d r1)
      putX rd (rvSign w (wrapPat w r.1)) r.2
  | .fromInt d long sg rm rd r1 => rounded rm fun m => putF d rd (rvFromInt d m (toVal (if long then 64 else 32) sg (h.reg r1).toNat))
  | .convert toD rm rd r1 => rounded rm fun m => putF toD rd (rvConvert toD m (h.freg (!toD) r1))
  | .toX d rd r1 => fp (putX rd (let v := (lget h.f r1.toNat 0).toNat; if d then word v else rvSign 32 v) 0)
  | .fromX d rd r1 => fp (putF d rd ((h.reg r1).toNat % 2 ^ rvWidth d, 0))
  | .sret => if h.mode = 0 || (h.mode = 1 && h.mstatus.getLsbD 22) then illegal else s.hartDone k h.sepc Hart.sret
  | .sfence => if h.mode = 0 || (h.mode = 1 && h.mstatus.getLsbD 20) then illegal else s.hartDone k next id
  | .fencei => s.hartDone k next id

/-- The word at the pc of hart k, fetched in parcels of two bytes, or the cause and the address of the fault. -/
def State.hartFetch (s : State) (k : Nat) : (Nat × Word) ⊕ BitVec 32 :=
  let h := s.hart k
  match s.hartHome h .fetch h.pc 2 with
  | .inl c => .inl (c, h.pc)
  | .inr p =>
    let lo := leNat (s.hartRead p 2)
    if lo % 4 != 3 then .inr (BitVec.ofNat 32 lo)
    else match s.hartHome h .fetch (h.pc + 2) 2 with
      | .inl c => .inl (c, h.pc + 2)
      | .inr q => .inr (BitVec.ofNat 32 (lo + 2 ^ 16 * leNat (s.hartRead q 2)))

/-- Hart k takes an interrupt, or executes the word at its pc: an instruction, or the exception of an encoding that is none, of custom-0 and
custom-1 among them (R393), or of a fetch that faults. -/
def State.hartStep (s : State) (k : Nat) : State :=
  match (s.hart k).interrupt with
  | some c => s.modHart k fun h => { (h.trap true c 0) with next := s.tide + 1 }
  | none => match s.hartFetch k with
    | .inl (c, a) => s.hartTrap k c a
    | .inr w => match hvDecode w with
      | (some i, len) => s.hartExec k w len i
      | (none, len) => s.hartTrap k 2 (if len = 2 then (w.setWidth 16).setWidth 64 else w.setWidth 64)

/-- The part after a host core has executed an instruction; none in recovery, when the part serves none (R425). -/
def State.hartMove (s : State) : Option State :=
  if s.fleet.recovery || !s.fleet.booted then none
  else ((List.range 8).find? fun k => (s.hart k).running && (s.hart k).next ≤ s.tide).map s.hartStep

end Sys2Proof.Machine
end

