-- ==== Sys2Proof/Machine/Alu.lean ====
section
/-!
DEFINITION. The ALU group (R207) and the immediate forms (R208): one value per row over shared issue.
-/

namespace Sys2Proof.Machine

/-- An ALU instruction: it writes d with latency L and goes on (R204, R205). -/
def aluRun (i : Instr) (d : BitVec 5) (lat : Nat) (v : State → Word) (s : State) : Res :=
  seqRun i anyPlace (fun s => (s.wrReg d lat (v s)).next1) s

/-- 1 if the condition holds, else 0 (R207). -/
def boolWord (b : Bool) : Word := if b then 1 else 0

/-- a rotated left by n (R207). -/
def rolWord (a : Word) (n : Nat) : Word := (a <<< n) ||| (a >>> (64 - n))

/-- Bits [127:64] of a product of two 128-bit values (R207). -/
def highWord (x y : BitVec 128) : Word := (x * y).extractLsb' 64 64

/-- Number of leading zero bits; 64 for 0 (R207). -/
def clzWord (a : Word) : Nat :=
  match (List.range 64).find? fun i => a.getLsbD (63 - i) with
  | some i => i
  | none => 64

/-- Number of trailing zero bits; 64 for 0 (R207). -/
def ctzWord (a : Word) : Nat :=
  match (List.range 64).find? fun i => a.getLsbD i with
  | some i => i
  | none => 64

/-- Number of 1 bits (R207). -/
def popWord (a : Word) : Nat := ((List.range 64).filter fun i => a.getLsbD i).length

/-- A shift amount: bits [5:0] (R207). -/
def shAmt (b : Word) : Nat := b.toNat % 64

/-- ADD (R207). -/
def execAdd (d a b : BitVec 5) (s : State) : Res := aluRun (.add d a b) d 2 (fun s => s.rd a + s.rd b) s

/-- SUB (R207). -/
def execSub (d a b : BitVec 5) (s : State) : Res := aluRun (.sub d a b) d 2 (fun s => s.rd a - s.rd b) s

/-- AND (R207). -/
def execAnd (d a b : BitVec 5) (s : State) : Res := aluRun (.and_ d a b) d 2 (fun s => s.rd a &&& s.rd b) s

/-- OR (R207). -/
def execOr (d a b : BitVec 5) (s : State) : Res := aluRun (.or_ d a b) d 2 (fun s => s.rd a ||| s.rd b) s

/-- XOR (R207). -/
def execXor (d a b : BitVec 5) (s : State) : Res := aluRun (.xor d a b) d 2 (fun s => s.rd a ^^^ s.rd b) s

/-- ANDN (R207). -/
def execAndn (d a b : BitVec 5) (s : State) : Res := aluRun (.andn d a b) d 2 (fun s => s.rd a &&& ~~~(s.rd b)) s

/-- ORN (R207). -/
def execOrn (d a b : BitVec 5) (s : State) : Res := aluRun (.orn d a b) d 2 (fun s => s.rd a ||| ~~~(s.rd b)) s

/-- SLL (R207). -/
def execSll (d a b : BitVec 5) (s : State) : Res := aluRun (.sll d a b) d 2 (fun s => s.rd a <<< shAmt (s.rd b)) s

/-- SRL (R207). -/
def execSrl (d a b : BitVec 5) (s : State) : Res := aluRun (.srl d a b) d 2 (fun s => s.rd a >>> shAmt (s.rd b)) s

/-- SRA (R207). -/
def execSra (d a b : BitVec 5) (s : State) : Res := aluRun (.sra d a b) d 2 (fun s => (s.rd a).sshiftRight (shAmt (s.rd b))) s

/-- SLT (R207). -/
def execSlt (d a b : BitVec 5) (s : State) : Res := aluRun (.slt d a b) d 2 (fun s => boolWord ((s.rd a).slt (s.rd b))) s

/-- SLTU (R207). -/
def execSltu (d a b : BitVec 5) (s : State) : Res := aluRun (.sltu d a b) d 2 (fun s => boolWord ((s.rd a).ult (s.rd b))) s

/-- MIN (R207). -/
def execMin (d a b : BitVec 5) (s : State) : Res := aluRun (.min_ d a b) d 2 (fun s => if (s.rd a).sle (s.rd b) then s.rd a else s.rd b) s

/-- MAX (R207). -/
def execMax (d a b : BitVec 5) (s : State) : Res := aluRun (.max_ d a b) d 2 (fun s => if (s.rd a).sle (s.rd b) then s.rd b else s.rd a) s

/-- MINU (R207). -/
def execMinu (d a b : BitVec 5) (s : State) : Res := aluRun (.minu d a b) d 2 (fun s => if (s.rd a).ule (s.rd b) then s.rd a else s.rd b) s

/-- MAXU (R207). -/
def execMaxu (d a b : BitVec 5) (s : State) : Res := aluRun (.maxu d a b) d 2 (fun s => if (s.rd a).ule (s.rd b) then s.rd b else s.rd a) s

/-- MUL (R207). -/
def execMul (d a b : BitVec 5) (s : State) : Res := aluRun (.mul d a b) d 4 (fun s => s.rd a * s.rd b) s

/-- MULH (R207). -/
def execMulh (d a b : BitVec 5) (s : State) : Res := aluRun (.mulh d a b) d 4 (fun s => highWord ((s.rd a).signExtend 128) ((s.rd b).signExtend 128)) s

/-- MULHU (R207). -/
def execMulhu (d a b : BitVec 5) (s : State) : Res := aluRun (.mulhu d a b) d 4 (fun s => highWord ((s.rd a).setWidth 128) ((s.rd b).setWidth 128)) s

/-- MULHSU (R207). -/
def execMulhsu (d a b : BitVec 5) (s : State) : Res := aluRun (.mulhsu d a b) d 4 (fun s => highWord ((s.rd a).signExtend 128) ((s.rd b).setWidth 128)) s

/-- CLZ (R207). -/
def execClz (d a : BitVec 5) (s : State) : Res := aluRun (.clz d a) d 2 (fun s => BitVec.ofNat 64 (clzWord (s.rd a))) s

/-- CTZ (R207). -/
def execCtz (d a : BitVec 5) (s : State) : Res := aluRun (.ctz d a) d 2 (fun s => BitVec.ofNat 64 (ctzWord (s.rd a))) s

/-- POPC (R207). -/
def execPopc (d a : BitVec 5) (s : State) : Res := aluRun (.popc d a) d 2 (fun s => BitVec.ofNat 64 (popWord (s.rd a))) s

/-- ROL (R207). -/
def execRol (d a b : BitVec 5) (s : State) : Res := aluRun (.rol d a b) d 2 (fun s => rolWord (s.rd a) (shAmt (s.rd b))) s

/-- ROR (R207). -/
def execRor (d a b : BitVec 5) (s : State) : Res := aluRun (.ror d a b) d 2 (fun s => rolWord (s.rd a) ((64 - shAmt (s.rd b)) % 64)) s

/-- ADDI (R208). -/
def execAddi (d a : BitVec 5) (i : BitVec 16) (s : State) : Res := aluRun (.addi d a i) d 2 (fun s => s.rd a + i.signExtend 64) s

/-- ANDI (R208). -/
def execAndi (d a : BitVec 5) (i : BitVec 16) (s : State) : Res := aluRun (.andi d a i) d 2 (fun s => s.rd a &&& i.setWidth 64) s

/-- ORI (R208). -/
def execOri (d a : BitVec 5) (i : BitVec 16) (s : State) : Res := aluRun (.ori d a i) d 2 (fun s => s.rd a ||| i.setWidth 64) s

/-- XORI (R208). -/
def execXori (d a : BitVec 5) (i : BitVec 16) (s : State) : Res := aluRun (.xori d a i) d 2 (fun s => s.rd a ^^^ i.setWidth 64) s

/-- SLTI (R208). -/
def execSlti (d a : BitVec 5) (i : BitVec 16) (s : State) : Res := aluRun (.slti d a i) d 2 (fun s => boolWord ((s.rd a).slt (i.signExtend 64))) s

/-- SLTIU (R208). -/
def execSltiu (d a : BitVec 5) (i : BitVec 16) (s : State) : Res := aluRun (.sltiu d a i) d 2 (fun s => boolWord ((s.rd a).ult (i.signExtend 64))) s

/-- SLLI (R208). -/
def execSlli (d a : BitVec 5) (i : BitVec 6) (s : State) : Res := aluRun (.slli d a i) d 2 (fun s => s.rd a <<< i.toNat) s

/-- SRLI (R208). -/
def execSrli (d a : BitVec 5) (i : BitVec 6) (s : State) : Res := aluRun (.srli d a i) d 2 (fun s => s.rd a >>> i.toNat) s

/-- SRAI (R208). -/
def execSrai (d a : BitVec 5) (i : BitVec 6) (s : State) : Res := aluRun (.srai d a i) d 2 (fun s => (s.rd a).sshiftRight i.toNat) s

/-- LUI (R208). -/
def execLui (d : BitVec 5) (i : BitVec 16) (s : State) : Res := aluRun (.lui d i) d 2 (fun _ => i.signExtend 64 <<< 16) s

/-- SHORI (R208). -/
def execShori (d a : BitVec 5) (i : BitVec 16) (s : State) : Res := aluRun (.shori d a i) d 2 (fun s => (s.rd a <<< 16) ||| i.setWidth 64) s

/-- MULI (R208). -/
def execMuli (d a : BitVec 5) (i : BitVec 16) (s : State) : Res := aluRun (.muli d a i) d 4 (fun s => s.rd a * i.signExtend 64) s

end Sys2Proof.Machine
end

