-- ==== Sys2Proof/Machine/Flags.lean ====
section
/-!
DEFINITION. Flags of vector results (R91, R239, R242 to R244): the result of a lane with the flags it raises, saturation, and the flags of
a word from the lanes it writes.
-/

namespace Sys2Proof.Machine

/-- A lane's result with the VSTAT flags it raises. -/
abbrev LaneR := Lane × Fx

/-- A result that raises nothing. -/
def quiet (v : Lane) : LaneR := (v, 0)

/-- A pattern with flags. -/
def patR (r : Nat × Fx) : LaneR := (BitVec.ofNat 32 r.1, r.2)

/-- An exact integer as a w-bit pattern: wrapped, or saturated with SA when that changes it (R16, R244). -/
def intResult (w : Nat) (sg sat : Bool) (x : Int) : Nat × Fx :=
  if sat then
    let y := satVal w sg x
    (wrapPat w y, if y = x then 0 else fSA)
  else (wrapPat w x, 0)

/-- The flags of a word: those of the lanes that it writes (R239). -/
def writtenFlags (wm : BitVec 64) (rs : List LaneR) : Fx :=
  (rs.zipIdx).foldl (fun f (r, i) => if wm.getLsbD i then f ||| r.2 else f) 0

end Sys2Proof.Machine
end

