-- ==== Sys2Proof/Machine/Operands.lean ====
section
/-!
DEFINITION. Operand forms of engine words (R186 to R190): step codes and roles, legality, sources and destinations of vector words
(R188, R192, R237 to R239), latched descriptors (R219), and how a repeat issues (R36, R135, R240).
-/

namespace Sys2Proof.Machine

/-! ## Issue of engine words -/

/-- ILLEGAL_WORD with the word in INFO (R139, R190). -/
def State.illegalWord (s : State) (u : Eng) (i : Instr) : State := s.takeFault (mkFault (engNum u) 0x02 (encodeNat i))

/-- The score-memory address of the word in issue. -/
def Engine.wordAddr (e : Engine) : Nat := match e.q with | q :: _ => q.addr + 6 * e.widx | [] => 0

/-- Whether the word in issue comes from a poisoned line (R137). -/
def State.wordBad (s : State) (u : Eng) : Bool :=
  !(s.eng u).q.isEmpty && s.me.badLine (s.eng u).wordAddr 6

/-- An engine word issues its present repeat: POISON from a poisoned line (R137); ILLEGAL_WORD at repeat 0 when `legal` fails (R190);
else `body`. -/
def engRun (u : Eng) (i : Instr) (legal : Bool) (body : State → State) (s : State) : Res :=
  if s.wordBad u then ok (s.takeFault (poisonLine (engNum u) (s.eng u).wordAddr))
  else if (s.eng u).rep = 0 && !legal then ok (s.illegalWord u i)
  else ok (body s)

/-- The repeat has issued with occupancy `occ`; PERF1 to PERF3 count it (R36, R236, R240). -/
def State.engIssue (s : State) (u : Eng) (reps occ : Nat) : State :=
  (s.modEng u fun e => e.issued reps (s.clk + occ)).modMe fun c => c.perfAdd (engNum u) 1

/-- A schedule miss of engine u with INFO `info` (R41). -/
def State.engMiss (s : State) (u : Eng) (info : Nat) (a : Await) : State := s.schedMiss (engNum u) info a

/-- The descriptors that a word uses, latched at repeat 0 (R219). -/
def State.latch (s : State) (u : Eng) (ns : List Nat) : List Desc :=
  let e := s.eng u
  if e.rep = 0 || e.latch.isEmpty then ns.map s.desc else e.latch

/-- The latch kept for the next repeats. -/
def State.keepLatch (s : State) (u : Eng) (ds : List Desc) : State := s.modEng u fun e => { e with latch := ds }

/-- A read through descriptor d issues; it taints an open drain whose destination the descriptor's region overlaps (R154). -/
def State.noteRead (s : State) (d : Desc) : State :=
  match s.me.mtx.drain with
  | none => s
  | some dr =>
    if dr.open_ && dr.chan.isNone && !dr.lane && d.level = 0 && dr.issue + 40 ≤ s.me.run.g &&
        d.readSpans.any (fun r => spansMeet r ((dr.span.1 : Int), (dr.span.2 : Int))) then
      s.modMe fun c => { c with mtx := { c.mtx with drain := some { dr with taint := true } } }
    else s

/-! ## Step codes (R189) -/

/-- Whether a step code is legal for a word with the roles destination, first and second source, and a descriptor. -/
def stepLegal (code : BitVec 4) (d s1 s2 desc : Bool) : Bool :=
  match code.toNat with
  | 0 => true
  | 1 => d
  | 2 => s1
  | 3 => s2
  | 4 => d && s1
  | 5 => d && s2
  | 6 => true
  | 7 => desc
  | 8 => desc
  | _ => false

/-- Whether a step code advances the destination, the first source, the second source. -/
def stepsD (code : BitVec 4) : Bool := code = 1 || code = 4 || code = 5 || code = 6
def stepsS1 (code : BitVec 4) : Bool := code = 2 || code = 4 || code = 6
def stepsS2 (code : BitVec 4) : Bool := code = 3 || code = 5 || code = 6

/-- The index of a register field at repeat k; a channel keeps its number (R189). -/
def stepped (chan st : Bool) (idx k : Nat) : Nat := if st && !chan then idx + k else idx

/-- Fields of a 7-bit source (R188). -/
def srcChan (f : BitVec 7) : Bool := f.getLsbD 6
def srcPop (f : BitVec 7) : Bool := f.getLsbD 5
def srcIdx (f : BitVec 7) : Nat := f.toNat % 32

/-- Fields of a 6-bit destination (R188). -/
def dstChan (f : BitVec 6) : Bool := f.getLsbD 5
def dstIdx (f : BitVec 6) : Nat := f.toNat % 32

/-- Whether a source field of a vector word is legal by itself (R188, R190, R191, R238). -/
def srcLegal (f : BitVec 7) : Bool := if srcChan f then fixedOk 1 (srcIdx f) false else !srcPop f

/-- Whether a destination field of a vector word is legal by itself (R190, R191, R238): `only` demands a register. -/
def dstLegal (f : BitVec 6) (only msk : Bool) : Bool :=
  if dstChan f then !only && !msk && fixedOk 1 (dstIdx f) true else true

/-- Whether a stepped register index stays within 31 at the last repeat. -/
def idxLegal (chan st : Bool) (idx rep : Nat) : Bool := chan || !st || idx + rep ≤ 31

/-! ## Vector words -/

/-- What a V3 word uses (R187, R237): its lane types (0 none, 1 integer, 2 floating, 3 fields of its own), RM, SAT, MSK, the largest X,
va, vb, its destination (0 none, 1 register or channel, 2 register only), and step code 6. -/
structure VForm where
  ty  : Nat
  rm  : Bool
  sat : Bool
  msk : Bool
  x   : Nat
  va  : Bool
  vb  : Bool
  vd  : Nat
  six : Bool := true
  deriving DecidableEq, Repr

/-- Whether a V3 word is legal (R188 to R190, R237). -/
def v3Legal (f : VForm) (w : V3) : Bool :=
  (match f.ty with | 0 => w.t = 0 | 1 => w.t.toNat ≤ 5 | 2 => w.t.toNat ≤ 2 | _ => true) &&
  (f.rm || w.rm = 0) && (f.sat || !w.sat) && (f.msk || !w.msk) && w.x.toNat ≤ f.x &&
  (if f.va then srcLegal w.va && idxLegal (srcChan w.va) (stepsS1 w.step) (srcIdx w.va) w.rep.toNat else w.va = 0) &&
  (if f.vb then srcLegal w.vb && idxLegal (srcChan w.vb) (stepsS2 w.step) (srcIdx w.vb) w.rep.toNat else w.vb = 0) &&
  (if f.vd = 0 then w.vd = 0
   else dstLegal w.vd (f.vd = 2) w.msk && idxLegal (dstChan w.vd) (stepsD w.step) (dstIdx w.vd) w.rep.toNat) &&
  stepLegal w.step (f.vd != 0) f.va f.vb false && (f.six || w.step != 6)

/-- Whether a VI word is legal; `va` and `vd` tell whether it uses them. -/
def viLegal (w : VI) (va vd : Bool) : Bool :=
  (if va then srcLegal w.va && idxLegal (srcChan w.va) (stepsS1 w.step) (srcIdx w.va) w.rep.toNat else w.va = 0) &&
  (if vd then dstLegal w.vd false w.msk && idxLegal (dstChan w.vd) (stepsD w.step) (dstIdx w.vd) w.rep.toNat else w.vd = 0) &&
  stepLegal w.step vd va false false

/-- A source at the present repeat: its field and its register index. -/
structure VSrc where
  f   : BitVec 7
  idx : Nat
  deriving DecidableEq, Repr

/-- The entries that channel sources read, in order: channel and entry (R192). -/
def chanReads : List VSrc → List (Nat × Nat) → List (Option (Nat × Nat))
  | [], _ => []
  | v :: r, popped =>
    if srcChan v.f then
      let n := (popped.filter fun x => x.1 = v.idx).length
      some (v.idx, n) :: chanReads r (if srcPop v.f then (v.idx, 0) :: popped else popped)
    else none :: chanReads r popped

/-- The lanes of the sources (R191, R192, R238). -/
def State.srcLanes (s : State) (vs : List VSrc) : List (List Lane) :=
  (vs.zip (chanReads vs [])).map fun (v, c) => match c with
    | some (ch, i) => chanLanes ch (s.entry ch i)
    | none => lget s.me.vec.v v.idx (List.replicate 64 0)

/-- The channels popped, with the number of entries. -/
def popCounts (vs : List VSrc) : List (Nat × Nat) :=
  let chs := (vs.filter fun v => srcChan v.f && srcPop v.f).map (·.idx)
  chs.eraseDups.map fun c => (c, (chs.filter (· = c)).length)

/-- The first channel source whose entry has not landed (R193). -/
def State.srcMiss (s : State) (vs : List VSrc) : Option (Nat × Nat) :=
  (chanReads vs []).findSome? fun c => match c with
    | some (ch, i) => if s.entryLanded ch i then none else some (ch, i)
    | none => none

/-- The first fault of a word's channels (R194, R196): sources, then destination. -/
def State.chanFaults (s : State) (vs : List VSrc) (dst : Option (Bool × Nat)) : Option FaultRec :=
  firstFault ((vs.map fun v => if srcChan v.f then s.chanFault 1 v.idx false else none) ++
    [match dst with | some (true, c) => s.chanFault 1 c true | _ => none])

/-- The active lanes (R239). -/
def Core.active (c : Core) : BitVec 64 := topMask c.vec.masks

/-- What a repeat of a vector word produces: lanes, the lanes written, flags, changes of the mask stack, the sums that VDOTP
carries on (R263), and any other effect of the repeat. -/
structure VOut where
  lanes : List Lane
  wm    : BitVec 64
  fl    : Fx
  masks : List MaskOp := []
  acc   : List Lane := []
  also  : State → State := fun s => s

/-- The result of a repeat is written or pushed (R238, R240, R243). -/
def State.vecOut (s : State) (dst : Option (Bool × Nat)) (lat : Nat) (o : VOut) : State :=
  let s := match dst with
    | some (true, c) => s.push 1 c lat 4 o.lanes
    | some (false, r) => s.addLat 1 lat (.vreg r o.wm o.lanes)
    | none => s
  let s := if o.fl = 0 then s else s.addLat 1 lat (.vflag o.fl)
  o.masks.foldl (fun s m => s.addLat 1 lat (.mask m)) s

/-- A repeat of a vector word that reads `vs` and writes `dst` (R238): channel faults, misses, then `out`; `mesh` lets it push to a mesh
channel. DESIGN CHOICE: when a source and the destination both miss, the source is reported (log 90). -/
def State.vecGo (s : State) (i : Instr) (reps occ lat : Nat) (mesh : Bool) (vs : List VSrc) (dst : Option (Bool × Nat))
    (out : List (List Lane) → VOut) : State :=
  let bad := match dst with | some (true, c) => !mesh && s.isMesh s.cur.core c | _ => false
  if bad then s.illegalWord .vec i
  else match s.chanFaults vs dst with
    | some f => s.takeFault f
    | none =>
      match s.srcMiss vs with
      | some (c, k) => s.engMiss .vec (0x100 + c) (.entry c k)
      | none =>
        let full := match dst with | some (true, c) => if s.pushMiss c then some c else none | _ => none
        match full with
        | some c => s.engMiss .vec (0x100 + c) (s.pushAwait c)
        | none =>
          let o := out (s.srcLanes vs)
          let s := s.vecOut dst lat o
          let s := (popCounts vs).foldl (fun s (c, n) => s.popChan c n) s
          (o.also (s.modEng .vec fun e => { e with acc := o.acc })).engIssue .vec reps occ

/-- Sources and destination of a V3 word at its present repeat. -/
def v3Srcs (w : V3) (f : VForm) (k : Nat) : List VSrc :=
  (if f.va then [{ f := w.va, idx := stepped (srcChan w.va) (stepsS1 w.step) (srcIdx w.va) k }] else []) ++
  (if f.vb then [{ f := w.vb, idx := stepped (srcChan w.vb) (stepsS2 w.step) (srcIdx w.vb) k }] else [])

/-- The destination of a V3 word at repeat k. -/
def v3Dest (w : V3) (f : VForm) (k : Nat) : Option (Bool × Nat) :=
  if f.vd = 0 then none else some (dstChan w.vd, stepped (dstChan w.vd) (stepsD w.step) (dstIdx w.vd) k)

/-- The lanes that a word writes (R239). -/
def writeMask (act : BitVec 64) (msk : Bool) : BitVec 64 := if msk then act else BitVec.allOnes 64

/-- A V3 word whose result is computed lane by lane from a, b and the old destination. -/
def vec3 (i : Instr) (w : V3) (f : VForm) (lat : Nat) (op : Lane → Lane → Lane → LaneR) (s : State) : Res :=
  engRun .vec i (v3Legal f w) (fun s =>
    let k := (s.eng .vec).rep
    let dst := v3Dest w f k
    let old : List Lane := match dst with | some (false, r) => lget s.me.vec.v r [] | _ => []
    s.vecGo i (w.rep.toNat + 1) 1 lat false (v3Srcs w f k) dst fun vs =>
      let a := lget vs 0 []
      let b := lget vs 1 []
      let rs := (List.range 64).map fun l => op (lget a l 0) (lget b l 0) (lget old l 0)
      let wm := writeMask s.me.active w.msk
      { lanes := rs.map (·.1), wm := wm, fl := writtenFlags wm rs }) s

/-- A V3 word whose result is computed from all lanes at once: `op` takes the active lanes and the sources. -/
def vec3All (i : Instr) (w : V3) (f : VForm) (lat : Nat) (mesh : Bool) (op : BitVec 64 → List (List Lane) → VOut) (s : State) : Res :=
  engRun .vec i (v3Legal f w) (fun s =>
    let k := (s.eng .vec).rep
    s.vecGo i (w.rep.toNat + 1) 1 lat mesh (v3Srcs w f k) (v3Dest w f k) fun vs => op s.me.active vs) s

/-- A VI word computed lane by lane (R245, R246); `va` tells whether it reads va. -/
def vecI (i : Instr) (w : VI) (lat : Nat) (va legal : Bool) (op : Lane → Lane) (s : State) : Res :=
  engRun .vec i (viLegal w va true && legal) (fun s =>
    let k := (s.eng .vec).rep
    let vs : List VSrc := if va then [{ f := w.va, idx := stepped (srcChan w.va) (stepsS1 w.step) (srcIdx w.va) k }] else []
    s.vecGo i (w.rep.toNat + 1) 1 lat false vs (some (dstChan w.vd, stepped (dstChan w.vd) (stepsD w.step) (dstIdx w.vd) k)) fun ls =>
      let a := lget ls 0 []
      { lanes := (List.range 64).map fun l => op (lget a l 0), wm := writeMask s.me.active w.msk, fl := 0 }) s

end Sys2Proof.Machine
end

