-- ==== Sys2Proof/Machine/Banks.lean ====
section
/-!
DEFINITION. The SP1 banks on the port that the vector engine and the data engine share (R342 to R344).
-/

namespace Sys2Proof.Machine

/-- A chunk put into a falling list without repeats. -/
def chunkIns : List Nat → Nat → List Nat
  | [], c => [c]
  | x :: r, c => if x < c then c :: x :: r else if x = c then x :: r else x :: chunkIns r c

/-- The distinct 64-byte chunks that runs (address, length) touch, in address order. -/
def chunksOf (runs : List (Nat × Nat)) : List Nat :=
  (runs.foldl (fun l (a, n) => (granules a n).foldl chunkIns l) []).reverse

/-- The bank of a chunk (R55). -/
def bankOf (chunk : Nat) : Nat := chunk % 16

/-- How many of the chunks lie in bank b. -/
def bankLoad (cs : List Nat) (b : Nat) : Nat := (cs.filter fun c => bankOf c = b).length

/-- The cycles that a vector repeat of occupancy `occ` gains (R342). -/
def bankGain (cs : List Nat) (occ : Nat) : Nat := (List.range 16).foldl (fun m b => Nat.max m (bankLoad cs b)) 0 - occ

/-- The banks that a vector repeat issued at cycle x uses in each cycle: the chunks of a bank in consecutive cycles from x on (log 34). -/
def vecUse (cs : List Nat) (x : Nat) : List (Nat × List Nat) :=
  (List.range ((List.range 16).foldl (fun m b => Nat.max m (bankLoad cs b)) 0)).map fun j =>
    (x + j, (List.range 16).filter fun b => j < bankLoad cs b)

/-- The groups of a data-engine transfer, as lists of banks (R343). -/
def bankGroups : List Nat → List Nat → List (List Nat)
  | [], g => if g.isEmpty then [] else [g]
  | c :: r, g => if 16 ≤ g.length || g.contains (bankOf c) then g :: bankGroups r [bankOf c] else bankGroups r (g ++ [bankOf c])

/-- The cycles that groups beyond one per 16 chunks add (R343). -/
def extraGroups (cs : List Nat) : Nat := (bankGroups cs []).length - ceilDiv cs.length 16

/-- Groups one per cycle from cycle x on, and groups that end at cycle y. -/
def groupsFrom (cs : List Nat) (x : Nat) : List (Nat × List Nat) := (bankGroups cs []).zipIdx.map fun (g, i) => (x + i, g)
def groupsTo (cs : List Nat) (y : Nat) : List (Nat × List Nat) :=
  let gs := bankGroups cs []
  gs.zipIdx.map fun (g, i) => (y + 1 + i - gs.length, g)

/-- The first cycle from t on at which no vector repeat uses a bank of the group. -/
def freeCycle (use : List (Nat × List Nat)) (g : List Nat) : Nat → Nat → Nat
  | 0, t => t
  | fuel + 1, t => if use.any fun u => u.1 = t && u.2.any fun b => g.contains b then freeCycle use g fuel (t + 1) else t

/-- Groups moved out of the way of vector repeats, with the delay so far (R344). -/
def settle (use : List (Nat × List Nat)) : List (Nat × List Nat) → Nat → List (Nat × List Nat) × Nat
  | [], d => ([], d)
  | (t, g) :: r, d =>
    let t' := freeCycle use g 64 (t + d)
    let (r', d') := settle use r (t' - t)
    ((t', g) :: r', d')

/-- Effect `id` of core k lands d cycles later, with the channel entry that it pushes. -/
def Core.effLater (c : Core) (id d : Nat) : Core :=
  { c with pend := c.pend.map fun (q : Pend) => if q.id = id then { q with land := q.land + d } else q
           chans := c.chans.map fun (h : Chan) => { h with q := h.q.map fun (e : ChEntry) => if e.src = id then { e with land := e.land + d } else e } }

/-- The SP1 port as the main queues or the handler lanes use it, and that port replaced. -/
def Core.portsOf (c : Core) (lane : Bool) : Ports := if lane then c.lanePorts else c.ports
def Core.setPorts (c : Core) (lane : Bool) (p : Ports) : Core := if lane then { c with lanePorts := p } else { c with ports := p }

/-- The clock of that port on core k: the tide for the handler lanes (R141). -/
def State.portClk (s : State) (k : Nat) (lane : Bool) : Nat := if lane then s.tide else (s.core k).run.g

/-- Effect `id` moves by d with the repeat that it belongs to: the groups that end at its landing move with it, and give way again to vector
repeats already issued (R343, R344). -/
def Core.moveEff (c : Core) (lane : Bool) (now id d : Nat) : Core :=
  let ps := c.portsOf lane
  let use := ps.vec.filter fun u => now ≤ u.1
  let (mine, rest) := ps.data.partition fun p => p.id = id
  let moved := mine.map fun p => (p, settle use (p.groups.map fun (t, g) => (t + d, g)) 0)
  let x := moved.foldl (fun x m => Nat.max x m.2.2) 0
  ((c.setPorts lane { ps with data := rest ++ moved.map fun (p, g, _) => { p with groups := g } }).effLater id (d + x)).perfAdd 7 x

/-- A data-engine repeat's landing and, if it still issues, its occupancy grow by d; PERF7 counts them. What it writes from the bytes whose
read waited moves too, on other members as well (R344). -/
def State.delayPort (s : State) (k : Nat) (lane : Bool) (p : DPort) (d : Nat) : State :=
  if d = 0 then s
  else
    let now := s.portClk k lane
    let later (e : Engine) : Engine := if now < e.next then { e with next := e.next + d } else e
    let s := s.modCore k fun c =>
      let c := if p.id = 0 then c else c.effLater p.id d
      let c := if !p.own then c
        else if lane then { c with lanes := lmod c.lanes 2 Engine.zero later } else { c with engs := lmod c.engs 2 Engine.zero later }
      c.perfAdd 7 d
    p.also.foldl (fun s (r, id) => s.modCore r fun c => c.moveEff lane (s.portClk r lane) id d) s

/-- A vector repeat of the step's queue or lane uses the banks of its chunks from the present cycle on; a transfer that has landed, in a hold, is
out of the way (R344). -/
def State.vecPort (s : State) (cs : List Nat) : State :=
  let c := s.me
  let lane := s.cur.shadow
  let now := s.clk
  let ports := c.portsOf lane
  let use := ports.vec.filter (fun u => now ≤ u.1) ++ vecUse cs now
  let ps := (ports.data.map fun p => { p with groups := p.groups.filter fun g => now ≤ g.1 }).filter
    fun p => !p.groups.isEmpty && (p.id = 0 || c.pend.any fun q => q.id = p.id)
  let moved := ps.map fun p => (p, settle use p.groups 0)
  let s := s.modMe fun c => c.setPorts lane { vec := use, data := moved.map fun (p, g, _) => { p with groups := g } }
  moved.foldl (fun s (p, _, d) => s.delayPort s.cur.core lane p d) s

/-- A data-engine transfer uses the port of core k: its record `p`, whose groups give way to vector repeats already issued (R343, R344). -/
def State.dataPort (s : State) (k : Nat) (lane : Bool) (p : DPort) : State :=
  if p.groups.isEmpty then s
  else
    let ports := (s.core k).portsOf lane
    let use := ports.vec.filter fun u => s.portClk k lane ≤ u.1
    let (gs, d) := settle use p.groups 0
    (s.modCore k fun c => c.setPorts lane { vec := use, data := ports.data ++ [{ p with groups := gs }] }).delayPort k lane p d

/-- A repeat reads the chunks `src` from its issue at cycle x on: from now on its groups, and no earlier ones, lengthen the occupancy; a wait
moves the effects `also` (R343, R344). -/
def State.readPort (s : State) (x : Nat) (src : List Nat) (also : List (Nat × Nat)) : State :=
  let lane := s.cur.shadow
  (s.modMe fun c => c.setPorts lane { c.portsOf lane with data := (c.portsOf lane).data.map fun (p : DPort) => { p with own := false } }).dataPort
    s.cur.core lane { id := 0, own := true, groups := groupsFrom src x, also := also }

/-- Effect `id` of core k writes the chunks `cs` in groups that end at its landing (R343). -/
def State.writePort (s : State) (k : Nat) (lane : Bool) (id : Nat) (own : Bool) (cs : List Nat) : State :=
  match (s.core k).pend.find? fun p => p.id = id with
  | some p => s.dataPort k lane { id := id, own := own, groups := groupsTo cs p.land }
  | none => s

end Sys2Proof.Machine
end

