-- ==== Sys2Proof/Machine/VecInt.lean ====
section
/-!
DEFINITION. Integer, bit, compare, mask, permute and move words of the vector engine (R244 to R251, R257, R258), and the integer and
bitwise reductions (R256).
-/

namespace Sys2Proof.Machine

/-! ## Integer arithmetic (R244, R245) -/

/-- Width and signedness of an integer lane type (R237). -/
def intW (t : BitVec 3) : Nat := if t.toNat ≤ 1 then 32 else if t.toNat ≤ 3 then 16 else 8
def intS (t : BitVec 3) : Bool := t.toNat % 2 = 0

/-- A lane computed by sub-elements of w bits from their patterns. -/
def subElems (w : Nat) (op : Nat → Nat → Nat → Nat × Fx) (a b d : Lane) : LaneR :=
  let e (x : Lane) (i : Nat) : Nat := x.toNat / 2 ^ (w * i) % 2 ^ w
  let rs := (List.range (32 / w)).map fun i => op (e a i) (e b i) (e d i)
  (BitVec.ofNat 32 ((rs.zipIdx).foldl (fun n (r, i) => n + r.1 % 2 ^ w * 2 ^ (w * i)) 0), rs.foldl (fun f r => f ||| r.2) 0)

/-- An integer word whose exact result `op` gives from a, b and d; `sat` tells whether it saturates. -/
def vecInt (i : Instr) (w : V3) (satOk vb vdReg sat : Bool) (lat : Nat) (op : Int → Int → Int → Int) (s : State) : Res :=
  let n := intW w.t
  let sg := intS w.t
  vec3 i w { ty := 1, rm := false, sat := satOk, msk := true, x := 0, va := true, vb := vb, vd := if vdReg then 2 else 1 } lat
    (subElems n fun a b d => intResult n sg sat (op (toVal n sg a) (toVal n sg b) (toVal n sg d))) s

/-- VADD (R244). -/
def execVadd (w : V3) (s : State) : Res := vecInt (.vadd w) w false true false false 3 (fun a b _ => a + b) s
/-- VSUB (R244). -/
def execVsub (w : V3) (s : State) : Res := vecInt (.vsub w) w false true false false 3 (fun a b _ => a - b) s
/-- VMUL (R244). -/
def execVmul (w : V3) (s : State) : Res := vecInt (.vmul w) w true true false w.sat 4 (fun a b _ => a * b) s
/-- VMULH (R244): the high half of the product. -/
def execVmulh (w : V3) (s : State) : Res := vecInt (.vmulh w) w false true false false 4 (fun a b _ => a * b / 2 ^ intW w.t) s
/-- VMAC (R244). -/
def execVmac (w : V3) (s : State) : Res := vecInt (.vmac w) w true true true w.sat 4 (fun a b d => d + a * b) s
/-- VADDS (R244). -/
def execVadds (w : V3) (s : State) : Res := vecInt (.vadds w) w false true false true 3 (fun a b _ => a + b) s
/-- VSUBS (R244). -/
def execVsubs (w : V3) (s : State) : Res := vecInt (.vsubs w) w false true false true 3 (fun a b _ => a - b) s
/-- VABS (R244). -/
def execVabs (w : V3) (s : State) : Res := vecInt (.vabs w) w true false false w.sat 3 (fun a _ _ => a.natAbs) s
/-- VNEG (R244). -/
def execVneg (w : V3) (s : State) : Res := vecInt (.vneg w) w true false false w.sat 3 (fun a _ _ => -a) s
/-- VMIN (R244). -/
def execVmin (w : V3) (s : State) : Res := vecInt (.vmin w) w false true false false 3 (fun a b _ => min a b) s
/-- VMAX (R244). -/
def execVmax (w : V3) (s : State) : Res := vecInt (.vmax w) w false true false false 3 (fun a b _ => max a b) s
/-- VABSD (R244): exact as an unsigned value. -/
def execVabsd (w : V3) (s : State) : Res := vecInt (.vabsd w) w false true false false 3 (fun a b _ => (a - b).natAbs) s

/-- VADDI (R245). -/
def execVaddi (w : VI) (s : State) : Res := vecI (.vaddi w) w 3 true true (fun a => a + w.imm.signExtend 32) s
/-- VLI (R245). -/
def execVli (w : VI) (s : State) : Res := vecI (.vli w) w 2 false true (fun _ => w.imm.signExtend 32) s
/-- VLIH (R245). -/
def execVlih (w : VI) (s : State) : Res := vecI (.vlih w) w 2 true true (fun a => w.imm ++ a.setWidth 16) s

/-! ## Bit operations (R246, R247) -/

/-- A V3 word on whole lanes with latency 2 and no flag. -/
def vecBits (i : Instr) (w : V3) (x : Nat) (vb vdReg : Bool) (op : Lane → Lane → Lane → Lane) (s : State) : Res :=
  vec3 i w { ty := 0, rm := false, sat := false, msk := true, x := x, va := true, vb := vb, vd := if vdReg then 2 else 1 } 2
    (fun a b d => quiet (op a b d)) s

/-- Shifts by 0 to 63 (R246). -/
def shlBy (a : Lane) (n : Nat) : Lane := a <<< n
def shrBy (a : Lane) (n : Nat) : Lane := a >>> n
def sraBy (a : Lane) (n : Nat) : Lane := a.sshiftRight n
/-- The shift amount of a lane. -/
def amt (b : Lane) : Nat := b.toNat % 64

/-- VAND (R246). -/
def execVand (w : V3) (s : State) : Res := vecBits (.vand w) w 0 true false (fun a b _ => a &&& b) s
/-- VOR (R246). -/
def execVor (w : V3) (s : State) : Res := vecBits (.vor w) w 0 true false (fun a b _ => a ||| b) s
/-- VXOR (R246). -/
def execVxor (w : V3) (s : State) : Res := vecBits (.vxor w) w 0 true false (fun a b _ => a ^^^ b) s
/-- VNOT (R246). -/
def execVnot (w : V3) (s : State) : Res := vecBits (.vnot w) w 0 false false (fun a _ _ => ~~~a) s
/-- VANDI (R246). -/
def execVandi (w : VI) (s : State) : Res := vecI (.vandi w) w 2 true true (fun a => a &&& w.imm.setWidth 32) s
/-- VSHL (R246). -/
def execVshl (w : V3) (s : State) : Res := vecBits (.vshl w) w 0 true false (fun a b _ => shlBy a (amt b)) s
/-- VSHR (R246). -/
def execVshr (w : V3) (s : State) : Res := vecBits (.vshr w) w 0 true false (fun a b _ => shrBy a (amt b)) s
/-- VSRA (R246). -/
def execVsra (w : V3) (s : State) : Res := vecBits (.vsra w) w 0 true false (fun a b _ => sraBy a (amt b)) s
/-- Whether an immediate shift's upper bits are 0 (R246). -/
def shImm (w : VI) : Bool := w.imm.toNat < 64
/-- VSHLI (R246). -/
def execVshli (w : VI) (s : State) : Res := vecI (.vshli w) w 2 true (shImm w) (fun a => shlBy a w.imm.toNat) s
/-- VSHRI (R246). -/
def execVshri (w : VI) (s : State) : Res := vecI (.vshri w) w 2 true (shImm w) (fun a => shrBy a w.imm.toNat) s
/-- VSRAI (R246). -/
def execVsrai (w : VI) (s : State) : Res := vecI (.vsrai w) w 2 true (shImm w) (fun a => sraBy a w.imm.toNat) s
/-- VROT (R246). -/
def execVrot (w : V3) (s : State) : Res :=
  vecBits (.vrot w) w 1 true false (fun a b _ => if w.x = 1 then a.rotateRight (b.toNat % 32) else a.rotateLeft (b.toNat % 32)) s

/-- Number of 1 bits. -/
def popCount (a : Lane) : Nat := ((List.range 32).filter fun i => a.getLsbD i).length
/-- Leading zero bits. -/
def leadZeros (a : Lane) : Nat := if a = 0 then 32 else 31 - a.toNat.log2

/-- VPOPC (R246). -/
def execVpopc (w : V3) (s : State) : Res := vecBits (.vpopc w) w 0 false false (fun a _ _ => BitVec.ofNat 32 (popCount a)) s
/-- VCLZ (R246). -/
def execVclz (w : V3) (s : State) : Res := vecBits (.vclz w) w 0 false false (fun a _ _ => BitVec.ofNat 32 (leadZeros a)) s

/-- VFSH (R247): va is the high word. -/
def execVfsh (w : V3) (s : State) : Res :=
  vecBits (.vfsh w) w 1 true true (fun a b d =>
    let u : BitVec 64 := a ++ b
    let n := d.toNat % 64
    if w.x = 1 then (u <<< n).extractLsb' 32 32 else (u >>> n).setWidth 32) s

/-- A bit field of b bits from position p of a. -/
def bitField (a : Lane) (p len : Nat) (sg : Bool) : Lane :=
  let f := a.toNat / 2 ^ p % 2 ^ len
  BitVec.ofInt 32 (if sg && len != 0 then toVal len true f else f)

/-- Position and length of VBFX and VBFI. -/
def bfPos (b : Lane) : Nat := b.toNat % 32
def bfLen (b : Lane) : Nat := Nat.min (b.toNat / 256 % 64) 32

/-- VBFX (R247). -/
def execVbfx (w : V3) (s : State) : Res :=
  vecBits (.vbfx w) w 1 true false (fun a b _ => bitField a (bfPos b) (bfLen b) (w.x = 1)) s

/-- VBFI (R247). -/
def execVbfi (w : V3) (s : State) : Res :=
  vecBits (.vbfi w) w 0 true true (fun a b d =>
    let m : Lane := (BitVec.ofNat 32 (2 ^ bfLen b - 1)) <<< bfPos b
    (d &&& ~~~m) ||| ((a <<< bfPos b) &&& m)) s

/-! ## Compares and masks (R248 to R251) -/

/-- The VCMP conditions (R248). -/
def intCond (x : Nat) (a b : Lane) : Bool :=
  match x with
  | 0 => a == b
  | 1 => a != b
  | 2 => a.slt b
  | 3 => b.sle a
  | 4 => a.ult b
  | 5 => b.ule a
  | 6 => b.slt a
  | _ => a.sle b

/-- The depth of the mask stack counting changes not yet landed (R250). -/
def Core.maskDepth (c : Core) : Nat :=
  c.pend.foldl (fun n p => match p.eff with
    | .mask (.push _) => n + 1
    | .mask .pop => n - 1
    | .mask .clr => 0
    | _ => n) c.vec.masks.length

/-- A 64-bit mask from lanes. -/
def laneMask (t : Nat → Bool) : BitVec 64 := BitVec.ofNat 64 (((List.range 64).filter t).foldl (fun n i => n + 2 ^ i) 0)

/-- A change of the mask stack that pushes: ILLEGAL_WORD beyond depth 16 (R250). -/
def State.pushOk (s : State) : Bool := s.me.maskDepth < 16

/-- A compare with V3 fields (R248): bit 7 is PUSH. -/
def vecCmp (i : Instr) (w : V3) (cond : Nat → Lane → Lane → Bool) (s : State) : Res :=
  let push := w.sat
  let f : VForm := { ty := 0, rm := false, sat := true, msk := !push, x := 7, va := true, vb := true, vd := if push then 0 else 1 }
  if !push then
    vec3 i w f 3 (fun a b _ => quiet (if cond w.x.toNat a b then BitVec.allOnes 32 else 0)) s
  else
    engRun .vec i (v3Legal f w && !w.msk) (fun s =>
      if !s.pushOk then s.illegalWord .vec i
      else
        let k := (s.eng .vec).rep
        s.vecGo i (w.rep.toNat + 1) 1 3 false (v3Srcs w f k) none fun vs =>
          { lanes := [], wm := 0, fl := 0
            masks := [.push (laneMask fun l => cond w.x.toNat (lget (lget vs 0 []) l 0) (lget (lget vs 1 []) l 0))] }) s

/-- VCMP (R248). -/
def execVcmp (w : V3) (s : State) : Res := vecCmp (.vcmp w) w intCond s

/-- VCMPI (R249). -/
def execVcmpi (w : VI) (s : State) : Res :=
  let push := w.imm.getLsbD 15
  let x := (w.imm.extractLsb' 12 3).toNat
  let b : Lane := (w.imm.setWidth 12).signExtend 32
  if !push then vecI (.vcmpi w) w 3 true true (fun a => if intCond x a b then BitVec.allOnes 32 else 0) s
  else
    engRun .vec (.vcmpi w) (viLegal w true false && !w.msk) (fun s =>
      if !s.pushOk then s.illegalWord .vec (.vcmpi w)
      else
        let k := (s.eng .vec).rep
        s.vecGo (.vcmpi w) (w.rep.toNat + 1) 1 3 false [{ f := w.va, idx := stepped (srcChan w.va) (stepsS1 w.step) (srcIdx w.va) k }] none
          fun vs => { lanes := [], wm := 0, fl := 0, masks := [.push (laneMask fun l => intCond x (lget (lget vs 0 []) l 0) b)] }) s

/-- The form of a mask word: X up to `x`, va used or not, every other field 0 (R250). -/
def maskForm (x : Nat) (va : Bool) : VForm :=
  { ty := 0, rm := false, sat := false, msk := false, x := x, va := va, vb := false, vd := 0 }

/-- A mask word (R250): REP and STEP 0; ILLEGAL_WORD when the depth does not allow it. -/
def vecMask (i : Instr) (w : V3) (x : Nat) (va : Bool) (allow : Nat → Bool) (ops : List (List Lane) → List MaskOp) (s : State) : Res :=
  engRun .vec i (v3Legal (maskForm x va) w && w.rep = 0 && w.step = 0) (fun s =>
    if !allow s.me.maskDepth then s.illegalWord .vec i
    else s.vecGo i 1 1 3 false (v3Srcs w (maskForm x va) 0) none fun vs => { lanes := [], wm := 0, fl := 0, masks := ops vs }) s

/-- MPUSH (R250). -/
def execMpush (w : V3) (s : State) : Res :=
  vecMask (.mpush w) w 0 true (· < 16) (fun vs => [.push (laneMask fun l => lget (lget vs 0 []) l 0 != 0)]) s
/-- MINV (R250). -/
def execMinv (w : V3) (s : State) : Res := vecMask (.minv w) w 0 false (1 ≤ ·) (fun _ => [.inv]) s
/-- MPOP (R250): X + 1 entries. -/
def execMpop (w : V3) (s : State) : Res :=
  vecMask (.mpop w) w 7 false (w.x.toNat + 1 ≤ ·) (fun _ => List.replicate (w.x.toNat + 1) .pop) s
/-- MCLR (R250). -/
def execMclr (w : V3) (s : State) : Res := vecMask (.mclr w) w 0 false (fun _ => true) (fun _ => [.clr]) s

/-- VSEL (R251): writes every lane. -/
def execVsel (w : V3) (s : State) : Res :=
  vec3All (.vsel w) w { ty := 0, rm := false, sat := false, msk := false, x := 0, va := true, vb := true, vd := 1 } 2 false
    (fun act vs =>
      { lanes := (List.range 64).map fun l => if act.getLsbD l then lget (lget vs 0 []) l 0 else lget (lget vs 1 []) l 0
        wm := BitVec.allOnes 64, fl := 0 }) s

/-! ## Reductions (R256) -/

/-- One level of the reduction tree. -/
def reduceLevel {α : Type} (op : α → α → α) : List (Option α) → List (Option α)
  | x :: y :: r => (match x, y with
      | some a, some b => some (op a b)
      | some a, none => some a
      | none, q => q) :: reduceLevel op r
  | l => l

/-- The root of the reduction tree over 64 lanes (R256). -/
def reduceTree {α : Type} (op : α → α → α) (l : List (Option α)) : Option α :=
  lget ((List.range 6).foldl (fun l _ => reduceLevel op l) l) 0 none

/-- A reduction whose nodes carry flags; `empty` is its value without lanes (R256), `fin` what the root's value becomes. -/
def vecReduce (i : Instr) (w : V3) (ty : Nat) (rm sat : Bool) (legal : Bool) (empty : Lane) (op : LaneR → LaneR → LaneR) (s : State)
    (fin : Lane → Lane := fun x => x) : Res :=
  let f : VForm := { ty := ty, rm := rm, sat := sat, msk := true, x := 0, va := true, vb := false, vd := 1 }
  engRun .vec i (v3Legal f w && legal) (fun s =>
    let k := (s.eng .vec).rep
    s.vecGo i (w.rep.toNat + 1) 1 9 false (v3Srcs w f k) (v3Dest w f k) fun vs =>
      let act := writeMask s.me.active w.msk
      let r := (reduceTree op ((List.range 64).map fun l => if act.getLsbD l then some (quiet (lget (lget vs 0 []) l 0)) else none)).getD (quiet empty)
      { lanes := List.replicate 64 (fin r.1), wm := BitVec.allOnes 64, fl := r.2 }) s

/-- A node that keeps the flags of its children. -/
def node (op : Lane → Lane → LaneR) (a b : LaneR) : LaneR :=
  let r := op a.1 b.1
  (r.1, a.2 ||| b.2 ||| r.2)

/-- VRADD (R256): INT32 or UINT32. -/
def execVradd (w : V3) (s : State) : Res :=
  vecReduce (.vradd w) w 1 false true (w.t.toNat ≤ 1) 0
    (node fun a b => patR (intResult 32 (intS w.t) w.sat (toVal 32 (intS w.t) a.toNat + toVal 32 (intS w.t) b.toNat))) s
/-- VRMIN (R256). -/
def execVrmin (w : V3) (s : State) : Res :=
  vecReduce (.vrmin w) w 1 false false (w.t.toNat ≤ 1) (if w.t = 0 then 0x7FFFFFFF else 0xFFFFFFFF)
    (node fun a b => quiet (if (if w.t = 0 then b.slt a else b.ult a) then b else a)) s
/-- VRMAX (R256). -/
def execVrmax (w : V3) (s : State) : Res :=
  vecReduce (.vrmax w) w 1 false false (w.t.toNat ≤ 1) (if w.t = 0 then 0x80000000 else 0)
    (node fun a b => quiet (if (if w.t = 0 then a.slt b else a.ult b) then b else a)) s
/-- VRAND (R256). -/
def execVrand (w : V3) (s : State) : Res := vecReduce (.vrand w) w 0 false false true 0xFFFFFFFF (node fun a b => quiet (a &&& b)) s
/-- VROR (R256). -/
def execVror (w : V3) (s : State) : Res := vecReduce (.vror w) w 0 false false true 0 (node fun a b => quiet (a ||| b)) s
/-- VRXOR (R256). -/
def execVrxor (w : V3) (s : State) : Res := vecReduce (.vrxor w) w 0 false false true 0 (node fun a b => quiet (a ^^^ b)) s

/-! ## Permutes and moves (R257, R258) -/

/-- A permute: `pick` gives lane l from the sources; MSK is honoured (R239). -/
def vecPerm (i : Instr) (w : V3) (f : VForm) (lat : Nat) (mesh : Bool) (pick : List Lane → List Lane → Nat → Lane) (s : State) : Res :=
  vec3All i w f lat mesh (fun act vs =>
    { lanes := (List.range 64).map (pick (lget vs 0 []) (lget vs 1 [])), wm := writeMask act w.msk, fl := 0 }) s

/-- The form of a permute. -/
def permForm (ty x : Nat) (vb : Bool) : VForm :=
  { ty := ty, rm := false, sat := false, msk := true, x := x, va := true, vb := vb, vd := 1 }

/-- VPERM (R257). -/
def execVperm (w : V3) (s : State) : Res := vecPerm (.vperm w) w (permForm 0 0 true) 3 false (fun a b l => lget a ((lget b l 0).toNat % 64) 0) s

/-- VBCST (R257): vb holds the lane number. -/
def execVbcst (w : V3) (s : State) : Res :=
  let f : VForm := { permForm 0 0 false with six := false }
  engRun .vec (.vbcst w) (v3Legal f { w with vb := 0 } && !w.vb.getLsbD 6) (fun s =>
    let k := (s.eng .vec).rep
    s.vecGo (.vbcst w) (w.rep.toNat + 1) 1 3 false (v3Srcs w f k) (v3Dest w f k) fun vs =>
      { lanes := List.replicate 64 (lget (lget vs 0 []) (w.vb.toNat % 64) 0), wm := writeMask s.me.active w.msk, fl := 0 }) s

/-- The lane number that T and X hold (R257, R258). -/
def txNum (w : V3) : Nat := w.t.toNat * 8 + w.x.toNat

/-- VSLUP (R257). -/
def execVslup (w : V3) (s : State) : Res :=
  let n := txNum w
  vecPerm (.vslup w) w (permForm 3 7 true) 3 false (fun a b l => if n ≤ l then lget a (l - n) 0 else lget b (64 - n + l) 0) s
/-- VSLDN (R257). -/
def execVsldn (w : V3) (s : State) : Res :=
  let n := txNum w
  vecPerm (.vsldn w) w (permForm 3 7 true) 3 false (fun a b l => if l + n ≤ 63 then lget a (l + n) 0 else lget b (l + n - 64) 0) s
/-- VREV (R257). -/
def execVrev (w : V3) (s : State) : Res := vecPerm (.vrev w) w (permForm 0 0 false) 3 false (fun a _ l => lget a (63 - l) 0) s
/-- VZIP (R257). -/
def execVzip (w : V3) (s : State) : Res :=
  let h := 32 * w.x.toNat
  vecPerm (.vzip w) w (permForm 0 1 true) 3 false (fun a b l => if l % 2 = 0 then lget a (l / 2 + h) 0 else lget b (l / 2 + h) 0) s
/-- VUZP (R257). -/
def execVuzp (w : V3) (s : State) : Res :=
  let p := w.x.toNat
  vecPerm (.vuzp w) w (permForm 0 1 true) 3 false (fun a b l => if l < 32 then lget a (2 * l + p) 0 else lget b (2 * (l - 32) + p) 0) s

/-- VMOV (R258): the only word that may push to a mesh channel. -/
def execVmov (w : V3) (s : State) : Res := vecPerm (.vmov w) w (permForm 0 0 false) 2 true (fun a _ l => lget a l 0) s

/-- VBCS (R258): va names c7; the low or the high word of its entry goes to every lane. -/
def execVbcs (w : V3) (s : State) : Res :=
  let f := permForm 0 1 false
  engRun .vec (.vbcs w) (v3Legal f w && srcChan w.va && srcIdx w.va = 7) (fun s =>
    let k := (s.eng .vec).rep
    let e := s.entry 7 0
    s.vecGo (.vbcs w) (w.rep.toNat + 1) 1 2 false (v3Srcs w f k) (v3Dest w f k) fun _ =>
      { lanes := List.replicate 64 (lget e w.x.toNat 0), wm := writeMask s.me.active w.msk, fl := 0 }) s

/-- VINS (R258): one lane of the destination register. -/
def execVins (w : V3) (s : State) : Res :=
  let f : VForm := { ty := 3, rm := false, sat := false, msk := false, x := 7, va := true, vb := false, vd := 2, six := false }
  let old : List Lane := match v3Dest w f (s.eng .vec).rep with | some (false, r) => lget s.me.vec.v r [] | _ => []
  vec3All (.vins w) w f 2 false
    (fun _ vs => { lanes := (List.range 64).map fun l => if l = txNum w then lget (lget vs 0 []) 0 0 else lget old l 0
                   wm := BitVec.allOnes 64, fl := 0 }) s

end Sys2Proof.Machine
end

