-- ==== Sys2Proof/Machine/VecFloat.lean ====
section
/-!
DEFINITION. Floating words, table-defined functions, conversions, floating reductions and VDOTP of the vector engine (R248, R252 to
R256, R262 to R264).
-/

namespace Sys2Proof.Machine

/-- Format code of a floating lane type (R237). -/
def fltF (t : BitVec 3) : Nat := lget [10, 8, 9] t.toNat 10

/-! ## Arithmetic (R252, R253) -/

/-- A value with flags rounded to a format: pattern and flags. -/
def roundR (f rm : Nat) (sat : Bool) (v : Fl × Fx) : Nat × Fx :=
  let (p, x) := roundFl f rm sat v.1
  (p, v.2 ||| x)

/-- The exact a × b + c; a NaN addend makes 0 × ∞ raise nothing (R91). -/
def flFma (rm : Nat) (a b c : Fl) : Fl × Fx :=
  let (p, x) := flMul a b
  let (v, y) := flAdd rm p c
  (v, (if c.isNaN then 0 else x) ||| y)

/-- A floating word: `op` gives format, rounding mode and operands' results. -/
def vecFlt (i : Instr) (w : V3) (rounds vb vdReg : Bool) (lat : Nat) (op : Nat → Nat → Nat → Nat → Nat → Nat × Fx) (s : State) : Res :=
  let f := fltF w.t
  vec3 i w { ty := 2, rm := rounds, sat := rounds, msk := true, x := 0, va := true, vb := vb, vd := if vdReg then 2 else 1 } lat
    (subElems (fWidth f) (op f w.rm.toNat)) s

/-- VFADD (R252). -/
def execVfadd (w : V3) (s : State) : Res :=
  vecFlt (.vfadd w) w true true false 5 (fun f m a b _ => roundR f m w.sat (flAdd m (decodeF f a) (decodeF f b))) s
/-- VFSUB (R252). -/
def execVfsub (w : V3) (s : State) : Res :=
  vecFlt (.vfsub w) w true true false 5 (fun f m a b _ => roundR f m w.sat (flAdd m (decodeF f a) (flNeg (decodeF f b)))) s
/-- VFMUL (R252). -/
def execVfmul (w : V3) (s : State) : Res :=
  vecFlt (.vfmul w) w true true false 5 (fun f m a b _ => roundR f m w.sat (flMul (decodeF f a) (decodeF f b))) s
/-- VFMA (R252). -/
def execVfma (w : V3) (s : State) : Res :=
  vecFlt (.vfma w) w true true true 5 (fun f m a b d => roundR f m w.sat (flFma m (decodeF f a) (decodeF f b) (decodeF f d))) s
/-- VFMS (R252): d − a × b. -/
def execVfms (w : V3) (s : State) : Res :=
  vecFlt (.vfms w) w true true true 5 (fun f m a b d => roundR f m w.sat (flFma m (flNeg (decodeF f a)) (decodeF f b) (decodeF f d))) s
/-- VFSQRT (R252). -/
def execVfsqrt (w : V3) (s : State) : Res := vecFlt (.vfsqrt w) w true false false 12 (fun f m a _ _ => fpSqrt f m a) s
/-- VFMIN (R253). -/
def execVfmin (w : V3) (s : State) : Res := vecFlt (.vfmin w) w false true false 5 (fun f _ a b _ => (fpMinMax f false false a b, 0)) s
/-- VFMAX (R253). -/
def execVfmax (w : V3) (s : State) : Res := vecFlt (.vfmax w) w false true false 5 (fun f _ a b _ => (fpMinMax f true false a b, 0)) s
/-- VFMINP (R253). -/
def execVfminp (w : V3) (s : State) : Res := vecFlt (.vfminp w) w false true false 5 (fun f _ a b _ => (fpMinMax f false true a b, 0)) s
/-- VFMAXP (R253). -/
def execVfmaxp (w : V3) (s : State) : Res := vecFlt (.vfmaxp w) w false true false 5 (fun f _ a b _ => (fpMinMax f true true a b, 0)) s

/-- A pattern with another sign; a NaN gives the canonical NaN (R253). -/
def fpSign (f a : Nat) (neg : Bool) : Nat :=
  if (decodeF f a).isNaN then canonNaN f else zeroPat f neg + a % 2 ^ (fWidth f - 1)

/-- VFABS (R253). -/
def execVfabs (w : V3) (s : State) : Res := vecFlt (.vfabs w) w false false false 2 (fun f _ a _ _ => (fpSign f a false, 0)) s
/-- VFNEG (R253). -/
def execVfneg (w : V3) (s : State) : Res := vecFlt (.vfneg w) w false false false 2 (fun f _ a _ _ => (fpSign f a (!signBit f a), 0)) s

/-- The VFCMP conditions (R94, R248). -/
def fltCond (x : Nat) (a b : Lane) : Bool :=
  let p := decodeF 10 a.toNat
  let q := decodeF 10 b.toNat
  let un := p.isNaN || q.isNaN
  let c := flCmp p q
  match x with
  | 0 => !un && c = 0
  | 1 => un || c != 0
  | 2 => !un && c < 0
  | 3 => !un && c ≤ 0
  | 4 => !un && 0 < c
  | 5 => !un && 0 ≤ c
  | 6 => un
  | _ => !un

/-- VFCMP (R248). -/
def execVfcmp (w : V3) (s : State) : Res := vecCmp (.vfcmp w) w fltCond s

/-! ## Table-defined functions (R254) -/

/-- A table-defined word. -/
def vecTable (i : Instr) (w : V3) (fn : Nat → Nat × Fx) (s : State) : Res :=
  vec3 i w { ty := 0, rm := false, sat := false, msk := true, x := 0, va := true, vb := false, vd := 1 } 8
    (fun a _ _ => patR (fn a.toNat)) s

/-- VRCP (R254). -/
def execVrcp (w : V3) (s : State) : Res := vecTable (.vrcp w) w fRcp s
/-- VRSQ (R254). -/
def execVrsq (w : V3) (s : State) : Res := vecTable (.vrsq w) w fRsq s
/-- VEXP2 (R254). -/
def execVexp2 (w : V3) (s : State) : Res := vecTable (.vexp2 w) w fExp2 s
/-- VLOG2 (R254). -/
def execVlog2 (w : V3) (s : State) : Res := vecTable (.vlog2 w) w fLog2 s

/-! ## Conversions (R255) -/

/-- A result pattern of format g placed in a lane (R255). -/
def placeCvt (g p : Nat) : Lane :=
  if !isFloat g && iSigned g && iWidth g < 32 then BitVec.ofInt 32 (toVal (iWidth g) true p) else BitVec.ofNat 32 p

/-- The lanes of a conversion from f to g (R255): INT64 elements take lane pairs. -/
def cvtLanes (f g rm : Nat) (sat : Bool) (a : List Lane) : List LaneR :=
  (List.range 64).map fun l =>
    let even := l / 2 * 2
    let src : Nat :=
      if f = 5 then (lget a even 0).toNat + 2 ^ 32 * (lget a (even + 1) 0).toNat
      else (lget a (if g = 5 then even else l) 0).toNat
    let bits := if isFloat f then fWidth f else iWidth f
    let r := cvt f g rm sat (src % 2 ^ bits)
    if g = 5 then (if l % 2 = 0 then patR r else (BitVec.ofNat 32 (r.1 / 2 ^ 32), 0))
    else if f = 5 then (if l % 2 = 0 then (placeCvt g r.1, r.2) else quiet 0)
    else (placeCvt g r.1, r.2)

/-- The lanes written by a conversion: a pair follows its even lane. -/
def pairMask (pair : Bool) (m : BitVec 64) : BitVec 64 :=
  if pair then laneMask fun l => m.getLsbD (l / 2 * 2) else m

/-- VCVT (R255): the source code stands in bits 16 to 13, the destination code in bits 5 to 0. -/
def execVcvt (w : V3) (s : State) : Res :=
  let f := w.vb.toNat / 8
  let g := txNum w
  let form : VForm := { ty := 3, rm := true, sat := true, msk := true, x := 7, va := true, vb := false, vd := 1 }
  engRun .vec (.vcvt w) (v3Legal form { w with vb := 0 } && w.vb.toNat % 8 = 0 && f ≤ 10 && g ≤ 10) (fun s =>
    let k := (s.eng .vec).rep
    s.vecGo (.vcvt w) (w.rep.toNat + 1) 1 4 false (v3Srcs w form k) (v3Dest w form k) fun vs =>
      let rs := cvtLanes f g w.rm.toNat w.sat (lget vs 0 [])
      let wm := writeMask (pairMask (f = 5 || g = 5) s.me.active) w.msk
      { lanes := rs.map (·.1), wm := wm, fl := writtenFlags wm rs }) s

/-! ## Floating reductions (R256) -/

/-- The result of a floating reduction: a NaN that a lone lane passes to the root is the canonical one (R89). -/
def canonLane (x : Lane) : Lane := if (decodeF 10 x.toNat).isNaN then BitVec.ofNat 32 (canonNaN 10) else x

/-- VRFADD (R256). -/
def execVrfadd (w : V3) (s : State) : Res :=
  vecReduce (.vrfadd w) w 0 true false true 0 (node fun a b => patR (fpAdd 10 w.rm.toNat a.toNat b.toNat)) s canonLane
/-- VRFMIN (R256). -/
def execVrfmin (w : V3) (s : State) : Res :=
  vecReduce (.vrfmin w) w 0 false false true 0x7F800000 (node fun a b => patR (fpMinMax 10 false false a.toNat b.toNat, 0)) s canonLane
/-- VRFMAX (R256). -/
def execVrfmax (w : V3) (s : State) : Res :=
  vecReduce (.vrfmax w) w 0 false false true 0xFF800000 (node fun a b => patR (fpMinMax 10 true false a.toNat b.toNat, 0)) s canonLane

/-! ## VDOTP (R262 to R264) -/

/-- Formats of the A and B operands of a profile and T (R262). -/
def dotFmts (p t : Nat) : Nat × Nat :=
  match p with
  | 0 => (if t % 2 = 0 then 2 else 0, if t / 2 % 2 = 0 then 2 else 0)
  | 1 => (if t % 2 = 0 then 6 else 7, if t / 2 % 2 = 0 then 6 else 7)
  | 2 => (if t % 2 = 0 then 9 else 8, if t / 2 % 2 = 0 then 9 else 8)
  | 3 => (10, 10)
  | _ => (lget [9, 8, 6, 7] (t % 4) 9, 9)

/-- Bits of a dot-product operand format. -/
def dotBits (f : Nat) : Nat := if isFloat f then fWidth f else iWidth f

/-- Whether a VDOTP word is legal (R97, R105, R262). -/
def dotLegal (allow : BitVec 5) (w : V3) : Bool :=
  let p := w.x.toNat
  v3Legal { ty := 3, rm := true, sat := false, msk := false, x := 4, va := true, vb := true, vd := 2 } w &&
  allow.getLsbD p &&
  (if p = 1 || p = 2 then w.rm.toNat ≤ 1 else w.rm = 0) &&
  (if p = 3 then w.t = 0 else w.t.toNat < 4)

/-- The element pairs of a repeat in order; none where the lane is inactive (R263). -/
def dotPairs (fa fb : Nat) (act : BitVec 64) (a b : List Lane) : List (Option (Nat × Nat)) :=
  let ca := 32 / dotBits fa
  let cb := 32 / dotBits fb
  let m := Nat.min ca cb
  let el (l : List Lane) (bits c k : Nat) : Nat := (lget l (k / c) 0).toNat / 2 ^ (bits * (k % c)) % 2 ^ bits
  (List.range (64 * m)).map fun k =>
    if act.getLsbD (k / m) then some (el a (dotBits fa) ca k, el b (dotBits fb) cb k) else none

/-- One product of P0 entered into accumulator, inner accumulator, count and flags (R99). -/
def p0Step (n : Nat) (st : Int × Int × Nat × Fx) (x : Int) : Int × Int × Nat × Fx :=
  let (acc, inner, count, fl) := st
  if n ≤ count + 1 then
    let t := acc + (inner + x)
    (toVal 32 true (wrapPat 32 t), 0, 0, if t < iMin 32 true || iMax 32 true < t then fl ||| fOF else fl)
  else (acc, inner + x, count + 1, fl)

/-- The promotion after the last product (R99). -/
def p0End (st : Int × Int × Nat × Fx) : Nat × Fx :=
  let (acc, inner, _, fl) := st
  let t := acc + inner
  (wrapPat 32 t, if t < iMin 32 true || iMax 32 true < t then fl ||| fOF else fl)

/-- The present elements of each run of n, in order, as values. -/
def dotRuns (fa fb n : Nat) (es : List (Option (Nat × Nat))) : List (List (Fl × Fl)) :=
  (chunks n es.length es).map fun r => r.filterMap fun e => e.map fun (x, y) => (decodeF fa x, decodeF fb y)

/-- The sums after a repeat, from the sums before it: the accumulator; for P0 also the inner accumulator and count; the flags so far
(R263). `n8` and `n4` are the fields of PROMO. -/
def dotRepeat (w : V3) (n8 n4 : Nat) (act : BitVec 64) (a b acc : List Lane) : List Lane :=
  let p := w.x.toNat
  let (fa, fb) := dotFmts p w.t.toNat
  let es := dotPairs fa fb act a b
  let acc0 := (lget acc 0 0).toNat
  let fl0 : Fx := (lget acc 3 0).setWidth 7
  if p = 0 then
    let n := if fa = 0 && fb = 0 then n4 else n8
    let st := es.foldl (fun st e => match e with
      | some (x, y) => p0Step n st (toVal (iWidth fa) true x * toVal (iWidth fb) true y)
      | none => st) (toVal 32 true acc0, (lget acc 1 0).toInt, (lget acc 2 0).toNat, fl0)
    [BitVec.ofInt 32 st.1, BitVec.ofInt 32 st.2.1, BitVec.ofNat 32 st.2.2.1, st.2.2.2.setWidth 32]
  else if p = 3 then
    let r := p3Sum acc0 (es.filterMap fun e => e.map fun (x, y) => (decodeF 10 x, decodeF 10 y))
    [BitVec.ofNat 32 r.1, 0, 0, (fl0 ||| r.2).setWidth 32]
  else
    let (win, g) := if p = 1 then (25, 16) else (38, 8)
    let r := (dotRuns fa fb g es).foldl (fun (st : Nat × Fx) grp =>
      if grp.isEmpty then st
      else
        let x := groupSum win w.rm.toNat st.1 grp
        (x.1, st.2 ||| x.2)) (acc0, fl0)
    [BitVec.ofNat 32 r.1, 0, 0, r.2.setWidth 32]

/-- The result of a VDOTP from its sums (R99, R104, R263). -/
def dotEnd (p : Nat) (acc : List Lane) : Nat × Fx :=
  let fl : Fx := (lget acc 3 0).setWidth 7
  if p = 0 then p0End (toVal 32 true (lget acc 0 0).toNat, (lget acc 1 0).toInt, (lget acc 2 0).toNat, fl)
  else if p = 4 then
    let r := roundFl 9 0 false (decodeF 10 (lget acc 0 0).toNat)
    (r.1, fl ||| (r.2 &&& fOF))
  else ((lget acc 0 0).toNat, fl)

/-- VDOTP (R262, R263). -/
def execVdotp (w : V3) (s : State) : Res :=
  let form : VForm := { ty := 3, rm := true, sat := false, msk := false, x := 4, va := true, vb := true, vd := 2 }
  engRun .vec (.vdotp w) (dotLegal s.me.params.allow w) (fun s =>
    let k := (s.eng .vec).rep
    let p := w.x.toNat
    let last := k = w.rep.toNat
    let acc : List Lane :=
      if k = 0 || (s.eng .vec).acc.isEmpty then [if p = 4 then 0 else lget (lget s.me.vec.v (dstIdx w.vd) []) 0 0]
      else (s.eng .vec).acc
    let n8 := s.me.params.n8.toNat
    let n4 := s.me.params.n4.toNat
    let dst : Option (Bool × Nat) := if last then v3Dest w form k else none
    s.vecGo (.vdotp w) (w.rep.toNat + 1) 1 12 false (v3Srcs w form k) dst fun vs =>
      let acc' := dotRepeat w n8 n4 s.me.active (lget vs 0 []) (lget vs 1 []) acc
      let r := dotEnd p acc'
      { lanes := [BitVec.ofNat 32 r.1], wm := 1, fl := if last then r.2 else 0, acc := acc' }) s

end Sys2Proof.Machine
end

