-- ==== Sys2Proof/Machine/VecMem.lean ====
section
/-!
DEFINITION. Vector loads and stores, indexed loads and table look-ups (R259 to R261), and the bank conflicts of a vector repeat at SP1
(R342).
-/

namespace Sys2Proof.Machine

/-- A repeat that touches chunks `cs` at SP1 with a gain: PERF7 counts it and the port is used (R342, R344), a handler lane's apart from the main
queues' (log 108). -/
def State.touchBanks (s : State) (cs : List Nat) (gain : Nat) : State :=
  (s.vecPort cs).modMe fun c => c.perfAdd 7 gain

/-- An element as a lane: signed formats below 32 bits are sign-extended (R259). -/
def loadLane (fmt v : Nat) : Lane :=
  if fmt = 0 || fmt = 2 || fmt = 3 then BitVec.ofInt 32 (toVal (fmtBits fmt) true v) else BitVec.ofNat 32 (v % 2 ^ fmtBits fmt)

/-- Latency and occupancy of a class by level (R240). -/
def vmLat (base : List Nat) (d : Desc) : Nat := lget base d.level.toNat 0
def vmOcc (base : List Nat) (d : Desc) : Nat := lget base d.level.toNat 1

/-- The destination field of a VM load as a 6-bit field. -/
def vmDst (w : VM) : BitVec 6 := (w.vx.extractLsb' 6 1) ++ (w.vx.extractLsb' 0 5)

/-- Whether a VM load is legal: `idx` tells whether it uses vi (R188 to R190, R260). -/
def vmLoadLegal (w : VM) (idx : Bool) : Bool :=
  !w.vx.getLsbD 5 && dstLegal (vmDst w) false false && idxLegal (dstChan (vmDst w)) (stepsD w.step) (dstIdx (vmDst w)) w.rep.toNat &&
  (if idx then srcLegal w.vi && (w.step = 0 || w.step = 7)
   else w.vi = 0 && stepLegal w.step true false false true)

/-- Whether a VST is legal. -/
def vmStoreLegal (w : VM) : Bool :=
  srcLegal w.vx && idxLegal (srcChan w.vx) (stepsS1 w.step) (srcIdx w.vx) w.rep.toNat && w.vi = 0 &&
  stepLegal w.step false true false true

/-- Row and column unit of a VM word at repeat k (R259). -/
def vmRow (w : VM) (k : Nat) : Nat := w.off.toNat + (if w.step = 7 then k else 0)
def vmUnit (w : VM) (k : Nat) : Nat := if w.step = 8 then k else 0

/-- A VM repeat: descriptor checks (R63, R259, R260), pending writes for a load (R261), then `body` on the latched descriptor. `extra` is
a further condition of the word. DEDUCED: what `body` finds of a mesh-channel destination comes after these checks (log 22). -/
def vmRun (i : Instr) (w : VM) (legal write : Bool) (extra : Desc → Bool) (body : Desc → Nat → State → State) (s : State) : Res :=
  engRun .vec i legal (fun s =>
    let n := w.desc.toNat
    let k := (s.eng .vec).rep
    let ds := s.latch .vec [n]
    let d := lget ds 0 Desc.zero
    if d.fmt = 5 then s.illegalWord .vec i
    else if 3 ≤ d.level.toNat || !extra d then s.takeFault (permD 1 n)
    else match s.descFault s.cur.core 1 n d write with
      | some f => s.takeFault f
      | none =>
        if d.rows.toNat ≤ vmRow w k then s.takeFault (permD 1 n)
        else match if write then [] else s.readMiss d with
          | [] => body d k (s.keepLatch .vec ds)
          | ids => s.engMiss .vec n (.pends ids)) s

/-- The elements that a load reads, lane by lane: none where its column is at or above COLS. -/
def State.loadOut (s : State) (d : Desc) (row : Nat) (cols : List Nat) (occ : Nat) (other : Lane) (xo : Bool) : VOut × Nat :=
  let k := s.cur.core
  let inn := cols.filter (· < d.cols.toNat)
  let cs := if d.level = 0 then chunksOf (inn.map fun c => ((d.addrIn d.readBase row c).toNat, Nat.max 1 (d.bits / 8))) else []
  let gain := bankGain cs occ
  let bad := inn.any fun c => s.elemPoison k d row c
  ({ lanes := cols.map fun c => if c < d.cols.toNat then loadLane d.fmt.toNat (s.elem k d row c) else other
     wm := BitVec.allOnes 64
     fl := if xo && inn.length < cols.length then fXO else 0
     also := fun s => ((s.noteRead d).chkIf 1 bad).touchBanks cs gain }, gain)

/-- A load of a VM word whose lanes' columns `cols` gives from the index lanes. -/
def vmLoad (i : Instr) (w : VM) (idx : Bool) (lats occs : List Nat) (extra : Desc → Bool) (cols : Nat → List Lane → List Nat)
    (s : State) : Res :=
  vmRun i w (vmLoadLegal w idx) false extra (fun d k s =>
    let dst : Option (Bool × Nat) := some (dstChan (vmDst w), stepped (dstChan (vmDst w)) (stepsD w.step) (dstIdx (vmDst w)) k)
    let vs : List VSrc := if idx then [{ f := w.vi, idx := srcIdx w.vi }] else []
    let occ := vmOcc occs d
    let other : Lane := if idx then loadLane d.fmt.toNat d.fill.toNat else 0
    -- the lanes as they stand at issue tell the gain (R342)
    let g := (s.loadOut d (vmRow w k) (cols (vmUnit w k) (lget (s.srcLanes vs) 0 [])) occ other idx).2
    s.vecGo i (w.rep.toNat + 1) (occ + g) (vmLat lats d + g) false vs dst fun ls =>
      (s.loadOut d (vmRow w k) (cols (vmUnit w k) (lget ls 0 [])) occ other idx).1) s

/-- VLD (R259, R260). -/
def execVld (w : VM) (s : State) : Res :=
  vmLoad (.vld w) w false [6, 12, 48] [1, 1, 2] (fun _ => true) (fun u _ => (List.range 64).map fun l => 64 * u + l) s
/-- VLDX (R259, R260). -/
def execVldx (w : VM) (s : State) : Res :=
  vmLoad (.vldx w) w true [8, 14, 50] [4, 4, 16] (fun _ => true) (fun _ x => (List.range 64).map fun l => (lget x l 0).toNat) s
/-- VLUT (R259, R260): LEVEL 0 and at most 4,096 columns. -/
def execVlut (w : VM) (s : State) : Res :=
  vmLoad (.vlut w) w true [8] [1] (fun d => d.level = 0 && d.cols.toNat ≤ 4096)
    (fun _ x => (List.range 64).map fun l => (lget x l 0).toNat % 65536) s

/-- VST (R259 to R261): the active lanes whose columns exist. -/
def execVst (w : VM) (s : State) : Res :=
  vmRun (.vst w) w (vmStoreLegal w) true (fun _ => true) (fun d k s =>
    let vs : List VSrc := [{ f := w.vx, idx := stepped (srcChan w.vx) (stepsS1 w.step) (srcIdx w.vx) k }]
    let row := vmRow w k
    let u := vmUnit w k
    let act := s.me.active
    let ls := (List.range 64).filter fun l => act.getLsbD l && 64 * u + l < d.cols.toNat
    let occ := vmOcc [1, 1, 2] d
    let cs := if d.level = 0 then chunksOf (ls.map fun l => ((d.addrIn d.writeBase row (64 * u + l)).toNat, Nat.max 1 (d.bits / 8))) else []
    let gain := bankGain cs occ
    s.vecGo (.vst w) (w.rep.toNat + 1) (occ + gain) 1 false vs none fun src =>
      let ps := s.elemPieces s.cur.core d d.writeBase (ls.map fun l =>
        (row, 64 * u + l, (lget (lget src 0 []) l 0).toNat % 2 ^ d.bits, false))
      { lanes := [], wm := 0, fl := 0
        also := fun s =>
          let s := s.addPend 1 (s.clk + gain + vmLat [4, 12, 48] d - 1) (.sp d.level.toNat ps) (phased := d.phased)
          (s.noteShadow w.desc.toNat).touchBanks cs gain }) s

end Sys2Proof.Machine
end

