-- ==== Sys2Proof/Machine/EngCtl.lean ====
section
/-!
DEFINITION. The start of a passage (R35), the control words common to the engines (R50, R200 to R202), and unassigned opcodes (R190).
-/

namespace Sys2Proof.Machine

/-- Whether engine u's head passage may start now (R35; in a handler lane the stamp is ignored, R141). -/
def State.startDue (s : State) (u : Eng) : Bool :=
  let e := s.eng u
  match e.q with
  | q :: _ => !e.started && !e.waiting && !e.ended && e.next ≤ s.clk && (s.cur.shadow || (q.stamp ≤ s.clk && q.played + 4 ≤ s.clk))
  | [] => false

/-- PASSAGE_START (R35): the head passage of engine `cur.unit` starts; a start after its stamp is late (R42, R236). -/
def execPassageStart (s : State) : Res :=
  let u := s.cur.unit
  if !s.startDue u then ok s
  else
    let late := match (s.eng u).q with | q :: _ => !s.cur.shadow && q.stamp < s.clk | [] => false
    let s := s.modEng u fun e => { e with started := true, widx := 0, rep := 0 }
    ok (if late then (s.modMe fun c => { c with modes := { c.modes with late := true } }).modMe fun c => c.perfAdd 6 1 else s)

/-- Whether the fields of a control word but ARG, MASK and REP are legal (R200). -/
def ctPlain (w : CT) : Bool := w.rep = 0 && w.step = 0

/-- Whether a NOTIFY word that issues at cycle `now` is the last word of its passage and its queue holds no entry of a PLAY issued
before `now` (R50; an entry that a PLAY of the same cycle appends never starts, log 80). -/
def Engine.notifyOk (e : Engine) (now : Nat) : Bool :=
  match e.q with
  | q :: r => e.widx + 1 = q.len && r.all fun x => now ≤ x.played
  | [] => false

/-- ENGINE_NOTIFY (R50, R200): the engine reaches its end. In a handler lane it raises PERM (R141). -/
def execEngineNotify (u : Eng) (w : CT) (s : State) : Res :=
  engRun u (.engineNotify u w) (ctPlain w && w.arg = 0 && w.mask = 0) (fun s =>
    if s.cur.shadow then s.takeFault (mkFault (engNum u) 0x05 0)
    else
      if !(s.eng u).notifyOk s.clk then s.illegalWord u (.engineNotify u w)
      else (s.engIssue u 1 1).modEng u fun e => { e with ended := true }) s

/-- ENGINE_QFENCE (R77, R200, R201). -/
def execEngineQfence (u : Eng) (w : CT) (s : State) : Res :=
  engRun u (.engineQfence u w) (ctPlain w && w.arg = 0) (fun s =>
    (s.qfence s.cur.core (engNum u) ((List.range 4).filter fun i => w.mask.getLsbD i)).engIssue u 1 1) s

/-- WAIT (R200, R202). -/
def execWait (u : Eng) (w : CT) (s : State) : Res :=
  engRun u (.wait u w) (ctPlain w && w.arg != 0 && w.mask = 0) (fun s =>
    (s.engIssue u 1 w.arg.toNat).modEng u fun e => { e with waiting := true }) s

/-- WAIT_EXPIRY (R200): the WAIT's cycles have passed and the queue of engine `cur.unit` goes on. -/
def execWaitExpiry (s : State) : Res :=
  ok (s.modEng s.cur.unit fun e => if e.waiting && e.next ≤ s.clk then { e with waiting := false } else e)

/-- NOP (R200): one cycle per repeat. -/
def execNop (u : Eng) (w : CT) (s : State) : Res :=
  engRun u (.nop u w) (w.step = 0 && w.arg = 0 && w.mask = 0) (fun s => s.engIssue u (w.rep.toNat + 1) 1) s

/-- A word with an unassigned opcode raises ILLEGAL_WORD when it issues (R190). -/
def execUnassignedEngineOpcode (u : Eng) (w : BitVec 48) (s : State) : Res :=
  engRun u (.unassignedEngineOpcode u w) false (fun s => s) s

end Sys2Proof.Machine
end

