-- ==== Sys2Proof/Machine/Matrix.lean ====
section
/-!
DEFINITION. Accumulator tiles and products of the matrix array (R265 to R279, R282, R284, R286): MMUL, MMULS, MLATX, MLATA, MZERO, MLOAD,
MCKSET, WXLOAD, and the injection of errors (R291).
-/

namespace Sys2Proof.Machine

/-! ## Fields (R268) -/

/-- What a matrix word uses: descriptors A, B, C, the profile field, RM, clamp, ACC, the bits of ARG, and repeats. -/
structure MForm where
  a    : Bool
  b    : Bool
  c    : Bool
  prof : Bool
  rm   : Bool
  cl   : Bool
  acc  : Bool
  arg  : Nat
  rep  : Bool
  tile : Bool

/-- Whether a matrix word's fields are legal by themselves (R189, R190, R268). -/
def mxLegal (f : MForm) (w : MX) : Bool :=
  (f.a || w.a = 0) && (f.b || w.b = 0) && (f.c || w.c = 0) && (f.prof || w.prof = 0) && (f.rm || !w.rm) && (f.cl || !w.clamp) &&
  (f.acc || !w.acc) && w.arg.toNat < f.arg && (f.tile || w.tile = 0) &&
  (if f.rep then w.step.toNat ≤ 1 && (w.step = 0 || w.tile.toNat + w.rep.toNat ≤ 3) else w.rep = 0 && w.step = 0)

/-- The tile of a word at its present repeat (R189). -/
def mxTile (w : MX) (k : Nat) : Nat := if w.step = 1 then w.tile.toNat + k else w.tile.toNat

/-! ## Values -/

/-- The sum of exact values (R282). -/
def flSum (l : List Fl) : Fl := l.foldl (fun a b => (flAdd 0 a b).1) (.fin false 0 0)

/-- A value without its sign. -/
def flAbs : Fl → Fl
  | .nan => .nan
  | .inf _ => .inf false
  | .fin _ m e => .fin false m e

/-- A finite value with exponent 0 or more as an integer. -/
def flInt : Fl → Int
  | .fin s m e => sgn s m * 2 ^ e.toNat
  | _ => 0

/-- The value of an element pattern of a format, integer or floating. -/
def elemFl (fmt p : Nat) : Fl :=
  if isFloat fmt then decodeF fmt p
  else
    let x := toVal (iWidth fmt) (iSigned fmt) p
    .fin (x < 0) x.natAbs 0

/-- A matrix of element values of an SP1 descriptor, as core k reads it. -/
def State.matOf (s : State) (k : Nat) (d : Desc) : List (List Fl) :=
  (List.range d.rows.toNat).map fun i => (List.range d.cols.toNat).map fun j => elemFl d.fmt.toNat (s.elem k d i j)

/-- Whether any element of a descriptor is poisoned. -/
def State.matPoison (s : State) (k : Nat) (d : Desc) : Bool :=
  (List.range d.rows.toNat).any fun i => (List.range d.cols.toNat).any fun j => s.elemPoison k d i j

/-- The runs of a list of terms summed one after another; a run without a present term leaves the accumulator (R101, R102). -/
def runSums (win g mode acc : Nat) (ts : List (Option (Fl × Fl))) : Nat × Fx :=
  (chunks g ts.length ts).foldl (fun (st : Nat × Fx) grp =>
    let ps := grp.filterMap id
    if ps.isEmpty then st
    else
      let x := groupSum win mode st.1 ps
      (x.1, st.2 ||| x.2)) (acc, 0)

/-! ## Products -/

/-- A product ready to be formed: profile of the arithmetic (0, 1 or 2), PROMO's N, rounding mode, for each output row its slots (position
of B and value of A; none when empty), B by position and column, whether the columns' checksums skip positions no row keeps (MMULS), and the
expander's marks (R284): columns, all rows. -/
structure MatOps where
  prof  : Nat
  promo : Nat
  rm    : Nat
  slots : List (List (Option (Nat × Fl)))
  b     : List (List Fl)
  xcols : List Nat
  xall  : Bool
  xfl   : Fx

/-- A sum of terms onto a 32-bit accumulator under the profile (R99, R101). -/
def MatOps.sum (o : MatOps) (acc : Nat) (ts : List (Option (Fl × Fl))) : Nat × Fx :=
  if o.prof = 0 then
    p0End (ts.foldl (fun st t => match t with
      | some (x, y) => p0Step o.promo st (flInt x * flInt y)
      | none => st) (toVal 32 true acc, 0, 0, 0))
  else if o.prof = 1 then runSums 25 16 o.rm acc ts
  else runSums 38 8 o.rm acc ts

/-- The terms of output element (row slots, column j). -/
def MatOps.terms (o : MatOps) (row : List (Option (Nat × Fl))) (j : Nat) : List (Option (Fl × Fl)) :=
  row.map fun t => t.map fun (k, a) => (a, lget (lget o.b k []) j (.fin false 0 0))

/-- One output element from its old value. -/
def MatOps.elem (o : MatOps) (i j old : Nat) : Nat × Fx := o.sum old (o.terms (lget o.slots i []) j)

/-- The checksums of a row: b⁺ replaces the column (R282). -/
def MatOps.rowCk (o : MatOps) (bp ba : List Fl) (row : List (Option (Nat × Fl))) (ck : CkLine) : CkLine :=
  let q := (o.sum ck.1.toNat (row.map fun t => t.map fun (k, a) => (a, lget bp k .nan))).1
  let aq := if o.prof = 0 then ck.2.toNat else (o.sum ck.2.toNat (row.map fun t => t.map fun (k, a) => (flAbs a, lget ba k .nan))).1
  (BitVec.ofNat 32 q, BitVec.ofNat 32 aq)

/-- a⁺ of position k: the sum of the rows that keep it; none when no row does (R282; log 35). -/
def MatOps.aPlus (o : MatOps) (k : Nat) : Option (List Fl) :=
  let here (t : Option (Nat × Fl)) : Option Fl := match t with | some (k', a) => if k' = k then some a else none | none => none
  let l := o.slots.filterMap fun row => match here (lget row k none) with | some a => some a | none => row.findSome? here
  if l.isEmpty then none else some l

/-- The checksums of column j: a⁺ replaces the row (R282). -/
def MatOps.colCk (o : MatOps) (ap : List (Option (List Fl))) (j : Nat) (ck : CkLine) : CkLine :=
  let terms (f : Fl → Fl) := ap.zipIdx.map fun (l, k) => l.map fun l => (flSum (l.map f), f (lget (lget o.b k []) j .nan))
  let q := (o.sum ck.1.toNat (terms id)).1
  let aq := if o.prof = 0 then ck.2.toNat else (o.sum ck.2.toNat (terms flAbs)).1
  (BitVec.ofNat 32 q, BitVec.ofNat 32 aq)

/-- The product added to a tile, with the flags of its elements (R272, R276, R278, R282). -/
def MatOps.apply (o : MatOps) (t : Tile) (gAdd : Nat) : Tile × Fx :=
  let rs : List (List (Nat × Fx)) := t.elems.zipIdx.map fun (row, i) => row.zipIdx.map fun ((x : Lane), j) => o.elem i j x.toNat
  let bp := o.b.map flSum
  let ba := o.b.map fun r => flSum (r.map flAbs)
  let ap := (List.range o.b.length).map o.aPlus
  ({ t with
     kind := if o.prof = 0 then 1 else 2
     elems := rs.map fun r => r.map fun x => BitVec.ofNat 32 x.1
     rowCk := t.rowCk.zipIdx.map fun (c, i) => o.rowCk bp ba (lget o.slots i []) c
     colCk := t.colCk.zipIdx.map fun (c, j) => o.colCk ap j c
     g := t.g + gAdd
     xcols := t.xcols ++ o.xcols
     xall := t.xall || o.xall },
   rs.foldl (fun f r => r.foldl (fun f x => f ||| x.2) f) o.xfl)

/-- MSTAT.OVF and MSTAT.INV from OF and IV (R91, R287). -/
def mflags (f : Fx) : BitVec 5 := (if f &&& fOF != 0 then 1 else 0) ||| (if f &&& fIV != 0 then 2 else 0)

/-! ## Operands of each product word -/

/-- Slots of a dense product: every position, in order. -/
def denseSlots (a : List (List Fl)) : List (List (Option (Nat × Fl))) := a.map fun row => row.zipIdx.map fun (x, k) => some (k, x)

/-- Rows as columns. -/
def transpose (l : List (List Fl)) (n : Nat) : List (List Fl) := (List.range n).map fun j => l.map fun r => lget r j .nan

/-- The expander's rows X = B × W with its flags, and the rows t that its check marks (R104, R278, R284). `tol` is TOL of BF16.
DEDUCED: NaN and infinities in the sums are compared as R283 compares them (log 102). -/
def expand (tol : Nat) (lat : List (List Fl)) (w : List (List Fl)) (r e : Nat) : List (List Fl) × List Nat × Fx :=
  let wt := transpose w e
  let sums (row : List Fl) (col : List Fl) : Nat × Fx := groupsSum 38 8 0 0 (row.zip col)
  let xs := lat.map fun row => wt.map fun col =>
    let s := sums row col
    let p := roundFl 9 0 false (decodeF 10 s.1)
    (decodeF 9 p.1, s.2 ||| (p.2 &&& fOF))
  let fl := xs.foldl (fun f row => row.foldl (fun f x => f ||| x.2) f) (0 : Fx)
  let vals := xs.map fun row => row.map (·.1)
  let wp := w.map flSum
  let wa := w.map fun row => flSum (row.map flAbs)
  let marks := (List.range lat.length).filter fun t =>
    let row := lget lat t []
    let x := lget vals t []
    let xq := decodeF 10 (sums row wp).1
    let axq := decodeF 10 (sums (row.map flAbs) wa).1
    let sx := flSum x
    match sx, xq with
    | .fin _ _ _, .fin _ _ _ =>
      match axq with
      | .fin _ m ex =>
        let bound := (flAdd 0 (flAdd 0 (.fin false (m * ceilDiv r 8) (ex - tol))
          (match flSum (x.map flAbs) with | .fin _ m' e' => .fin false m' (e' - 8) | v => v)).1 (.fin false 1 (-140))).1
        0 < flCmp (flAbs (flAdd 0 sx (flNeg xq)).1) bound
      | _ => false
    | .nan, .nan => false
    | .inf a, .inf b => a != b
    | _, _ => true
  (vals, marks, fl)

/-- The metadata byte of slot s of group g of row i. -/
def State.metaByte (s : State) (k : Nat) (d : Desc) (n i g sl : Nat) : Nat := s.elem k d i (g * n + sl)

/-- The product that a history entry stands for, from the operands as they stand (R266, R267). -/
def State.matOps (s : State) (k : Nat) (h : HistEntry) : MatOps :=
  let d0 := lget h.descs 0 Desc.zero
  let d1 := lget h.descs 1 Desc.zero
  let c := s.core k
  let n := if d0.fmt = 0 && d1.fmt = 0 then c.params.n4.toNat else c.params.n8.toNat
  let rm := if h.rtz then 1 else 0
  let base : MatOps := { prof := if h.prof = 4 then 2 else h.prof, promo := n, rm := rm, slots := [], b := [], xcols := [], xall := false, xfl := 0 }
  if h.opc = 0 then { base with slots := denseSlots (s.matOf k d0), b := s.matOf k d1 }
  else if h.opc = 3 then { base with slots := denseSlots (s.matOf k d0), b := transpose (s.matOf k d1) d1.cols.toNat }
  else if h.opc = 1 then
    let d2 := lget h.descs 2 Desc.zero
    let kg := d1.rows.toNat / 128
    let a := s.matOf k d0
    let slots := (List.range d0.rows.toNat).map fun i => (List.range kg).flatMap fun g =>
      let one := (List.range h.n).map fun sl =>
        let m := s.metaByte k d2 h.n i g sl
        if m < 128 then some (g * 128 + m, lget (lget a i []) (g * h.n + sl) (.fin false 0 0)) else none
      -- each K-group is split into runs of its own (R102)
      let run := if base.prof = 1 then 16 else 1
      one ++ List.replicate (ceilDiv h.n run * run - h.n) none
    { base with slots := slots, b := s.matOf k d1 }
  else
    let bk := lget c.mtx.banks h.bank Bank.empty
    let w := bk.w.map fun row => row.map fun x => decodeF 9 x.toNat
    let (x, marks, fl) := expand (lget c.mtx.cktol 3 0).toNat (s.matOf k d1) w bk.r bk.e
    let q := denseSlots (s.matOf k d0)
    if h.mode = 0 then { base with slots := q, b := transpose x bk.e, xcols := marks, xfl := fl }
    else { base with slots := q, b := x, xall := !marks.isEmpty, xfl := fl }

/-- Inner dimension of a history entry: K of MMUL, MLATA and MMULS; E or T of MLATX; 0 for a start without a product (R271). -/
def Core.histK (c : Core) (h : HistEntry) : Nat :=
  let d0 := lget h.descs 0 Desc.zero
  let d1 := lget h.descs 1 Desc.zero
  match h.opc with
  | 0 => d0.cols.toNat
  | 1 => d1.rows.toNat
  | 2 => if h.mode = 0 then (lget c.mtx.banks h.bank Bank.empty).e else d1.rows.toNat
  | 3 => d0.cols.toNat
  | _ => 0

/-- The advance of G for a history entry (R272, R276, R278). -/
def Core.histG (c : Core) (h : HistEntry) : Nat :=
  match h.opc with
  | 1 => if h.prof = 0 then 0 else c.histK h / 128 * ceilDiv h.n 16
  | _ => if h.prof = 0 then 0 else if h.prof = 1 then ceilDiv (c.histK h) 16 else ceilDiv (c.histK h) 8

/-- Blocks of a shape (R265). -/
def blocks (m n : Nat) : Nat := ceilDiv m 64 * ceilDiv n 64

/-- The shape that a product's operands give (R272 to R274, R278). -/
def Core.histShape (c : Core) (h : HistEntry) : Nat × Nat :=
  let d0 := lget h.descs 0 Desc.zero
  let d1 := lget h.descs 1 Desc.zero
  match h.opc with
  | 2 => (d0.rows.toNat, if h.mode = 0 then d1.rows.toNat else (lget c.mtx.banks h.bank Bank.empty).e)
  | 3 => (d0.rows.toNat, d1.rows.toNat)
  | _ => (d0.rows.toNat, d1.cols.toNat)

/-- The occupancy of a history entry (R271). -/
def Core.histOcc (c : Core) (h : HistEntry) : Nat :=
  let d0 := lget h.descs 0 Desc.zero
  let d1 := lget h.descs 1 Desc.zero
  let k := c.histK h
  let sh := c.histShape h
  let bt := blocks sh.1 sh.2
  match h.opc with
  | 1 => bt * 64 * (k / 128)
  | 2 =>
    let bk := lget c.mtx.banks h.bank Bank.empty
    Nat.max (ceilDiv d1.rows.toNat 32 * ceilDiv bk.e 64 * bk.r) (bt * 4 * k) + 16
  | 4 => 2
  | 5 => d0.rows.toNat + 8
  | _ => if h.prof = 2 then bt * 4 * k else if d0.fmt = 0 && d1.fmt = 0 then bt * ceilDiv k 2 else bt * k

/-! ## Starting and accumulating (R266) -/

/-- A tile started with a shape and kind: elements 0, checksums, group count and history clear. -/
def Tile.start (m n kind : Nat) (h : HistEntry) : Tile :=
  { Tile.zero with
    shape := some (m, n), kind := kind, elems := List.replicate m (List.replicate n 0), rowCk := List.replicate m (0, 0)
    colCk := List.replicate n (0, 0), hist := [h] }

/-- A history entry appended; a full history takes no more (R266). -/
def Tile.note (t : Tile) (h : HistEntry) : Tile := if 16 ≤ t.hist.length then t else { t with hist := t.hist ++ [h] }

/-- Whether a product finds the history full, so that HOVF is set at the end of its occupancy (R266, R287). -/
def Tile.overflows (t : Tile) (acc : Bool) : Bool := acc && 16 ≤ t.hist.length

/-- Tile t of a core. -/
def Core.tile (c : Core) (t : Nat) : Tile := lget c.mtx.tiles t Tile.zero

/-- Tile t replaced. -/
def Core.setTile (c : Core) (t : Nat) (x : Tile) : Core := { c with mtx := { c.mtx with tiles := lput c.mtx.tiles t x Tile.zero } }

/-- PERM with INFO 0x400 + the tile (R269). -/
def permTile (t : Nat) : FaultRec := mkFault 2 0x05 (0x400 + t)

/-- The word that the main queue's or the handler lane's array is reading for (R270). -/
def Mtx.readingOf (m : Mtx) (lane : Bool) : Option Reading := if lane then m.laneReads else m.reads

/-- That word replaced. -/
def Mtx.setReading (m : Mtx) (lane : Bool) (r : Option Reading) : Mtx := if lane then { m with laneReads := r } else { m with reads := r }

/-- The word of the step reads SP1 until its occupancy ends (R270): `before` is the tile before it. -/
def State.startReading (s : State) (h : HistEntry) (tile bank occ : Nat) (before : Tile) : State :=
  let r : Reading := { hist := h, tile := tile, before := before, bank := bank, end_ := s.clk + occ, olds := [] }
  s.modMe fun c => { c with mtx := c.mtx.setReading s.cur.shadow (some r) }

/-- A matrix repeat issues with occupancy `occ` and sets flags at its end (R271, R287). -/
def State.mtxIssue (s : State) (reps occ : Nat) (fl : BitVec 5) : State :=
  (if fl = 0 then s else s.addLat 2 occ (.mflag fl)).engIssue .mtx reps occ

/-- The fault of an operand descriptor: LEVEL 0 first (R63, R269). -/
def State.mtxDesc (s : State) (n : Nat) (d : Desc) (write : Bool) : Option FaultRec :=
  if d.level != 0 then some (permD 2 n) else s.descFault s.cur.core 2 n d write

/-- PERM for a shape condition that fails on descriptor n (R269). -/
def shapeCheck (n : Nat) (good : Bool) : Option FaultRec := if good then none else some (permD 2 n)

/-- A multiple of 4 from 4 to 128. -/
def dim4 (x : Nat) : Bool := x % 4 = 0 && 4 ≤ x && x ≤ 128

/-- The tile-state condition of an accumulating word (R266, R269). -/
def tileCheck (t : Nat) (x : Tile) (acc : Bool) (shape : Nat × Nat) (kind : Nat) : Option FaultRec :=
  if !acc || (x.shape = some shape && (x.kind = 0 || x.kind = kind)) then none else some (permTile t)

/-- A product word (R266, R269 to R278): `fmts` tells whether its formats are in its profile's row, `shapes` gives its own conditions from the
values of its descriptors `ns`. `sparse` gives the SPARSE_META fault, whose record holds 0 in every field that R275 does not name, RB among them
(R275; log 97). -/
def matProduct (i : Instr) (w : MX) (legal : Bool) (ns : List Nat) (fmts : List Desc → Bool) (hist : List Desc → HistEntry)
    (shapes : State → List Desc → Option FaultRec) (sparse : State → List Desc → Option (FaultRec × Tfrec)) (s : State) : Res :=
  engRun .mtx i (legal && s.me.params.allow.getLsbD w.prof.toNat) (fun s =>
    let k := (s.eng .mtx).rep
    let t := mxTile w k
    let ds := s.latch .mtx ns
    if !fmts ds then s.illegalWord .mtx i
    else
      let h := hist ds
      let shape := s.me.histShape h
      let kind := if h.prof = 0 then 1 else 2
      match firstFault ((ns.zip ds).map (fun (n, d) => s.mtxDesc n d false) ++
          [shapes s ds, shapeCheck (lget ns 0 0) (w.acc || dim4 shape.1), shapeCheck (lget ns 1 0) (w.acc || dim4 shape.2),
           tileCheck t (s.me.tile t) w.acc shape kind]) with
      | some f => s.takeFault f
      | none =>
        match s.firstMiss (ns.zip ds) with
        | some (n, ids) => s.engMiss .mtx n (.pends ids)
        | none =>
          match sparse s ds with
          | some (f, tf) =>
            (s.modMe fun c => { c with tfrec := { tf with tile := BitVec.ofNat 2 t }, mtx := { c.mtx with faultDrain := none } }).takeFault f
          | none =>
            let bad := ds.any fun d => s.matPoison s.cur.core d
            let s := ds.foldl State.noteRead s
            let full := (s.me.tile t).overflows w.acc
            let old := if w.acc then (s.me.tile t).note h else Tile.start shape.1 shape.2 kind h
            let (new, fl) := (s.matOps s.cur.core h).apply old (s.me.histG h)
            let occ := s.me.histOcc h
            let s := ((s.modMe fun c => c.setTile t new).keepLatch .mtx ds).chkIf 2 bad
            let s := s.startReading h t h.bank occ old
            let s := if full then s.addLat 2 occ (.hovf t) else s
            (s.addLat 2 occ (.errinj t)).mtxIssue (w.rep.toNat + 1) occ (mflags fl)) s

/-- The form of a product word. -/
def prodForm (c : Bool) (rm : Bool) (arg : Nat) : MForm :=
  { a := true, b := true, c := c, prof := true, rm := rm, cl := false, acc := true, arg := arg, rep := true, tile := true }

/-- Whether two formats stand in the row of a profile (R97). -/
def profFmts (p : Nat) (a b : BitVec 4) : Bool :=
  let inn (f : BitVec 4) : Bool := match p with
    | 0 => f = 0 || f = 2
    | 1 => f = 6 || f = 7
    | _ => f = 8 || f = 9
  inn a && inn b

/-- The history entry of a word. -/
def histOf (opc : Nat) (w : MX) (n bank mode : Nat) (ds : List Desc) : HistEntry :=
  { opc := opc, prof := w.prof.toNat, rtz := w.rm, n := n, bank := bank, mode := mode, descs := ds, acc := w.acc, arg := w.arg.toNat }

/-- No metadata. -/
def noMeta (_ : State) (_ : List Desc) : Option (FaultRec × Tfrec) := none

/-- MMUL (R272). -/
def execMmul (w : MX) (s : State) : Res :=
  matProduct (.mmul w) w (mxLegal (prodForm false (w.prof != 0) 1) w && w.prof.toNat ≤ 2) [w.a.toNat, w.b.toNat]
    (fun ds => profFmts w.prof.toNat (lget ds 0 Desc.zero).fmt (lget ds 1 Desc.zero).fmt) (histOf 0 w 0 0 0)
    (fun _ ds => shapeCheck w.b.toNat ((lget ds 0 Desc.zero).cols = (lget ds 1 Desc.zero).rows)) noMeta s

/-- MLATA (R273). -/
def execMlata (w : MX) (s : State) : Res :=
  matProduct (.mlata w) w (mxLegal (prodForm false true 1) w && (w.prof = 1 || w.prof = 2)) [w.a.toNat, w.b.toNat]
    (fun ds => profFmts w.prof.toNat (lget ds 0 Desc.zero).fmt (lget ds 1 Desc.zero).fmt) (histOf 3 w 0 0 0)
    (fun _ ds => shapeCheck w.b.toNat ((lget ds 0 Desc.zero).cols = (lget ds 1 Desc.zero).cols)) noMeta s

/-- The first bad metadata byte of a repeat: row, group, slot, byte, SUB (R275). -/
def State.badMeta (s : State) (d : Desc) (rows kg n : Nat) : Option (Nat × Nat × Nat × Nat × Nat) :=
  (List.range rows).findSome? fun i => (List.range kg).findSome? fun g =>
    let ms := (List.range n).map fun sl => s.metaByte s.cur.core d n i g sl
    (List.range n).findSome? fun sl =>
      let m := lget ms sl 0
      if 128 ≤ m && m < 255 then some (i, g, sl, m, 2)
      else if m < 128 && (ms.take sl).contains m then some (i, g, sl, m, 1)
      else none

/-- MMULS (R274 to R276). -/
def execMmuls (w : MX) (s : State) : Res :=
  let n := w.arg.toNat + 1
  matProduct (.mmuls w) w (mxLegal (prodForm true (w.prof = 1) 64) w && w.prof.toNat ≤ 1) [w.a.toNat, w.b.toNat, w.c.toNat]
    (fun ds =>
      let a := (lget ds 0 Desc.zero).fmt
      let b := (lget ds 1 Desc.zero).fmt
      profFmts w.prof.toNat a b && a != 0 && b != 0) (histOf 1 w n 0 0)
    (fun _ ds =>
      let a := lget ds 0 Desc.zero
      let b := lget ds 1 Desc.zero
      let c := lget ds 2 Desc.zero
      let kg := b.rows.toNat / 128
      firstFault [shapeCheck w.b.toNat (b.rows.toNat % 128 = 0 && 128 ≤ b.rows.toNat && b.rows.toNat ≤ 32768),
        shapeCheck w.a.toNat (a.cols.toNat = kg * n), shapeCheck w.c.toNat (c.fmt = 11 && c.cols.toNat = kg * n && c.rows = a.rows)])
    (fun s ds =>
      let a := lget ds 0 Desc.zero
      let b := lget ds 1 Desc.zero
      (s.badMeta (lget ds 2 Desc.zero) a.rows.toNat (b.rows.toNat / 128) n).map fun (i, g, sl, m, sub) =>
        ({ mkFault 2 0x09 m with sub := sub },
         { Tfrec.zero with valid := true, prof := w.prof, fmt := a.fmt, sgrp := BitVec.ofNat 8 g, sslot := BitVec.ofNat 6 sl
                           srow := BitVec.ofNat 7 i })) s

/-- MLATX (R278). -/
def execMlatx (w : MX) (s : State) : Res :=
  let bank := w.arg.toNat % 2
  let mode := w.arg.toNat / 2
  matProduct (.mlatx w) w (mxLegal (prodForm false true 4) w && w.prof = 4) [w.a.toNat, w.b.toNat]
    (fun ds =>
      let a := (lget ds 0 Desc.zero).fmt
      let b := (lget ds 1 Desc.zero).fmt
      (a = 8 || a = 9) && 6 ≤ b.toNat && b.toNat ≤ 9) (histOf 2 w 0 bank mode)
    (fun s ds =>
      let a := lget ds 0 Desc.zero
      let b := lget ds 1 Desc.zero
      let bk := lget s.me.mtx.banks bank Bank.empty
      firstFault [if bk.r = 0 then some (mkFault 2 0x05 (0x410 + bank)) else none, shapeCheck w.b.toNat (b.cols.toNat = bk.r),
        shapeCheck w.a.toNat (a.cols.toNat = if mode = 0 then bk.e else b.rows.toNat)]) noMeta s

/-! ## MZERO, MLOAD (R279), MCKSET (R286), WXLOAD (R277) -/

/-- A form that uses nothing but what is given. -/
def plainForm (a : Bool) (arg : Nat) (rep tile : Bool) : MForm :=
  { a := a, b := false, c := false, prof := false, rm := false, cl := false, acc := false, arg := arg, rep := rep, tile := tile }

/-- MZERO (R279). -/
def execMzero (w : MX) (s : State) : Res :=
  engRun .mtx (.mzero w) (mxLegal (plainForm false 1024 true true) w) (fun s =>
    let t := mxTile w (s.eng .mtx).rep
    let h := histOf 4 w 0 0 0 []
    let x := Tile.start (4 * (w.arg.toNat / 32 + 1)) (4 * (w.arg.toNat % 32 + 1)) 0 h
    (s.modMe fun c => c.setTile t x).mtxIssue (w.rep.toNat + 1) 2 0) s

/-- The tile that MLOAD starts from the elements of its source: sums and sums of absolute values wrapped (INT) or rounded RNE to FP32 (FP), G 1
for FP (R279, R282). -/
def loadTile (d : Desc) (els : List (List Nat)) (h : HistEntry) : Tile :=
  let fp := d.fmt = 10
  let v (x : Nat) : Fl := elemFl d.fmt.toNat x
  let line (l : List Nat) : CkLine :=
    let vs := l.map v
    if fp then (BitVec.ofNat 32 (roundFl 10 0 false (flSum vs)).1, BitVec.ofNat 32 (roundFl 10 0 false (flSum (vs.map flAbs))).1)
    else (BitVec.ofInt 32 ((vs.map flInt).foldl (· + ·) 0), BitVec.ofInt 32 ((vs.map fun x => flInt (flAbs x)).foldl (· + ·) 0))
  let n := d.cols.toNat
  { Tile.start d.rows.toNat n (if fp then 2 else 1) h with
    elems := els.map fun r => r.map fun x => BitVec.ofNat 32 x
    rowCk := els.map line
    colCk := (List.range n).map fun j => line (els.map fun r => lget r j 0)
    g := if fp then 1 else 0 }

/-- The element patterns of a descriptor. -/
def State.patsOf (s : State) (k : Nat) (d : Desc) : List (List Nat) :=
  (List.range d.rows.toNat).map fun i => (List.range d.cols.toNat).map fun j => s.elem k d i j

/-- MLOAD (R279); a BYTE source raises ILLEGAL_WORD (R86). -/
def execMload (w : MX) (s : State) : Res :=
  engRun .mtx (.mload w) (mxLegal (plainForm true 1 false true) w) (fun s =>
    let n := w.a.toNat
    let d := s.desc n
    if d.fmt = 11 then s.illegalWord .mtx (.mload w)
    else match firstFault [s.mtxDesc n d false, shapeCheck n ((d.fmt = 4 || d.fmt = 10) && dim4 d.rows.toNat && dim4 d.cols.toNat)] with
    | some f => s.takeFault f
    | none => match s.firstMiss [(n, d)] with
      | some (n, ids) => s.engMiss .mtx n (.pends ids)
      | none =>
        let bad := s.matPoison s.cur.core d
        let h := histOf 5 w 0 0 0 [d]
        let x := loadTile d (s.patsOf s.cur.core d) h
        ((((s.noteRead d).modMe fun c => c.setTile w.tile.toNat x).chkIf 2 bad).startReading h w.tile.toNat 0 (d.rows.toNat + 8) x).mtxIssue 1 (d.rows.toNat + 8) 0) s

/-- MCKSET (R286). -/
def execMckset (w : MX) (s : State) : Res :=
  engRun .mtx (.mckset w) (mxLegal (plainForm false 3 false false) w) (fun s =>
    (s.modMe fun c => { c with mtx := { c.mtx with ckmode := BitVec.ofNat 2 (Nat.max w.arg.toNat c.mtx.ckmin.toNat) } }).mtxIssue 1 1 0) s

/-- An expander bank that holds the elements of a source (R277). -/
def loadedBank (d : Desc) (els : List (List Nat)) : Bank :=
  { r := d.rows.toNat, e := d.cols.toNat, w := els.map fun row => row.map fun x => BitVec.ofNat 16 x }

/-- An expander bank replaced. -/
def Core.setBank (c : Core) (b : Nat) (x : Bank) : Core := { c with mtx := { c.mtx with banks := lput c.mtx.banks b x Bank.empty } }

/-- WXLOAD (R277). -/
def execWxload (w : MX) (s : State) : Res :=
  engRun .mtx (.wxload w) (mxLegal (plainForm true 2 false false) w) (fun s =>
    let n := w.a.toNat
    let d := s.desc n
    let r := d.rows.toNat
    let e := d.cols.toNat
    match firstFault [s.mtxDesc n d false, shapeCheck n (d.fmt = 9 && 1 ≤ r && r ≤ 256 && dim4 e)] with
    | some f => s.takeFault f
    | none => match s.firstMiss [(n, d)] with
      | some (n, ids) => s.engMiss .mtx n (.pends ids)
      | none =>
        let bad := s.matPoison s.cur.core d
        let s := (((s.noteRead d).modMe fun c => c.setBank w.arg.toNat (loadedBank d (s.patsOf s.cur.core d))).chkIf 2 bad)
        (s.startReading (histOf 10 w 0 w.arg.toNat 0 [d]) 0 w.arg.toNat (r + 8) Tile.zero).mtxIssue 1 (r + 8) 0) s

/-! ## Error injection (R291) -/

/-- ERRINJ_APPLY (R291): a product on the tile of effect `cur.arg` has ended its occupancy. -/
def execErrinjApply (s : State) : Res :=
  match s.thePend with
  | some p => match p.eff with
    | .errinj t =>
      let s := s.endPend p
      let m := s.me.mtx
      if !m.eiArm || m.eiTile.toNat != t then ok s
      else
        let x := s.me.tile t
        let r := m.eiRow.toNat
        let c := m.eiCol.toNat
        let inside := match x.shape with | some (tr, tc) => decide (r < tr ∧ c < tc) | none => false
        let x' := { x with elems := lmod x.elems r [] fun row => lmod row c 0 fun v => v ^^^ BitVec.ofNat 32 (2 ^ m.eiBit.toNat) }
        let s := if inside then s.modMe fun k => k.setTile t x' else s
        ok (s.modMe fun k => { k with mtx := { k.mtx with eiArm := false, flags := k.mtx.flags ||| (if inside then 8 else 16) } })
    | _ => ok s
  | none => ok s

end Sys2Proof.Machine
end

