-- ==== Sys2Proof/Machine/Drain.lean ====
section
/-!
DEFINITION. Drains with their scales (R96, R280, R281), checksum verdicts (R283, R284, R286), and the recovery words LOCFIX and MRETRY
(R288 to R290).
-/

namespace Sys2Proof.Machine

/-! ## Drained elements (R96, R255, R280) -/

/-- Fields of MDRAIN's ARG (R268). -/
def drCh (w : MX) : Bool := w.arg.getLsbD 9
def drFmt (w : MX) : Nat := w.arg.toNat / 32 % 16
def drRsc (w : MX) : Bool := w.arg.getLsbD 4
def drCsc (w : MX) : Bool := w.arg.getLsbD 3

/-- An element of a tile of a kind drained to a format with its scales (R96): pattern and flags. -/
def drainElem (kind dfmt : Nat) (rtz clamp : Bool) (rs cs : Option Nat) (x : Lane) : Nat × Fx :=
  let own := if kind = 2 then 10 else 4
  if rs.isNone && cs.isNone && dfmt = own then (x.toNat, 0)
  else
    let mul (v : Fl × Fx) (sc : Option Nat) : Fl × Fx := match sc with
      | some p =>
        let r := flMul v.1 (decodeF 10 p)
        (r.1, v.2 ||| r.2)
      | none => v
    let (v, f) := mul (mul (elemFl own x.toNat, 0) rs) cs
    let (p, g) := if isFloat dfmt then roundFl dfmt (if rtz then 1 else 0) clamp v else cvtFI dfmt (if rtz then 1 else 0) clamp v
    (p, f ||| g)

/-- The scale entry i of a descriptor that is used as a scale, and its poison; none without scales (R96). -/
def State.drScale (s : State) (k : Nat) (used : Bool) (d : Desc) (i : Nat) : Option Nat × Bool :=
  if used && d.sbase != 0 then
    let x := s.scale k d i
    (some x.1, x.2)
  else (none, false)

/-- Element (i, j) of a tile as a drain of word w writes it. -/
def State.drained (s : State) (k : Nat) (w : MX) (ds : List Desc) (t : Tile) (i j : Nat) : Nat × Fx :=
  let dfmt := if drCh w then drFmt w else (lget ds 2 Desc.zero).fmt.toNat
  drainElem t.kind dfmt w.rm w.clamp (s.drScale k (drRsc w) (lget ds 0 Desc.zero) i).1 (s.drScale k (drCsc w) (lget ds 1 Desc.zero) j).1
    (lget (lget t.elems i []) j 0)

/-- Rows and columns of a tile. -/
def Tile.dims (t : Tile) : Nat × Nat := t.shape.getD (0, 0)

/-- The patterns that a drain writes, with its flags. -/
def State.drainAll (s : State) (k : Nat) (w : MX) (ds : List Desc) (t : Tile) : List (List Nat) × Fx :=
  let rs := (List.range t.dims.1).map fun i => (List.range t.dims.2).map fun j => s.drained k w ds t i j
  (rs.map fun r => r.map (·.1), rs.foldl (fun f r => r.foldl (fun f x => f ||| x.2) f) 0)

/-- The entries of a channel drain: q per row, lanes beyond TC 0 (R280). -/
def drainEntries (dfmt tc : Nat) (rows : List (List Nat)) : List (List Lane) :=
  rows.flatMap fun r => (List.range (ceilDiv tc 64)).map fun e => (List.range 64).map fun l =>
    if 64 * e + l < tc then placeCvt dfmt (lget r (64 * e + l) 0) else 0

/-- The pieces of row i of a descriptor drain. -/
def State.drainRow (s : State) (k : Nat) (d : Desc) (i : Nat) (r : List Nat) : List Piece :=
  s.elemPieces k d d.writeBase (r.zipIdx.map fun (v, j) => (i, j, v, false))

/-- The first and the last byte of a list of pieces. -/
def pieceSpan (ps : List Piece) : Nat × Nat :=
  match ps with
  | [] => (0, 0)
  | p :: r => r.foldl (fun (lo, hi) q => (Nat.min lo q.addr, Nat.max hi (q.addr + q.bytes.length - 1))) (p.addr, p.addr + p.bytes.length - 1)

/-- The channel that drains go to: c0, or the lowest valid local channel that the matrix engine produces (R195). -/
def Core.drainChan (c : Core) : Nat :=
  ((List.range 23).find? fun i =>
    let w := lget c.chmap i 0
    chValid w && chKind w = 0 && chProd w = 2).elim 0 (· + 9)

/-! ## MDRAIN (R280, R281) -/

/-- Whether an MDRAIN word is legal (R268, R280). -/
def drainLegal (w : MX) : Bool :=
  mxLegal { a := drRsc w, b := drCsc w, c := !drCh w, prof := false, rm := true, cl := true, acc := false, arg := 1024, rep := true, tile := true } w &&
  w.arg.toNat % 8 = 0 && (if drCh w then drFmt w ≤ 10 && drFmt w != 5 else drFmt w = 0)

/-- Effects of a row-by-row descriptor drain issued now. -/
def State.drainOut (s : State) (d : Desc) (rows : List (List Nat)) : State :=
  rows.zipIdx.foldl (fun s (r, i) => s.addPend 2 (s.clk + 40 + i) (.sp 0 (s.drainRow s.cur.core d i r)) (phased := d.phased)) s

/-- The last drain of the main queue or of the handler lane (R141, R281). -/
def Mtx.drainOf (m : Mtx) (lane : Bool) : Option Drain := if lane then m.laneDrain else m.drain

/-- That drain replaced. -/
def Mtx.setDrain (m : Mtx) (lane : Bool) (d : Drain) : Mtx := if lane then { m with laneDrain := some d } else { m with drain := some d }

/-- Drain d put back into its place on a core. -/
def Core.setDrain (c : Core) (d : Drain) : Core := { c with mtx := c.mtx.setDrain d.lane d }

/-- MDRAIN (R280, R281, R286). -/
def execMdrain (w : MX) (s : State) : Res :=
  engRun .mtx (.mdrain w) (drainLegal w) (fun s =>
    let e := s.eng .mtx
    let t := mxTile w e.rep
    let ns := [w.a.toNat, w.b.toNat, w.c.toNat]
    let ds := s.latch .mtx ns
    let dA := lget ds 0 Desc.zero
    let dB := lget ds 1 Desc.zero
    let dC := lget ds 2 Desc.zero
    let x := s.me.tile t
    let (tr, tc) := x.dims
    let f := dC.fmt
    match firstFault [if x.shape.isNone then some (permTile t) else none,
        if drRsc w then s.mtxDesc w.a.toNat dA false else none, if drCsc w then s.mtxDesc w.b.toNat dB false else none,
        if drCh w then none else s.mtxDesc w.c.toNat dC true,
        if drCh w then none else shapeCheck w.c.toNat (f.toNat ≤ 10 && f != 5 && tr ≤ dC.rows.toNat && tc ≤ dC.cols.toNat)] with
    | some f => s.takeFault f
    | none =>
      match s.firstMiss ((if drRsc w then [(w.a.toNat, dA)] else []) ++ (if drCsc w then [(w.b.toNat, dB)] else [])) with
      | some (n, ids) => s.engMiss .mtx n (.pends ids)
      | none =>
        let k := s.cur.core
        let (rows, fl) := s.drainAll k w ds x
        let bad := (List.range tr).any (fun i => (s.drScale k (drRsc w) dA i).2) || (List.range tc).any (fun j => (s.drScale k (drCsc w) dB j).2)
        let q := if drCh w then ceilDiv tc 64 else 1
        let ch := if drCh w then some s.me.drainChan else none
        let span := if drCh w then (0, 0) else pieceSpan (rows.zipIdx.flatMap fun (r, i) => s.drainRow k dC i r)
        let pos := match e.q with | p :: _ => (p.addr, e.widx, e.rep) | [] => e.last
        let mode := Nat.max s.me.mtx.ckmode.toNat s.me.mtx.ckmin.toNat
        let (id, s) := s.newId
        let dr : Drain := { id := id, word := w, descs := ds, tile := t, issue := s.clk, mode := mode, q := q, tr := tr, chan := ch,
                            rows := if drCh w then drainEntries (drFmt w) tc rows else [], done := 0, pause := 0, paused := false, span := span,
                            open_ := true, taint := false, lane := s.cur.shadow, pos := pos }
        let s := s.modMe fun c => c.setDrain dr
        let s := if drCh w then s else (s.drainOut dC rows).noteShadow w.c.toNat
        let s := (s.addPend 2 (s.clk + 43 + q * tr) .verdict).chkIf 2 bad
        let s := s.startReading (histOf 6 w 0 0 0 ds) t 0 (q * tr + 44) Tile.zero
        (s.keepLatch .mtx ds).mtxIssue (w.rep.toNat + 1) (q * tr + 44) (mflags fl)) s

/-- A drain to a channel whose next entry is tested now (R281). -/
def State.drainDue (s : State) : Bool :=
  match s.me.mtx.drainOf s.cur.shadow with
  | some d => d.open_ && d.chan.isSome && d.done < d.q * d.tr && d.issue + 40 + d.done + d.pause ≤ s.clk
  | none => false

/-- The drain pauses for one cycle: its verdict, flags and occupancy move (R281). -/
def Core.pauseDrain (c : Core) (d : Drain) : Core :=
  let moved (p : Pend) : Pend := if p.unit = 2 && p.tide = d.lane then (match p.eff with
    | .verdict => { p with land := p.land + 1 }
    | .mflag _ => { p with land := p.land + 1 }
    | _ => p) else p
  let later (e : Engine) : Engine := { e with next := e.next + 1 }
  { c with
    pend := c.pend.map moved
    engs := if d.lane then c.engs else lmod c.engs 1 Engine.zero later
    lanes := if d.lane then lmod c.lanes 1 Engine.zero later else c.lanes
    mtx := (c.mtx.setDrain d.lane { d with pause := d.pause + 1, paused := true }).setReading d.lane
      ((c.mtx.readingOf d.lane).map fun r => { r with end_ := r.end_ + 1 }) }

/-- MDRAIN_ENTRY_LANDS (R193, R281): the next entry of the open drain is tested at its landing cycle; it goes into the channel, or the
drain pauses. DEDUCED: a handler lane's drain pauses under TRAP as well and raises nothing (log 103). -/
def execMdrainEntryLands (s : State) : Res :=
  match s.me.mtx.drainOf s.cur.shadow with
  | none => ok s
  | some d =>
    match d.chan with
    | none => ok s
    | some c =>
      if !(d.open_ && d.done < d.q * d.tr) then ok s
      else if chanDepth c ≤ (s.chan c).heldIn s.cur.shadow s.clk then
        if d.paused then ok (s.modMe fun x => x.pauseDrain d)
        else
          let s := s.modMe fun x => { x with modes := x.modes.noteMiss }
          if s.me.modes.trapMode && !d.lane then
            ok ((s.modMe fun x => x.setDrain { d with paused := true }).takeFault
              { mkFault 2 0x07 (0x100 + c) with pos := some d.pos })
          else ok (s.modMe fun x => x.pauseDrain d)
      else
        let s := s.pushLocal 2 c s.clk (lget d.rows d.done []) (some (d.id, d.done))
        ok (s.modMe fun x => x.setDrain { d with done := d.done + 1, paused := false })

/-! ## Verdicts (R283, R284, R286) -/

/-- TOL of a tile (R283): the smallest of its product words' formats; CKTOL[9] without one. -/
def Core.tol (c : Core) (t : Tile) : Nat :=
  let fmts := t.hist.flatMap fun h =>
    let a := (lget h.descs 0 Desc.zero).fmt.toNat
    let b := (lget h.descs 1 Desc.zero).fmt.toNat
    if h.opc ≤ 1 && h.prof = 1 then [a, b] else if h.opc ≤ 3 then [a] else []
  let of (f : Nat) : Nat := (lget c.mtx.cktol (f - 6) 0).toNat
  match fmts with
  | [] => of 9
  | f :: r => r.foldl (fun m g => Nat.min m (of g)) (of f)

/-- Whether a line of elements mismatches its checksums (R283). -/
def lineBad (kind tol g : Nat) (els : List Lane) (ck : CkLine) : Bool :=
  if kind != 2 then BitVec.ofInt 32 ((els.map fun x => x.toInt).foldl (· + ·) 0) != ck.1
  else
    let sum := flSum (els.map fun x => decodeF 10 x.toNat)
    let q := decodeF 10 ck.1.toNat
    match sum, q with
    | .fin _ _ _, .fin _ _ _ =>
      match decodeF 10 ck.2.toNat with
      | .fin _ m e =>
        let bound := (flAdd 0 (.fin false (m * g) (e - tol)) (.fin false 1 (-140))).1
        0 < flCmp (flAbs (flAdd 0 sum (flNeg q)).1) bound
      | _ => false
    | .nan, .nan => false
    | .inf a, .inf b => a != b
    | _, _ => true

/-- The mismatching rows and columns of a tile, the expander's marks among them (R283, R284). -/
def Core.mismatch (c : Core) (t : Tile) : List Nat × List Nat :=
  let (tr, tc) := t.dims
  let tol := c.tol t
  ((List.range tr).filter fun i => t.xall || lineBad t.kind tol t.g (lget t.elems i []) (lget t.rowCk i (0, 0)),
   (List.range tc).filter fun j => t.xcols.contains j ||
     lineBad t.kind tol t.g (t.elems.map fun r => lget r j 0) (lget t.colCk j (0, 0)))

/-- A 128-bit mask of positions. -/
def posMask (l : List Nat) : BitVec 128 := l.foldl (fun m i => m ||| BitVec.ofNat 128 (2 ^ i)) 0

/-- A 16-bit counter that stops at 65,535. -/
def satInc (c : BitVec 16) : BitVec 16 := if c = 0xFFFF then c else c + 1

/-- Masks and counts of TFREC (R153). -/
def Tfrec.withMasks (t : Tfrec) (rows cols : List Nat) : Tfrec :=
  { t with nrow := BitVec.ofNat 8 rows.length, ncol := BitVec.ofNat 8 cols.length, rows := posMask rows, cols := posMask cols }

/-- The verdict of a drain (R283, R286). -/
def State.verdict (s : State) (d : Drain) : State :=
  let s := s.modMe fun c => c.setDrain { d with open_ := false }
  if d.mode = 2 then s
  else
    let t := s.me.tile d.tile
    let (rows, cols) := s.me.mismatch t
    let s := s.modMe fun c => c.setTile d.tile { t with xcols := [], xall := false }
    if rows.isEmpty && cols.isEmpty then s
    else
      let s := s.modMe fun c => { c with mtx := { c.mtx with ckcnt := satInc c.mtx.ckcnt } }
      if d.mode = 1 then s.modMe fun c => { c with mtx := { c.mtx with flags := c.mtx.flags ||| 4 } }
      else
        let h := t.hist.getLast?
        let tf : Tfrec :=
          { Tfrec.zero.withMasks rows cols with
            valid := true, taint := d.taint, rb := s.me.tfrec.rb, tile := BitVec.ofNat 2 d.tile
            prof := h.elim 0 fun h => BitVec.ofNat 3 h.prof
            fmt := h.elim 0 fun h => (lget h.descs 0 Desc.zero).fmt }
        (s.modMe fun c => { c with tfrec := tf, mtx := { c.mtx with faultDrain := some d } }).takeFault
          { mkFault 2 0x08 d.tile with pos := some d.pos }

/-! ## Recovery (R288 to R290) -/

/-- Whether a recovery word is legal for the record as it stands (R288). -/
def Core.canRecover (c : Core) (tile : Nat) (shadow mretry : Bool) : Bool :=
  shadow && c.tfrec.valid && c.tfrec.tile.toNat = tile && !(c.tile tile).hovf &&
  (if mretry then c.tfrec.ckr != 2 else c.tfrec.nrow = 1 && c.tfrec.ncol = 1)

/-- LOCFIX (R288, R289): its effects come at the end of its occupancy. -/
def execLocfix (w : MX) (s : State) : Res :=
  engRun .mtx (.locfix w) (mxLegal (plainForm false 1 false true) w && s.me.canRecover w.tile.toNat s.cur.shadow false) (fun s =>
    let occ := 48 + ((s.me.tile w.tile.toNat).hist.map fun h => ceilDiv (s.me.histK h) 64).sum
    (s.addLat 2 occ (.fixEnd false w.tile.toNat)).mtxIssue 1 occ 0) s

/-- MRETRY (R288, R290). DEDUCED: after a SPARSE_META, which no drain raised, it takes the replay's cycles alone and drains nothing (log 104). -/
def execMretry (w : MX) (s : State) : Res :=
  engRun .mtx (.mretry w) (mxLegal (plainForm false 1 false true) w && s.me.canRecover w.tile.toNat s.cur.shadow true) (fun s =>
    let occ := ((s.me.tile w.tile.toNat).hist.map s.me.histOcc).sum + s.me.mtx.faultDrain.elim 0 (fun d => d.q * d.tr + 44)
    (s.addLat 2 occ (.fixEnd true w.tile.toNat)).mtxIssue 1 occ 0) s

/-- Element (r, c) of a tile replayed from its history (R289). -/
def State.replayElem (s : State) (k : Nat) (t : Tile) (r c : Nat) : Lane :=
  t.hist.foldl (fun x h =>
    if h.opc = 4 then 0
    else if h.opc = 5 then BitVec.ofNat 32 (s.elem k (lget h.descs 0 Desc.zero) r c)
    else BitVec.ofNat 32 ((s.matOps k h).elem r c x.toNat).1) 0

/-- A tile replayed from its history (R290). -/
def State.replay (s : State) (k : Nat) (t : Tile) : Tile :=
  let c := s.core k
  let start (h : HistEntry) : Tile :=
    if h.opc = 4 then Tile.start t.dims.1 t.dims.2 0 h
    else if h.opc = 5 then
      let d := lget h.descs 0 Desc.zero
      loadTile d (s.patsOf k d) h
    else Tile.start (c.histShape h).1 (c.histShape h).2 (if h.prof = 0 then 1 else 2) h
  let add (x : Tile) (h : HistEntry) : Tile := if h.opc ≤ 3 then ((s.matOps k h).apply x (c.histG h)).1 else x
  match t.hist with
  | [] => t
  | h :: _ => { t.hist.foldl add (start h) with hist := t.hist }

/-- The positions of a 128-bit mask. -/
def bitsOf (m : BitVec 128) : List Nat := (List.range 128).filter fun i => m.getLsbD i

/-- Elements of a tile drained again to where the faulting drain put them (R289, R290): `all` discards and pushes again the channel's
entries. -/
def State.redrain (s : State) (k : Nat) (d : Drain) (t : Tile) (es : List (Nat × Nat)) (all : Bool) : State :=
  match d.chan with
  | none =>
    let c := lget d.descs 2 Desc.zero
    s.landSp k 0 (s.core k).run.g 0 2 [] (s.elemPieces k c c.writeBase (es.map fun (i, j) => (i, j, (s.drained k d.word d.descs t i j).1, false)))
  | some ch =>
    let mine (e : ChEntry) : Bool := match e.drain with | some (x, _) => x = d.id | none => false
    if all then
      let vals := drainEntries (drFmt d.word) t.dims.2 (s.drainAll k d.word d.descs t).1
      s.modChan k ch fun c =>
        { c with q := c.q.filter (fun e => !mine e) ++ vals.zipIdx.map fun (v, n) =>
            { v := v, phase := (s.core k).modes.phase.toNat, land := (s.core k).run.g, landed := true, src := 0, drain := some (d.id, n) } }
    else
      es.foldl (fun s (i, j) => s.modChan k ch fun c =>
        { c with q := c.q.map fun (e : ChEntry) =>
            if e.drain = some (d.id, i * d.q + j / 64) then
              { e with v := lput e.v (j % 64) (placeCvt (drFmt d.word) (s.drained k d.word d.descs t i j).1) 0 } else e }) s

/-- The verdict of a recovery word (R289, R290): a match clears VALID (and CKR after MRETRY) and counts in FIXCNT. -/
def State.fixVerdict (s : State) (rows cols : List Nat) (mretry : Bool) : State :=
  s.modMe fun c =>
    if rows.isEmpty && cols.isEmpty then
      { c with tfrec := { c.tfrec with valid := false, ckr := if mretry then 0 else c.tfrec.ckr }
               mtx := { c.mtx with fixcnt := satInc c.mtx.fixcnt } }
    else { c with tfrec := c.tfrec.withMasks rows cols, mtx := { c.mtx with ckcnt := satInc c.mtx.ckcnt } }

/-- The end of a LOCFIX on a tile (R289). -/
def State.locfixEnd (s : State) (tile : Nat) : State :=
  let k := s.cur.core
  let r := (bitsOf s.me.tfrec.rows).head?.getD 0
  let c := (bitsOf s.me.tfrec.cols).head?.getD 0
  let t := s.me.tile tile
  let t := { t with elems := lmod t.elems r [] fun row => lput row c (s.replayElem k t r c) 0 }
  let s := s.modMe fun x => x.setTile tile t
  let s := match s.me.mtx.faultDrain with | some d => s.redrain k d t [(r, c)] false | none => s
  let m := s.me.mismatch t
  s.fixVerdict (m.1.filter (· = r)) (m.2.filter (· = c)) false

/-- The end of an MRETRY on a tile (R290). -/
def State.mretryEnd (s : State) (tile : Nat) : State :=
  let k := s.cur.core
  let t := s.replay k (s.me.tile tile)
  let s := s.modMe fun x => { x.setTile tile t with tfrec := { x.tfrec with ckr := x.tfrec.ckr + 1 } }
  let es := (List.range t.dims.1).flatMap fun i => (List.range t.dims.2).map fun j => (i, j)
  let s := match s.me.mtx.faultDrain with | some d => s.redrain k d t es true | none => s
  let m := s.me.mismatch t
  (s.modMe fun x => x.setTile tile { t with xcols := [], xall := false }).fixVerdict m.1 m.2 true

/-- The elements of its operands from which a history entry forms element (r, c) of its tile (R289). -/
def State.usedBy (s : State) (k : Nat) (h : HistEntry) (r c : Nat) : List (Desc × Nat × Nat) :=
  let d0 := lget h.descs 0 Desc.zero
  let d1 := lget h.descs 1 Desc.zero
  let row (d : Desc) (i : Nat) : List (Desc × Nat × Nat) := (List.range d.cols.toNat).map fun j => (d, i, j)
  match h.opc with
  | 0 => row d0 r ++ (List.range d1.rows.toNat).map fun i => (d1, i, c)
  | 1 => row d0 r ++ row (lget h.descs 2 Desc.zero) r ++ (lget (s.matOps k h).slots r []).filterMap fun t => t.map fun x => (d1, x.1, c)
  | 2 => row d0 r ++ (if h.mode = 0 then row d1 c else (List.range d1.rows.toNat).flatMap (row d1))
  | 3 => row d0 r ++ row d1 c
  | 5 => [(d0, r, c)]
  | _ => []

/-- Whether a recovery word on a tile consumes poison (R145, R289, R290): in the elements that it replays, and in the scales with which it
drains again. -/
def State.fixPoison (s : State) (k tile : Nat) (mretry : Bool) : Bool :=
  let c := s.core k
  let t := c.tile tile
  let r := (bitsOf c.tfrec.rows).head?.getD 0
  let j := (bitsOf c.tfrec.cols).head?.getD 0
  let rows := if mretry then List.range t.dims.1 else [r]
  let cols := if mretry then List.range t.dims.2 else [j]
  (t.hist.any fun h =>
    if mretry then h.descs.any fun d => s.matPoison k d
    else (s.usedBy k h r j).any fun x => s.elemPoison k x.1 x.2.1 x.2.2) ||
  match c.mtx.faultDrain with
  | some d => (rows.any fun i => (s.drScale k (drRsc d.word) (lget d.descs 0 Desc.zero) i).2) ||
      (cols.any fun i => (s.drScale k (drCsc d.word) (lget d.descs 1 Desc.zero) i).2)
  | none => false

/-- CHECKSUM_VERDICT (R283, R286, R289, R290): the verdict of the drain, or of the recovery word, of effect `cur.arg`. -/
def execChecksumVerdict (s : State) : Res :=
  match s.thePend with
  | none => ok s
  | some p =>
    match p.eff with
    | .verdict => match s.me.mtx.drainOf p.tide with
      | some d => ok ((s.endPend p).verdict d)
      | none => ok (s.endPend p)
    | .fixEnd mretry tile =>
      let s := s.endPend p
      let bad := s.fixPoison s.cur.core tile mretry
      let s := if mretry then s.mretryEnd tile else s.locfixEnd tile
      ok (if bad then s.modMe fun c => c.landReg .chkint else s)
    | _ => ok s

end Sys2Proof.Machine
end

