-- ==== Sys2Proof/Machine/Arrival.lean ====
section
/-!
DEFINITION. Writes that land in the scratchpads (R37 to R40), data that arrive from homes, multicast copies (R311), the old values of
atomics (R315), and what a matrix word in its occupancy reads when a write lands in its operands (R270).
-/

namespace Sys2Proof.Machine

/-! ## Operands written during an occupancy (R270) -/

/-- Where one element or one scale lies: address, bytes, and which nibble of its byte. -/
structure ReadPlace where
  addr : Nat
  len  : Nat
  nib  : Option Bool
  deriving DecidableEq, Repr

/-- The places of a descriptor's elements. -/
def Desc.elemPlaces (d : Desc) : List ReadPlace :=
  (List.range d.rows.toNat).flatMap fun i => (List.range d.cols.toNat).map fun j =>
    { addr := (d.addrIn d.readBase i j).toNat, len := Nat.max 1 (d.bits / 8), nib := if d.bits = 4 then some (d.hiNib i j) else none }

/-- The places of the first n scales of a descriptor, none when the drain does not use them (R96). -/
def Desc.scalePlaces (d : Desc) (used : Bool) (n : Nat) : List ReadPlace :=
  if used && d.sbase != 0 then
    (List.range n).map fun (i : Nat) => { addr := ((d.sbase.toNat : Int) + (i : Int) * d.sstride.toInt).toNat, len := 4, nib := none }
  else []

/-- The drain word that a reading stands for. -/
def Mtx.readDrain (m : Mtx) (lane : Bool) (r : Reading) : Option Drain := if r.hist.opc = 6 then m.drainOf lane else none

/-- What a word in its occupancy reads: its operands' elements and metadata, or a drain's scales. -/
def Core.readPlaces (c : Core) (lane : Bool) (r : Reading) : List ReadPlace :=
  if r.hist.opc = 6 then
    match c.mtx.readDrain lane r with
    | some d =>
      let dims := (c.tile r.tile).dims
      (lget d.descs 0 Desc.zero).scalePlaces (drRsc d.word) dims.1 ++ (lget d.descs 1 Desc.zero).scalePlaces (drCsc d.word) dims.2
    | none => []
  else r.hist.descs.flatMap Desc.elemPlaces

/-- The value at a place. -/
def ReadPlace.value (p : ReadPlace) (read : Nat → Byte) : Nat :=
  match p.nib with
  | some hi => nibOf (read p.addr) hi
  | none => leNat ((List.range p.len).map fun i => read (p.addr + i))

/-- A value kept at a place, after the pieces of a list (last first) and over `read`. -/
def ReadPlace.keep (p : ReadPlace) (read : Nat → Byte) (v : Nat) (ps : List Piece) : List Piece :=
  match p.nib with
  | some hi => nibPiece read ps p.addr hi v false
  | none => { addr := p.addr, bytes := leBytes p.len v, poison := false } :: ps

/-- The old values that a word still reads after a write changed SP1 from `was` to `now` (R270): a place that the write changed is read with
the old value or the new one, as a free number says; any other place as before. The pieces are listed last first. -/
def keptOlds (was now : Nat → Byte) (olds : List Piece) (f : Nat) (l : List ReadPlace) : List Piece :=
  let before (a : Nat) : Byte := overlay olds.reverse a (was a)
  (l.zipIdx.foldl (fun (ps : List Piece) (p, n) =>
    let v := p.value before
    if v = p.value now then ps
    else if p.value was = p.value now || Config.freeNat (f + n) % 2 = 0 then p.keep now v ps
    else ps) [])

/-- SP1 of core k as a word reads it that still reads `olds` (listed last first). -/
def State.withOlds (s : State) (k : Nat) (olds : List Piece) : State :=
  s.modCore k fun c => { c with mem := { c.mem with sp1 := olds.reverse.foldl mwriteP c.mem.sp1 } }

/-- The flags that the word in its occupancy will set at its end (R91, R287). -/
def State.wordFlags (s : State) (k : Nat) (lane : Bool) (end_ : Nat) (f : BitVec 5) : State :=
  let mine (p : Pend) : Bool := p.unit = 2 && p.tide = lane && (match p.eff with | .mflag _ => true | _ => false)
  let new : List Pend := if f = 0 then [] else
    [{ id := s.nextId, land := end_ - 1, since := (s.core k).run.g, tide := lane, unit := 2, goesOn := false, need := none, phased := false,
       missed := false, eff := .mflag f }]
  { s.modCore k fun c => { c with pend := c.pend.filter (fun p => !mine p) ++ new } with nextId := s.nextId + 1 }

/-- The rows of a drain that are still to be written or pushed, formed anew from the state `m`. -/
def State.drainAnew (s m : State) (k : Nat) (d : Drain) (end_ : Nat) : State :=
  let t := (m.core k).tile d.tile
  let (rows, fl) := m.drainAll k d.word d.descs t
  let s := match d.chan with
    | some _ =>
      s.modCore k fun c => c.setDrain { d with rows := d.rows.take d.done ++ (drainEntries (drFmt d.word) t.dims.2 rows).drop d.done }
    | none =>
      let row (p : Pend) : Pend := match p.eff with
        | .sp 0 _ =>
          if p.unit = 2 && p.tide = d.lane then
            let i := p.land - (d.issue + 40)
            { p with eff := .sp 0 (s.drainRow k (lget d.descs 2 Desc.zero) i (lget rows i [])) }
          else p
        | _ => p
      s.modCore k fun c => { c with pend := c.pend.map row }
  s.wordFlags k d.lane end_ (mflags fl)

/-- The result of a word in its occupancy formed anew, with SP1 as the state `m` has it (R270). -/
def State.formAnew (s m : State) (k : Nat) (lane : Bool) (r : Reading) : State :=
  let d := lget r.hist.descs 0 Desc.zero
  if r.hist.opc = 6 then
    match (s.core k).mtx.readDrain lane r with
    | some d => s.drainAnew m k d r.end_
    | none => s
  else if r.hist.opc = 5 then s.modCore k fun c => c.setTile r.tile (loadTile d (m.patsOf k d) r.hist)
  else if r.hist.opc = 10 then s.modCore k fun c => c.setBank r.bank (loadedBank d (m.patsOf k d))
  else
    let (x, fl) := (m.matOps k r.hist).apply r.before ((m.core k).histG r.hist)
    (s.modCore k fun c => c.setTile r.tile x).wordFlags k lane r.end_ (mflags fl)

/-- A write has landed in SP1 of core k, which held `was` before (R270): the word of the main queue or of the handler lane that is in its
occupancy reads each element that the write changed with the old or the new value, and its result and checksums are formed from the values
read. A poisoned new value is consumed (R145). -/
def State.reread (s : State) (k : Nat) (was : Memory) (lane : Bool) : State :=
  let c := s.core k
  match c.mtx.readingOf lane with
  | none => s
  | some r =>
    let l := c.readPlaces lane r
    let changed := l.filter fun p => p.value (mread was) != p.value (mread c.mem.sp1)
    if r.end_ ≤ (if lane then s.tide else c.run.g) || changed.isEmpty then s
    else
      let olds := keptOlds (mread was) (mread c.mem.sp1) r.olds s.free l
      let s : State := { s with free := s.free + l.length }
      let m := s.withOlds k olds
      let bad := changed.any fun p => p.value (mread was) != p.value (mread (m.core k).mem.sp1) && s.spPoison k 0 p.addr p.len
      let s := s.modCore k fun c => { c with mtx := c.mtx.setReading lane (some { r with olds := olds }) }
      let s := if bad then s.modCore k fun c => c.landReg .chkint else s
      s.formAnew m k lane r

/-! ## Writes into the scratchpads -/

/-- What a write of a core's own unit still writes: where a later unit, or a later write of its unit, has landed on the same gang cycle, that
one's bytes stand (R261). -/
def Core.notOver (c : Core) (p : Pend) (lvl : Nat) (ps : List Piece) : List Piece :=
  if p.tide || 4 ≤ p.unit then ps
  else
    let later := c.landed.filter fun x => x.lvl = lvl && (p.unit < x.unit || (p.unit = x.unit && p.id < x.id))
    (later.flatMap (·.runs)).foldl (fun qs r => qs.flatMap fun q => q.without r.1 r.2) ps

/-- A write of a core's own unit noted for the rest of its gang cycle (R261). -/
def Core.noteLanded (c : Core) (p : Pend) (lvl : Nat) (ps : List Piece) : Core :=
  if p.tide || 4 ≤ p.unit then c
  else { c with landed := c.landed ++ [{ unit := p.unit, id := p.id, lvl := lvl, runs := ps.map fun q => (q.addr, q.bytes.length) }] }

/-- Pieces land in core k's scratchpads at its present gang cycle (R39, R40, R261); matrix words in their occupancy read SP1 anew (R270). -/
def State.landNow (s : State) (k : Nat) (p : Pend) (lvl : Nat) (ps : List Piece) : State :=
  let t := (s.landSp k lvl (s.core k).run.g p.id p.unit p.deps ((s.core k).notOver p lvl ps)).modCore k fun c => c.noteLanded p lvl ps
  if lvl = 0 then (t.reread k (s.core k).mem.sp1 false).reread k (s.core k).mem.sp1 true else t

/-- SP_WRITE_LANDS (R39, R40): the write of effect `cur.arg` lands. -/
def execSpWriteLands (s : State) : Res :=
  let k := s.cur.core
  match s.thePend with
  | none => ok s
  | some p =>
    match s.effPieces (s.spByte k) p with
    | none => ok s
    | some (lvl, ps, eaten) =>
      if !s.needMet p then ok s
      else
        let s := (s.endPend p).landNow k p lvl ps
        let s := if eaten then s.modCore k fun c => c.landReg .chkint else s
        ok (s.checkAwait k)

/-- DMCAST_ARRIVAL (R311, R312): a multicast copy lands in the receiver's SP1. -/
def execDmcastArrival (s : State) : Res :=
  let k := s.cur.core
  match s.thePend with
  | none => ok s
  | some p =>
    match p.eff with
    | .mcast ps => ok (((s.endPend p).landNow k p 0 ps).checkAwait k)
    | _ => ok s

/-- ATOMIC_RETURN (R315): the old value of an atomic reaches its place in SP1; a poisoned one is consumed (R145). -/
def execAtomicReturn (s : State) : Res :=
  let k := s.cur.core
  match s.thePend with
  | none => ok s
  | some p =>
    match p.eff with
    | .atomRet addr =>
      if !s.needMet p then ok s
      else
        let a := s.answer p
        let s := s.endPend p
        let s := match addr with
          | some (x, _) => s.landNow k p 0 [{ addr := x, bytes := a.flatMap fun (q : Piece) => q.bytes, poison := false }]
          | none => s
        let s := if a.any (·.poison) then s.modCore k fun c => c.landReg .chkint else s
        ok (s.checkAwait k)
    | _ => ok s

end Sys2Proof.Machine
end

