-- ==== Sys2Proof/Machine/Block.lean ====
section
/-!
DEFINITION. What data-engine words share (R295 to R302): field use, operand checks, timing of the paths, elements at a G level with
their pinned addresses, BTC blocks, and the writes of a repeat.
-/

namespace Sys2Proof.Machine

/-! ## Field use (R295, R296) -/

/-- The field use of a row of R295: whether dst, src and aux name descriptors, whether the class is used, what PHASED may hold (0 clear,
1 set, 2 either), whether REL may be set, whether REP is free, the step codes, and whether ARG is legal. -/
structure DForm where
  dst  : Bool
  src  : Bool
  aux  : Bool
  cls  : Bool
  ph   : Nat
  rel  : Bool
  rep  : Bool
  steps : List Nat
  arg  : Bool
  deriving DecidableEq, Repr

/-- Whether a word obeys its row of R295. -/
def dxLegal (f : DForm) (w : DX) : Bool :=
  (f.dst || w.dst = 0) && (f.src || w.src = 0) && (f.aux || w.aux = 0) && (f.cls || w.cls = 0) &&
  (if f.ph = 0 then !w.phased else if f.ph = 1 then w.phased else true) && (f.rel || !w.rel) && (f.rep || w.rep = 0) &&
  f.steps.contains w.step.toNat && f.arg

/-- A linear byte descriptor (R296). -/
def Desc.linear (d : Desc) : Bool :=
  d.fmt = 11 && d.estride = 1 && d.swz = 0 && (d.rows.toNat ≤ 1 || d.rstride.toNat = d.cols.toNat)

/-- Whether a descriptor is a BTC view (R64, R66). -/
def State.isBtc (s : State) (d : Desc) : Bool := d.level = 4 && s.aperKind d.apidx.toNat = 1

/-- SP levels, G levels, and levels 0 and 1 (R295). -/
def lvSp (l : Nat) : Bool := l ≤ 2
def lvG (l : Nat) : Bool := l = 3 || l = 4
def lvNear (l : Nat) : Bool := l ≤ 1

/-- The faults of an operand (R63, R66, R295, R296): its descriptor number and value, the levels permitted, whether it is written, whether
it must be linear. -/
def State.opFault (s : State) (n : Nat) (d : Desc) (lv : Nat → Bool) (write lin : Bool) : Option FaultRec :=
  if !lv d.level.toNat then some (permD 3 n)
  else firstFault [s.descFault s.cur.core 3 n d write, s.viewFault 3 n d write, if lin && !d.linear then some (permD 3 n) else none]

/-! ## Sources read during an occupancy (R298) -/

/-- The descriptors through which a word's repeat reads elements of SP levels (R259, R298). -/
def readDescs : Instr → List (BitVec 4)
  | .vld w => [w.desc]
  | .vldx w => [w.desc]
  | .vlut w => [w.desc]
  | .tmov w => w.src :: if w.arg.getLsbD 13 && w.arg.getLsbD 7 then [w.aux] else []
  | .dstore w => [w.src]
  | .dphst w => [w.src]
  | .dgather w => [w.src]
  | .dscatter w => [w.src]
  | .dmcast w => [w.src]
  | .dcomp w => [w.src]
  | .dexp w => [w.src]
  | .dtrans w => [w.src]
  | .datom w => [w.src]
  | _ => []

/-- The data repeat that the main queue or the handler lane has in its occupancy, and that repeat replaced. -/
def Core.dreadOf (c : Core) (lane : Bool) : Option DataRead := if lane then c.laneDread else c.dread
def Core.setDread (c : Core) (lane : Bool) (r : Option DataRead) : Core := if lane then { c with laneDread := r } else { c with dread := r }

/-- Where the elements of the SP descriptors of a list lie: level, address, bytes, and whether the byte holds two elements. -/
def srcPlaces (ds : List Desc) : List (Nat × Nat × Nat × Bool) :=
  (ds.filter fun d => lvSp d.level.toNat).flatMap fun d => (List.range d.rows.toNat).flatMap fun i => (List.range d.cols.toNat).map fun j =>
    (d.level.toNat, (d.addrIn d.readBase i j).toNat, Nat.max 1 (d.bits / 8), decide (d.bits = 4))

/-- What core k sees at places now. -/
def State.bytesSeen (s : State) (k : Nat) (ps : List (Nat × Nat × Nat × Bool)) : List Piece :=
  ps.map fun (l, a, n, _) => { addr := a, bytes := s.spRead k l a n, poison := s.spPoison k l a n }

/-- The repeat of the step is noted as it finds the core; it reads nothing yet. -/
def State.openRead (s : State) : State :=
  let r : DataRead :=
    { eng := s.eng .data, descs := s.me.descs, c8 := lget s.me.chans 8 Chan.empty, params := s.me.params, since := s.clk,
      ids := (s.nextId, s.nextId), held := (s.me.mem.held.length, s.me.mem.held.length), free0 := s.free, end_ := 0,
      places := [], seen := [], reads := [] }
  s.modMe fun c => c.setDread s.cur.shadow (some r)

/-- The bytes that a repeat which reads its sources for some cycles keeps from its issue: those of descriptors that it reads at issue (R308),
and those beside the INT4 elements that it writes (log 23). -/
def State.keptBytes (s : State) (k : Nat) (once into : List Desc) : List (Nat × Piece) :=
  let ps := srcPlaces once ++ srcPlaces ((into.filter fun d => d.bits = 4).map fun d => { d with base := BitVec.ofNat 48 d.writeBase, db := false })
  (ps.map (·.1)).zip (s.bytesSeen k ps)

/-- The repeat of the step reads its sources `rd` until its occupancy of `occ` cycles ends; `once` it has read, and `into` it writes. -/
def State.readUntil (s : State) (rd once into : List Desc) (occ : Nat) : State :=
  let v := s.bytesSeen s.cur.core (srcPlaces rd)
  let f := if rd.isEmpty then [] else s.keptBytes s.cur.core once into
  s.modMe fun c => c.setDread s.cur.shadow ((c.dreadOf s.cur.shadow).map fun r =>
    { r with ids := (r.ids.1, s.nextId), held := (r.held.1, c.mem.held.length), end_ := s.clk + occ, places := srcPlaces rd, seen := v, reads := v,
             fixed := f })

/-- A data-engine word issues its repeat: a PHASED store in a handler lane raises PERM (R141); `ns` are the descriptors that it names, and
`body` takes their latched values and the repeat. -/
def dataRun (i : Instr) (w : DX) (legal : Bool) (ns : List (BitVec 4)) (body : List Desc → Nat → State → State) (s : State) : Res :=
  engRun .data i legal (fun s =>
    if s.cur.shadow && w.phased then s.takeFault (permD 3 w.dst.toNat)
    else
      let ds := s.latch .data (ns.map (·.toNat))
      body ds (s.eng .data).rep (s.openRead.keepLatch .data ds)) s

/-- A body that runs when none of a list of checks fails. -/
def State.unless (s : State) (fs : List (Option FaultRec)) (body : State → State) : State :=
  match firstFault fs with
  | some f => s.takeFault f
  | none => body s

/-- A body that runs when no read through the SP descriptors of a list misses (R41, R298); it also taints an open drain (R154). -/
def State.afterReads (s : State) (rs : List (Nat × Desc)) (body : State → State) : State :=
  match s.firstMiss rs with
  | some (n, ids) => s.engMiss .data n (.pends ids)
  | none => body (rs.foldl (fun s r => s.noteRead r.2) s)

/-- Descriptor i of a latched list. -/
def dAt (ds : List Desc) (i : Nat) : Desc := lget ds i Desc.zero

/-! ## Timing (R300) -/

/-- Latency of a transfer of b bytes between SP levels. -/
def pathLat (a c b : Nat) : Nat :=
  if a = 2 || c = 2 then 66 + ceilDiv b 128 else if a = 0 && c = 0 then 8 + ceilDiv b 512 else 24 + ceilDiv b 256

/-- Occupancy of a transfer of b bytes between SP levels. -/
def pathOcc (a c b : Nat) : Nat :=
  if a = 2 || c = 2 then 2 + ceilDiv b 128 else if a = 0 && c = 0 then 2 + ceilDiv b 512 else 2 + ceilDiv b 256

/-- Bytes of n elements of a descriptor's format. -/
def Desc.bytesOf (d : Desc) (n : Nat) : Nat := ceilDiv (n * d.bits) 8

/-! ## The writes of a repeat -/

/-- A write of a repeat: its latency, effect, the operation whose answer it needs, whether it goes to a shadow bank, and the SP1 chunks that
it writes. -/
structure DWrite where
  lat    : Nat
  eff    : Eff
  need   : Option Nat
  phased : Bool
  chunks : List Nat
  deriving DecidableEq, Repr

/-- The SP1 chunks of runs (address, length) at a level. -/
def chunksAt (lvl : Nat) (rs : List (Nat × Nat)) : List Nat := if lvl = 0 then chunksOf rs else []

/-- The SP1 chunks of elements of an SP descriptor in the bank at `base`. -/
def Desc.elemChunks (d : Desc) (base : Nat) (es : List (Nat × Nat)) : List Nat :=
  chunksAt d.level.toNat (es.map fun (i, j) => ((d.addrIn base i j).toNat, Nat.max 1 (d.bits / 8)))

/-- A write of pieces through an SP descriptor. -/
def spWrite (d : Desc) (lat : Nat) (ps : List Piece) : DWrite :=
  { lat := lat, eff := .sp d.level.toNat ps, need := none, phased := d.phased,
    chunks := chunksAt d.level.toNat (ps.map fun p => (p.addr, p.bytes.length)) }

/-- The port use of a repeat that issued at x and reads the SP1 chunks `src` (R343): a read that waits moves its writes, given with their
chunks, and the effects `also` (R344). -/
def State.portAll (s : State) (x : Nat) (src : List Nat) (ws : List (Nat × List Nat)) (also : List (Nat × Nat)) : State :=
  let k := s.cur.core
  ws.foldl (fun s w => s.writePort k s.cur.shadow w.1 true w.2) (s.readPort x src ((ws.map fun w => (k, w.1)) ++ also))

/-- How a repeat reads: through the sources `rd` until its occupancy ends (R298), through `once` as it issues (R308, R321, R322); `into` are
the descriptors that it writes through. -/
structure DReads where
  rd   : List Desc := []
  once : List Desc := []
  into : List Desc := []
  deriving DecidableEq, Repr

/-- A repeat issues: `src` are the SP1 chunks read and `ws` its writes; groups beyond one per 16 chunks lengthen its occupancy and its landings
(R343), its sources are read as `how` says, and the port of SP1 is used (R344); `also` lists the effects of the repeat that are no writes of its
own core's SP. -/
def State.dataOut (s : State) (reps occ : Nat) (how : DReads) (src : List Nat) (ws : List DWrite) (also : List (Nat × Nat) := []) : State :=
  let c := s.clk
  let x := extraGroups src + (ws.map fun w => extraGroups w.chunks).sum
  let ids := ws.zipIdx.map fun (w, i) => (s.nextId + i, w.chunks)
  let s := ws.foldl (fun s w => s.addPend 3 (c + w.lat + x - 1) w.eff (goesOn := true) (need := w.need) (phased := w.phased)) s
  let s := ((s.readUntil how.rd how.once how.into (occ + x)).engIssue .data reps (occ + x)).modMe fun k => k.perfAdd 7 x
  s.portAll c src ids also

/-! ## Elements at a G level (R61, R65, R70) -/

/-- The device virtual address of offset 0 of a G descriptor's own addresses. -/
def State.gOrigin (s : State) (d : Desc) : Nat := if d.level = 4 then s.aperVbase d.apidx.toNat else 0

/-- The device virtual address of element (i, j) of a LEVEL 3, RAW or RO descriptor. -/
def State.gAddr (s : State) (d : Desc) (i j : Nat) : Nat := ((s.gOrigin d : Int) + d.addrIn d.base.toNat i j).toNat

/-- A read under way of elements at a home: the ranges read (last first), their bytes in all, and the copies in 4-bit units (last first). -/
structure GPlan where
  spans : List (Nat × Nat)
  total : Nat
  runs  : List (Nat × Nat × Nat)
  deriving DecidableEq, Repr

/-- Nothing read. -/
def GPlan.empty : GPlan := { spans := [], total := 0, runs := [] }

/-- A copy of l units joined to the one before where both go on. -/
def joinRun (rs : List (Nat × Nat × Nat)) (dst src l : Nat) : List (Nat × Nat × Nat) :=
  match rs with
  | (d, o, n) :: r => if d + n = dst && o + n = src then (d, o, n + l) :: r else (dst, src, l) :: rs
  | [] => [(dst, src, l)]

/-- n bytes from va read, with the source byte at which they stand. -/
def GPlan.read (p : GPlan) (va n : Nat) : GPlan × Nat :=
  match p.spans with
  | (v, l) :: r =>
    if v + l = va then ({ p with spans := (v, l + n) :: r, total := p.total + n }, p.total)
    else if n = 1 && v + l = va + 1 then (p, p.total - 1)
    else ({ p with spans := (va, n) :: p.spans, total := p.total + n }, p.total)
  | [] => ({ p with spans := [(va, n)], total := p.total + n }, p.total)

/-- An element at va (its high nibble when `hi`) copied to a destination counted in nibbles. -/
def GPlan.elem (p : GPlan) (bits va : Nat) (hi : Bool) (dst : Nat) : GPlan :=
  let (p, at_) := p.read va (Nat.max 1 (bits / 8))
  { p with runs := joinRun p.runs dst (2 * at_ + bit (bits = 4 && hi)) (bits / 4) }

/-- The elements that the far side does not hold take `fill`, which stands after everything read. -/
def GPlan.fill (p : GPlan) (bits : Nat) (dsts : List Nat) : GPlan :=
  dsts.foldl (fun p dst => { p with runs := (dst, 2 * p.total, bits / 4) :: p.runs }) p

/-- Where element (i, j) of an SP descriptor goes, in nibbles. -/
def Desc.nibDst (d : Desc) (i j : Nat) : Nat :=
  2 * (d.addrIn d.writeBase i j).toNat + bit (d.bits = 4 && d.hiNib i j)

/-- The bytes of a fill value. -/
def Desc.fillBytes (d : Desc) : List Byte :=
  leBytes (Nat.max 1 (d.bits / 8)) (if d.bits = 4 then d.fill.toNat % 16 else d.fill.toNat)

/-- The first byte of a range that a descriptor does not pin. -/
def Desc.firstUnpinned (d : Desc) (va n : Nat) : Nat :=
  match (List.range n).find? fun i => (d.xlate (va + i) 1).isNone with
  | some i => va + i
  | none => va

/-- The physical runs of ranges through the pinned range of a descriptor, or PERM with the first byte outside it (R296). -/
def Desc.pinSpans (d : Desc) : List (Nat × Nat) → FaultRec ⊕ List (Nat × Nat × Nat)
  | [] => .inr []
  | (va, n) :: r =>
    match d.xlate va n with
    | none => .inl (mkFault 3 0x05 (d.firstUnpinned va n))
    | some rs => match d.pinSpans r with
      | .inl f => .inl f
      | .inr t => .inr (rs ++ t)

/-- The byte that a virtual address holds at its home. -/
def State.gByteAt (s : State) (d : Desc) (va : Nat) : Byte :=
  match d.xlate va 1 with
  | some ((t, a, _) :: _) => s.gByte t a
  | _ => 0

/-- The pieces, by virtual address, that write elements through a G descriptor; an INT4 element keeps the other nibble of its byte as an
earlier element, a piece of `prev` or the home has it at issue (log 23). -/
def State.gPieces (s : State) (d : Desc) (prev : List Piece) (es : List (Nat × Nat × Nat × Bool)) : List Piece :=
  if d.bits = 4 then
    joinPieces (es.foldl (fun ps (i, j, v, poi) =>
      nibPiece (fun a => overlay prev a (s.gByteAt d a)) ps (s.gAddr d i j) (d.hiNib i j) v poi) []).reverse
  else joinPieces (es.map fun (i, j, v, poi) => { addr := s.gAddr d i j, bytes := leBytes (d.bits / 8) v, poison := poi })

/-- A store of pieces by virtual address: the physical pieces and the names under which bound regions know them (R79), or PERM. -/
def Desc.storePieces (d : Desc) : List Piece → FaultRec ⊕ (List (Nat × Piece) × List (Nat × Nat × Nat))
  | [] => .inr ([], [])
  | p :: r =>
    match d.xlate p.addr p.bytes.length with
    | none => .inl (mkFault 3 0x05 (d.firstUnpinned p.addr p.bytes.length))
    | some rs => match d.storePieces r with
      | .inl f => .inl f
      | .inr (ps, ns) => .inr (splitRuns rs p.bytes p.poison ++ ps, (0, p.addr, p.bytes.length) :: ns)

/-! ## BTC blocks (R66, R304) -/

/-- Addresses of the coded bytes and of the side-table byte of the block that holds element (r, c) of a BTC view's descriptor. -/
def State.btcBlock (s : State) (d : Desc) (r c : Nat) : Nat × Nat :=
  let x := d.apidx.toNat
  let n := (d.btcRow + r) / 4 * s.aperBcols x + (d.btcCol + c) / 4
  (s.aperVbase x + n * blockBytes (s.aperBudget x), s.aperSide x + n)

/-- The first elements of the 4 × 4 blocks of br × cols elements, row by row. -/
def blockCorners (br cols : Nat) : List (Nat × Nat) :=
  (List.range (br / 4)).flatMap fun i => (List.range (cols / 4)).map fun j => (4 * i, 4 * j)

/-- The 16 elements of the block at (r, c), row by row. -/
def blockElems (r c : Nat) : List (Nat × Nat) := btcPos.map fun (i, j) => (r + i, c + j)

/-- A held store put into the buffer (R305), or none when it does not fit. -/
def Core.hold (c : Core) (hs : List Held) : Option Core :=
  if (c.mem.held.map (·.size)).sum + (hs.map (·.size)).sum ≤ Config.heldSize then
    some { c with mem := { c.mem with held := c.mem.held ++ hs } }
  else none

/-- The space of a held store of n bytes (R305). -/
def heldCost (n : Nat) : Nat := ceilDiv n 16 * 16 + 16

end Sys2Proof.Machine
end

