-- ==== Sys2Proof/Machine/Data.lean ====
section
/-!
DEFINITION. Block words and manifest mode (R297, R303 to R307), gathers and scatters (R308 to R310), multicast (R311, R312), the coder and
layout words (R313, R314).
-/

namespace Sys2Proof.Machine

/-! ## Blocks (R297, R307) -/

/-- A block: its near and far origins, rows and columns. -/
structure Blk where
  rn : Nat
  cn : Nat
  rf : Int
  cf : Int
  br : Nat
  cols : Nat
  deriving DecidableEq, Repr

/-- The elements of a block, row by row, as offsets. -/
def Blk.offs (b : Blk) : List (Nat × Nat) := (List.range b.br).flatMap fun i => (List.range b.cols).map fun j => (i, j)

/-- The near element of an offset. -/
def Blk.near (b : Blk) (o : Nat × Nat) : Nat × Nat := (b.rn + o.1, b.cn + o.2)

/-- The far element of an offset, where descriptor d holds it. -/
def Blk.far (b : Blk) (d : Desc) (o : Nat × Nat) : Option (Nat × Nat) :=
  let r := b.rf + o.1
  let c := b.cf + o.2
  if 0 ≤ r && r < d.rows.toNat && 0 ≤ c && c < d.cols.toNat then some (r.toNat, c.toNat) else none

/-- Whether a block lies inside its near descriptor, and inside its far descriptor. -/
def Blk.nearIn (b : Blk) (d : Desc) : Bool := b.rn + b.br ≤ d.rows.toNat && b.cn + b.cols ≤ d.cols.toNat
def Blk.farIn (b : Blk) (d : Desc) : Bool :=
  0 ≤ b.rf && b.rf + b.br ≤ d.rows.toNat && 0 ≤ b.cf && b.cf + b.cols ≤ d.cols.toNat

/-- The block of repeat k outside manifest mode (R297): `step` is the step code, `br` the rows. -/
def plainBlk (near : Desc) (step br k : Nat) : Blk :=
  let r := if step = 7 then k else 0
  let c := if step = 8 then k * near.cols.toNat else 0
  { rn := r, cn := c, rf := r, cf := c, br := br, cols := near.cols.toNat }

/-- The rows that a BR field names (R297). -/
def brRows (br : Nat) (near : Desc) : Nat := if br = 0 then near.rows.toNat else br

/-- Fields of the block ARG (R297). -/
def argMf (w : DX) : Bool := w.arg.getLsbD 13
def argTf (w : DX) : Bool := w.arg.getLsbD 12
def argTn (w : DX) : Bool := w.arg.getLsbD 11
def argShf (w : DX) : Bool := w.arg.getLsbD 10
def argHalo (w : DX) : Int := ((w.arg.extractLsb' 8 2).toNat : Int)
def argBsel (w : DX) : Bool := w.arg.getLsbD 7
def argBr (w : DX) : Nat := w.arg.toNat % 128

/-- Fields of the head of a manifest entry (R123). -/
def headTx (h : Nat) : Nat := h % 2 ^ 12
def headTy (h : Nat) : Nat := h / 2 ^ 12 % 2 ^ 12
def headBank (h : Nat) : Bool := h / 2 ^ 29 % 2 = 1
def headAct (h : Nat) : Nat := h / 2 ^ 30 % 4
def headDx (h : Nat) : Int := toVal 16 true (h / 2 ^ 32)
def headDy (h : Nat) : Int := toVal 16 true (h / 2 ^ 48)

/-- The head of an entry of c8. -/
def entryHead (v : List Lane) : Nat := (lget v 0 0).toNat + 2 ^ 32 * (lget v 1 0).toNat

/-- The block of a manifest entry (R307): TS and XU of GATHER. -/
def manifestBlk (w : DX) (near : Desc) (br ts xu h : Nat) : Blk :=
  let hf := argHalo w
  let rf : Int := (if argTf w then ((headTy h * ts : Nat) : Int) else 0) + (if argShf w then headDy h else 0) - hf
  let cf : Int := ((if argTf w then ((headTx h * ts : Nat) : Int) else 0) + (if argShf w then headDx h else 0) - hf) * (xu : Int)
  { rn := if argTn w then headTy h * ts else 0, cn := if argTn w then headTx h * ts * xu else 0, rf := rf, cf := cf,
    br := br, cols := near.cols.toNat }

/-- Whether a block word obeys R295, R297 and R307. -/
def blkLegal (w : DX) (cls : Bool) (ph : Nat) : Bool :=
  dxLegal { dst := true, src := true, aux := argMf w && argBsel w, cls := cls, ph := ph, rel := false, rep := true,
            steps := if argMf w then [0] else [0, 7, 8], arg := argMf w || w.arg.toNat < 128 } w

/-- The checks of a block word's operands that no manifest entry affects (R296, R297, R307): near, far and aux with their numbers. -/
def State.blkFaults (s : State) (w : DX) (load : Bool) (lv : Nat → Bool) (nn fn : Nat) (near far aux : Desc) : List (Option FaultRec) :=
  let an := w.aux.toNat
  [s.opFault nn near lvSp load false, s.opFault fn far lv (!load) false,
   if argBsel w && argMf w then s.opFault an aux lv (!load) false else none,
   if far.fmt != near.fmt then some (permD 3 fn) else none,
   if near.bits = 4 && near.cols.toNat % 2 = 1 then some (permD 3 nn) else none,
   if argBsel w && argMf w && (aux.fmt != far.fmt || aux.rows != far.rows || aux.cols != far.cols) then some (permD 3 an) else none,
   if argMf w && (s.me.params.xu = 0 || s.me.params.ts.toNat < 4 || 128 < s.me.params.ts.toNat || s.me.params.ts.toNat % 4 != 0) then
     some (mkFault 3 0x05 0x600) else none]

/-- A block word's repeat (R297, R303, R307): `load` tells that the near side is the destination, `occ` gives its occupancy by the far level
and the bytes, `move` does the copy from near number and value, far number and value, block and bytes. -/
def blockRun (i : Instr) (w : DX) (load cls : Bool) (ph : Nat) (lv : Nat → Bool) (occ : Desc → Desc → Nat → Nat)
    (move : Nat → Desc → Nat → Desc → Blk → State → State) (s : State) : Res :=
  let nn := if load then w.dst else w.src
  let fn := if load then w.src else w.dst
  dataRun i w (blkLegal w cls ph) [nn, fn, w.aux] (fun ds k s =>
    let near := dAt ds 0
    let far := dAt ds 1
    let aux := dAt ds 2
    let br := brRows (argBr w) near
    s.unless (s.blkFaults w load lv nn.toNat fn.toNat near far aux) fun s =>
      if !argMf w then
        let b := plainBlk near w.step.toNat br k
        s.unless [if b.nearIn near then none else some (permD 3 nn.toNat), if b.farIn far then none else some (permD 3 fn.toNat)]
          (move nn.toNat near fn.toNat far b)
      else if !s.entryLanded 8 0 then s.engMiss .data 0x108 (.entry 8 0)
      else
        let h := entryHead (s.entry 8 0)
        if headAct h = 3 then
          (s.popChan 8 1).engIssue .data (w.rep.toNat + 1) (occ near far (near.bytesOf (br * near.cols.toNat)))
        else
          let second := argBsel w && (if load then headBank h else !headBank h)
          let b := manifestBlk w near br s.me.params.ts.toNat s.me.params.xu.toNat h
          s.unless [if b.nearIn near then none else some (permD 3 nn.toNat)]
            (move nn.toNat near (if second then w.aux.toNat else fn.toNat) (if second then aux else far) b)) s

/-- A manifest-mode repeat that issues takes its entry (R307). -/
def State.popEntry (s : State) (w : DX) : State := if argMf w then s.popChan 8 1 else s

/-- An element of an SP descriptor's active bank with its mark. -/
def State.elemAt (s : State) (d : Desc) (p : Nat × Nat) : Nat × Bool :=
  (s.elem s.cur.core d p.1 p.2, s.elemPoison s.cur.core d p.1 p.2)

/-- TMOV (R303). -/
def execTmov (w : DX) (s : State) : Res :=
  let occ (near far : Desc) (b : Nat) : Nat := pathOcc far.level.toNat near.level.toNat b
  blockRun (.tmov w) w true false 0 lvSp occ (fun nn near fn far b s =>
    s.afterReads [(fn, far)] fun s =>
      let n := near.bytesOf (b.br * b.cols)
      let es := b.offs.map fun o =>
        let p := b.near o
        let v := match b.far far o with | some q => s.elemAt far q | none => (far.fill.toNat % 2 ^ near.bits, false)
        (p.1, p.2, v.1, v.2)
      let ps := s.elemPieces s.cur.core near near.writeBase es
      (((s.popEntry w).noteShadow nn).dataOut (w.rep.toNat + 1) (occ near far n) { rd := [far], into := [near] }
        (far.elemChunks far.readBase (b.offs.filterMap (b.far far)))
        [spWrite near (pathLat far.level.toNat near.level.toNat n) ps])) s

/-- The occupancy of a transfer to or from a G level (R300). -/
def gOcc (_ _ : Desc) (b : Nat) : Nat := 2 + ceilDiv b 256

/-- The target whose budget counts for runs through a descriptor; of its pinned range when nothing is read (R301; log 24). -/
def Desc.target (d : Desc) (rs : List (Nat × Nat × Nat)) : Nat :=
  if rs.isEmpty then d.pins.foldl (fun t p => Nat.max t p.tgt) 0 else runsTarget rs

/-- Whether a block meets R66 in a BTC view's descriptor. -/
def Blk.btcOk (b : Blk) (d : Desc) : Bool :=
  b.farIn d && b.rf % 4 = 0 && b.cf % 4 = 0 && b.br % 4 = 0 && b.cols % 4 = 0

/-- A read through a BTC view (R66, R304): the coded ranges, and the destination of each element in block order. -/
def State.btcReadPlan (s : State) (near far : Desc) (b : Blk) : List (Nat × Nat) × List Nat :=
  let bb := blockBytes (s.aperBudget far.apidx.toNat)
  let cs := blockCorners b.br b.cols
  let spans := (cs.foldl (fun p (i, j) => (p.read (s.btcBlock far (b.rf.toNat + i) (b.cf.toNat + j)).1 bb).1) GPlan.empty).spans.reverse
  (spans, cs.flatMap fun (i, j) => (blockElems i j).map fun o => let p := b.near o; (near.addrIn near.writeBase p.1 p.2).toNat)

/-- A read of a home that a repeat awaits, when there is anything to read. -/
def State.readOp (s : State) (rs : List (Nat × Nat × Nat)) (cls bud : Nat) : Option Nat × State :=
  if rs.isEmpty then (none, s) else let (id, s) := s.newOp s.cur.core 3 (.read rs) [] cls bud; (some id, s)

/-- DLOAD (R301, R303, R304). -/
def execDload (w : DX) (s : State) : Res :=
  blockRun (.dload w) w true true 0 lvG gOcc (fun nn near fn far b s =>
    let n := near.bytesOf (b.br * b.cols)
    let btc := s.isBtc far
    let cells := b.offs.map fun o => (b.near o, b.far far o)
    let plan := cells.foldl (fun (p : GPlan) (x, q) => match q with
      | some (i, j) => p.elem near.bits (s.gAddr far i j) (far.hiNib i j) (near.nibDst x.1 x.2)
      | none => p) GPlan.empty
    let out := (cells.filter fun c => c.2.isNone).map fun c => near.nibDst c.1.1 c.1.2
    let bp := s.btcReadPlan near far b
    s.unless [if btc && !b.btcOk far then some (permD 3 fn) else none] fun s =>
      match far.pinSpans (if btc then bp.1 else plan.spans.reverse) with
      | .inl f => s.takeFault f
      | .inr rs =>
        let eff : Eff := if btc then .spBtc near.level.toNat near.fmt.toNat (s.aperBudget far.apidx.toNat) bp.2
          else .spData near.level.toNat (plan.fill near.bits out).runs.reverse far.fillBytes
        let coded := (bp.1.map (·.2)).sum
        let lat := budget w.cls.toNat (far.target rs) (if btc then coded else n) + (if btc then 64 else 0)
        let (id, s) := s.readOp rs w.cls.toNat lat
        ((s.popEntry w).noteShadow nn).dataOut (w.rep.toNat + 1) (gOcc near far n) {} []
          [{ lat := lat, eff := eff, need := id, phased := near.phased,
             chunks := near.elemChunks near.writeBase (b.offs.map b.near) }]) s

/-- The pieces, by virtual address, that a block stores, and whether the coder consumed poison (R145, R304, R307). -/
def State.blkPieces (s : State) (near far : Desc) (b : Blk) : List Piece × Bool :=
  if s.isBtc far then
    let x := far.apidx.toNat
    let bs : List ((Nat × Nat × List Byte × Byte) × Bool) := (blockCorners b.br b.cols).map fun ((i, j) : Nat × Nat) =>
      let vs : List (Nat × Bool) := (blockElems i j).map fun o => s.elemAt near (b.near o)
      let e := btcEncode far.fmt.toNat (s.aperBudget x) (vs.map (·.1))
      let a := s.btcBlock far (b.rf.toNat + i) (b.cf.toNat + j)
      ((a.1, a.2, e), vs.any (·.2))
    (joinPieces (bs.map fun t => { addr := t.1.1, bytes := t.1.2.2.1, poison := false }) ++
     joinPieces (bs.map fun t => { addr := t.1.2.1, bytes := [t.1.2.2.2], poison := false }), bs.any (·.2))
  else
    (s.gPieces far [] (b.offs.filterMap fun o => (b.far far o).map fun q =>
      let v := s.elemAt near (b.near o)
      (q.1, q.2, v.1, v.2)), false)

/-- A store of a block (R303 to R305): `store` takes the physical pieces with their names. -/
def storeRun (i : Instr) (w : DX) (ph : Nat)
    (store : List (Nat × Piece) → List (Nat × Nat × Nat) → State → FaultRec ⊕ State) (s : State) : Res :=
  blockRun i w false true ph lvG gOcc (fun nn near fn far b s =>
    s.unless [if s.isBtc far && !b.btcOk far then some (permD 3 fn) else none] fun s =>
      s.afterReads [(nn, near)] fun s =>
        let x := s.blkPieces near far b
        match far.storePieces x.1 with
        | .inl f => s.takeFault f
        | .inr (ps, names) =>
          match store ps names s with
          | .inl f => s.takeFault f
          | .inr s => ((s.popEntry w).chkIf 3 x.2).dataOut (w.rep.toNat + 1) (gOcc near far (near.bytesOf (b.br * b.cols))) { rd := [near] }
              (near.elemChunks near.readBase (b.offs.map b.near)) []) s

/-- Writes performed in the data queue's order (R75, R76, R303). -/
def State.storeNow (s : State) (cls : Nat) (ps : List (Nat × Piece)) (names : List (Nat × Nat × Nat)) : State :=
  if ps.isEmpty then s else (s.newOp s.cur.core 3 (.write ps) names cls).2

/-- PERM with INFO 0x500: held stores that do not fit (R305). -/
def heldFull : FaultRec := mkFault 3 0x05 0x500

/-- Stores held until the commit (R305). -/
def State.holdAll (s : State) (hs : List Held) : FaultRec ⊕ State :=
  match s.me.hold hs with
  | some c => .inr (s.setCore s.cur.core c)
  | none => .inl heldFull

/-- Bytes of pieces. -/
def piecesLen (ps : List (Nat × Piece)) : Nat := (ps.map fun p => p.2.bytes.length).sum

/-- DSTORE (R303, R304). -/
def execDstore (w : DX) (s : State) : Res :=
  storeRun (.dstore w) w 0 (fun ps names s => .inr (s.storeNow w.cls.toNat ps names)) s

/-- DPHST (R303 to R305). -/
def execDphst (w : DX) (s : State) : Res :=
  storeRun (.dphst w) w 1 (fun ps names s =>
    if ps.isEmpty then .inr s else s.holdAll [{ ps := ps, names := names, size := heldCost (piecesLen ps), cls := w.cls.toNat }]) s

/-! ## Gathers and scatters (R308 to R310) -/

/-- Whether a gather or scatter obeys R295 and R309: `t` is its table, `ph` what PHASED may hold with a table at a G level. -/
def gatherLegal (w : DX) (ph : Nat) : Bool :=
  dxLegal { dst := true, src := true, aux := true, cls := true, ph := ph, rel := false, rep := true, steps := [0],
            arg := w.arg.toNat < 64 } w

/-- The indices of repeat k (R308). -/
def State.indices (s : State) (idx : Desc) (n k : Nat) : List Nat := (List.range n).map fun i => s.elem s.cur.core idx 0 (k * n + i)

/-- The in-range row copies of a repeat: (row of the rows descriptor, row of the table). -/
def rowPairs (table : Desc) (xs : List Nat) (n k : Nat) : List (Nat × Nat) :=
  (xs.zipIdx.filter fun x => x.1 < table.rows.toNat).map fun (x, i) => (k * n + i, x)

/-- The rows of a repeat whose index is out of range. -/
def rowsOut (table : Desc) (xs : List Nat) (n k : Nat) : List Nat :=
  (xs.zipIdx.filter fun x => table.rows.toNat ≤ x.1).map fun (_, i) => k * n + i

/-- The whole row `r` of a descriptor with `c` columns. -/
def rowElems (r c : Nat) : List (Nat × Nat) := (List.range c).map fun j => (r, j)

/-- A gather or scatter's repeat (R308): `tn`, `rn` are the numbers of the table and of the rows descriptor, `gather` its direction; `go` takes
the table, the rows and the index descriptor, the indices and the repeat. -/
def gatherRun (i : Instr) (w : DX) (ph : Nat) (tn rn : BitVec 4) (gather : Bool) (go : Desc → Desc → Desc → List Nat → Nat → State → State)
    (s : State) : Res :=
  dataRun i w (gatherLegal w ph) [tn, rn, w.aux] (fun ds k s =>
    let t := dAt ds 0
    let r := dAt ds 1
    let x := dAt ds 2
    let n := w.arg.toNat % 64 + 1
    let all := (w.rep.toNat + 1) * n
    if lvSp t.level.toNat && (w.cls != 0 || w.phased) then s.illegalWord .data i
    else s.unless [s.opFault rn.toNat r lvSp gather false, s.opFault tn.toNat t (fun _ => true) (!gather) false,
        s.opFault w.aux.toNat x (fun l => l = 0) false false,
        if x.fmt != 4 then some (permD 3 w.aux.toNat) else none,
        if t.fmt != r.fmt || t.cols.toNat < r.cols.toNat || s.isBtc t then some (permD 3 tn.toNat) else none,
        if r.rows.toNat < all then some (permD 3 rn.toNat) else none,
        if x.cols.toNat < all then some (permD 3 w.aux.toNat) else none] fun s =>
      s.afterReads ((w.aux.toNat, x) :: if gather then [(tn.toNat, t)] else [(rn.toNat, r)]) fun s =>
        let xs := s.indices x n k
        match (if s.me.params.strict then xs.find? fun v => t.rows.toNat ≤ v else none) with
        | some v => s.takeFault (mkFault 3 0x10 v)
        | none => go t r x xs k s) s

/-- GSTAT counts out-of-range indices (R308, R310). -/
def State.countOob (s : State) (n : Nat) : State := if n = 0 then s else s.addLat 3 2 (.gstat n)

/-- What every repeat of a gather or scatter notes: the index chunks read, the poison of indices, the counts. -/
def State.noteIndices (s : State) (w : DX) (t x : Desc) (xs : List Nat) (k : Nat) : State :=
  let n := w.arg.toNat % 64 + 1
  let bad := (List.range n).any fun i => s.elemPoison s.cur.core x 0 (k * n + i)
  (s.chkIf 3 bad).countOob (rowsOut t xs n k).length

/-- Occupancy of a gather or scatter with its own row count (R300). -/
def rowOcc (n b : Nat) : Nat := 2 + Nat.max n (ceilDiv b 256)

/-- DGATHER (R308). -/
def execDgather (w : DX) (s : State) : Res :=
  gatherRun (.dgather w) w 0 w.src w.dst true (fun t d ix xs k s =>
    let n := w.arg.toNat % 64 + 1
    let c := d.cols.toNat
    let b := d.bytesOf (n * c)
    let pairs := rowPairs t xs n k
    let outs := rowsOut t xs n k
    let ic := ix.elemChunks ix.readBase ((List.range n).map fun i => (0, k * n + i))
    let dc := d.elemChunks d.writeBase ((List.range n).flatMap fun i => rowElems (k * n + i) c)
    if lvSp t.level.toNat then
      let es := (pairs.flatMap fun (r, x) => (List.range c).map fun j => let v := s.elemAt t (x, j); (r, j, v.1, v.2)) ++
        (outs.flatMap fun r => (List.range c).map fun j => (r, j, t.fill.toNat % 2 ^ d.bits, false))
      let ps := s.elemPieces s.cur.core d d.writeBase es
      let tc := t.elemChunks t.readBase (pairs.flatMap fun (_, x) => rowElems x c)
      (((s.noteIndices w t ix xs k).noteShadow w.dst.toNat).dataOut (w.rep.toNat + 1) (rowOcc n b) { rd := [t], once := [ix], into := [d] }
        (tc.foldl chunkIns ic.reverse).reverse [spWrite d (pathLat t.level.toNat d.level.toNat b) ps])
    else
      let plan := pairs.foldl (fun (p : GPlan) (r, x) =>
        (List.range c).foldl (fun (p : GPlan) j => p.elem d.bits (s.gAddr t x j) (t.hiNib x j) (d.nibDst r j)) p) GPlan.empty
      match t.pinSpans plan.spans.reverse with
      | .inl f => s.takeFault f
      | .inr rs =>
        let runs := (plan.fill d.bits (outs.flatMap fun r => (List.range c).map fun j => d.nibDst r j)).runs.reverse
        let (id, s) := s.readOp rs w.cls.toNat (budget w.cls.toNat (t.target rs) b)
        (((s.noteIndices w t ix xs k).noteShadow w.dst.toNat).dataOut (w.rep.toNat + 1) (rowOcc n b) {} ic
          [{ lat := budget w.cls.toNat (t.target rs) b, eff := .spData d.level.toNat runs t.fillBytes, need := id,
             phased := d.phased, chunks := dc }])) s

/-- The physical pieces of the rows that a scatter stores at a G level, row by row, or the fault (R308, R309). -/
def State.scatterRows (s : State) (t d : Desc) : List Piece → List (Nat × Nat) → FaultRec ⊕ List Held
  | _, [] => .inr []
  | prev, (r, x) :: rest =>
    let es := (List.range d.cols.toNat).map fun j => let v := s.elemAt d (r, j); (x, j, v.1, v.2)
    let vs := s.gPieces t prev es
    match t.storePieces vs with
    | .inl f => .inl f
    | .inr (ps, names) => match s.scatterRows t d (prev ++ vs) rest with
      | .inl f => .inl f
      | .inr hs => .inr ({ ps := ps, names := names, size := heldCost (piecesLen ps) } :: hs)

/-- DSCATTER (R308, R309). -/
def execDscatter (w : DX) (s : State) : Res :=
  gatherRun (.dscatter w) w 2 w.dst w.src false (fun t d ix xs k s =>
    let n := w.arg.toNat % 64 + 1
    let c := d.cols.toNat
    let b := d.bytesOf (n * c)
    let pairs := rowPairs t xs n k
    let ic := ix.elemChunks ix.readBase ((List.range n).map fun i => (0, k * n + i))
    let sc := ((d.elemChunks d.readBase (pairs.flatMap fun (r, _) => rowElems r c)).foldl chunkIns ic.reverse).reverse
    if lvSp t.level.toNat then
      let es := pairs.flatMap fun (r, x) => (List.range c).map fun j => let v := s.elemAt d (r, j); (x, j, v.1, v.2)
      let ps := s.elemPieces s.cur.core t t.writeBase es
      let s := s.noteIndices w t ix xs k
      let s := if pairs.isEmpty then s else s.noteShadow w.dst.toNat
      s.dataOut (w.rep.toNat + 1) (rowOcc n b) { rd := [d], once := [ix], into := [t] } sc
        (if pairs.isEmpty then [] else [spWrite t (pathLat d.level.toNat t.level.toNat b) ps])
    else
      match s.scatterRows t d [] pairs with
      | .inl f => s.takeFault f
      | .inr hs =>
        let r := if w.phased then s.holdAll (hs.map fun h => { h with cls := w.cls.toNat }) else .inr (s.storeNow w.cls.toNat (hs.flatMap (·.ps)) (hs.flatMap (·.names)))
        match r with
        | .inl f => s.takeFault f
        | .inr s => (s.noteIndices w t ix xs k).dataOut (w.rep.toNat + 1) (2 + ceilDiv b 256) { rd := [d], once := [ix] } sc []) s

/-! ## Multicast (R311, R312) -/

/-- The receivers of a DMCAST: the other gang members in the sender's row, or column when `col`. -/
def State.mcastTo (s : State) (col : Bool) : List Nat :=
  let k := s.cur.core
  match s.gangOf k with
  | some g => g.members.filter fun m => m != k && (if col then coreCol m = coreCol k else coreRow m = coreRow k)
  | none => []

/-- The copy that receiver r will land, `e` cycles after its notice and later by the extra groups of its own writes (R311, R343). -/
def State.mcastCopy (s : State) (r e : Nat) (d : Desc) (es : List (Nat × Nat × Nat × Bool)) : State :=
  let k := s.cur.core
  let ps := s.elemPieces r d d.writeBase es
  let notice := s.meshCycle k r s.clk 0
  let cs := chunksOf (ps.map fun q => (q.addr, q.bytes.length))
  let x := extraGroups cs
  let p : Pend := { id := s.nextId, land := notice + e + x - 1, since := notice, tide := s.cur.shadow, unit := 10 + k, goesOn := true,
                    need := none, phased := d.phased, missed := false, eff := .mcast ps }
  let s := { s.modCore r fun c => ({ c with pend := c.pend ++ [p] } : Core).perfAdd 7 x with nextId := s.nextId + 1 }
  s.writePort r s.cur.shadow p.id false cs

/-- DMCAST (R311, R312). -/
def execDmcast (w : DX) (s : State) : Res :=
  let legal := dxLegal { dst := true, src := true, aux := false, cls := false, ph := 0, rel := false, rep := true,
                         steps := [0, 7, 8], arg := w.arg.extractLsb' 8 4 = 0 } w
  dataRun (.dmcast w) w legal [w.dst, w.src] (fun ds k s =>
    let d := dAt ds 0
    let f := dAt ds 1
    let b := plainBlk d w.step.toNat (brRows (w.arg.toNat % 256) d) k
    s.unless [s.opFault w.dst.toNat d (fun l => l = 0) true false, s.opFault w.src.toNat f (fun l => l = 0) false false,
        if f.fmt != d.fmt then some (permD 3 w.src.toNat) else none,
        if d.bits = 4 && d.cols.toNat % 2 = 1 then some (permD 3 w.dst.toNat) else none,
        if b.nearIn d then none else some (permD 3 w.dst.toNat),
        if b.farIn f then none else some (permD 3 w.src.toNat)] fun s =>
      s.afterReads [(w.src.toNat, f)] fun s =>
        let n := d.bytesOf (b.br * b.cols)
        let es := b.offs.map fun o => let v := s.elemAt f (b.near o); ((b.near o).1, (b.near o).2, v.1, v.2)
        let sc := f.elemChunks f.readBase (b.offs.map b.near)
        let x := extraGroups sc
        let to_ := s.mcastTo (w.arg.getLsbD 13)
        let self := w.arg.getLsbD 12
        let ps := s.elemPieces s.cur.core d d.writeBase es
        let s := if self || !to_.isEmpty then s.noteShadow w.dst.toNat else s
        let copies := to_.zipIdx.map fun (r, i) => (r, s.nextId + i)
        let s := to_.foldl (fun s r => s.mcastCopy r (20 + ceilDiv n 128 + x) d es) s
        s.dataOut (w.rep.toNat + 1) (4 + ceilDiv n 128) { rd := [f], into := [d] } sc (if self then [spWrite d (8 + ceilDiv n 512) ps] else []) copies) s

/-! ## Coder and layout words (R313, R314) -/

/-- The checks of a coder word on its element descriptor e, coded descriptor c and side descriptor (R313); `bb` bytes per block. -/
def coderFaults (en cn : Nat) (e c : Desc) (xn : Nat) (x : Option Desc) (bb k : Nat) : List (Option FaultRec) :=
  [if e.fmt != 2 && e.fmt != 8 && e.fmt != 9 then some (permD 3 en) else none,
   if e.cols.toNat % 4 != 0 || e.rows.toNat < 4 * k + 4 then some (permD 3 en) else none,
   if c.cols.toNat < e.cols.toNat / 4 * bb || c.rows.toNat ≤ k then some (permD 3 cn) else none,
   match x with
   | some x => if x.cols.toNat < e.cols.toNat / 4 || x.rows.toNat ≤ k then some (permD 3 xn) else none
   | none => none]

/-- DCOMP (R313). -/
def execDcomp (w : DX) (s : State) : Res :=
  let side := w.arg.getLsbD 2
  let legal := dxLegal { dst := true, src := true, aux := side, cls := false, ph := 0, rel := false, rep := true, steps := [0],
                         arg := w.arg.toNat < 8 } w
  dataRun (.dcomp w) w legal [w.dst, w.src, w.aux] (fun ds k s =>
    let c := dAt ds 0
    let e := dAt ds 1
    let x := dAt ds 2
    let bud := w.arg.toNat % 4
    let bb := blockBytes bud
    if e.fmt = 11 then s.illegalWord .data (.dcomp w)
    else s.unless ([s.opFault w.dst.toNat c lvSp true true, s.opFault w.src.toNat e lvSp false false,
        if side then s.opFault w.aux.toNat x lvSp true true else none] ++
        coderFaults w.src.toNat w.dst.toNat e c w.aux.toNat (if side then some x else none) bb k) fun s =>
      s.afterReads [(w.src.toNat, e)] fun s =>
        let nb := e.cols.toNat / 4
        let blocks := (List.range nb).map fun bj =>
          let vs := (blockElems (4 * k) (4 * bj)).map (s.elemAt e)
          (btcEncode e.fmt.toNat bud (vs.map (·.1)), vs.any (·.2))
        let b := e.bytesOf (4 * e.cols.toNat)
        let lat (d : Desc) : Nat := pathLat e.level.toNat d.level.toNat b + 16
        let at_ (d : Desc) (bs : List Byte) : List Piece := [{ addr := (d.addrIn d.writeBase k 0).toNat, bytes := bs, poison := false }]
        let s := (s.noteShadow w.dst.toNat).chkIf 3 (blocks.any (·.2))
        let s := if side then s.noteShadow w.aux.toNat else s
        s.dataOut (w.rep.toNat + 1) (4 + ceilDiv nb 2) { rd := [e] }
          (e.elemChunks e.readBase ((List.range 4).flatMap fun i => rowElems (4 * k + i) e.cols.toNat))
          (spWrite c (lat c) (at_ c (blocks.flatMap (·.1.1))) ::
            if side then [spWrite x (lat x) (at_ x (blocks.map (·.1.2)))] else [])) s

/-- DEXP (R313). -/
def execDexp (w : DX) (s : State) : Res :=
  let legal := dxLegal { dst := true, src := true, aux := false, cls := false, ph := 0, rel := false, rep := true, steps := [0],
                         arg := w.arg.toNat < 4 } w
  dataRun (.dexp w) w legal [w.dst, w.src] (fun ds k s =>
    let e := dAt ds 0
    let c := dAt ds 1
    let bud := w.arg.toNat % 4
    let bb := blockBytes bud
    if e.fmt = 11 then s.illegalWord .data (.dexp w)
    else s.unless ([s.opFault w.dst.toNat e lvSp true false, s.opFault w.src.toNat c lvSp false true] ++
        coderFaults w.dst.toNat w.src.toNat e c 0 none bb k) fun s =>
      s.afterReads [(w.src.toNat, c)] fun s =>
        let nb := e.cols.toNat / 4
        let a := (c.addrIn c.readBase k 0).toNat
        let blocks := (List.range nb).map fun bj =>
          (bj, btcDecode e.fmt.toNat bud (s.spRead s.cur.core c.level.toNat (a + bj * bb) bb))
        let es := blocks.flatMap fun (bj, r) =>
          ((blockElems (4 * k) (4 * bj)).zip r.1).map fun (p, v) => (p.1, p.2, v, false)
        let b := e.bytesOf (4 * e.cols.toNat)
        let bad := s.spPoison s.cur.core c.level.toNat a (nb * bb) || blocks.any (·.2.2)
        ((s.noteShadow w.dst.toNat).chkIf 3 bad).dataOut (w.rep.toNat + 1) (4 + ceilDiv nb 2) { rd := [c], into := [e] }
          (chunksAt c.level.toNat [(a, nb * bb)])
          [spWrite e (pathLat c.level.toNat e.level.toNat b + 16) (s.elemPieces s.cur.core e e.writeBase es)]) s

/-- The form of the layout words (R295). -/
def layoutForm (w : DX) (src : Bool) : DForm :=
  { dst := true, src := src, aux := false, cls := false, ph := 0, rel := false, rep := true, steps := [0, 7],
    arg := w.arg.toNat < 256 }

/-- DTRANS (R314); BR 0 means the source's ROWS, as in R297 (log 39). -/
def execDtrans (w : DX) (s : State) : Res :=
  dataRun (.dtrans w) w (dxLegal (layoutForm w true) w) [w.dst, w.src] (fun ds k s =>
    let d := dAt ds 0
    let f := dAt ds 1
    let br := brRows (w.arg.toNat % 256) f
    let r := if w.step = 7 then k else 0
    let c := f.cols.toNat
    s.unless [s.opFault w.dst.toNat d lvSp true false, s.opFault w.src.toNat f lvSp false false,
        if d.fmt != f.fmt || !(f.bits = 8 || f.bits = 16 || f.bits = 32) then some (permD 3 w.src.toNat) else none,
        if f.rows.toNat < r + br then some (permD 3 w.src.toNat) else none,
        if d.rows.toNat < c || d.cols.toNat < br then some (permD 3 w.dst.toNat) else none] fun s =>
      s.afterReads [(w.src.toNat, f)] fun s =>
        let b := f.bytesOf (br * c)
        let cells := (List.range br).flatMap fun i => (List.range c).map fun j => (i, j)
        let es := cells.map fun (i, j) => let v := s.elemAt f (r + i, j); (j, i, v.1, v.2)
        (s.noteShadow w.dst.toNat).dataOut (w.rep.toNat + 1) (pathOcc f.level.toNat d.level.toNat b + 4) { rd := [f], into := [d] }
          (f.elemChunks f.readBase (cells.map fun (i, j) => (r + i, j)))
          [spWrite d (pathLat f.level.toNat d.level.toNat b + 8) (s.elemPieces s.cur.core d d.writeBase es)]) s

/-- DFILL (R314); BR 0 means the destination's ROWS (log 39). -/
def execDfill (w : DX) (s : State) : Res :=
  dataRun (.dfill w) w (dxLegal (layoutForm w false) w) [w.dst] (fun ds k s =>
    let d := dAt ds 0
    let br := brRows (w.arg.toNat % 256) d
    let r := if w.step = 7 then k else 0
    s.unless [s.opFault w.dst.toNat d lvSp true false, if d.rows.toNat < r + br then some (permD 3 w.dst.toNat) else none] fun s =>
      let b := d.bytesOf (br * d.cols.toNat)
      let es := (List.range br).flatMap fun i => (List.range d.cols.toNat).map fun j => (r + i, j, d.fill.toNat % 2 ^ d.bits, false)
      (s.noteShadow w.dst.toNat).dataOut (w.rep.toNat + 1) (2 + ceilDiv b 1024) {} []
        [spWrite d (pathLat d.level.toNat d.level.toNat b) (s.elemPieces s.cur.core d d.writeBase es)]) s

end Sys2Proof.Machine
end

