-- ==== Sys2Proof/Machine/DataSync.lean ====
section
/-!
DEFINITION. The atomics of the data engine (R83, R315) and its sync words SREL, SACQ and AFENCE (R316, R317).
-/

namespace Sys2Proof.Machine

/-! ## Atomics (R83, R315) -/

/-- Fields of DATOM's ARG. -/
def atomOp (w : DX) : Nat := w.arg.toNat % 16
def atomSize (w : DX) : Nat := 4 * 2 ^ (w.arg.toNat / 16 % 4)
def atomRet (w : DX) : Bool := w.arg.getLsbD 6

/-- Whether an operation has a size at HBM and SP3, and at host and peer memory (R83). -/
def atomSizeOk (op size : Nat) : Bool :=
  if op = 1 then size = 4 else if op = 9 || op = 10 then size ≤ 16 else size ≤ 8
def atomSizeOkPcie (op size : Nat) : Bool := if op = 10 then size ≤ 16 else size ≤ 8

/-- The operations that host and peer memory perform (R83): add, swap and CAS. -/
def atomPcie (op : Nat) : Bool := op = 0 || op = 9 || op = 10

/-- Where an atomic acts: target and address there, or its fault (R83, R296, R315). -/
def State.atomPlace (s : State) (w : DX) (d : Desc) (i : Nat) : FaultRec ⊕ (Nat × Nat) :=
  let size := atomSize w
  let va := if d.level = 2 then (d.addrIn d.base.toNat i 0).toNat else s.gAddr d i 0
  let perm := mkFault 3 0x05 va
  if va % size != 0 then .inl (alignA 3 va)
  else if d.level = 2 then
    if Config.sp3Size < va + size then .inl perm
    else if w.rel && !(atomOp w = 0 && size = 8 && va % 64 = 0 && !s.badBinding 3 va) then .inl perm
    else .inr (3, va)
  else match d.xlate va size with
    | some [(t, a, _)] =>
      if t != 0 && !atomPcie (atomOp w) then .inl perm
      else if t != 0 && !atomSizeOkPcie (atomOp w) size then .inl (mkFault 3 0x02 (encodeNat (.datom w)))
      else if w.rel && !(t = 0 && atomOp w = 0 && size = 8 && a % 64 = 0 && !s.badBinding 0 a) then .inl perm
      else .inr (t, a)
    | _ => .inl (mkFault 3 0x05 (d.firstUnpinned va size))

/-- DATOM (R83, R315). -/
def execDatom (w : DX) (s : State) : Res :=
  let ret := atomRet w
  let op := atomOp w
  let size := atomSize w
  let legal := dxLegal { dst := true, src := true, aux := ret, cls := true, ph := 0, rel := true, rep := true, steps := [0, 7],
                         arg := w.arg.toNat < 128 && op ≤ 10 && size ≤ 16 && atomSizeOk op size } w
  dataRun (.datom w) w legal [w.dst, w.src, w.aux] (fun ds k s =>
    let t := dAt ds 0
    let o := dAt ds 1
    let r := dAt ds 2
    let i := if w.step = 7 then k else 0
    let n := if op = 10 then 2 * size else size
    let oa := (o.addrIn o.readBase i 0).toNat
    let ra := (r.addrIn r.writeBase i 0).toNat
    s.unless [s.opFault w.dst.toNat t (fun l => 2 ≤ l && l ≤ 4) true false, s.opFault w.src.toNat o (fun l => l = 0) false false,
        if ret then s.opFault w.aux.toNat r (fun l => l = 0) true false else none,
        if s.isBtc t || t.rows.toNat ≤ i then some (permD 3 w.dst.toNat) else none,
        if o.rows.toNat ≤ i || Config.sp1Size < oa + n then some (permD 3 w.src.toNat) else none,
        if ret && (r.rows.toNat ≤ i || Config.sp1Size < ra + size) then some (permD 3 w.aux.toNat) else none] fun s =>
      match s.atomPlace w t i with
      | .inl f => s.takeFault f
      | .inr (tg, a) => s.afterReads [(w.src.toNat, o)] fun s =>
        let bs := s.spRead s.cur.core 0 oa n
        let x := if op = 10 then bnat bs size size else leNat bs
        let cmp := if op = 10 then bnat bs 0 size else 0
        let bud := if tg = 3 then 240 else budget w.cls.toNat tg size + 200
        let name : Nat × Nat × Nat := if tg = 3 then (1, a, size) else (0, s.gAddr t i 0, size)
        let (id, s) := s.newOp s.cur.core 3 (.atomic tg a op size x cmp w.rel) [name] w.cls.toNat
        let s := if ret then s.noteShadow w.aux.toNat else s
        (s.chkIf 3 (s.spPoison s.cur.core 0 oa n)).dataOut (w.rep.toNat + 1) 2 { rd := [o] } (chunksOf [(oa, n)])
          [{ lat := bud, eff := .atomRet (if ret then some (ra, size) else none), need := some id, phased := ret && r.phased,
             chunks := if ret then chunksOf [(ra, size)] else [] }]) s

/-! ## Sync words (R316) -/

/-- Where the sync object at element (0, 0) of a descriptor lies, or the fault (R79, R224, R316). -/
def State.syncAt (s : State) (d : Desc) : FaultRec ⊕ (Nat × Nat) :=
  let a := (d.addrIn d.base.toNat 0 0).toNat
  let perm := mkFault 3 0x05 a
  if a % 64 != 0 then .inl (alignA 3 a)
  else if d.level = 2 then if s.badBinding 3 a then .inl perm else .inr (3, a)
  else match d.xlate a 64 with
    | some [(0, pa, _)] => if s.badBinding 0 pa then .inl perm else .inr (0, pa)
    | _ => .inl perm

/-- The levels of a sync object (R295). -/
def lvSync (l : Nat) : Bool := l = 2 || l = 3

/-- DATA_SREL (R80, R316): a release for the data queue. -/
def execDataSrel (w : DX) (s : State) : Res :=
  let legal := dxLegal { dst := true, src := false, aux := false, cls := true, ph := 0, rel := false, rep := false, steps := [0],
                         arg := w.arg = 0 } w
  dataRun (.dataSrel w) w legal [w.dst] (fun ds _ s =>
    let d := dAt ds 0
    s.unless [s.opFault w.dst.toNat d lvSync true false] fun s =>
      match s.syncAt d with
      | .inl f => s.takeFault f
      | .inr (t, a) => (s.newOp s.cur.core 3 (.srel t a) [] w.cls.toNat).2.engIssue .data 1 1) s

/-- The data queue waits for operation id (R316). -/
def State.startSacq (s : State) (id : Nat) : State :=
  (s.modEng .data fun e => { e with sacq := some id, started := true }).modMe fun c => c.perfAdd 3 1

/-- DATA_SACQ (R80, R82, R316): the data queue issues nothing until the home answers. -/
def execDataSacq (w : DX) (s : State) : Res :=
  let imm := w.arg.getLsbD 13
  let legal := dxLegal { dst := true, src := !imm, aux := false, cls := true, ph := 0, rel := false, rep := false, steps := [0],
                         arg := true } w
  dataRun (.dataSacq w) w legal (w.dst :: if imm then [] else [w.src]) (fun ds _ s =>
    let d := dAt ds 0
    let v := dAt ds 1
    let va := (v.addrIn v.readBase 0 0).toNat
    s.unless [s.opFault w.dst.toNat d lvSync false false,
        if imm then none else s.opFault w.src.toNat v (fun l => l = 0) false false,
        if !imm && Config.sp1Size < va + 8 then some (permD 3 w.src.toNat) else none] fun s =>
      match s.syncAt d with
      | .inl f => s.takeFault f
      | .inr (t, a) => s.afterReads (if imm then [] else [(w.src.toNat, v)]) fun s =>
        let x : Word := if imm then (w.arg.extractLsb' 0 13).setWidth 64 else BitVec.ofNat 64 (leNat (s.spRead s.cur.core 0 va 8))
        let (id, s) := s.newOp s.cur.core 3 (.wait t a x) [] w.cls.toNat
        let s := (s.chkIf 3 (!imm && s.spPoison s.cur.core 0 va 8)).startSacq id
        if imm then s else s.readPort s.clk (chunksOf [(va, 8)]) []) s

/-- AFENCE (R78, R317): later operations of the data queue wait for its earlier writes. -/
def execAfence (w : DX) (s : State) : Res :=
  let legal := dxLegal { dst := false, src := false, aux := false, cls := false, ph := 0, rel := false, rep := false, steps := [0],
                         arg := w.arg = 0 } w
  dataRun (.afence w) w legal [] (fun _ _ s =>
    let k := s.cur.core
    let writes := (s.openOps k 3).filter fun id => !(s.gops.any fun o => o.id = id && !o.kind.writes)
    (s.fence k 3 writes).engIssue .data 1 1) s

end Sys2Proof.Machine
end

