-- ==== Sys2Proof/Machine/Decoder.lean ====
section
/-!
DEFINITION. The video decoders (R113, R114, R413, R414): their rings, what a command does, and the frames it emits. What the decoded
pictures and motion fields hold is another standard's and is free (log 14).
-/

namespace Sys2Proof.Machine

/-- A command of a decoder ring (R414). -/
structure DecCmd where
  opc   : Nat
  ok    : Bool
  ctx   : Nat
  bslen : Nat
  bsaddr : Nat
  pts   : Word
  token : Word
  deriving DecidableEq, Repr

/-- Where n bytes at an address of the decoders lie: HBM, SP3 or the PCIe outbound range (R413). -/
def State.decHome (s : State) (a n : Nat) : Option (Nat × Nat) :=
  match s.placeOf a n with
  | .hbm a => some (0, a)
  | .sp3 a => some (3, a)
  | .pcie b => some (1, b)
  | _ => none

/-- n bytes at an address of the decoders. -/
def State.decRead (s : State) (a n : Nat) : Option (List Byte) := (s.decHome a n).map fun (t, b) => s.gRead t b n

/-- Fields of a context (R413). -/
def DecCtx.fld (c : DecCtx) (o n : Nat) : Nat := bnat (c.bytes ++ List.replicate 64 0) o n
def DecCtx.codec (c : DecCtx) : Nat := c.fld 0 1
def DecCtx.width (c : DecCtx) : Nat := c.fld 4 2
def DecCtx.height (c : DecCtx) : Nat := c.fld 6 2
def DecCtx.nslot (c : DecCtx) : Nat := c.fld 24 2

/-- Whether engine e may serve a context (R413). -/
def DecCtx.usable (c : DecCtx) (e : Nat) : Bool :=
  c.codec ≤ 2 && c.fld 1 1 = e && 1 ≤ c.width && c.width ≤ 4096 && 1 ≤ c.height && c.height ≤ 2304 && 2 ≤ c.nslot && c.nslot ≤ 64 &&
  c.fld 28 4 = 0 && c.fld 40 8 = 0 && c.fld 48 8 = 0 && c.fld 56 8 = 0

/-- The next command of engine e, when its ring has one (R413, R414). -/
def State.decNext (s : State) (e : Nat) : Option DecCmd :=
  let d := s.dec e
  if !d.run || d.blocked || d.head = d.tail then none
  else match s.decRead (d.ringbase.toNat + 32 * d.head.toNat) 32 with
    | none => some { opc := 0, ok := false, ctx := 0, bslen := 0, bsaddr := 0, pts := 0, token := 0 }
    | some bs =>
      let c := bnat bs 2 2
      some { opc := bnat bs 0 1, ok := bnat bs 1 1 = 0 && c < 256 && (s.dctx c).usable e, ctx := c, bslen := bnat bs 4 4, bsaddr := bnat bs 8 8,
             pts := word (bnat bs 16 8), token := word (bnat bs 24 8) }

/-! ## Frames (R113, R114, R414) -/

/-- What a decoder knows of a cell (R114, R414): whether it is intra-coded, skipped, concealed; of the prediction block that covers its sample
(8, 8), or its last sample, the list-0 and the list-1 vector in the codec's units, each with whether it refers to the previous frame in output
order; and the sum of its absolute residual samples. -/
structure DecCell where
  intra  : Bool
  skip   : Bool
  hidden : Bool
  l0     : Option (Bool × Int × Int)
  l1     : Option (Bool × Int × Int)
  resid  : Nat
  deriving DecidableEq, Repr

/-- A cell from a free number (log 14): every combination occurs. -/
def freeCell (n : Nat) : DecCell :=
  let vec (o : Nat) : Option (Bool × Int × Int) :=
    let v := n / 2 ^ o
    let part (m : Nat) : Int := (m % 2 ^ 20 : Nat) - 2 ^ 19
    if v % 2 = 0 then none else some (v / 2 % 2 = 1, part (v / 4), part (v / 2 ^ 22))
  { intra := n % 2 = 1, skip := n / 2 % 2 = 1, hidden := n / 4 % 2 = 1, l0 := vec 3, l1 := vec 45, resid := n / 2 ^ 87 }

/-- Half of an integer, rounded to the nearest, ties to even (R10). -/
def halfNE (x : Int) : Int := if x % 2 = 1 && x / 2 % 2 = 1 then x / 2 + 1 else x / 2

/-- A component of a vector in quarter samples as INT16: AV1's are in eighths (R114). -/
def mvWord (codec : Nat) (x : Int) : Nat := wrapPat 16 (satVal 16 true (if codec = 2 then halfNE x else x))

/-- Whether a cell carries INTRA: it is intra-coded, or was concealed (R114, R414). -/
def DecCell.asIntra (c : DecCell) : Bool := c.intra || c.hidden

/-- The vector that the decoder takes: list 0 if it refers to the previous frame in output order, else list 1 if that does; none for an intra-coded
or a concealed cell (R114, R414). -/
def DecCell.vector (c : DecCell) : Option (Int × Int) :=
  if c.asIntra then none
  else match c.l0, c.l1 with
    | some (true, v), _ => some v
    | _, some (true, v) => some v
    | _, _ => none

/-- A cell record (R114). An intra-coded cell may be skipped or not, as the stream has it (log 14). -/
def cellRecord (codec depth : Nat) (scut : Bool) (c : DecCell) : List Byte :=
  let mv := c.vector.getD (0, 0)
  leBytes 2 (mvWord codec mv.1) ++ leBytes 2 (mvWord codec mv.2) ++
  leBytes 2 (if c.skip then 0 else Nat.min 0xFFFF (c.resid / 2 ^ (depth - 8))) ++
  leBytes 2 (bit c.asIntra + at_ 1 (bit c.skip) + at_ 2 (bit scut) + at_ 3 (bit c.vector.isNone))

/-- The cells of a frame: all intra-coded in an IDR, I or key frame (R113). -/
def frameCells (key : Bool) (cells : List DecCell) : List DecCell := cells.map fun x => { x with intra := x.intra || key }

/-- The change map of a frame (R113, R114). FFLAGS.INTRA of a frame that is no IDR, I or key frame but whose cells are all intra-coded is free
(`all`); concealed cells count as intra-coded for the scene cut (log 14). -/
def changeMap (c : DecCtx) (frame depth : Nat) (key all : Bool) (cells : List DecCell) : List Byte :=
  let cw := (c.width + 15) / 16
  let ch := (c.height + 15) / 16
  let xs := frameCells key cells
  let fintra := key || (all && xs.all DecCell.asIntra)
  let scut := !fintra && cw * ch ≤ 2 * (xs.filter DecCell.asIntra).length
  leBytes 4 (frame % 2 ^ 32) ++ leBytes 2 cw ++ leBytes 2 ch ++ leBytes 2 (bit fintra + at_ 1 (bit scut)) ++ leBytes 1 depth ++ leBytes 1 0 ++
  leBytes 2 (c.fld 2 2) ++ List.replicate 18 0 ++ xs.flatMap fun x => cellRecord c.codec depth scut x

/-- The free cells of a frame with a status (R414): none is concealed in a clean frame, at least one in a concealed one. -/
def freeCells (f n status : Nat) : List DecCell :=
  (List.range n).map fun j =>
    let x := freeCell (Config.freeNat (f + j))
    { x with hidden := status != 0 && (x.hidden || (status = 1 && j = Config.freeNat (f + n) % n)) }

/-- Bytes of a picture: NV12, or P010 at 10 bits (R414). -/
def DecCtx.picSize (c : DecCtx) (depth : Nat) : Nat :=
  (if depth = 10 then 2 else 1) * (c.width * c.height + 2 * ((c.width + 1) / 2) * ((c.height + 1) / 2))

/-- Bytes written at an address of the decoders. -/
def State.decWrite (s : State) (a : Nat) (bs : List Byte) : State :=
  match s.decHome a bs.length with
  | some (t, b) => s.writeHome [(t, { addr := b, bytes := bs, poison := false })]
  | none => s

/-- The output slot of the next frame of a context. -/
def DecCtx.slotAddr (c : DecCtx) : Nat := c.fld 16 8 + 32 * (c.out % c.nslot)

/-- Whether that slot has been consumed (R414). -/
def DecCtx.slotOpen (c : DecCtx) : Bool := (c.out + 2 ^ 16 - c.fld 26 2) % 2 ^ 16 < c.nslot

/-- VERSION of a context's sync object advances, as by SREL (R80, R414). -/
def State.decRelease (s : State) (a : Nat) : State :=
  if a = 0 then s
  else match s.decHome a 8 with
    | some (t, b) => s.writeHome [(t, { addr := b, bytes := leBytes 8 ((s.gNat t b 8 + 1) % 2 ^ 64), poison := false })]
    | none => s

/-- The next frame of context c is emitted: picture, change map, frame record, release (R414); its order among the held frames and its
content are free (log 14). -/
def State.emitFrame (s : State) (ci : Nat) : State :=
  let c := s.dctx ci
  let f := s.free
  let slot := (s.decRead c.slotAddr 32).getD []
  let i := Config.freeNat f % c.held.length
  let (pts, token) := lget c.held i (0, 0)
  let depth := if c.codec = 0 then 8 else if Config.freeNat (f + 1) % 2 = 0 then 8 else 10
  let n := (c.width + 15) / 16 * ((c.height + 15) / 16)
  let key : Bool := Config.freeNat (f + 2) % 2 = 0
  let all : Bool := Config.freeNat (f + 2) / 2 % 2 = 0
  let status := Config.freeNat (f + 3) % 3
  let pic := (Config.freeBytes (f + 4) ++ List.replicate (c.picSize depth) 0).take (c.picSize depth)
  let s := { s with free := f + 6 + n }
  let s := s.decWrite (bnat slot 0 8) pic
  let s := s.decWrite (bnat slot 8 8) (changeMap c c.out depth key all (freeCells (f + 5) n status))
  let s := s.decWrite (bnat slot 16 8) (leBytes 4 (c.out % 2 ^ 32) ++ leBytes 1 status ++ leBytes 3 0 ++ leBytes 8 pts.toNat ++ leBytes 8 token.toNat ++
    leBytes 8 (bnat slot 0 8))
  (s.decRelease (c.fld 32 8)).modDctx ci fun c => { c with out := c.out + 1, held := c.held.eraseIdx i, emit := c.emit - 1 }

/-- Frames emitted until none is due or the slot of the next is unconsumed, which stops the ring (R414). -/
def State.emitAll (s : State) (e ci : Nat) : Nat → State
  | 0 => s
  | fuel + 1 =>
    let c := s.dctx ci
    if c.emit = 0 then s
    else if c.slotOpen then (s.emitFrame ci).emitAll e ci fuel
    else s.modDec e fun d => { d with blocked := true }

/-- Engine e has taken a command; it takes the next at a free later cycle. -/
def State.decTaken (s : State) (e : Nat) : State :=
  ({ s with free := s.free + 1 } : State).modDec e fun d => { d with head := d.head + 1, due := s.tide + 1 + Config.freeNat s.free }

/-- A command refused: ERR (R413). -/
def State.decRefuse (s : State) (e : Nat) : State := (s.decTaken e).modDec e fun d => { d with err := true }

/-- The command of code `opc` at the engine of the step. -/
def decCommand (opc : Nat) (act : DecCmd → State → State) (s : State) : Res :=
  let e := s.cur.arg
  match s.decNext e with
  | some c => if c.opc != opc then ok s else if c.ok then ok (act c (s.decTaken e)) else ok (s.decRefuse e)
  | none => ok s

/-- Whether the access unit of a DECODE can be read and is of a profile and level that its codec has here (R413, R414). -/
def State.decodable (s : State) (c : DecCmd) : Bool :=
  match s.decRead c.bsaddr c.bslen with
  | some bs => Config.decSupported (s.dctx c.ctx).codec bs
  | none => false

/-- DECODE (R414): one access unit; how many frames it emits is free. A command that no row names, or that cannot be read, is refused. -/
def execDecode (s : State) : Res :=
  let e := s.cur.arg
  match s.decNext e with
  | some c =>
    if c.opc = 2 || c.opc = 3 then ok s
    else if c.opc != 1 || !c.ok || !s.decodable c then ok (s.decRefuse e)
    else
      let s := s.decTaken e
      let s := s.modDctx c.ctx fun x => { x with held := x.held ++ [(c.pts, c.token)] }
      let n := Config.freeNat s.free % ((s.dctx c.ctx).held.length + 1)
      let s := ({ s with free := s.free + 1 } : State).modDctx c.ctx fun x => { x with emit := n }
      ok (s.emitAll e c.ctx n)
  | none => ok s

/-- FLUSH (R414): every held frame. -/
def execFlush (s : State) : Res :=
  decCommand 2 (fun c s =>
    let n := (s.dctx c.ctx).held.length
    (s.modDctx c.ctx fun x => { x with emit := n }).emitAll s.cur.arg c.ctx n) s

/-- DECODER_RESET (R414): the context's state is dropped. -/
def execDecoderReset (s : State) : Res := decCommand 3 (fun c s => s.modDctx c.ctx fun x => { x with out := 0, held := [], emit := 0 }) s

/-- The context for which engine e waits: frames are due and their slot has been consumed (R414). -/
def State.decWaits (s : State) (e : Nat) : Option Nat :=
  if !(s.dec e).blocked then none
  else (List.range 256).find? fun c => (s.dctx c).emit != 0 && (s.dctx c).fld 1 1 = e && (s.dctx c).slotOpen

/-- DECODE_RESUME (R414): the stopped ring of the engine of the step goes on. -/
def execDecodeResume (s : State) : Res :=
  let e := s.cur.arg
  match s.decWaits e with
  | some c => ok ((s.modDec e fun d => { d with blocked := false }).emitAll e c (s.dctx c).emit)
  | none => ok s

end Sys2Proof.Machine
end

