-- ==== Sys2Proof/Machine/Slh.lean ====
section
/-!
DEFINITION. Pure SLH-DSA-SHA2-192s of FIPS 205 with an empty context string, which R418 and R422 name (log 15): n = 24, h = 63, d = 7,
h' = 9, a = 14, k = 17, 51 chains of 16 positions.
-/

namespace Sys2Proof.Machine

/-- What an address names (FIPS 205, section 4.2): the layer and the tree of the hypertree, the kind, and three words. -/
structure SlhAdrs where
  layer : Nat
  tree  : Nat
  kind  : Nat
  word1 : Nat
  word2 : Nat
  word3 : Nat
  deriving DecidableEq, Repr

/-- The compressed 22 bytes of an address. -/
def SlhAdrs.bytes (a : SlhAdrs) : List Byte :=
  beBytes 1 a.layer ++ beBytes 8 a.tree ++ beBytes 1 a.kind ++ beBytes 4 a.word1 ++ beBytes 4 a.word2 ++ beBytes 4 a.word3

/-- The hash of one value under an address: SHA-256 after a block of PK.seed. -/
def slhF (seed : List Byte) (a : SlhAdrs) (m : List Byte) : List Byte := (sha256 (seed ++ List.replicate 40 0 ++ a.bytes ++ m)).take 24

/-- The hash of several values under an address: SHA-512 after a block of PK.seed. -/
def slhT (seed : List Byte) (a : SlhAdrs) (m : List Byte) : List Byte := (sha512 (seed ++ List.replicate 104 0 ++ a.bytes ++ m)).take 24

/-! ## Hash trees -/

/-- Node i at height z of a tree with given leaves and a function that joins two nodes into node i of a height. -/
def hashNode (leaf : Nat → List Byte) (join : Nat → Nat → List Byte → List Byte) : Nat → Nat → List Byte
  | 0, i => leaf i
  | z + 1, i => join (z + 1) i (hashNode leaf join z (2 * i) ++ hashNode leaf join z (2 * i + 1))

/-- The authentication path of leaf i to a height. -/
def hashPath (leaf : Nat → List Byte) (join : Nat → Nat → List Byte → List Byte) (height i : Nat) : List Byte :=
  (List.range height).flatMap fun z => hashNode leaf join z (if i / 2 ^ z % 2 = 0 then i / 2 ^ z + 1 else i / 2 ^ z - 1)

/-- The root that leaf i with a value reaches along its path. -/
def hashRoot (join : Nat → Nat → List Byte → List Byte) (height i : Nat) (path node : List Byte) : List Byte :=
  (List.range height).foldl (fun node z =>
    let sib := (path.drop (24 * z)).take 24
    join (z + 1) (i / 2 ^ (z + 1)) (if i / 2 ^ z % 2 = 0 then node ++ sib else sib ++ node)) node

/-! ## One-time signatures: chains -/

/-- The leading digits of b bits in a byte string, n of them. -/
def slhDigits (bs : List Byte) (b n : Nat) : List Nat :=
  let v := beNat bs
  (List.range n).map fun i => v / 2 ^ (8 * bs.length - b * (i + 1)) % 2 ^ b

/-- A chain of key pair `leaf` from position p on, n steps. -/
def slhChain (seed : List Byte) (a : SlhAdrs) (leaf i p n : Nat) (m : List Byte) : List Byte :=
  (List.range n).foldl (fun m j => slhF seed { a with kind := 0, word1 := leaf, word2 := i, word3 := p + j } m) m

/-- The 51 positions that sign 24 bytes: their 48 digits and the 3 of the checksum. -/
def slhPositions (m : List Byte) : List Nat :=
  let ds := slhDigits m 4 48
  ds ++ slhDigits (beBytes 2 ((ds.foldl (fun n x => n + (15 - x)) 0) * 16)) 4 3

/-- The secret start of chain i of a key pair. -/
def slhSecret (seed sk : List Byte) (a : SlhAdrs) (leaf i : Nat) : List Byte :=
  slhF seed { a with kind := 5, word1 := leaf, word2 := i, word3 := 0 } sk

/-- The public key of a key pair from the ends of its chains. -/
def slhEnds (seed : List Byte) (a : SlhAdrs) (leaf : Nat) (ends : List Byte) : List Byte :=
  slhT seed { a with kind := 1, word1 := leaf, word2 := 0, word3 := 0 } ends

/-- The public key of key pair `leaf` of a tree: the tree's leaf. -/
def slhLeaf (seed sk : List Byte) (a : SlhAdrs) (leaf : Nat) : List Byte :=
  slhEnds seed a leaf ((List.range 51).flatMap fun i => slhChain seed a leaf i 0 15 (slhSecret seed sk a leaf i))

/-- The join of a tree of the hypertree. -/
def slhJoin (seed : List Byte) (a : SlhAdrs) (z i : Nat) (m : List Byte) : List Byte :=
  slhT seed { a with kind := 2, word1 := 0, word2 := z, word3 := i } m

/-! ## The hypertree -/

/-- The address of layer j above a path whose lowest tree is `tree`, and the leaf used there, `leaf` at layer 0. -/
def slhLayer (tree leaf j : Nat) : SlhAdrs × Nat :=
  ({ layer := j, tree := tree / 2 ^ (9 * j), kind := 0, word1 := 0, word2 := 0, word3 := 0 },
   if j = 0 then leaf else tree / 2 ^ (9 * (j - 1)) % 512)

/-- One layer signs 24 bytes: 51 chain values and the path. -/
def slhSignLayer (seed sk : List Byte) (a : SlhAdrs) (leaf : Nat) (m : List Byte) : List Byte :=
  ((slhPositions m).zipIdx.flatMap fun x => slhChain seed a leaf x.2 0 x.1 (slhSecret seed sk a leaf x.2)) ++
    hashPath (slhLeaf seed sk a) (slhJoin seed a) 9 leaf

/-- The root of a layer that a signature of 24 bytes shows. -/
def slhLayerRoot (seed : List Byte) (a : SlhAdrs) (leaf : Nat) (sig m : List Byte) : List Byte :=
  let ends := (slhPositions m).zipIdx.flatMap fun x => slhChain seed a leaf x.2 x.1 (15 - x.1) ((sig.drop (24 * x.2)).take 24)
  hashRoot (slhJoin seed a) 9 leaf (sig.drop 1224) (slhEnds seed a leaf ends)

/-- The public root: that of the one tree of layer 6. -/
def slhTop (seed sk : List Byte) : List Byte :=
  let a := (slhLayer 0 0 6).1
  hashNode (slhLeaf seed sk a) (slhJoin seed a) 9 0

/-! ## Few-time signatures -/

/-- The address of the few-time key of a leaf of the lowest layer. -/
def forsAdrs (tree leaf : Nat) : SlhAdrs := { layer := 0, tree := tree, kind := 3, word1 := leaf, word2 := 0, word3 := 0 }

/-- Its secret values, leaves and joins; its 17 trees of 2^14 leaves count as one row of leaves. -/
def forsSecret (seed sk : List Byte) (a : SlhAdrs) (i : Nat) : List Byte := slhF seed { a with kind := 6, word3 := i } sk
def forsLeaf (seed sk : List Byte) (a : SlhAdrs) (i : Nat) : List Byte := slhF seed { a with word3 := i } (forsSecret seed sk a i)
def forsJoin (seed : List Byte) (a : SlhAdrs) (z i : Nat) (m : List Byte) : List Byte := slhT seed { a with word2 := z, word3 := i } m

/-- The leaves that a digest of 30 bytes opens. -/
def forsOpened (md : List Byte) : List Nat := (slhDigits md 14 17).zipIdx.map fun x => x.2 * 2 ^ 14 + x.1

/-- The few-time signature of a digest. -/
def forsSign (seed sk : List Byte) (a : SlhAdrs) (md : List Byte) : List Byte :=
  (forsOpened md).flatMap fun i => forsSecret seed sk a i ++ hashPath (forsLeaf seed sk a) (forsJoin seed a) 14 i

/-- The few-time public key that a signature of a digest shows. -/
def forsRoot (seed : List Byte) (a : SlhAdrs) (sig md : List Byte) : List Byte :=
  let roots := (forsOpened md).zipIdx.flatMap fun x =>
    let part := sig.drop (360 * x.2)
    hashRoot (forsJoin seed a) 14 x.1 (part.drop 24) (slhF seed { a with word3 := x.1 } (part.take 24))
  slhT seed { a with kind := 4 } roots

/-! ## Signing and verifying -/

/-- The message that is signed: no pre-hash, an empty context string. -/
def slhPure (m : List Byte) : List Byte := 0 :: 0 :: m

/-- What a message selects: the digest of 30 bytes, the tree and the leaf. -/
def slhSelect (r seed root m : List Byte) : List Byte × Nat × Nat :=
  let d := mgf512 (r ++ seed ++ sha512 (r ++ seed ++ root ++ m)) 39
  (d.take 30, beNat ((d.drop 30).take 7) % 2 ^ 54, beNat (d.drop 37) % 512)

/-- The SLH-DSA-SHA2-192s public key of SK.seed, SK.prf and PK.seed: PK.seed and PK.root (R422). -/
def slhPublic (key : List Byte) : List Byte :=
  let seed := (key.drop 48).take 24
  seed ++ slhTop seed (key.take 24)

/-- An SLH-DSA-SHA2-192s signature: key, message, and the 24 bytes opt_rand, which FIPS 205 lets the signer choose (R422, R423). -/
def slhSign (key m opt : List Byte) : List Byte :=
  let pub := slhPublic key
  let sk := key.take 24
  let seed := pub.take 24
  let m := slhPure m
  let r := (kind512.hmac ((key.drop 24).take 24) (opt ++ m)).take 24
  let (md, tree, leaf) := slhSelect r seed (pub.drop 24) m
  let fs := forsSign seed sk (forsAdrs tree leaf) md
  let step (x : List Byte × List Byte) (j : Nat) : List Byte × List Byte :=
    let (a, l) := slhLayer tree leaf j
    let sig := slhSignLayer seed sk a l x.2
    (x.1 ++ sig, slhLayerRoot seed a l sig x.2)
  r ++ fs ++ ((List.range 7).foldl step ([], forsRoot seed (forsAdrs tree leaf) fs md)).1

/-- Whether an SLH-DSA-SHA2-192s signature verifies: key, message, signature (R418). -/
def slhVerify (pub m sig : List Byte) : Bool :=
  let seed := pub.take 24
  let (md, tree, leaf) := slhSelect (sig.take 24) seed (pub.drop 24) (slhPure m)
  let step (node : List Byte) (j : Nat) : List Byte :=
    let (a, l) := slhLayer tree leaf j
    slhLayerRoot seed a l ((sig.drop (6144 + 1440 * j)).take 1440) node
  pub.length = 48 && sig.length = 16224 &&
    (List.range 7).foldl step (forsRoot seed (forsAdrs tree leaf) ((sig.drop 24).take 6120) md) == pub.drop 24

end Sys2Proof.Machine
end

