-- ==== Sys2Proof/Machine/Fleet.lean ====
section
/-!
DEFINITION. Boot, identity and fleet operation: images and capsule (R416 to R421), attestation (R422, R423), sensors, heat and power
(R426, R427, R434), self-test (R430 to R432), update, reset and power loss (R420, R433). The layouts of an image header, of a capsule
and of the attestation messages beyond what the rules give are the model's (log 15).
-/

namespace Sys2Proof.Machine

/-! ## Boot state (R417) -/

/-- One bit of CRC-32 (IEEE 802.3), least significant bit first. -/
def crcBits : Nat → BitVec 32 → BitVec 32
  | 0, c => c
  | n + 1, c => crcBits n (if c.getLsbD 0 then (c >>> 1) ^^^ 0xEDB88320 else c >>> 1)

/-- CRC-32 (IEEE 802.3) of a byte string (R417). -/
def crc32 (bs : List Byte) : Nat := (~~~(bs.foldl (fun c b => crcBits 8 (c ^^^ b.setWidth 32)) (0xFFFFFFFF : BitVec 32))).toNat

/-- The fields of a boot-state copy (R417). -/
structure BootState where
  seq     : Nat
  pref    : Nat
  tries   : Nat × Nat
  healthy : Bool × Bool
  deriving DecidableEq, Repr

/-- A boot-state copy's 20 bytes. -/
def BootState.bytes (b : BootState) : List Byte :=
  let h := leBytes 4 b.seq ++ leBytes 1 b.pref ++ leBytes 1 b.tries.1 ++ leBytes 1 b.tries.2 ++ leBytes 1 (bit b.healthy.1) ++
    leBytes 1 (bit b.healthy.2) ++ List.replicate 7 0
  h ++ leBytes 4 (crc32 h)

/-- Copy k of the boot state, when its CRC is right. -/
def bootCopy (flash : Memory) (k : Nat) : Option BootState :=
  let h := mreadN flash (0x1000 * k) 16
  if mnat flash (0x1000 * k + 16) 4 = crc32 h then
    some { seq := bnat h 0 4, pref := bnat h 4 1 % 2, tries := (bnat h 5 1, bnat h 6 1), healthy := (bnat h 7 1 != 0, bnat h 8 1 != 0) }
  else none

/-- The governing copy, with its number. -/
def bootGov (flash : Memory) : Option (Nat × BootState) :=
  match bootCopy flash 0, bootCopy flash 1 with
  | some a, some b => if a.seq < b.seq then some (1, b) else some (0, a)
  | some a, none => some (0, a)
  | none, some b => some (1, b)
  | none, none => none

/-- The governing boot state; PREF, TRIES and HEALTHY 0 when no copy is valid (R419). -/
def bootState (flash : Memory) : BootState :=
  match bootGov flash with
  | some (_, b) => b
  | none => { seq := 0, pref := 0, tries := (0, 0), healthy := (false, false) }

/-- The boot state written to the other copy with SEQ + 1 (R417); copy 0 when none is valid. -/
def writeBoot (flash : Memory) (b : BootState) : Memory :=
  let k := match bootGov flash with | some (0, _) => 1 | _ => 0
  mwriteL flash (0x1000 * k) ({ b with seq := b.seq + 1 } : BootState).bytes

def BootState.triesOf (b : BootState) (s : Nat) : Nat := if s = 0 then b.tries.1 else b.tries.2
def BootState.healthyOf (b : BootState) (s : Nat) : Bool := if s = 0 then b.healthy.1 else b.healthy.2

/-- TRIES and HEALTHY of a slot set. -/
def BootState.set (b : BootState) (s tries : Nat) (healthy : Bool) : BootState :=
  { b with tries := if s = 0 then (tries, b.tries.2) else (b.tries.1, tries)
           healthy := if s = 0 then (healthy, b.healthy.2) else (b.healthy.1, healthy) }

/-! ## Images (R418) -/

/-- Where the image of a slot lies in flash (R416). -/
def slotBase (s : Nat) : Nat := if s = 0 then 0x1000000 else 0x2000000

/-- Length of the header before the key: MAGIC, SVN, the count, and the components (log 15). -/
def imgHeadLen (flash : Memory) (s : Nat) : Nat := 12 + 40 * mnat flash (slotBase s + 8) 4

/-- The whole header of the image in a slot: with key and signature. -/
def imgHeader (flash : Memory) (s : Nat) : List Byte := mreadN flash (slotBase s) (imgHeadLen flash s + 48 + 16224)

/-- SVN of the image in a slot. -/
def imgSvn (flash : Memory) (s : Nat) : Nat := mnat flash (slotBase s + 4) 4

/-- Whether the image in a slot verifies (R418). -/
def Fleet.verifies (f : Fleet) (s : Nat) : Bool :=
  let m := f.flash
  let b := slotBase s
  let n := imgHeadLen m s
  let key := mreadN m (b + n) 48
  if mnat m b 4 != 0x4B525954 || 0x1000000 < n + 48 + 16224 then false
  else
    sha256 key == Config.rootKeyHash &&
    slhVerify key (mreadN m b (n + 48)) (mreadN m (b + n + 48) 16224) &&
    ((List.range (mnat m (b + 8) 4)).all fun k =>
      let e := b + 12 + 40 * k
      mnat m e 4 + mnat m (e + 4) 4 ≤ 0x1000000 &&
        sha256 (mreadN m (b + mnat m e 4) (mnat m (e + 4) 4)) == mreadN m (e + 8) 32) &&
    f.ctr0 ≤ imgSvn m s

/-! ## The configuration capsule (R421) -/

/-- Where the capsule lies in flash (R416). -/
def capsuleBase : Nat := 0x100000

/-- Length of the capsule before its key: MAGIC, SVN, DEVBIND, OWNERKEY, the length of the records, the records (log 15). -/
def capsuleLen (flash : Memory) : Nat := 76 + mnat flash (capsuleBase + 72) 4

/-- The records of a capsule: KEY and value. -/
def capRecords : Nat → List Byte → List (Nat × List Byte)
  | 0, _ => []
  | n + 1, bs =>
    if bs.length < 4 then []
    else (bnat bs 0 2, (bs.drop 4).take (bnat bs 2 2)) :: capRecords n (bs.drop (4 + bnat bs 2 2))

/-- The five bytes "DevID". -/
def devIdInfo : List Byte := [0x44, 0x65, 0x76, 0x49, 0x44]

/-- The key material that a seed gives: of DevID without salt, of the alias key with one (R422). -/
def seedKey (seed salt : List Byte) : List Byte := hkdf seed salt devIdInfo 72

/-- The 32 bytes of the seed that the boot ROM recovers with the helper data (R416, R422). -/
def State.seed (s : State) : List Byte := leBytes 32 (Config.pufSeed (mreadN s.fleet.flash 0x2000 4096)).toNat

/-- Whether the capsule in flash verifies and is not below its floor (R421). -/
def Fleet.capsuleSigned (f : Fleet) : Bool :=
  let m := f.flash
  let n := capsuleLen m
  let key := mreadN m (capsuleBase + n) 48
  if mnat m capsuleBase 4 != 0x4350534C || 0x40000 < n + 48 + 16224 then false
  else
    (sha256 key == Config.rootKeyHash || (f.ownerKey.any (· != 0) && sha256 key == f.ownerKey)) &&
    slhVerify key (mreadN m capsuleBase (n + 48)) (mreadN m (capsuleBase + n + 48) 16224) &&
    f.ctr1 ≤ mnat m (capsuleBase + 4) 4

/-- Whether the capsule in flash takes effect on the part of a DevID key (R421). -/
def Fleet.capsuleOk (f : Fleet) (dev : List Byte) : Bool :=
  let bind := mreadN f.flash (capsuleBase + 8) 32
  f.capsuleSigned && (bind.all (· == 0) || bind == sha256 (slhPublic dev))

/-- 64-bit word k of a record's value. -/
def recWord (v : List Byte) (k : Nat) : Word := word (bnat v (8 * k) 8)

/-- A record applied: the fields of R421, each as its register holds it; a power cap outside R434's range is ignored (log 15). -/
def Capsule.apply (c : Capsule) (r : Nat × List Byte) : Capsule :=
  let v := r.2
  let n := bnat v 0 8
  match r.1 with
  | 0x01 => { c with retrymax := BitVec.ofNat 4 n }
  | 0x02 => { c with pdl := BitVec.ofNat 32 n }
  | 0x03 => { c with ckmin := BitVec.ofNat 2 n }
  | 0x04 => { c with errinjEn := n % 2 = 1 }
  | 0x05 => { c with slice := (List.range 4).map fun k => (recWord v k).setWidth 32
                     runlim := (List.range 4).map fun k => (recWord v (4 + k)).setWidth 48
                     classw := (List.range 4).map fun k => BitVec.ofNat 8 (bnat v (64 + k) 1) }
  | 0x06 => { c with hostBase := n, hostLen := bnat v 8 8 }
  | 0x07 => { c with peers := (List.range 8).map fun k => (PeerWin.zero.set 0 (recWord v (2 * k))).set 1 (recWord v (2 * k + 1))
                     owners := BitVec.ofNat 16 (bnat v 128 2) }
  | 0x08 => if 75 ≤ n && n ≤ 200 then { c with cap := n } else c
  | _ => c

/-- The values of the capsule in flash. -/
def capsuleOf (flash : Memory) : Capsule :=
  let bs := mreadN flash (capsuleBase + 76) (mnat flash (capsuleBase + 72) 4)
  (capRecords bs.length bs).foldl Capsule.apply Capsule.default_

/-- Every Cfg value of the part loaded (R13, R421). -/
def State.loadCapsule (s : State) (c : Capsule) : State :=
  { s with
    sched := { s.sched with slice := c.slice, runlim := c.runlim, classw := c.classw }
    io := { s.io with hostBase := c.hostBase, hostLen := c.hostLen, peers := c.peers }
    pilot := { s.pilot with mbox := s.pilot.mbox.mapIdx fun k (m : Mailbox) => { m with owner := c.owners.getLsbD k } }
    cores := s.cores.map fun x =>
      { x with modes := { x.modes with pdl := c.pdl, retrymax := c.retrymax }, mtx := { x.mtx with ckmin := c.ckmin, eiEn := c.errinjEn } }
    fleet := { s.fleet with capsule := c, cap := c.cap } }

/-! ## Boot (R419, R420, R422) -/

/-- An entry of the RAS log whose CODE and ADDR are specific to its class and given by no rule: they are free (log 20). -/
def State.rasOpen (s : State) (cls : Nat) : State :=
  let c := Config.freeNat s.free % 2 ^ 32
  let a := Config.freeNat (s.free + 1) % 2 ^ 64
  ({ s with free := s.free + 2 } : State).ras cls 0xFF 0xFF c a

/-- A boot-state write, with its entry of class 10 (R417, R428). -/
def State.putBoot (s : State) (b : BootState) : State :=
  ({ s with fleet := { s.fleet with flash := writeBoot s.fleet.flash b } } : State).rasOpen 10

/-- The slot that the boot ROM takes (R419). -/
def Fleet.choose (f : Fleet) : Option Nat :=
  let b := bootState f.flash
  [b.pref, 1 - b.pref].find? fun s => !(!b.healthyOf s && 3 ≤ b.triesOf s) && f.verifies s

/-- The 24 bytes that a signer may choose (FIPS 205; log 15). -/
def State.optRand (s : State) : List Byte := (Config.freeBytes s.free ++ List.replicate 24 0).take 24

/-- The alias key and its certificate, signed with DevID (R422); the certificate follows the device certificate in flash (log 15). -/
def State.deriveAlias (s : State) (seed : List Byte) (slot : Nat) : State :=
  let m := s.fleet.flash
  let cap := if s.fleet.capFail then [] else mreadN m capsuleBase (capsuleLen m + 48 + 16224)
  let key := seedKey seed (sha256 (imgHeader m slot ++ cap))
  let pub := slhPublic key
  { s with fleet := { s.fleet with alias_ := key, flash := mwriteL m 0x18000 ((pub ++ slhSign (seedKey seed []) pub s.optRand).take 0x8000) }
           free := s.free + 1 }

/-- The capsule takes effect, or the defaults with CAPSULE_FAIL (R421). -/
def State.takeCapsule (s : State) (dev : List Byte) : State :=
  if s.fleet.capsuleOk dev then
    { s.loadCapsule (capsuleOf s.fleet.flash) with
        fleet := { (s.loadCapsule (capsuleOf s.fleet.flash)).fleet with capFail := false, ownerKey := mreadN s.fleet.flash (capsuleBase + 40) 32 } }
  else { s.loadCapsule Capsule.default_ with fleet := { (s.loadCapsule Capsule.default_).fleet with capFail := true } }

/-- The host cores that an image starts (log 98). -/
def State.startHarts (s : State) : State :=
  (List.range 8).foldl (fun s k => match Config.hartStart k with
    | some a => s.modHart k fun h => { h with pc := a, running := true, next := s.tide }
    | none => s) s

/-- The image of a slot boots (R419, R422), and starts its host cores; an image other than the preferred one is a rollback, which is logged (R433). -/
def State.bootSlot (s : State) (seed : List Byte) (slot : Nat) : State :=
  let b := bootState s.fleet.flash
  let s := if b.healthyOf slot then s else s.putBoot (b.set slot (b.triesOf slot + 1) false)
  let s := if slot = b.pref then s else s.rasOpen 10
  let s := ((s.takeCapsule (seedKey seed [])).deriveAlias seed slot).startHarts
  { s with fleet := { s.fleet with booted := true, recovery := false, slot := slot, svn := imgSvn s.fleet.flash slot
                                   test := { s.fleet.test with lamp := 0 } }
           pilot := { s.pilot with fw := { s.pilot.fw with ready := s.tide + Config.freeNat s.free } }
           free := s.free + 1 }

/-- POWER_ON (R419, R421, R422): the boot ROM runs, once after a reset; it keeps neither the seed nor DevID. -/
def execPowerOn (s : State) : Res :=
  let seed := s.seed
  if s.fleet.booted then ok s
  else match s.fleet.choose with
    | some slot => ok (s.bootSlot seed slot)
    | none =>
      let s := s.takeCapsule (seedKey seed [])
      ok { s with fleet := { s.fleet with booted := true, recovery := true, slot := (bootState s.fleet.flash).pref, svn := 0
                                          test := { s.fleet.test with lamp := 4 } } }

/-- HEALTHY (R420): the booted image marks itself healthy and raises counter 0. -/
def execHealthy (s : State) : Res :=
  if !s.fleet.booted || s.fleet.recovery then ok s
  else
    let slot := s.fleet.slot
    let s := s.putBoot { (bootState s.fleet.flash).set slot 0 true with pref := slot }
    let svns := ([0, 1].filter s.fleet.verifies).map (imgSvn s.fleet.flash)
    match svns with
    | [] => ok s
    | x :: r => ok { s with fleet := { s.fleet with ctr0 := Nat.max s.fleet.ctr0 (r.foldl Nat.min x) } }

/-! ## Update and reset (R420, R432, R433) -/

/-- Where an update is written, and the bytes that fit there (R416, R420): an image into the slot that did not boot. -/
def Fleet.updatePlace (f : Fleet) (capsule : Bool) : Nat × Nat := if capsule then (capsuleBase, 0x40000) else (slotBase (1 - f.slot), 0x1000000)

/-- PLDM_UPDATE (R420, R433): the transfer of an image or of a capsule begins, one at a time; it ends at a free later tide cycle, and until
then a free part of it stands in the flash (log 15). -/
def execPldmUpdate (capsule : Bool) (bytes : List Byte) (s : State) : Res :=
  let f := s.fleet
  if !f.booted || f.update.isSome then ok s
  else
    let (a, n) := f.updatePlace capsule
    let part := (bytes.take n).take (Config.freeNat s.free % (n + 1))
    ok { s with fleet := { f with flash := mwriteL f.flash a part, verified := f.verified && capsule
                                  update := some { capsule := capsule, bytes := bytes, due := s.tide + Config.freeNat (s.free + 1) } }
                free := s.free + 2 }

/-- The transfer of an update ends: its bytes stand in the flash, an image is verified, and the change is logged (R420, R428). -/
def State.endUpdate (s : State) (u : Update) : State :=
  let (a, n) := s.fleet.updatePlace u.capsule
  let f := { s.fleet with flash := mwriteL s.fleet.flash a (u.bytes.take n), update := none }
  (({ s with fleet := if u.capsule then f else { f with verified := f.verifies (1 - f.slot) } } : State).rasOpen 10)

/-- The part after a reset: flash, counters and the owner's key outlive it, as do host memory and the model's own fields; HBM when the power
stays on (log 18). -/
def State.restart (s : State) (keepHbm : Bool) : State :=
  let z := State.reset
  { z with
    fleet := { z.fleet with flash := s.fleet.flash, ctr0 := s.fleet.ctr0, ctr1 := s.fleet.ctr1, ownerKey := s.fleet.ownerKey }
    mem := { z.mem with pcie := s.mem.pcie, pciePoi := s.mem.pciePoi, hbm := if keepHbm then s.mem.hbm else []
                        hbmPoi := if keepHbm then s.mem.hbmPoi else [] }
    io := { z.io with outs := s.io.outs }
    inputs := s.inputs.map fun x => { x with at_ := x.at_ - s.tide }
    free := s.free, nextId := s.nextId }

/-- ACTIVATION (R420, R433): PREF names the slot that holds the verified update, and the part resets. -/
def execActivation (s : State) : Res :=
  if !s.fleet.verified then ok s
  else
    let slot := 1 - s.fleet.slot
    ok ((s.putBoot { (bootState s.fleet.flash).set slot 0 false with pref := slot }).restart s.fleet.dieOn)

/-- RESET (R421, R432). -/
def execReset (s : State) : Res := ok (s.restart s.fleet.dieOn)

/-- POWER_LOSS (R417, R433): what only power keeps is lost. -/
def execPowerLoss (s : State) : Res := ok (s.restart false)

/-! ## Attestation (R423) -/

/-- GET_CERTS: a piece of the device and alias certificates. -/
def execGetCerts (off len : Nat) (s : State) : Res :=
  ok (s.out (.response (mreadN s.fleet.flash (0x10000 + off) (Nat.min (len % 65536) (0x10000 - off)))))

/-- CHALLENGE: the evidence signed by the alias key is ready within 12 s; until it is sent another CHALLENGE has status 3. -/
def execChallenge (nonce : List Byte) (s : State) : Res :=
  if s.fleet.answer.isSome then ok (s.out (.response (leBytes 2 3)))
  else
    let f := s.fleet
    let cap := mreadN f.flash capsuleBase (capsuleLen f.flash + 48 + 16224)
    let m := leBytes 4 Config.romVersion.toNat ++ leBytes 1 f.slot ++ sha256 (imgHeader f.flash f.slot) ++ sha256 cap ++
      leBytes 8 f.ctr0 ++ leBytes 8 f.ctr1 ++ (nonce ++ List.replicate 32 0).take 32
    let dur := Config.freeNat s.free % (s.micros 12000000 + 1)
    let r := m ++ slhSign f.alias_ m ({ s with free := s.free + 1 } : State).optRand
    ok { s with fleet := { f with answer := some (s.tide + dur, r) }, free := s.free + 2 }

/-- The response to a CHALLENGE is sent when it is ready (R423). -/
def State.answerMove (s : State) : Option State :=
  match s.fleet.answer with
  | some (due, r) => if due ≤ s.tide then some (({ s with fleet := { s.fleet with answer := none } } : State).out (.response r)) else none
  | none => none

/-! ## Self-test (R430 to R432) -/

/-- A press of the TEST switch (R432): ignored and logged when a start request is refused. -/
def State.press (s : State) (level : Nat) : State := if s.testBusy then s.rasOpen 10 else s.startTest level none

/-- TEST_BUTTON_SHORT: the basic test. -/
def execTestButtonShort (s : State) : Res := ok (s.press 1)
/-- TEST_BUTTON_LONG: the full test. -/
def execTestButtonLong (s : State) : Res := ok (s.press 2)

/-- The built-in timetable runs on cores until a free tide cycle; ERRINJ.EN is set there for it (R430). -/
def State.runTest (s : State) (cs : List Nat) : State :=
  let t := s.fleet.test
  let s := cs.foldl (fun s k => s.modCore k fun c => c.prwWrite 0x013 0x4000000000000000) s
  { s with fleet := { s.fleet with test := { t with todo := t.todo.filter fun k => !cs.contains k, on := cs, due := s.tide + Config.freeNat s.free } }
           free := s.free + 1 }

/-- The built-in timetable has ended on its cores: ERRINJ.EN is again what the capsule gives (R421, R430). -/
def State.endTestRun (s : State) : State :=
  let s := s.fleet.test.on.foldl (fun s k => s.modCore k fun c => { c with mtx := { c.mtx with eiEn := s.fleet.capsule.errinjEn, eiArm := false } }) s
  { s with fleet := { s.fleet with test := { s.fleet.test with on := [] } } }

/-- Golden access units are decoded on engines of the decoders: they take their next command a free time later (R430). -/
def State.runGolden (s : State) (es : List Nat) : State :=
  let s := es.foldl (fun s e => ({ s with free := s.free + 1 } : State).modDec e fun d => { d with due := s.tide + 1 + Config.freeNat s.free }) s
  { s with fleet := { s.fleet with test := { s.fleet.test with decs := s.fleet.test.decs.filter fun e => !es.contains e } } }

/-- Whether an engine of the decoders is idle: it has taken its last command's time, and its ring holds none. -/
def State.decIdle (s : State) (e : Nat) : Bool := (s.dec e).due ≤ s.tide && !(s.dec e).blocked && (s.decNext e).isNone

/-- What a self-test does next on the decoders (R430): the basic one runs one golden access unit on each idle engine, the full one every codec on
all engines at once. -/
def State.goldenMove (s : State) : Option State :=
  let t := s.fleet.test
  if t.level = 1 then (t.decs.find? s.decIdle).map fun e => s.runGolden [e]
  else if t.level = 2 && !t.decs.isEmpty && t.decs.all fun e => (s.dec e).due ≤ s.tide then some (s.runGolden t.decs)
  else none

/-- What a self-test does next on the cores (R430): the basic one takes the idle cores in turn, while no FRAME that is popped waits for its cores
(R380), the full one all cores at once when no gang is left. -/
def State.testMove (s : State) : Option State :=
  let t := s.fleet.test
  let idle (k : Nat) : Bool := (s.core k).run.berth.isNone && !(s.busyCores 32).contains k
  if t.level = 0 then none
  else if !t.on.isEmpty then (if t.due ≤ s.tide then some s.endTestRun else none)
  else if t.level = 1 then (if s.pilot.fw.popped.isEmpty then (t.todo.find? idle).map fun k => s.runTest [k] else none)
  else if s.gangs.isEmpty && !t.todo.isEmpty then some (s.runTest t.todo)
  else none

/-- Whether the flash fails a self-test of a level (R430, R431): an image or the capsule does not verify or, in a full test, a copy of the boot
state is not valid. -/
def Fleet.flashBad (f : Fleet) (level : Nat) : Bool :=
  !(f.verifies 0 && f.verifies 1 && f.capsuleSigned) || (level = 2 && ((bootCopy f.flash 0).isNone || (bootCopy f.flash 1).isNone))

/-- SELF_TEST_VERDICT (R431): the cores that failed leave service; `other` says that a decoder or HBM failed. The lamp shows the verdict, and
a request that was written over is answered with status 3 (R400). -/
def execSelfTestVerdict (failed : BitVec 24) (other : Bool) (s : State) : Res :=
  let t := s.fleet.test
  if t.level = 0 then ok s
  else
    let s := (coresOf failed).foldl (fun s k => s.failCore k 0xFF 0) s.endTestRun
    let n := (coresOf s.sched.failed).length
    let lamp := if other || s.fleet.flashBad t.level || 4 ≤ n then 3 else if n = 0 then 0 else 2
    let s := s.rasOpen 9
    let s := { s with fleet := { s.fleet with test := { level := 0, mbox := none, lamp := lamp } }
                      pilot := { s.pilot with fw := { s.pilot.fw with taking := true } } }
    match t.mbox with
    | some m => ok (s.respond m (if (s.mbox m).clash then 3 else 0) (if (s.mbox m).clash then [] else leBytes 1 lamp))
    | none => ok s

/-! ## Sensors, heat and power (R426, R427, R434) -/

/-- The warning and critical limits of the sensors, in their order; the third is the form's inlet air or cold plate (R426, R435). -/
def Fleet.limits (f : Fleet) : List (Option Int × Option Int) :=
  let form := if Config.module_ then 55 else 45
  [(some 95, some 105), (some 85, some 95), (some (form - 5), some form), (some ((f.cap : Int) - 5), some (f.cap : Int)), (none, none), (some 1, some 4),
   (some 1, none), (some 1000, none)]

/-- The state of a sensor that has reached its limits or not: 0 normal, 1 warning, 2 critical. -/
def limitState (v : Int) (l : Option Int × Option Int) : Nat :=
  if l.2.any fun c => c ≤ v then 2 else if l.1.any fun w => w ≤ v then 1 else 0

/-- The sensors reported, each with its state (R426). -/
def State.reportSensors (s : State) : State :=
  (s.fleet.sensors.zip s.fleet.limits).zipIdx.foldl (fun s x => s.out (.sensor x.2 x.1.1 (limitState x.1.1 x.1.2))) s

/-- How many of a list of tide cycles lie in the last n microseconds. -/
def State.since (s : State) (n : Nat) (ts : List Nat) : Nat :=
  (ts.filter fun t => let w := wallTime s.fleet.clocks t s.tide; w.1 < n * w.2).length

/-- SENSOR_REFRESH (R426): the sensors that measure, and those that count failed cores, completions of class 0 over their bound in the last 60 s
(R437), and correctable memory errors in the last hour; all are reported. -/
def execSensorRefresh (die hbm inlet : Int) (power : Nat) (s : State) : Res :=
  let errs := s.since 3600000000 s.fleet.memErrs
  let late := s.since 60000000 s.fleet.lates
  let failed := (coresOf s.sched.failed).length
  let t : State := { s with fleet := { s.fleet with sensors := [die, hbm, inlet, (power : Int), (s.fleet.clock : Int), (failed : Int), (late : Int), (errs : Int)], fresh := 2 } }
  ok t.reportSensors

/-- A compute clock between two frequencies. -/
def State.clockIn (s : State) (lo hi : Nat) : State :=
  let f := lo + Config.freeNat s.free % (hi - lo + 1)
  { s with fleet := { s.fleet with clock := f, clocks := (s.tide, f) :: s.fleet.clocks }, free := s.free + 1 }

/-- What the part has yet to do about its sensors. -/
def State.setFresh (s : State) (n : Nat) : State := { s with fleet := { s.fleet with fresh := n } }

/-- Die temperature, board power. -/
def Fleet.dieTemp (f : Fleet) : Int := lget f.sensors 0 0
def Fleet.power (f : Fleet) : Int := lget f.sensors 3 0

/-- THERMAL_CRITICAL (R427): at 105 °C the compute clock is lowered, to 400 MHz at least; by how much is free. -/
def execThermalCritical (s : State) : Res :=
  if s.fleet.dieTemp < 105 || s.fleet.clock ≤ 400 then ok (s.setFresh 1)
  else ok (((s.clockIn 400 (s.fleet.clock - 1)).rasOpen 8).setFresh 1)

/-- THERMAL_SHUTDOWN (R427): at 115 °C every gang stops for good, and the compute die and HBM lose power. -/
def execThermalShutdown (s : State) : Res :=
  if s.fleet.dieTemp < 115 then ok (s.setFresh 1)
  else
    let s := (s.rasOpen 8).setFresh 0
    let z := State.reset
    ok { s with fleet := { s.fleet with dieOn := false, heldBy := [] }
                cores := z.cores, gangs := [], gops := [], saves := [], builders := z.builders
                mem := { z.mem with pcie := s.mem.pcie, pciePoi := s.mem.pciePoi } }

/-- Berths of running gangs of class 2 and 3 that the Pilot does not hold. -/
def State.capTargets (s : State) : List Nat :=
  (s.gangs.filter fun g => 2 ≤ s.classOf (s.bind g.berth) && (s.bind g.berth).state == 2 && !(g.hold.any HoldRec.pilotHeld)).map (·.berth)

/-- POWER_CAP_CONTROL (R434): the clock never stays below the floor of the cap but for heat (R427); over the cap it falls, and at the floor gangs
of class 2 and 3 are held; under the cap they are released and the clock may rise. -/
def execPowerCapControl (s : State) : Res :=
  let f := s.fleet
  let fl := floorClock f.cap
  let on (s : State) (b : Nat) : State := { s with cur := { s.cur with arg := b } }
  if f.cap < f.power then
    if fl < f.clock then ok ((s.clockIn fl (f.clock - 1)).setFresh 0)
    else
      let s := if f.clock < fl && f.dieTemp < 105 then s.clockIn fl fl else s
      let bs := s.capTargets
      let s' := bs.foldl (fun s b => (on s b).trigHold) s
      let s' := if bs.isEmpty then s' else s'.rasOpen 8
      ok (({ s' with fleet := { s'.fleet with heldBy := s'.fleet.heldBy ++ bs } } : State).setFresh 0)
  else
    let s' := f.heldBy.foldl (fun s b => (on s b).trigRelease) s
    let s' := { s' with fleet := { s'.fleet with heldBy := [] } }
    ok ((if f.dieTemp < 105 && f.clock < 1900 then s'.clockIn (Nat.max fl f.clock) 1900 else s').setFresh 0)

end Sys2Proof.Machine
end

