-- ==== Sys2Proof/Machine/Manifest.lean ====
section
/-!
DEFINITION. The manifest builder and the manifest words (R113 to R128, R318 to R322).
-/

namespace Sys2Proof.Machine

/-! ## Layer slots (R115, R117) -/

/-- A layer slot's fields (R115). -/
structure Layer where
  thld : Nat
  gain : Nat
  rfsh : Nat
  mvtol : Int
  bscl : Int
  slog : Nat
  rad  : Nat
  ts   : Nat
  mapw : Nat
  maph : Nat
  valid : Bool
  deriving DecidableEq, Repr

/-- The fields of four slot words. -/
def layerOf (ws : List Word) : Layer :=
  let f (k lo n : Nat) : Nat := ((lget ws k 0).extractLsb' lo n).toNat
  { thld := f 0 32 32, gain := f 0 16 16, rfsh := f 0 0 16, mvtol := (f 1 56 8 : Int), bscl := toVal 6 true (f 1 50 6),
    slog := f 1 47 3, rad := f 1 32 8, ts := f 1 24 8, mapw := f 2 48 16, maph := f 2 32 16, valid := f 3 63 1 = 1 }

/-- Columns and rows of a layer's tile grid (R117). -/
def Layer.tcols (l : Layer) : Nat := ceilDiv l.mapw l.ts
def Layer.trows (l : Layer) : Nat := ceilDiv l.maph l.ts
/-- Number of tiles (R319). -/
def Layer.nt (l : Layer) : Nat := l.tcols * l.trows

/-- Whether MFBUILD accepts a slot (R117, R123). -/
def Layer.ok (l : Layer) : Bool :=
  l.valid && 4 ≤ l.ts && l.ts ≤ 128 && l.ts % 4 = 0 && l.slog != 7 && l.mapw != 0 && l.maph != 0 && l.tcols ≤ 4096 &&
  l.trows ≤ 4096 && l.nt ≤ 65535

/-! ## Change maps (R113, R114) -/

/-- Cells per row and cell rows of a change map. -/
def mapCw (m : List Byte) : Nat := bnat m 4 2
def mapCh (m : List Byte) : Nat := bnat m 6 2

/-- Whether the header of a change map is malformed, or the map does not fit n bytes (R319). -/
def mapBad (m : List Byte) (n : Nat) : Bool :=
  n < 32 || 4 ≤ bnat m 8 2 || bnat m 11 1 != 0 || bnat m 14 18 != 0 || mapCw m = 0 || mapCh m = 0 ||
  (bnat m 10 1 != 8 && bnat m 10 1 != 10) || n < 32 + 8 * mapCw m * mapCh m

/-- Offset of cell (x, y). -/
def cellOff (m : List Byte) (x y : Nat) : Nat := 32 + 8 * (y * mapCw m + x)

/-- Whether a cell counts as INTRA or has no reference: poisoned cells do (R119, R120). -/
def cellLost (m : List Byte) (poi : List Nat) (x y : Nat) : Bool :=
  let f := bnat m (cellOff m x y + 6) 2
  f % 2 = 1 || f / 8 % 2 = 1 || poi.contains (y * mapCw m + x)

/-- Motion and energy of a cell. -/
def cellMvx (m : List Byte) (x y : Nat) : Int := toVal 16 true (bnat m (cellOff m x y) 2)
def cellMvy (m : List Byte) (x y : Nat) : Int := toVal 16 true (bnat m (cellOff m x y + 2) 2)
def cellE (m : List Byte) (poi : List Nat) (x y : Nat) : Nat :=
  if cellLost m poi x y then 65535 else bnat m (cellOff m x y + 4) 2

/-! ## State records and the directory entry (R118, R119) -/

/-- A tile's state record: D, A, VALID, BANK, LFRM (R119). -/
structure TileRec where
  d     : Nat
  a     : Nat
  valid : Bool
  bank  : Bool
  lfrm  : Nat
  deriving DecidableEq, Repr

/-- The record at an offset of the bytes read; a poisoned one, or one with a nonzero RES0 field, counts as VALID 0 (R119). -/
def tileRec (bs : List Byte) (o : Nat) (poi : Bool) : TileRec :=
  let f := bnat bs (o + 6) 1
  { d := bnat bs o 4, a := bnat bs (o + 4) 2, valid := f % 2 = 1 && f / 8 = 0 && bnat bs (o + 7) 1 = 0 && !poi, bank := f / 2 % 2 = 1,
    lfrm := bnat bs (o + 12) 4 }

/-- Fields of a directory entry (R118). -/
def dirStbase (e : List Byte) : Nat := bnat e 0 8
def dirSide (e : List Byte) (bank : Bool) : Nat := bnat e (if bank then 16 else 8) 8
def dirNch (e : List Byte) : Nat := bnat e 40 2

/-- Bytes per block row of a side table, and of the whole table. -/
def sideCols (l : Layer) (e : List Byte) : Nat := l.mapw * dirNch e / 4
def sideLen (l : Layer) (e : List Byte) : Nat := ceilDiv l.maph 4 * sideCols l e

/-- Whether an entry breaks R118 or R319's checks that depend on it alone. -/
def dirBad (e : List Byte) : Bool :=
  bnat e 42 22 != 0 || dirStbase e % 16 != 0 || ((dirSide e false != 0 || dirSide e true != 0) && dirNch e % 4 != 0)

/-! ## The decision (R120, R121) -/

/-- What a call works on: the layer, the directory entry, the change map with its poisoned cells, and the bytes read: the state array,
then the side tables of the banks that have one, with the poison of each record. -/
structure Call where
  l    : Layer
  dir  : List Byte
  map  : List Byte
  cells : List Nat
  mem  : List Byte
  bad  : List Nat
  deriving DecidableEq, Repr

/-- The record of tile ti. -/
def Call.rec_ (c : Call) (ti : Nat) : TileRec := tileRec c.mem (16 * ti) (c.bad.contains ti)

/-- First and last element of tile (tx, ty): columns and rows (R117). -/
def Layer.x0 (l : Layer) (tx : Nat) : Nat := tx * l.ts
def Layer.x1 (l : Layer) (tx : Nat) : Nat := Nat.min ((tx + 1) * l.ts) l.mapw - 1
def Layer.y1 (l : Layer) (ty : Nat) : Nat := Nat.min ((ty + 1) * l.ts) l.maph - 1

/-- First and last cell of elements lo to hi in one direction, of n cells (R120). -/
def cellSpan (l : Layer) (lo hi n : Nat) : Nat × Nat :=
  let s := 2 ^ l.slog
  (lo * s / 16 - l.rad, Nat.min (n - 1) (((hi + 1) * s - 1) / 16 + l.rad))

/-- The cells of a rectangle, row by row. -/
def rectCells (x y : Nat × Nat) : List (Nat × Nat) :=
  (List.range (y.2 + 1 - y.1)).flatMap fun j => (List.range (x.2 + 1 - x.1)).map fun i => (x.1 + i, y.1 + j)

/-- Uniform (R121): the shift in elements where every cell moves alike. -/
def Call.uniform (c : Call) (x y : Nat × Nat) : Option (Int × Int) :=
  let r := ((x.1 + x.2) / 2, (y.1 + y.2) / 2)
  let mx := cellMvx c.map r.1 r.2
  let my := cellMvy c.map r.1 r.2
  let tol := c.l.mvtol
  let far (a b : Int) : Bool := tol < (((a - b).natAbs : Nat) : Int)
  if (rectCells x y).any fun (i, j) => cellLost c.map c.cells i j || far (cellMvx c.map i j) mx || far (cellMvy c.map i j) my then none
  else
    let rnd (v : Int) : Int := (roundInt 0 (v < 0) v.natAbs (-(2 + (c.l.slog : Int)))).1
    let dx := rnd mx
    let dy := rnd my
    let s : Int := ((4 * 2 ^ c.l.slog : Nat) : Int)
    if far mx (s * dx) || far my (s * dy) then none else some (dx, dy)

/-- The error of a side-table byte (R121). -/
def sideErr (bscl : Int) (sb : Nat) : Nat :=
  if 0x7C ≤ sb then
    Nat.min 65535 (if 0 ≤ bscl then 65535 * 2 ^ bscl.toNat else ceilDiv 65535 (2 ^ (-bscl).toNat))
  else match decodeF 7 sb with
    | .fin _ m e =>
      let x := e + bscl
      Nat.min 65535 (if 0 ≤ x then m * 2 ^ x.toNat else ceilDiv m (2 ^ (-x).toNat))
    | _ => 65535

/-- BtcE over elements xs to xe and ys to ye (R121). -/
def Call.btcE (c : Call) (xs xe ys ye : Nat) : Nat :=
  let l := c.l
  let nch := dirNch c.dir
  let tiles := rectCells (xs / l.ts, xe / l.ts) (ys / l.ts, ye / l.ts)
  tiles.foldl (fun e (ux, uy) =>
    let bank := (c.rec_ (uy * l.tcols + ux)).bank
    if dirSide c.dir bank = 0 then e
    else
      let base := 16 * l.nt + (if bank && dirSide c.dir false != 0 then sideLen l c.dir else 0)
      let xa := Nat.max xs (l.x0 ux)
      let xb := Nat.min xe (l.x1 ux)
      let ya := Nat.max ys (l.x0 uy)
      let yb := Nat.min ye (l.y1 uy)
      (rectCells (xa * nch / 4, ((xb + 1) * nch - 1) / 4) (ya / 4, yb / 4)).foldl
        (fun e (bj, bi) => Nat.max e (sideErr l.bscl (bnat c.mem (base + bi * sideCols l c.dir + bj) 1))) e) 0

/-- A tile's decision: ACT, CAUSE, DX, DY, NEWD, NEWA. -/
structure Verdict where
  act   : Nat
  cause : Nat
  dx    : Int
  dy    : Int
  newd  : Nat
  newa  : Nat
  deriving DecidableEq, Repr

/-- COMPUTE with a cause. -/
def compute (cause : Nat) : Verdict := { act := 0, cause := cause, dx := 0, dy := 0, newd := 0, newa := 0 }

/-- The decision of tile ti (R120). -/
def Call.decide (c : Call) (ti : Nat) : Verdict :=
  let l := c.l
  let tx := ti % l.tcols
  let ty := ti / l.tcols
  let x0 := l.x0 tx
  let x1 := l.x1 tx
  let y0 := l.x0 ty
  let y1 := l.y1 ty
  let cx := cellSpan l x0 x1 (mapCw c.map)
  let cy := cellSpan l y0 y1 (mapCh c.map)
  let st := c.rec_ ti
  let frame := bnat c.map 0 4
  let eres := (rectCells cx cy).foldl (fun e (i, j) => Nat.max e (cellE c.map c.cells i j)) 0
  let drift (xs xe ys ye : Nat) : Nat := Nat.min (st.d + l.gain * (eres + c.btcE xs xe ys ye)) 0xFFFFFFFF
  let past (d : Nat) : Bool := l.thld != 0xFFFFFFFF && l.thld < d
  let newa := Nat.min (st.a + 1) 65535
  if bnat c.map 8 2 % 4 != 0 || !st.valid || st.lfrm != (frame + 2 ^ 32 - 1) % 2 ^ 32 || cx.2 < cx.1 || cy.2 < cy.1 then compute 1
  else if l.rfsh != 0 && l.rfsh ≤ st.a + 1 && frame % l.rfsh = ti % l.rfsh then compute 2
  else
    let keep : Verdict :=
      let d := drift x0 x1 y0 y1
      if past d then compute 0 else { act := 2, cause := 0, dx := 0, dy := 0, newd := d, newa := newa }
    match c.uniform cx cy with
    | none => keep
    | some (dx, dy) =>
      if dx = 0 && dy = 0 then keep
      else if l.ts < dx.natAbs || l.ts < dy.natAbs || (x0 : Int) + dx < 0 || (l.mapw : Int) ≤ x1 + dx || (y0 : Int) + dy < 0 ||
          (l.maph : Int) ≤ y1 + dy then compute 3
      else
        let d := drift (x0 + dx).toNat (x1 + dx).toNat (y0 + dy).toNat (y1 + dy).toNat
        if past d then compute 4 else { act := 1, cause := 0, dx := dx, dy := dy, newd := d, newa := newa }

/-! ## The manifest (R122, R123) -/

/-- The 16 bytes of the entry of tile ti. -/
def Call.entry (c : Call) (ti : Nat) (v : Verdict) : List Byte :=
  leBytes 8 (at_ 48 (wrapPat 16 v.dy) + at_ 32 (wrapPat 16 v.dx) + at_ 30 v.act + at_ 29 (bit (c.rec_ ti).bank) + at_ 26 v.cause +
    at_ 12 (ti / c.l.tcols) + ti % c.l.tcols) ++ leBytes 4 v.newd ++ leBytes 2 v.newa ++ leBytes 2 0

/-- The entries of the three runs: COMPUTE, SHIFT, KEEP. -/
def Call.runs (c : Call) : List (List (List Byte)) :=
  let vs := (List.range c.l.nt).map fun ti => (ti, c.decide ti)
  [0, 1, 2].map fun a => (vs.filter fun x => x.2.act = a).map fun x => c.entry x.1 x.2

/-- The manifest of a call for layer slot n. -/
def Call.manifest (c : Call) (n : Nat) : List Byte :=
  let rs := c.runs
  let cnt (k : Nat) : List Byte := leBytes 2 (lget rs k []).length
  c.map.take 4 ++ leBytes 1 n ++ leBytes 1 0 ++ cnt 0 ++ cnt 1 ++ cnt 2 ++ leBytes 4 0 ++ (rs.flatMap fun r => r.flatMap id)

/-- The words of a c8 entry. -/
def entryLanes (e : List Byte) : List Lane := (List.range 4).map fun i => BitVec.ofNat 32 (bnat e (4 * i) 4)

/-- A pad entry: ACT 3 and zeros (R320, R321). -/
def padEntry : List Byte := leBytes 8 (3 * 2 ^ 30) ++ leBytes 8 0

/-- The entries that FEED pushes (R320). -/
def Call.feed (c : Call) (f : Nat) : List (List Lane) :=
  let es := (lget c.runs 0 []).take f
  (es ++ List.replicate (f - es.length) padEntry).map entryLanes

/-! ## Linear byte descriptors -/

/-- Bytes of a linear byte descriptor. -/
def Desc.len (d : Desc) : Nat := d.rows.toNat * d.cols.toNat

/-- The bytes of a linear SP descriptor's active bank, as the core of the step sees them. -/
def State.linBytes (s : State) (d : Desc) (o n : Nat) : List Byte := s.spRead s.cur.core d.level.toNat (d.readBase + o) n

/-- Whether any of those bytes is poisoned. -/
def State.linPoison (s : State) (d : Desc) (o n : Nat) : Bool := s.spPoison s.cur.core d.level.toNat (d.readBase + o) n

/-! ## MFBUILD (R319) -/

/-- F of an MFBUILD, 0 without FEED. -/
def mfFeed (w : DX) : Nat := if w.arg.getLsbD 6 then w.arg.toNat / 128 % 64 + 1 else 0

/-- The cluster's builder of core k. -/
def State.builder (s : State) (cl : Nat) : Builder := lget s.builders cl { slots := [], calls := [], busy := none }

/-- The builder of a cluster changed. -/
def State.modBuilder (s : State) (cl : Nat) (f : Builder → Builder) : State :=
  { s with builders := lmod s.builders cl { slots := [], calls := [], busy := none } f }

/-- Landing cycle of a manifest whose service has not started: no cycle. -/
def noLanding : Nat := 2 ^ 80

/-- Indices of the poisoned cells of a change map that lies in d. -/
def State.badCells (s : State) (d : Desc) (n : Nat) : List Nat := (List.range n).filter fun i => s.linPoison d (32 + 8 * i) 8

/-- MFBUILD issues: the call is latched, the directory entry fetched, and F entries of c8 reserved (R319, R320). -/
def State.startBuild (s : State) (w : DX) (o b dd : Desc) (rs : List (Nat × Nat × Nat)) (va : Nat) (slot : List Word) : State :=
  let k := s.cur.core
  let m := s.linBytes b 0 (Nat.min b.len (32 + 8 * mapCw (s.linBytes b 0 32) * mapCh (s.linBytes b 0 32)))
  let cells := s.badCells b (mapCw m * mapCh m)
  let occ := 2 + budget w.cls.toNat (dd.target rs) 64
  let x := s.clk
  let s := (s.noteShadow w.dst.toNat).chkIf 3 (!cells.isEmpty || s.linPoison b 0 32)
  let (rid, s) := s.newOp k 3 (.read rs) [] w.cls.toNat (occ - 2)
  let id := s.nextId
  let s := s.addPend 3 noLanding (.manifest o.level.toNat o.writeBase (16 + 16 * (layerOf slot).nt)) (goesOn := true) (phased := o.phased)
  let bd : Build := { id := id, word := w, slot := slot, map := m, cells := cells, dirVa := va, read := rid, lane := s.cur.shadow,
                      checked := false, dir := [], runs := [], feed := mfFeed w,
                      phase := s.me.modes.phase.toNat }
  let s := s.modMe fun c => { c with builds := c.builds ++ [bd] }
  let s := (s.modEng .data fun e => { e with next := x + occ, started := true }).modMe fun c => c.perfAdd 3 1
  s.readPort x (chunksAt b.level.toNat [(b.readBase, m.length)]) []

/-- MFBUILD (R116, R117, R319, R320). -/
def execMfbuild (w : DX) (s : State) : Res :=
  let legal := dxLegal { dst := true, src := true, aux := true, cls := true, ph := 0, rel := false, rep := false, steps := [0],
                         arg := w.arg.toNat < 2 ^ 13 } w
  dataRun (.mfbuild w) w legal [w.dst, w.src, w.aux] (fun ds _ s =>
    let o := dAt ds 0
    let dd := dAt ds 1
    let b := dAt ds 2
    let n := w.arg.toNat % 64
    let slot := lget (s.builder (cluster s.cur.core)).slots n []
    let l := layerOf slot
    let va := s.gAddr dd 0 0
    s.unless [s.opFault w.dst.toNat o lvNear true true, s.opFault w.src.toNat dd (fun x => x = 3) false false,
        s.opFault w.aux.toNat b lvNear false true, if l.ok then none else some (mkFault 3 0x05 (0x800 + n))] fun s =>
      s.afterReads [(w.aux.toNat, b)] fun s =>
        s.unless [if mapBad (s.linBytes b 0 (Nat.min b.len 32)) b.len then some (permD 3 w.aux.toNat) else none,
            if o.len < 16 + 16 * l.nt then some (permD 3 w.dst.toNat) else none] fun s =>
          match dd.pinSpans [(va, 64)] with
          | .inl f => s.takeFault f
          | .inr rs =>
            let f := mfFeed w
            if f != 0 && 64 < s.me.c8Held s.cur.shadow s.clk + f then s.engMiss .data 0x108 (.feed f)
            else s.startBuild w o b dd rs va slot) s

/-- The unchecked MFBUILD of the queue or lane of the step. -/
def State.openBuild (s : State) : Option Build := s.me.builds.find? fun b => !b.checked && b.lane = s.cur.shadow

/-- An MFBUILD that comes to nothing: its manifest, its read and its reservation are gone. -/
def State.dropBuild (s : State) (b : Build) : State :=
  (s.dropOp b.read).modMe fun c =>
    { c with builds := c.builds.filter fun x => x.id != b.id, pend := c.pend.filter fun p => p.id != b.id }

/-- The physical runs of a layer's state array and side tables, each inside the pinned range of a bound LEVEL 3 descriptor (R319). -/
def State.layerRuns (s : State) (l : Layer) (e : List Byte) : Option (List (Nat × Nat × Nat)) :=
  let g (va n : Nat) : Option (List (Nat × Nat × Nat)) := s.pinned (fun d => d.level = 3) va n
  let side (bank : Bool) : Option (List (Nat × Nat × Nat)) :=
    if dirSide e bank = 0 then some [] else g (dirSide e bank) (sideLen l e)
  match g (dirStbase e) (16 * l.nt), side false, side true with
  | some a, some b, some c => some (a ++ b ++ c)
  | _, _, _ => none

/-- MFBUILD_DIRECTORY_CHECK (R319): at cycle e of the MFBUILD in the queue of the step; an entry that has not arrived is a miss, a wrong
one raises PERM, and otherwise the call goes to the cluster's builder. -/
def execMfbuildDirectoryCheck (s : State) : Res :=
  let k := s.cur.core
  match s.openBuild with
  | none => ok s
  | some b =>
    if s.clk < (s.eng .data).next then ok s
    else
      let dn := b.word.src.toNat
      match s.gops.find? fun o => o.id = b.read with
      | none => ok (s.dropBuild b)
      | some o =>
        if !o.done then
          if s.cur.shadow then ok (s.shadowWait 3)
          else if s.me.modes.trapMode then ok ((s.dropBuild b).engMiss .data dn (.pends []))
          else ok (s.engMiss .data dn (.op b.read))
        else
          let e := o.data.flatMap (·.bytes)
          let s := s.chkIf 3 (o.data.any (·.poison))
          match (if dirBad e || b.dirVa % 64 != 0 then none else s.layerRuns (layerOf b.slot) e) with
          | none => ok ((s.dropBuild b).takeFault (permD 3 dn))
          | some rs =>
            let s := s.dropOp b.read
            let s := s.modMe fun c => { c with builds := c.builds.map fun (x : Build) =>
              if x.id = b.id then { x with checked := true, dir := e, runs := rs } else x }
            let s := s.modEng .data fun q => q.issued 1 s.clk
            ok (s.modBuilder (cluster k) fun x => { x with calls := x.calls ++ [(s.actual k, k, b.id)] })

/-! ## The builder (R128, R320) -/

/-- The build that a call names, while it is still under way. -/
def State.buildOf (s : State) (c : Nat × Nat) : Option Build := (s.core c.1).builds.find? fun b => b.id = c.2

/-- Whether a builder serves a call. -/
def State.builderBusy (s : State) (cl : Nat) : Bool :=
  match (s.builder cl).busy with
  | some c => (s.buildOf c).isSome
  | none => false

/-- BM of a call (R320). -/
def buildCycles (b : Build) : Nat :=
  let nt := (layerOf b.slot).nt
  budget b.word.cls.toNat (runsTarget b.runs) (16 * nt) + 4 * nt + ceilDiv (mapCw b.map * mapCh b.map) 16

/-- The calls of a builder that are still under way, and the first of them in the order of the tide cycles at which they reached it (R128, R320). -/
def State.openCalls (s : State) (cl : Nat) : List (Nat × Nat × Nat) := (s.builder cl).calls.filter fun c => (s.buildOf c.2).isSome
def State.nextCall (s : State) (cl : Nat) : Option (Nat × Nat × Nat) :=
  (s.openCalls cl).foldl (fun m c => match m with | some x => if c.1 < x.1 then some c else m | none => some c) none

/-- Whether a builder takes up a call now: it is free, and on the normalised clock no call can come that reached it sooner. -/
def State.serviceDue (s : State) (cl : Nat) : Bool :=
  !s.builderBusy cl && match s.nextCall cl with | some c => c.1 ≤ s.tide | none => false

/-- The actual tide cycle at which the service of a call starts: that of its e, or that at which the call before it ended (R320). -/
def State.serviceFrom (s : State) (cl e : Nat) : Nat :=
  let b := s.builder cl
  Nat.max e (Nat.max b.freeAt (if b.busy.isSome then s.tide else 0))

/-- BUILDER_SERVICE (R128, R320): the builder of cluster `cur.arg` starts the call that reached it first: it reads the layer, and the manifest
lands BM cycles on. -/
def execBuilderService (s : State) : Res :=
  let cl := s.cur.arg
  if !s.serviceDue cl then ok s
  else
    match s.nextCall cl with
    | none => ok s
    | some (e, c) =>
      match s.buildOf c, (s.core c.1).pend.find? fun p => p.id = c.2 with
      | some b, some p =>
        let from_ := s.serviceFrom cl e
        let s := s.modBuilder cl fun x => { x with calls := (s.openCalls cl).erase (e, c), busy := some c }
        let (rid, s) := s.newOp c.1 3 (.read b.runs) [] b.word.cls.toNat (budget b.word.cls.toNat (runsTarget b.runs) (16 * (layerOf b.slot).nt))
        let land := s.pendClock c.1 p + from_ + buildCycles b - 1 - s.actual c.1
        let s := s.modCore c.1 fun x => { x with pend := x.pend.map fun (q : Pend) =>
          if q.id = p.id then { q with land := land, need := some rid } else q }
        let cs := match p.eff with | .manifest 0 a n => chunksOf [(a, n)] | _ => []
        ok (s.writePort c.1 b.lane p.id false cs)
      | _, _ => ok (s.modBuilder cl fun x => { x with calls := (s.openCalls cl).erase (e, c) })

/-- The call of a build, from what its home reads answered. -/
def Build.call (b : Build) (a : List Piece) : Call :=
  { l := layerOf b.slot, dir := b.dir, map := b.map, cells := b.cells, mem := a.flatMap (·.bytes),
    bad := (List.range (layerOf b.slot).nt).filter fun ti => markedRange a (16 * ti) 16 }

/-- MANIFEST_LANDS (R320): the manifest of effect `cur.arg` lands, unless a cancelled phase has discarded it (R47), with its FEED entries
in c8; poison read is consumed (R145). -/
def execManifestLands (s : State) : Res :=
  let k := s.cur.core
  match s.thePend with
  | none => ok s
  | some p =>
    match p.eff, s.buildOf (k, p.id) with
    | .manifest lvl addr _, some b =>
      if !s.needMet p then ok s
      else
        let a := s.answer p
        let c := b.call a
        let s := s.endPend p
        let s := if b.write then s.landNow k p lvl [{ addr := addr, bytes := c.manifest (b.word.arg.toNat % 64), poison := false }] else s
        let es : List ChEntry := (c.feed b.feed).map fun v =>
          { v := v, phase := b.phase, land := s.me.run.g, landed := true, src := 0, drain := none }
        let s := s.modMe fun x => { x with builds := x.builds.filter fun y => y.id != b.id }
        let s := s.modChan k 8 fun ch => { ch with q := ch.q ++ es }
        let s := s.modBuilder (cluster k) fun x => if x.busy = some (k, b.id) then { x with busy := none, freeAt := s.actual k } else x
        let s := if a.any (·.poison) then s.modCore k fun x => x.landReg .chkint else s
        ok (s.checkAwait k)
    | .manifest _ _ _, none => ok (s.endPend p)
    | _, _ => ok s

/-! ## MFREAD, CMFETCH, TSUPD (R318, R321, R322) -/

/-- NCOMP, NSHIFT and NKEEP of a manifest header. -/
def manifestCounts (h : List Byte) : List Nat := [bnat h 6 2, bnat h 8 2, bnat h 10 2]

/-- The index in the manifest of entry i of a run, if the run has it (R321). -/
def runIndex (cs : List Nat) (run i : Nat) : Option Nat :=
  if run = 3 then if i < cs.sum then some i else none
  else if i < lget cs run 0 then some ((cs.take run).sum + i) else none

/-- MFREAD (R321). -/
def execMfread (w : DX) (s : State) : Res :=
  let legal := dxLegal { dst := true, src := true, aux := false, cls := false, ph := 0, rel := false, rep := true, steps := [0],
                         arg := true } w
  dataRun (.mfread w) w legal [w.src] (fun ds k s =>
    let o := dAt ds 0
    let run := w.arg.toNat / 4096
    let i := w.dst.toNat * 4096 + w.arg.toNat % 4096 + k
    s.unless [s.opFault w.src.toNat o lvNear false true, if o.len < 16 then some (permD 3 w.src.toNat) else none] fun s =>
      s.afterReads [(w.src.toNat, o)] fun s =>
        let at_ := runIndex (manifestCounts (s.linBytes o 0 16)) run i
        let off := match at_ with | some j => 16 + 16 * j | none => 0
        s.unless [if o.len < off + 16 then some (permD 3 w.src.toNat) else none] fun s =>
          if s.pushMiss 8 then s.engMiss .data 0x108 (.room 8)
          else
            let e := if at_.isSome then s.linBytes o off 16 else padEntry
            let bad := s.linPoison o 0 16 || (at_.isSome && s.linPoison o off 16)
            let cs := chunksAt o.level.toNat ((o.readBase, 16) :: if at_.isSome then [(o.readBase + off, 16)] else [])
            ((s.push 3 8 ((if o.level = 0 then 6 else 12) + extraGroups cs) 0 (entryLanes e)).chkIf 3 bad).dataOut (w.rep.toNat + 1) 1 {} cs []
              [(s.cur.core, s.nextId)]) s

/-- CMFETCH (R318). -/
def execCmfetch (w : DX) (s : State) : Res :=
  let legal := dxLegal { dst := true, src := true, aux := false, cls := true, ph := 0, rel := false, rep := false, steps := [0],
                         arg := w.arg = 0 } w
  dataRun (.cmfetch w) w legal [w.dst, w.src] (fun ds _ s =>
    let b := dAt ds 0
    let m := dAt ds 1
    let cap := Nat.min b.len m.len
    s.unless [s.opFault w.dst.toNat b lvNear true true, s.opFault w.src.toNat m lvG false true] fun s =>
      match m.pinSpans [(s.gAddr m 0 0, cap)] with
      | .inl f => s.takeFault f
      | .inr rs =>
        let (id, s) := s.readOp rs w.cls.toNat (budget w.cls.toNat (m.target rs) m.len)
        (s.noteShadow w.dst.toNat).dataOut 1 (gOcc b m m.len) {} []
          [{ lat := budget w.cls.toNat (m.target rs) m.len, eff := .cmap b.level.toNat b.writeBase cap, need := id, phased := b.phased,
             chunks := chunksAt b.level.toNat [(b.writeBase, cap)] }]) s

/-- The state record of an entry (R126); of an entry whose ACT is 3, which no builder writes, the spec gives no record: free (log 40). -/
def recordOf (e : List Byte) (frame : List Byte) (free : Nat) : List Byte :=
  let h := bnat e 0 8
  let act := headAct h
  if act = 3 then leBytes 16 (Config.freeNat free)
  else
    let bank := if act = 2 then headBank h else !headBank h
    (e.drop 8).take 6 ++ leBytes 1 (1 + 2 * bit bank + 4 * bit (act = 1)) ++ leBytes 1 0 ++
    (if act = 1 then (e.drop 4).take 4 else leBytes 4 0) ++ frame

/-- The held stores of a manifest's entries (R322): the record of tile (TX, TY) lies at element (TY, 16 × TX) of the state array. -/
def State.tsupdStores (s : State) (dn : Nat) (d : Desc) (frame : List Byte) : List (List Byte) → FaultRec ⊕ List Held
  | [] => .inr []
  | e :: r =>
    let h := bnat e 0 8
    if d.rows.toNat ≤ headTy h || d.cols.toNat < 16 * headTx h + 16 then .inl (permD 3 dn)
    else
      match d.storePieces [{ addr := s.gAddr d (headTy h) (16 * headTx h), bytes := recordOf e frame s.free, poison := false }] with
      | .inl f => .inl f
      | .inr (ps, names) => match s.tsupdStores dn d frame r with
        | .inl f => .inl f
        | .inr hs => .inr ({ ps := ps, names := names, size := heldCost 16 } :: hs)

/-- TSUPD (R126, R322). -/
def execTsupd (w : DX) (s : State) : Res :=
  let legal := dxLegal { dst := true, src := true, aux := false, cls := true, ph := 1, rel := false, rep := false, steps := [0],
                         arg := w.arg != 0 } w
  dataRun (.tsupd w) w legal [w.dst, w.src] (fun ds _ s =>
    let d := dAt ds 0
    let o := dAt ds 1
    let nmax := w.arg.toNat
    s.unless [s.opFault w.dst.toNat d (fun l => l = 3) true true, s.opFault w.src.toNat o lvNear false true,
        if o.len < 16 then some (permD 3 w.src.toNat) else none] fun s =>
      s.afterReads [(w.src.toNat, o)] fun s =>
        let n := (manifestCounts (s.linBytes o 0 16)).sum
        let es := (List.range n).map fun j => s.linBytes o (16 + 16 * j) 16
        s.unless [if nmax < n || o.len < 16 + 16 * n then some (permD 3 w.src.toNat) else none,
            if Config.heldSize < (s.me.mem.held.map (·.size)).sum + n * heldCost 16 then some heldFull else none] fun s =>
          match s.tsupdStores w.dst.toNat d (s.linBytes o 0 4) es with
          | .inl f => s.takeFault f
          | .inr hs =>
            match s.holdAll (hs.map fun h => { h with cls := w.cls.toNat }) with
            | .inl f => s.takeFault f
            | .inr s' =>
              let s' := { s' with free := s'.free + 1 }
              (s'.chkIf 3 (s.linPoison o 0 (16 + 16 * n))).dataOut 1 (4 + nmax) {}
                (chunksAt o.level.toNat [(o.readBase, 16 + 16 * n)]) []) s

end Sys2Proof.Machine
end

