-- ==== Sys2Proof/Machine/Dispatch.lean ====
section
/-!
DEFINITION. The dispatcher: one arm for each row of spec/opcode_table.json, in the order of the constructors.
-/

namespace Sys2Proof.Machine

/-- The meaning of an instruction or event in a state. -/
def exec (i : Instr) (s : State) : Host.Outcome State Fault Refusal :=
  match i with
  | .add d a b => Sys2Proof.Machine.execAdd d a b s
  | .sub d a b => Sys2Proof.Machine.execSub d a b s
  | .and_ d a b => Sys2Proof.Machine.execAnd d a b s
  | .or_ d a b => Sys2Proof.Machine.execOr d a b s
  | .xor d a b => Sys2Proof.Machine.execXor d a b s
  | .andn d a b => Sys2Proof.Machine.execAndn d a b s
  | .orn d a b => Sys2Proof.Machine.execOrn d a b s
  | .sll d a b => Sys2Proof.Machine.execSll d a b s
  | .srl d a b => Sys2Proof.Machine.execSrl d a b s
  | .sra d a b => Sys2Proof.Machine.execSra d a b s
  | .slt d a b => Sys2Proof.Machine.execSlt d a b s
  | .sltu d a b => Sys2Proof.Machine.execSltu d a b s
  | .min_ d a b => Sys2Proof.Machine.execMin d a b s
  | .max_ d a b => Sys2Proof.Machine.execMax d a b s
  | .minu d a b => Sys2Proof.Machine.execMinu d a b s
  | .maxu d a b => Sys2Proof.Machine.execMaxu d a b s
  | .mul d a b => Sys2Proof.Machine.execMul d a b s
  | .mulh d a b => Sys2Proof.Machine.execMulh d a b s
  | .mulhu d a b => Sys2Proof.Machine.execMulhu d a b s
  | .mulhsu d a b => Sys2Proof.Machine.execMulhsu d a b s
  | .clz d a => Sys2Proof.Machine.execClz d a s
  | .ctz d a => Sys2Proof.Machine.execCtz d a s
  | .popc d a => Sys2Proof.Machine.execPopc d a s
  | .rol d a b => Sys2Proof.Machine.execRol d a b s
  | .ror d a b => Sys2Proof.Machine.execRor d a b s
  | .addi d a imm => Sys2Proof.Machine.execAddi d a imm s
  | .andi d a imm => Sys2Proof.Machine.execAndi d a imm s
  | .ori d a imm => Sys2Proof.Machine.execOri d a imm s
  | .xori d a imm => Sys2Proof.Machine.execXori d a imm s
  | .slti d a imm => Sys2Proof.Machine.execSlti d a imm s
  | .sltiu d a imm => Sys2Proof.Machine.execSltiu d a imm s
  | .slli d a sh => Sys2Proof.Machine.execSlli d a sh s
  | .srli d a sh => Sys2Proof.Machine.execSrli d a sh s
  | .srai d a sh => Sys2Proof.Machine.execSrai d a sh s
  | .lui d imm => Sys2Proof.Machine.execLui d imm s
  | .shori d a imm => Sys2Proof.Machine.execShori d a imm s
  | .muli d a imm => Sys2Proof.Machine.execMuli d a imm s
  | .ldSp1 wid d a off => Sys2Proof.Machine.execLdSp1 wid d a off s
  | .ldSp2 wid d a off => Sys2Proof.Machine.execLdSp2 wid d a off s
  | .ldSp3 wid d a off => Sys2Proof.Machine.execLdSp3 wid d a off s
  | .ldG wid d a off => Sys2Proof.Machine.execLdG wid d a off s
  | .ldAp wid d a off => Sys2Proof.Machine.execLdAp wid d a off s
  | .stSp1 wid d a off => Sys2Proof.Machine.execStSp1 wid d a off s
  | .stSp2 wid d a off => Sys2Proof.Machine.execStSp2 wid d a off s
  | .stSp3 wid d a off => Sys2Proof.Machine.execStSp3 wid d a off s
  | .stG wid d a off => Sys2Proof.Machine.execStG wid d a off s
  | .stAp wid d a off => Sys2Proof.Machine.execStAp wid d a off s
  | .beq a b off => Sys2Proof.Machine.execBeq a b off s
  | .bne a b off => Sys2Proof.Machine.execBne a b off s
  | .blt a b off => Sys2Proof.Machine.execBlt a b off s
  | .bge a b off => Sys2Proof.Machine.execBge a b off s
  | .bltu a b off => Sys2Proof.Machine.execBltu a b off s
  | .bgeu a b off => Sys2Proof.Machine.execBgeu a b off s
  | .bmz off => Sys2Proof.Machine.execBmz off s
  | .bmnz off => Sys2Proof.Machine.execBmnz off s
  | .j off => Sys2Proof.Machine.execJ off s
  | .jal off => Sys2Proof.Machine.execJal off s
  | .jr d a => Sys2Proof.Machine.execJr d a s
  | .trap code => Sys2Proof.Machine.execTrap code s
  | .dset n field a => Sys2Proof.Machine.execDset n field a s
  | .dbind n => Sys2Proof.Machine.execDbind n s
  | .dunbind n => Sys2Proof.Machine.execDunbind n s
  | .yield d a => Sys2Proof.Machine.execYield d a s
  | .chkerr => Sys2Proof.Machine.execChkerr s
  | .swait d a b => Sys2Proof.Machine.execSwait d a b s
  | .sacq a b => Sys2Proof.Machine.execSacq a b s
  | .srel a => Sys2Proof.Machine.execSrel a s
  | .waitg a => Sys2Proof.Machine.execWaitg a s
  | .tret => Sys2Proof.Machine.execTret s
  | .tretSkip => Sys2Proof.Machine.execTretSkip s
  | .tretRb => Sys2Proof.Machine.execTretRb s
  | .tesc => Sys2Proof.Machine.execTesc s
  | .tsupply a => Sys2Proof.Machine.execTsupply a s
  | .notify => Sys2Proof.Machine.execNotify s
  | .halt => Sys2Proof.Machine.execHalt s
  | .gbar d g => Sys2Proof.Machine.execGbar d g s
  | .phase d mask => Sys2Proof.Machine.execPhase d mask s
  | .pabort d => Sys2Proof.Machine.execPabort d s
  | .pabortR d => Sys2Proof.Machine.execPabortR d s
  | .qfence m => Sys2Proof.Machine.execQfence m s
  | .play eng a b len => Sys2Proof.Machine.execPlay eng a b len s
  | .mfs d n => Sys2Proof.Machine.execMfs d n s
  | .mts n a => Sys2Proof.Machine.execMts n a s
  | .sfifo a => Sys2Proof.Machine.execSfifo a s
  | .lslot k a => Sys2Proof.Machine.execLslot k a s
  | .chmap n a => Sys2Proof.Machine.execChmap n a s
  | .errinj a => Sys2Proof.Machine.execErrinj a s
  | .promo a => Sys2Proof.Machine.execPromo a s
  | .cktol k a => Sys2Proof.Machine.execCktol k a s
  | .nprof a => Sys2Proof.Machine.execNprof a s
  | .mainpc k a => Sys2Proof.Machine.execMainpc k a s
  | .aper n k v => Sys2Proof.Machine.execAper n k v s
  | .registerWrite who off v => Sys2Proof.Machine.execRegisterWrite who off v s
  | .trapEntry => Sys2Proof.Machine.execTrapEntry s
  | .handlerDeadline => Sys2Proof.Machine.execHandlerDeadline s
  | .holdWave => Sys2Proof.Machine.execHoldWave s
  | .release => Sys2Proof.Machine.execRelease s
  | .releaseWave => Sys2Proof.Machine.execReleaseWave s
  | .gangStart => Sys2Proof.Machine.execGangStart s
  | .passageStart => Sys2Proof.Machine.execPassageStart s
  | .playQueueRoom => Sys2Proof.Machine.execPlayQueueRoom s
  | .waitgExpiry => Sys2Proof.Machine.execWaitgExpiry s
  | .waitExpiry => Sys2Proof.Machine.execWaitExpiry s
  | .spWriteLands => Sys2Proof.Machine.execSpWriteLands s
  | .globalReadArrival => Sys2Proof.Machine.execGlobalReadArrival s
  | .seqLoadBudgetExpiry => Sys2Proof.Machine.execSeqLoadBudgetExpiry s
  | .channelEntryLands => Sys2Proof.Machine.execChannelEntryLands s
  | .creditReturn => Sys2Proof.Machine.execCreditReturn s
  | .dmcastArrival => Sys2Proof.Machine.execDmcastArrival s
  | .barrierRelease => Sys2Proof.Machine.execBarrierRelease s
  | .phasePointRelease => Sys2Proof.Machine.execPhasePointRelease s
  | .yieldRelease => Sys2Proof.Machine.execYieldRelease s
  | .yieldreq => Sys2Proof.Machine.execYieldreq s
  | .pdlExpiry => Sys2Proof.Machine.execPdlExpiry s
  | .forcedSave => Sys2Proof.Machine.execForcedSave s
  | .combinerFires => Sys2Proof.Machine.execCombinerFires s
  | .runLimitExpiry => Sys2Proof.Machine.execRunLimitExpiry s
  | .uncorrectableError e => Sys2Proof.Machine.execUncorrectableError e s
  | .correctableError e => Sys2Proof.Machine.execCorrectableError e s
  | .fetchAheadError core addr => Sys2Proof.Machine.execFetchAheadError core addr s
  | .pageUnpin => Sys2Proof.Machine.execPageUnpin s
  | .dbindComplete => Sys2Proof.Machine.execDbindComplete s
  | .sacqComplete => Sys2Proof.Machine.execSacqComplete s
  | .homeUpdate => Sys2Proof.Machine.execHomeUpdate s
  | .hostAmoRelease hart addr v => Sys2Proof.Machine.execHostAmoRelease hart addr v s
  | .hostLrAcquire hart addr => Sys2Proof.Machine.execHostLrAcquire hart addr s
  | .vadd w => Sys2Proof.Machine.execVadd w s
  | .vsub w => Sys2Proof.Machine.execVsub w s
  | .vmul w => Sys2Proof.Machine.execVmul w s
  | .vmulh w => Sys2Proof.Machine.execVmulh w s
  | .vmac w => Sys2Proof.Machine.execVmac w s
  | .vadds w => Sys2Proof.Machine.execVadds w s
  | .vsubs w => Sys2Proof.Machine.execVsubs w s
  | .vabs w => Sys2Proof.Machine.execVabs w s
  | .vneg w => Sys2Proof.Machine.execVneg w s
  | .vmin w => Sys2Proof.Machine.execVmin w s
  | .vmax w => Sys2Proof.Machine.execVmax w s
  | .vabsd w => Sys2Proof.Machine.execVabsd w s
  | .vaddi w => Sys2Proof.Machine.execVaddi w s
  | .vli w => Sys2Proof.Machine.execVli w s
  | .vlih w => Sys2Proof.Machine.execVlih w s
  | .vand w => Sys2Proof.Machine.execVand w s
  | .vor w => Sys2Proof.Machine.execVor w s
  | .vxor w => Sys2Proof.Machine.execVxor w s
  | .vnot w => Sys2Proof.Machine.execVnot w s
  | .vandi w => Sys2Proof.Machine.execVandi w s
  | .vshl w => Sys2Proof.Machine.execVshl w s
  | .vshr w => Sys2Proof.Machine.execVshr w s
  | .vsra w => Sys2Proof.Machine.execVsra w s
  | .vshli w => Sys2Proof.Machine.execVshli w s
  | .vshri w => Sys2Proof.Machine.execVshri w s
  | .vsrai w => Sys2Proof.Machine.execVsrai w s
  | .vrot w => Sys2Proof.Machine.execVrot w s
  | .vfsh w => Sys2Proof.Machine.execVfsh w s
  | .vbfx w => Sys2Proof.Machine.execVbfx w s
  | .vbfi w => Sys2Proof.Machine.execVbfi w s
  | .vpopc w => Sys2Proof.Machine.execVpopc w s
  | .vclz w => Sys2Proof.Machine.execVclz w s
  | .vcmp w => Sys2Proof.Machine.execVcmp w s
  | .vcmpi w => Sys2Proof.Machine.execVcmpi w s
  | .mpush w => Sys2Proof.Machine.execMpush w s
  | .minv w => Sys2Proof.Machine.execMinv w s
  | .mpop w => Sys2Proof.Machine.execMpop w s
  | .mclr w => Sys2Proof.Machine.execMclr w s
  | .vsel w => Sys2Proof.Machine.execVsel w s
  | .vfadd w => Sys2Proof.Machine.execVfadd w s
  | .vfsub w => Sys2Proof.Machine.execVfsub w s
  | .vfmul w => Sys2Proof.Machine.execVfmul w s
  | .vfma w => Sys2Proof.Machine.execVfma w s
  | .vfms w => Sys2Proof.Machine.execVfms w s
  | .vfsqrt w => Sys2Proof.Machine.execVfsqrt w s
  | .vfmin w => Sys2Proof.Machine.execVfmin w s
  | .vfmax w => Sys2Proof.Machine.execVfmax w s
  | .vfminp w => Sys2Proof.Machine.execVfminp w s
  | .vfmaxp w => Sys2Proof.Machine.execVfmaxp w s
  | .vfabs w => Sys2Proof.Machine.execVfabs w s
  | .vfneg w => Sys2Proof.Machine.execVfneg w s
  | .vfcmp w => Sys2Proof.Machine.execVfcmp w s
  | .vrcp w => Sys2Proof.Machine.execVrcp w s
  | .vrsq w => Sys2Proof.Machine.execVrsq w s
  | .vexp2 w => Sys2Proof.Machine.execVexp2 w s
  | .vlog2 w => Sys2Proof.Machine.execVlog2 w s
  | .vcvt w => Sys2Proof.Machine.execVcvt w s
  | .vradd w => Sys2Proof.Machine.execVradd w s
  | .vrmin w => Sys2Proof.Machine.execVrmin w s
  | .vrmax w => Sys2Proof.Machine.execVrmax w s
  | .vrfadd w => Sys2Proof.Machine.execVrfadd w s
  | .vrfmin w => Sys2Proof.Machine.execVrfmin w s
  | .vrfmax w => Sys2Proof.Machine.execVrfmax w s
  | .vrand w => Sys2Proof.Machine.execVrand w s
  | .vror w => Sys2Proof.Machine.execVror w s
  | .vrxor w => Sys2Proof.Machine.execVrxor w s
  | .vperm w => Sys2Proof.Machine.execVperm w s
  | .vbcst w => Sys2Proof.Machine.execVbcst w s
  | .vslup w => Sys2Proof.Machine.execVslup w s
  | .vsldn w => Sys2Proof.Machine.execVsldn w s
  | .vrev w => Sys2Proof.Machine.execVrev w s
  | .vzip w => Sys2Proof.Machine.execVzip w s
  | .vuzp w => Sys2Proof.Machine.execVuzp w s
  | .vmov w => Sys2Proof.Machine.execVmov w s
  | .vbcs w => Sys2Proof.Machine.execVbcs w s
  | .vins w => Sys2Proof.Machine.execVins w s
  | .vld w => Sys2Proof.Machine.execVld w s
  | .vst w => Sys2Proof.Machine.execVst w s
  | .vldx w => Sys2Proof.Machine.execVldx w s
  | .vlut w => Sys2Proof.Machine.execVlut w s
  | .vdotp w => Sys2Proof.Machine.execVdotp w s
  | .engineNotify u w => Sys2Proof.Machine.execEngineNotify u w s
  | .engineQfence u w => Sys2Proof.Machine.execEngineQfence u w s
  | .wait u w => Sys2Proof.Machine.execWait u w s
  | .nop u w => Sys2Proof.Machine.execNop u w s
  | .mmul w => Sys2Proof.Machine.execMmul w s
  | .mmuls w => Sys2Proof.Machine.execMmuls w s
  | .mlatx w => Sys2Proof.Machine.execMlatx w s
  | .mlata w => Sys2Proof.Machine.execMlata w s
  | .mzero w => Sys2Proof.Machine.execMzero w s
  | .mload w => Sys2Proof.Machine.execMload w s
  | .mdrain w => Sys2Proof.Machine.execMdrain w s
  | .mdrainEntryLands => Sys2Proof.Machine.execMdrainEntryLands s
  | .checksumVerdict => Sys2Proof.Machine.execChecksumVerdict s
  | .mckset w => Sys2Proof.Machine.execMckset w s
  | .locfix w => Sys2Proof.Machine.execLocfix w s
  | .mretry w => Sys2Proof.Machine.execMretry w s
  | .wxload w => Sys2Proof.Machine.execWxload w s
  | .errinjApply => Sys2Proof.Machine.execErrinjApply s
  | .tmov w => Sys2Proof.Machine.execTmov w s
  | .dload w => Sys2Proof.Machine.execDload w s
  | .dstore w => Sys2Proof.Machine.execDstore w s
  | .dphst w => Sys2Proof.Machine.execDphst w s
  | .dgather w => Sys2Proof.Machine.execDgather w s
  | .dscatter w => Sys2Proof.Machine.execDscatter w s
  | .dmcast w => Sys2Proof.Machine.execDmcast w s
  | .dcomp w => Sys2Proof.Machine.execDcomp w s
  | .dexp w => Sys2Proof.Machine.execDexp w s
  | .dtrans w => Sys2Proof.Machine.execDtrans w s
  | .dfill w => Sys2Proof.Machine.execDfill w s
  | .datom w => Sys2Proof.Machine.execDatom w s
  | .atomicReturn => Sys2Proof.Machine.execAtomicReturn s
  | .dataSrel w => Sys2Proof.Machine.execDataSrel w s
  | .dataSacq w => Sys2Proof.Machine.execDataSacq w s
  | .afence w => Sys2Proof.Machine.execAfence w s
  | .mfbuild w => Sys2Proof.Machine.execMfbuild w s
  | .mfbuildDirectoryCheck => Sys2Proof.Machine.execMfbuildDirectoryCheck s
  | .builderService => Sys2Proof.Machine.execBuilderService s
  | .manifestLands => Sys2Proof.Machine.execManifestLands s
  | .mfread w => Sys2Proof.Machine.execMfread w s
  | .cmfetch w => Sys2Proof.Machine.execCmfetch w s
  | .tsupd w => Sys2Proof.Machine.execTsupd w s
  | .qfetch rd rs1 rs2 => Sys2Proof.Machine.execQfetch rd rs1 rs2 s
  | .qbfx rd rs1 rs2 => Sys2Proof.Machine.execQbfx rd rs1 rs2 s
  | .qbfxS rd rs1 rs2 => Sys2Proof.Machine.execQbfxS rd rs1 rs2 s
  | .qwait rd rs1 rs2 => Sys2Proof.Machine.execQwait rd rs1 rs2 s
  | .qwaitComplete => Sys2Proof.Machine.execQwaitComplete s
  | .qdisp rd rs1 rs2 => Sys2Proof.Machine.execQdisp rd rs1 rs2 s
  | .rankEnd qa => Sys2Proof.Machine.execRankEnd qa s
  | .rankLdi qd imm => Sys2Proof.Machine.execRankLdi qd imm s
  | .rankLdf qd src wd pos len => Sys2Proof.Machine.execRankLdf qd src wd pos len s
  | .rankAdd qd qa qb => Sys2Proof.Machine.execRankAdd qd qa qb s
  | .rankSub qd qa qb => Sys2Proof.Machine.execRankSub qd qa qb s
  | .rankMulsh qd qa qb sh => Sys2Proof.Machine.execRankMulsh qd qa qb sh s
  | .rankShl qd qa sh => Sys2Proof.Machine.execRankShl qd qa sh s
  | .rankShr qd qa sh => Sys2Proof.Machine.execRankShr qd qa sh s
  | .rankMin qd qa qb => Sys2Proof.Machine.execRankMin qd qa qb s
  | .rankSmax qd qa qb => Sys2Proof.Machine.execRankSmax qd qa qb s
  | .rankAnd qd qa qb => Sys2Proof.Machine.execRankAnd qd qa qb s
  | .rankOr qd qa qb => Sys2Proof.Machine.execRankOr qd qa qb s
  | .rankStq qa => Sys2Proof.Machine.execRankStq qa s
  | .rankSltu qd qa qb => Sys2Proof.Machine.execRankSltu qd qa qb s
  | .rank => Sys2Proof.Machine.execRank s
  | .rankctlLoad => Sys2Proof.Machine.execRankctlLoad s
  | .tail who q v => Sys2Proof.Machine.execTail who q v s
  | .queueOff => Sys2Proof.Machine.execQueueOff s
  | .queueRun => Sys2Proof.Machine.execQueueRun s
  | .queueRunSkip => Sys2Proof.Machine.execQueueRunSkip s
  | .queueDrain => Sys2Proof.Machine.execQueueDrain s
  | .frame => Sys2Proof.Machine.execFrame s
  | .nopPacket => Sys2Proof.Machine.execNopPacket s
  | .indirect => Sys2Proof.Machine.execIndirect s
  | .waitv => Sys2Proof.Machine.execWaitv s
  | .waitvSatisfied => Sys2Proof.Machine.execWaitvSatisfied s
  | .mark => Sys2Proof.Machine.execMark s
  | .groupTableWrite who g v => Sys2Proof.Machine.execGroupTableWrite who g v s
  | .armed => Sys2Proof.Machine.execArmed s
  | .abort => Sys2Proof.Machine.execAbort s
  | .hold => Sys2Proof.Machine.execHold s
  | .bindRelease => Sys2Proof.Machine.execBindRelease s
  | .bindYieldreq => Sys2Proof.Machine.execBindYieldreq s
  | .coaltExpiry => Sys2Proof.Machine.execCoaltExpiry s
  | .frespResume => Sys2Proof.Machine.execFrespResume s
  | .frespRollback => Sys2Proof.Machine.execFrespRollback s
  | .frespForcedSave => Sys2Proof.Machine.execFrespForcedSave s
  | .frespAbort => Sys2Proof.Machine.execFrespAbort s
  | .doorbell => Sys2Proof.Machine.execDoorbell s
  | .done => Sys2Proof.Machine.execDone s
  | .groupSet => Sys2Proof.Machine.execGroupSet s
  | .aperSet => Sys2Proof.Machine.execAperSet s
  | .layerSet => Sys2Proof.Machine.execLayerSet s
  | .berthCtl => Sys2Proof.Machine.execBerthCtl s
  | .grantSet => Sys2Proof.Machine.execGrantSet s
  | .peerwinSet => Sys2Proof.Machine.execPeerwinSet s
  | .powerCap => Sys2Proof.Machine.execPowerCap s
  | .selfTest => Sys2Proof.Machine.execSelfTest s
  | .rasRead => Sys2Proof.Machine.execRasRead s
  | .hostAccess hart store addr len data => Sys2Proof.Machine.execHostAccess hart store addr len data s
  | .inboundWrite rid bar off data relaxed => Sys2Proof.Machine.execInboundWrite rid bar off data relaxed s
  | .inboundRead rid bar off len => Sys2Proof.Machine.execInboundRead rid bar off len s
  | .inboundAtomicop rid bar off op size operand compare => Sys2Proof.Machine.execInboundAtomicop rid bar off op size operand compare s
  | .ethernetReceive port ring bytes => Sys2Proof.Machine.execEthernetReceive port ring bytes s
  | .ethernetTransmit port ring => Sys2Proof.Machine.execEthernetTransmit port ring s
  | .xtscap => Sys2Proof.Machine.execXtscap s
  | .decoderTail e v => Sys2Proof.Machine.execDecoderTail e v s
  | .decoderRun e run => Sys2Proof.Machine.execDecoderRun e run s
  | .decode => Sys2Proof.Machine.execDecode s
  | .flush => Sys2Proof.Machine.execFlush s
  | .decoderReset => Sys2Proof.Machine.execDecoderReset s
  | .decodeResume => Sys2Proof.Machine.execDecodeResume s
  | .powerOn => Sys2Proof.Machine.execPowerOn s
  | .healthy => Sys2Proof.Machine.execHealthy s
  | .pldmUpdate capsule bytes => Sys2Proof.Machine.execPldmUpdate capsule bytes s
  | .activation => Sys2Proof.Machine.execActivation s
  | .getCerts off len => Sys2Proof.Machine.execGetCerts off len s
  | .challenge nonce => Sys2Proof.Machine.execChallenge nonce s
  | .testButtonShort => Sys2Proof.Machine.execTestButtonShort s
  | .testButtonLong => Sys2Proof.Machine.execTestButtonLong s
  | .selfTestVerdict failed other => Sys2Proof.Machine.execSelfTestVerdict failed other s
  | .sensorRefresh die hbm inlet power => Sys2Proof.Machine.execSensorRefresh die hbm inlet power s
  | .thermalCritical => Sys2Proof.Machine.execThermalCritical s
  | .thermalShutdown => Sys2Proof.Machine.execThermalShutdown s
  | .powerCapControl => Sys2Proof.Machine.execPowerCapControl s
  | .reset => Sys2Proof.Machine.execReset s
  | .powerLoss => Sys2Proof.Machine.execPowerLoss s
  | .autoNegotiation port up => Sys2Proof.Machine.execAutoNegotiation port up s
  | .globalWritePerformed => Sys2Proof.Machine.execGlobalWritePerformed s
  | .tableWalkFinished => Sys2Proof.Machine.execTableWalkFinished s
  | .pilotInterrupt pc cause => Sys2Proof.Machine.execPilotInterrupt pc cause s
  | .reservedSequencerEncoding w => Sys2Proof.Machine.execReservedSequencerEncoding w s
  | .unassignedEngineOpcode u w => Sys2Proof.Machine.execUnassignedEngineOpcode u w s

end Sys2Proof.Machine
end

