-- ==== Sys2Proof/Machine/Tick.lean ====
section
/-!
DEFINITION. The passing of one tide cycle (R24, R26): register-like landings at its end (R37), the mask history (R49), gang time, the
counters of held cycles (R236), the promise of R437, SP2 and SP3 writes that every party now sees (R73), and the waits that those now performed wake (R82).
-/

namespace Sys2Proof.Machine

/-- The register-like effects of core k that land at the end of this cycle: MTS first, so that a flag set on the same cycle stays set
(R243). -/
def State.quietDue (s : State) (k : Nat) : List Pend :=
  let ps := (s.core k).pend.filter fun p => p.eff.quiet && s.pendDue k p
  let isSys (p : Pend) : Bool := match p.eff with | .sys _ _ => true | _ => false
  ps.filter isSys ++ ps.filter fun p => !isSys p

/-- Those effects landed, slot writes among them (R116). DESIGN CHOICE: of two cores' writes to one word on one cycle, the higher core's stands
(log 70). -/
def State.landAllQuiet (s : State) (k : Nat) : State :=
  (s.quietDue k).foldl (fun s p => s.landQuiet p) { s with cur := { s.cur with core := k } }

/-- A core after one tide cycle; `stall` tells whether it is held for a schedule miss. -/
def Core.pass (c : Core) (stall : Bool) : Core :=
  if c.run.berth.isNone || !c.run.started then c
  else if c.run.stop.isSome then
    let c := c.perfAdd 4 1
    let c := if stall then c.perfAdd 5 1 else c
    { c with run := { c.run with held := c.run.held + 1, heldAll := c.run.heldAll + 1 } }
  else { c with landed := [], run := { c.run with g := c.run.g + 1 }, vec := { c.vec with hist := c.vec.maskEmpty :: c.vec.hist.take 2 } }

/-- Whether core k is held for a schedule miss: by its gang's hold, or by one whose release wave has yet to reach it (R32, R236). -/
def State.stalled (s : State) (k : Nat) : Bool :=
  (match s.gangOf k with | some g => (match g.hold with | some h => h.stall | none => false) | none => false) ||
  match (s.core k).run.stop with | some st => st.stall | none => false

/-- The core k of the state after one tide cycle. -/
def State.passCore (s : State) (k : Nat) : Core := (s.core k).pass (s.stalled k)

/-- The PTP clock after one increment: INCR in units of 2^-32 ns (R412; log 13). -/
def Ptp.advance (p : Ptp) : Ptp :=
  let t := p.ns.toNat * 2 ^ 32 + p.frac.toNat + p.incr.toNat
  let ns := t / 2 ^ 32
  { p with sec := p.sec + BitVec.ofNat 48 (ns / 1000000000), ns := BitVec.ofNat 30 (ns % 1000000000), frac := BitVec.ofNat 32 t }

/-- One tide cycle passes. -/
def State.tick (s : State) : State :=
  let s := if s.voidNow then s.voidPromise else s
  let s := (List.range 24).foldl State.landAllQuiet s
  let s := { s with tide := s.tide + 1, cores := s.cores.mapIdx fun k (c : Core) => if c.run.berth.isSome then s.passCore k else c
                    io := { s.io with ptp := s.io.ptp.advance } }
  s.wakeSp3.mergeSpq

end Sys2Proof.Machine
end

