-- ==== Sys2Proof/Machine/PickCore.lean ====
section
/-!
DEFINITION. What happens next inside the gangs (log 2): the events of gangs and holds, the operations that homes perform, the units' issues
in their cycle (R18, R34 to R36, R134), the Pilot firmware's handler (R139, R154), and landings.
-/

namespace Sys2Proof.Machine

/-- A state made ready and the instruction or event that happens in it. -/
abbrev Turn := State × Instr

/-- The state with the agent of a step. -/
def State.at_ (s : State) (k : Nat) (shadow : Bool) (u : Eng) (arg : Nat) : State :=
  { s with cur := { s.cur with core := k, shadow := shadow, unit := u, arg := arg } }

/-- An event of core k about object `arg`. -/
def State.ev (s : State) (k arg : Nat) (i : Instr) : Option Turn := some (s.at_ k false .vec arg, i)

/-- The first turn that a list of choices offers. -/
def firstTurn : List (Option Turn) → Option Turn
  | [] => none
  | some t :: _ => some t
  | none :: r => firstTurn r

/-- A turn under a condition. -/
def turnIf (b : Bool) (t : Option Turn) : Option Turn := if b then t else none

/-! ## Data words that read while their sources are written (R298) -/

/-- What a repeat reads of a place whose bytes were `v` and are now `n`, when it has read `r`: the old value or the new one, each element of the
place for itself, as a free number says. -/
def readChoice (f : Nat) (pair : Bool) (v n r : Piece) : Piece :=
  let nib (lo hi : Piece) : Piece :=
    { n with bytes := [(lget lo.bytes 0 0 &&& 15) ||| (lget hi.bytes 0 0 &&& 240)], poison := lo.poison || hi.poison }
  if n = v then r
  else match pair, Config.freeNat f % 4 with
    | true, 1 => nib n r
    | true, 2 => nib r n
    | _, 0 => r
    | _, 3 => n
    | _, 1 => r
    | _, _ => n

/-- Marks of a level with those of pieces in place of those that their granules had. -/
def markAs (poi : List Nat) (ps : List Piece) : List Nat :=
  (ps.filter (·.poison)).foldl poiWrite (poi.filter fun g => !(ps.any fun p => (granules p.addr p.bytes.length).contains g))

/-- The part as a data repeat of core k found it, as far as the word asks, with the bytes that it reads at its sources. -/
def State.asIssued (s : State) (k : Nat) (lane : Bool) (r : DataRead) (reads : List Piece) : State :=
  let at_ (l : Nat) : List Piece := (r.fixed.filter fun x => x.1 = l).map (·.2) ++ ((r.places.zip reads).filter fun x => x.1.1 = l).map (·.2)
  let cl := cluster k
  let core (i : Nat) (c : Core) : Core :=
    if i = k then
      { c with pend := c.pend.filter fun p => p.id < r.ids.1
               descs := r.descs, chans := lput c.chans 8 r.c8 Chan.empty, params := r.params
               engs := if lane then c.engs else lput c.engs 2 r.eng Engine.zero
               lanes := if lane then lput c.lanes 2 r.eng Engine.zero else c.lanes
               run := if lane then c.run else { c.run with g := r.since }
               mem := { c.mem with held := c.mem.held.take r.held.1, sp1 := (at_ 0).foldl mwriteP c.mem.sp1, sp1Poi := markAs c.mem.sp1Poi (at_ 0) } }
    else { c with pend := [] }
  { s with
    tide := if lane then r.since else s.tide
    cores := s.cores.mapIdx core
    gops := s.gops.filter fun o => o.id < r.ids.1
    mem := { s.mem with sp2 := lmod s.mem.sp2 cl [] fun m => (at_ 1).foldl mwriteP m, sp2Poi := lmod s.mem.sp2Poi cl [] fun l => markAs l (at_ 1)
                        sp3 := (at_ 2).foldl mwriteP s.mem.sp3, sp3Poi := markAs s.mem.sp3Poi (at_ 2)
                        spq := s.mem.spq.filter fun w => !piecesMeet w.ps (at_ w.lvl) }
    cur := { s.cur with core := k, shadow := lane, unit := .data, arg := 0 }
    nextId := r.ids.1, free := r.free0 }

/-- What a repeat has sent on its way, as the state `t` in which it issued again has it. -/
def State.takeAnew (s t : State) (k : Nat) (r : DataRead) : State :=
  let mine (id : Nat) : Bool := r.ids.1 ≤ id && id < r.ids.2
  let pend (d : Core) (p : Pend) : Pend := if mine p.id then match d.pend.find? fun q => q.id = p.id with | some q => { p with eff := q.eff } | none => p else p
  let op (o : GOp) : GOp :=
    if mine o.id && !o.done then match t.gops.find? fun q => q.id = o.id with | some q => { o with kind := q.kind, names := q.names } | none => o else o
  let new := (t.core k).mem.held
  ({ s with cores := s.cores.mapIdx fun i c => { c with pend := c.pend.map (pend (t.core i)) }, gops := s.gops.map op } : State).modCore k fun c =>
    if new.length = r.held.2 && r.held.2 ≤ c.mem.held.length then
      { c with mem := { c.mem with held := new ++ c.mem.held.drop r.held.2 } }
    else c

/-- A data repeat of core k in its occupancy, some of whose source bytes have changed since they were last seen, reads each element of theirs with
the old or the new value, and what it sends is formed from the values read (R298). A choice under which the word would send other effects than it
has sent is not taken: it then reads the old values. -/
def State.dataAnew (s : State) (k : Nat) (lane : Bool) : Option State :=
  match (s.core k).dreadOf lane with
  | none => none
  | some r =>
    let now := s.bytesSeen k r.places
    if r.end_ ≤ (if lane then s.tide else (s.core k).run.g) || now = r.seen then none
    else
      let reads := (r.places.zip (r.seen.zip (now.zip r.reads))).zipIdx.map fun (x, i) => readChoice (s.free + i) x.1.2.2.2 x.2.1 x.2.2.1 x.2.2.2
      let done (u : State) (rd : List Piece) : State :=
        { u.modCore k fun c => c.setDread lane (some { r with seen := now, reads := rd }) with free := s.free + r.places.length }
      match exec (decodeEng .data (BitVec.ofNat 48 ((s.core k).wordAt r.eng.wordAddr))) (s.asIssued k lane r reads) with
      | .next t => some (if t.nextId = r.ids.2 then done (s.takeAnew t k r) reads else done s r.reads)
      | _ => some (done s r.reads)

/-- The next data repeat that reads anew. -/
def State.readMove (s : State) : Option State :=
  (List.range 24).findSome? fun k => match s.dataAnew k false with | some t => some t | none => s.dataAnew k true

/-! ## Gangs and holds -/

/-- The cycle G of the gang-wide point at which every member of a gang waits (R46, R148, R159). -/
def State.pointCycle (s : State) (g : Gang) : Option Nat :=
  match s.pointArrivals g, s.yieldArrivals g with
  | some arr, _ => some (maxOf (arr.map fun a => a.2.2.1) + 64)
  | none, some arr => some (maxOf (arr.map fun a => a.2.1) + 64)
  | none, none => none

/-- Whether a member towards which a hold wave is under way stands at the G of a gang-wide point whose outcome needs the member that the
hold has stopped: it stops there, at its own G, and the point is decided when all resume (R148; log 50). -/
def State.standsAtPoint (s : State) (g : Gang) (k : Nat) : Bool :=
  (s.core k).run.stop.isNone && s.pointCycle g = some (s.core k).run.g

/-- What is due of a hold (R30 to R32, R161). -/
def State.holdTurn (s : State) (g : Gang) (h : HoldRec) : Option Turn :=
  match h.waves.find? fun w => w.2 ≤ s.tide || s.standsAtPoint g w.1 with
  | some w => s.ev w.1 g.berth .holdWave
  | none => firstTurn [turnIf (s.saveReady g) (s.ev g.origin g.berth .forcedSave),
                       turnIf (s.holdOver g h && !s.saveTakes g) (s.ev g.origin g.berth .release)]

/-- The member whose release wave has come (R32). -/
def State.releaseTurn (s : State) (g : Gang) : Option Turn :=
  g.members.findSome? fun k => match (s.core k).run.stop with
    | some st => match st.until_ with | some t => turnIf (t ≤ s.tide) (s.ev k g.berth .releaseWave) | none => none
    | none => none

/-- The end of a gang-wide point whose members have all arrived (R46, R148, R159). -/
def State.pointTurn (s : State) (g : Gang) : Option Turn :=
  firstTurn [
    match s.pointArrivals g with
    | some arr => turnIf (s.allAt g (maxOf (arr.map fun a => a.2.2.1) + 64)) (s.ev g.origin g.berth .phasePointRelease)
    | none => none,
    match s.yieldArrivals g with
    | some arr => turnIf (s.allAt g (maxOf (arr.map fun a => a.2.1) + 64)) (s.ev g.origin g.berth .yieldRelease)
    | none => none]

/-- A member that has yet to see a pre-emption request (R158), and the end of its deadline (R161). -/
def State.requestTurn (s : State) (g : Gang) : Option Turn :=
  match g.members.find? fun k => (match g.y with | some y => decide (y ≤ (s.core k).run.g) | none => false) && !(s.core k).modes.yieldreq with
  | some k => s.ev k g.berth .yieldreq
  | none => turnIf ((s.pdlOver g && !g.saveReq) || s.savePutOff g) (s.ev g.origin g.berth .pdlExpiry)

/-- A Pilot hold that has waited for a release wave starts when the wave has reached the origin (R29; log 61). -/
def State.askedHoldTurn (s : State) (g : Gang) : Option Turn :=
  turnIf (g.holdAsked && (s.bind g.berth).state == 2 && match (s.core g.origin).run.stop with | some st => st.until_.isNone | none => true) (s.ev g.origin g.berth .hold)

/-- A YIELDREQ that has waited for the end of the gang's effective slice acts (R385; log 68). -/
def State.askedYieldTurn (s : State) (g : Gang) : Option Turn :=
  turnIf (g.yieldAsked && (s.bind g.berth).state == 2 && s.sliceOver g) (s.ev g.origin g.berth .bindYieldreq)

/-- A save that is over (R379). -/
def State.savingTurn (s : State) : Option Turn :=
  s.sched.saving.findSome? fun w => turnIf (w.due ≤ s.tide) (s.ev 0 w.berth .forcedSave)

/-- What is due of a gang as a whole. -/
def State.gangTurn (s : State) (g : Gang) : Option Turn :=
  if !g.started then turnIf (g.t0 ≤ s.tide) (s.ev g.origin g.berth .gangStart)
  else
    let lim := (s.bind g.berth).runlim.toNat
    firstTurn [s.releaseTurn g, s.askedHoldTurn g, s.askedYieldTurn g, match g.hold with | some h => s.holdTurn g h | none => none,
      turnIf (lim != 0 && lim ≤ (s.core g.origin).run.g) (s.ev g.origin g.berth .runLimitExpiry),
      s.pointTurn g, s.requestTurn g]

/-- A barrier at which the last member has arrived (R43). -/
def State.barrierTurn (s : State) : Option Turn :=
  (List.range 24).findSome? fun k => match (s.core k).seq.wait with
    | .gbar g _ _ => turnIf (s.barrierArrivals g).isSome (s.ev k g .barrierRelease)
    | _ => none

/-! ## Homes -/

/-- Whether the queue that a finished wait answers can take the answer: a held member takes it at release (R82). -/
def State.answerable (s : State) (o : GOp) : Bool := o.lane || (s.core o.core).run.stop.isNone

/-- What a home does with an operation now. -/
def State.opTurn (s : State) (o : GOp) : Option Turn :=
  match o.kind with
  | .walk => turnIf (!o.done && o.due ≤ s.tide) (s.ev o.core o.id .tableWalkFinished)
  | .write _ => turnIf (s.opReady o) (s.ev o.core o.id .globalWritePerformed)
  | .read _ => turnIf (s.opReady o) (s.ev o.core o.id .globalReadArrival)
  | .wait _ _ _ =>
    if o.done then turnIf (o.due ≤ s.tide && s.answerable o) (s.ev o.core o.id .sacqComplete)
    else turnIf (s.opReady o) (s.ev o.core o.id .homeUpdate)
  | _ => turnIf (s.opReady o) (s.ev o.core o.id .homeUpdate)

/-! ## Issues of a member's main units -/

/-- The clock of an effect's context has passed its landing cycle without the data that a sequencer load needs (R212). -/
def State.lateLoad (s : State) (k : Nat) (shadow : Bool) : Option Pend :=
  (s.core k).pend.find? fun p => match p.eff with
    | .ldReg sh _ _ => sh = shadow && !p.missed && p.land ≤ (if shadow then s.tide else (s.core k).run.g) && !s.needMet p
    | _ => false

/-- The instruction at a sequencer's PC. -/
def Core.fetch (c : Core) (pc : BitVec 18) : Instr := decodeSeq (BitVec.ofNat 32 (c.code pc.toNat 4))

/-- The engine word that a queue or lane issues next. -/
def Core.fetchWord (c : Core) (u : Eng) (e : Engine) : Instr := decodeEng u (BitVec.ofNat 48 (c.wordAt e.wordAddr))

/-- Whether a waiting sequencer may issue again at its next cycle. -/
def Wait.over (w : Wait) (g : Nat) : Bool :=
  match w with
  | .none => true
  | .until_ t => t ≤ g
  | _ => false

/-- The main sequencer's turn at its issue cycle (R18, R204). -/
def State.seqTurn (s : State) (k : Nat) : Option Turn :=
  let c := s.core k
  let g := c.run.g
  match s.lateLoad k false with
  | some p => s.ev k p.id .seqLoadBudgetExpiry
  | none =>
    if g < c.seq.next then none
    else match c.seq.wait with
      | .dbind _ _ _ _ _ => s.ev k 0 .dbindComplete
      | w => turnIf (w.over g && !c.seq.ended)
          (some ((s.modCore k fun c => { c with seq := { c.seq with wait := .none } }).at_ k false .vec 0, c.fetch c.seq.pc))

/-- Waits of the main sequencer that end without an issue (R34, R217). -/
def State.seqWake (s : State) (k : Nat) : Option Turn :=
  let c := s.core k
  match c.seq.wait with
  | .waitg t => turnIf (c.seq.next ≤ c.run.g && t ≤ c.run.g) (s.ev k 0 .waitgExpiry)
  | .play u => turnIf ((lget c.engs u Engine.zero).counted c.run.g < Config.queueDepth) (s.ev k 0 .playQueueRoom)
  | _ => none

/-- An engine's bookkeeping before an issue: the end of a WAIT, the start of a passage (R35, R200). -/
def State.engWake (s : State) (k : Nat) (shadow : Bool) (u : Eng) : Option Turn :=
  let s := s.at_ k shadow u 0
  let e := s.eng u
  if e.waiting && e.next ≤ s.clk then some (s, .waitExpiry)
  else if s.startDue u then some (s, .passageStart)
  else none

/-- An engine's word at its issue cycle (R36). -/
def State.engTurn (s : State) (k : Nat) (shadow : Bool) (u : Eng) : Option Turn :=
  let s := s.at_ k shadow u 0
  let e := s.eng u
  if !e.started || e.waiting || e.sacq.isSome || s.clk < e.next then none
  else if u = .data && s.openBuild.isSome then some (s, .mfbuildDirectoryCheck)
  else match e.q with
    | _ :: _ => some (s, (s.core k).fetchWord u e)
    | [] => none

/-- A verdict that falls on this cycle (R283, R289, R290). -/
def State.verdictTurn (s : State) (k : Nat) (shadow : Bool) : Option Turn :=
  let clk := if shadow then s.tide else (s.core k).run.g
  match (s.core k).pend.find? fun p => p.tide = shadow && p.land ≤ clk && (match p.eff with
      | .verdict => true | .fixEnd _ _ => true | _ => false) with
  | some p => some (s.at_ k shadow .mtx p.id, .checksumVerdict)
  | none => none

/-- A drain entry that falls due on this cycle (R281). -/
def State.drainTurn (s : State) (k : Nat) (shadow : Bool) : Option Turn :=
  let s := s.at_ k shadow .mtx 0
  turnIf s.drainDue (some (s, .mdrainEntryLands))

/-- What unit u of member k issues on this cycle, the units numbered in the order of R134, verdicts and drains with the matrix array. -/
def State.unitTurn (s : State) (k : Nat) : Nat → Option Turn
  | 0 => s.seqTurn k
  | 1 => s.engTurn k false .vec
  | 2 => s.verdictTurn k false
  | 3 => s.drainTurn k false
  | 4 => s.engTurn k false .mtx
  | _ => s.engTurn k false .data

/-- The units of member k that issue on this cycle. -/
def State.issuing (s : State) (k : Nat) : List (Nat × Turn) :=
  (List.range 6).filterMap fun u => (s.unitTurn k u).map fun t => (u, t)

/-- Whether a turn stops core k. -/
def Turn.stops (t : Turn) (k : Nat) : Bool :=
  match exec t.2 t.1 with
  | .next s => (s.core k).run.stop.isSome
  | _ => false

/-- Whether a turn is a miss of core k on a pending write (R41). -/
def Turn.missesWrite (t : Turn) (k : Nat) : Bool :=
  match exec t.2 t.1 with
  | .next s =>
    let a := match (s.core k).run.stop with | some st => (match st.await with | some x => some x | none => (s.core k).hnd.await) | none => none
    match a with | some (.pends _) => true | _ => false
  | _ => false

/-- Whether what the turn t issues is a write that the read of unit u of core k misses on this cycle: the write has then issued at c, and
the read, at c too, finds it (R41; log 7). -/
def Turn.missedBy (t : Turn) (k u : Nat) : Bool :=
  match exec t.2 t.1 with
  | .next s' => match s'.unitTurn k u with | some r => r.missesWrite k | none => false
  | _ => false

/-- Whether an instruction or word is a QFENCE, which orders all that its queues issue at or before its cycle (R200, R223). -/
def isFence : Instr → Bool
  | .qfence _ => true
  | .engineQfence _ _ => true
  | _ => false

/-- The first of the turns that is no QFENCE, else the first (R200, R223). -/
def fencesLast (l : List Turn) : Option Turn :=
  match l.find? fun t => !isFence t.2 with
  | some t => some t
  | none => l.head?

/-- The unit of a running member that issues next. One that would stop the member issues alone, before the others (R134). A write that a
read of the same cycle misses issues before that read, and a QFENCE after the other units (R41, R200; log 7). -/
def State.memberTurn (s : State) (k : Nat) : Option Turn :=
  firstTurn [s.seqWake k, s.engWake k false .vec, s.engWake k false .mtx, s.engWake k false .data,
    let l := s.issuing k
    match l.find? fun x => x.2.stops k with
    | some x => some x.2
    | none => match (l.filter fun x => !(l.any fun y => x.1 < y.1 && y.2.missedBy k x.1)).map (·.2) with
      | [] => fencesLast (l.map (·.2))
      | r => fencesLast r]

/-! ## The shadow context -/

/-- A recovery word for the tile of TFREC. -/
def recoveryWord (tile : BitVec 2) : MX :=
  { rep := 0, step := 0, tile := tile, a := 0, b := 0, c := 0, prof := 0, rm := false, clamp := false, acc := false, arg := 0 }

/-- Whether what the Pilot firmware's SCHED_MISS handler waits for has come (R139). -/
def State.pilotAwaits (s : State) (k : Nat) : Bool :=
  let c := s.core k
  let info := c.trec.info.toNat
  if 0x700 ≤ info || c.trec.ofDrain then false
  else match c.hnd.await with
    | some .walk => s.walking k
    | some (.op id) => s.gops.any fun o => o.id = id && !o.done
    | some a => !c.awaitMet a
    | none => false

/-- The Pilot firmware's handler of a checksum fault (R154). DESIGN CHOICE where rows of the table overlap: RB 1 first, then TAINT 1, CKR 2
or HOVF, then LOCFIX once, then MRETRY (log 86). -/
def State.recoveryTurn (s : State) (k : Nat) : Instr × Nat :=
  let c := s.core k
  let t := c.tfrec
  let w := recoveryWord t.tile
  let hovf := (c.tile t.tile.toNat).hovf
  if !t.valid then (.tret, 0)
  else if t.rb then (.tesc, 0)
  else if t.taint || t.ckr = 2 || hovf then (.tretRb, 0)
  else if t.nrow = 1 && t.ncol = 1 && c.hnd.tried = 0 then (.locfix w, 1)
  else (.mretry w, 2)

/-- What the Pilot firmware's handler does next on core k (R139, R143, R154). -/
def State.pilotTurn (s : State) (k : Nat) : Option Turn :=
  let c := s.core k
  let t := s.at_ k true .mtx 0
  if c.hnd.answer.isSome then turnIf (s.lanesDone k) (some (t, if c.hnd.answer = some 2 then .tretRb else .tret))
  else if c.trec.cause = 0x07 then turnIf (!s.pilotAwaits k) (some (t, .tret))
  else if c.trec.cause = 0x08 then
    turnIf (s.lanesDone k)
      (let (i, n) := s.recoveryTurn k
       some (t.modMe fun c => { c with hnd := { c.hnd with tried := Nat.max c.hnd.tried n } }, i))
  else some (t, .tesc)

/-- What the shadow context of a stopped core does (R141 to R143). -/
def State.shadowTurn (s : State) (k : Nat) : Option Turn :=
  let c := s.core k
  let h := c.hnd
  if h.entry = 0 then none
  else if h.fatal || (!h.posted && h.answer.isNone && h.entry + Config.handlerDeadline ≤ s.tide) then s.ev k 0 .handlerDeadline
  else if !h.active then turnIf (h.entry ≤ s.tide) (s.ev k 0 .trapEntry)
  else
    let main : Option Turn :=
      if s.tide < c.sh.next || h.posted then none
      else if h.pilot then s.pilotTurn k
      else match s.lateLoad k true with
        | some p => some (s.at_ k true .vec p.id, .seqLoadBudgetExpiry)
        | none => some (s.at_ k true .vec 0, c.fetch c.sh.pc)
    firstTurn [s.engWake k true .vec, s.engWake k true .mtx, s.engWake k true .data,
      fencesLast ([main, s.engTurn k true .vec, s.verdictTurn k true, s.drainTurn k true, s.engTurn k true .mtx,
        s.engTurn k true .data].filterMap id)]

/-- The entries of an open drain that a STALL source awaits are pushed during the hold (R31). -/
def State.stalledDrain (s : State) (k : Nat) : Option Turn :=
  let c := s.core k
  match c.run.stop, c.mtx.drain with
  | some st, some d =>
    match st.await, d.chan with
    | some (.entry ch n), some dc =>
      turnIf (ch = dc && (lget c.chans ch Chan.empty).heldAt c.run.g < chanDepth ch && d.open_ && !d.lane && d.done < d.q * d.tr && (lget c.chans ch Chan.empty).q.length ≤ n)
        (some (s.at_ k false .mtx 0, .mdrainEntryLands))
    | _, _ => none
  | _, _ => none

/-! ## Reads of SP3 that a fence delays (R76, R77, R201) -/

/-- The queue whose word or instruction in turn t reads SP3, and the runs (address, bytes) that it may read. -/
def Turn.sp3Reads (t : Turn) : Option (Nat × List (Nat × Nat)) :=
  match t.2 with
  | .ldSp3 w _ a off => some (0, [(effAddr (t.1.rd a) off, widBytes w)])
  | i =>
    let ds := (t.1.latch t.1.cur.unit ((readDescs i).map (·.toNat))).filter fun d => d.level = 2
    if ds.isEmpty then none else some (engNum t.1.cur.unit, ds.map fun d => let r := d.region d.readBase; (r.1.toNat, (r.2 + 1 - r.1).toNat))

/-- The sync objects at which queues have operations on their way, or which their homes have served (target, address). -/
def State.syncObjs (s : State) : List (Nat × Nat) :=
  s.mem.syncs ++ s.gops.filterMap fun o => match o.kind with
    | .srel t a => some (t, a)
    | .wait t a _ => some (t, a)
    | .atomic t a _ _ _ _ true => some (t, a)
    | _ => none

/-- Whether a run of SP3 holds bytes that core k's gang shares with others (R75). DEDUCED: bytes outside its image's range, in a region bound to a
sync object in use, or that another party has written or is about to reach (log 82). -/
def State.sharedSp3 (s : State) (k : Nat) (r : Nat × Nat) : Bool :=
  let run := [((3 : Nat), r.1, r.2)]
  let mine (m : Nat) : Bool := m < 24 && (s.core m).run.berth == (s.core k).run.berth
  (match s.gangOf k with | some g => !(g.sp3lo ≤ r.1 && r.1 + r.2 ≤ g.sp3lo + g.sp3len) | none => true) ||
  (s.syncObjs.any fun o => namesMeet [(1, r.1, r.2)] (s.bindings o.1 o.2)) ||
  (s.mem.spq.any fun w => w.lvl = 2 && !mine w.writer && runsMeet (w.ps.map fun p => (3, p.addr, p.bytes.length)) run) ||
  (s.gops.any fun o => !mine o.core && runsMeet o.kind.runs run)

/-- What a read of runs of SP3 by queue u of core k is performed after: the queue's own operations on their bytes (R76), and what its fences name,
where the bytes are shared (R77, R201). -/
def State.lateDeps (s : State) (k u : Nat) (rs : List (Nat × Nat)) : List Nat :=
  ((s.gops.filter fun o => o.core = k && o.unit = u && !o.done && o.kind.writes && runsMeet o.kind.runs (rs.map fun r => (3, r.1, r.2))).map (·.id)) ++
  (if rs.any (s.sharedSp3 k) then (lget (s.core k).fences u []).filter fun d => !s.depDone k d else [])

/-- The effects and operations that core k has made from the name `lo` on, in order: marks of CHKINT, and those that carry what was read. -/
def State.madeFrom (s : State) (k lo : Nat) : List Nat × List Nat :=
  let ps := (s.core k).pend.filter fun p => lo ≤ p.id
  let chk := (ps.filter fun p => p.eff = .chkint).map (·.id)
  let vals := (ps.filter fun p => match p.eff with | .chkint => false | .gstat _ => false | .vflag _ => false | _ => true).map (·.id)
  (chk, ((vals ++ (s.gops.filter fun o => lo ≤ o.id && o.core = k).map (·.id)).foldl chunkIns []).reverse)

/-- A turn whose word reads SP3 after operations that are not yet performed: it issues all the same, and what it makes waits for the read (R40,
R201; log 82). -/
def State.lateGate (t : Turn) : Turn :=
  match t.sp3Reads with
  | none => t
  | some (u, rs) =>
    let s := t.1
    let k := s.cur.core
    let deps := s.lateDeps k u rs
    if deps.isEmpty then t
    else
      let op : GOp := { id := s.nextId, core := k, unit := u, kind := .read (rs.map fun r => (3, r.1, r.2)), deps := deps, due := 0, done := false,
                        data := [], armed := false, lane := s.cur.shadow, names := [], cls := 4 }
      let s1 := { s with gops := s.gops ++ [op], nextId := s.nextId + 1 }
      match exec t.2 s1 with
      | .next s2 =>
        let made := s2.madeFrom k s1.nextId
        let held := (s.me.mem.held.length, s2.me.mem.held.length)
        if made.2.isEmpty && held.1 = held.2 then t
        else
          let l : LateRead := { id := op.id, core := k, lane := s.cur.shadow, unit := u, instr := t.2, me := s.me, tide := s.tide, made := made.2,
                                chk := made.1, held := held, free0 := s.free }
          ({ s1 with late := s1.late ++ [l] }, t.2)
      | _ => t

/-- The part as a late read found it, with the bytes of SP3 that its core sees once it is performed: of the gang's writes those that R73 showed it
at its issue, and no later one of its own queue. -/
def State.asLate (s : State) (l : LateRead) (rs : List (Nat × Nat × Nat)) : State :=
  let spq := s.mem.spq.filter fun w => !(w.writer = l.core && w.queue = l.unit && l.id < w.id)
  let v : State := { s with mem := { s.mem with spq := spq } }.modCore l.core fun c => { c with run := l.me.run }
  let ps : List Piece := rs.map fun (_, a, n) => { addr := a, bytes := v.spRead l.core 2 a n, poison := false }
  let u : State := { s with
    tide := l.tide
    mem := { s.mem with sp3 := ps.foldl mwriteP s.mem.sp3, spq := spq.filter fun w => !(w.lvl = 2 && piecesMeet w.ps ps) }
    gops := s.gops.filter fun o => o.id < l.id
    late := [], nextId := l.id + 1, free := l.free0
    cur := { s.cur with core := l.core, shadow := l.lane, unit := (match l.unit with | 2 => .mtx | 3 => .data | _ => .vec), arg := 0 } }
  u.setCore l.core l.me

/-- What a late read has made takes the bytes read, as the state `t` in which its word issued again has them; poison read is consumed (R145). -/
def State.takeLate (s t : State) (l : LateRead) : State :=
  let new := t.madeFrom l.core (l.id + 1)
  let name (id : Nat) : Option Nat := ((l.made.zip new.2).find? fun x => x.1 = id).map (·.2)
  let d := t.core l.core
  let pend (p : Pend) : Pend := match (name p.id).bind fun n => d.pend.find? fun q => q.id = n with
    | some q => { p with eff := q.eff }
    | none => p
  let entry (c : Nat) (e : ChEntry) : ChEntry := match (name e.src).bind fun n => (lget d.chans c Chan.empty).q.find? fun x => x.src = n with
    | some x => { e with v := x.v }
    | none => e
  let op (o : GOp) : GOp := match (name o.id).bind fun n => t.gops.find? fun q => q.id = n with
    | some q => { o with kind := q.kind, names := q.names }
    | none => o
  let held (h : List Held) : List Held :=
    if d.mem.held.length = l.held.2 && l.held.2 ≤ h.length then h.take l.held.1 ++ d.mem.held.drop l.held.1 ++ h.drop l.held.2 else h
  let s := ({ s with gops := s.gops.map op } : State).modCore l.core fun c =>
    { c with pend := (c.pend.filter fun p => !l.chk.contains p.id).map pend
             chans := c.chans.mapIdx fun i h => { h with q := h.q.map (entry i) }
             mem := { c.mem with held := held c.mem.held } }
  if new.1.isEmpty then s else s.modCore l.core fun c => c.landReg .chkint

/-- The next late read of SP3 that may be performed; one whose operation is gone is forgotten. -/
def State.lateMove (s : State) : Option State :=
  s.late.findSome? fun l =>
    let gone : State := { s.dropOp l.id with late := s.late.filter fun x => x.id != l.id }
    match s.gops.find? fun o => o.id = l.id with
    | none => some gone
    | some o =>
      if !(o.deps.all fun d => s.depDone l.core d) then none
      else match exec l.instr (s.asLate l o.kind.runs) with
        | .next t => some (gone.takeLate t l)
        | _ => some gone

/-- What core k does on this cycle: its units when it runs, its shadow context when it is stopped, after a delay slot that is due. -/
def State.coreTurn (s : State) (k : Nat) : Option Turn := Option.map State.lateGate <|
  let c := s.core k
  if c.run.berth.isNone || !c.run.started then none
  else match c.run.stop with
    | none => s.memberTurn k
    | some st =>
      if st.slotDue then
        let s := s.modCore k fun c => { c with run := { c.run with stop := some { st with slotDue := false } } }
        some (s.at_ k false .vec 0, c.fetch c.seq.pc)
      else firstTurn [s.stalledDrain k, s.shadowTurn k]

/-! ## Landings -/

/-- The event with which an effect lands; none for those that land quietly or in an issue slot. -/
def Eff.event : Eff → Option Instr
  | .sp _ _ => some .spWriteLands
  | .spData _ _ _ => some .spWriteLands
  | .spBtc _ _ _ _ => some .spWriteLands
  | .cmap _ _ _ => some .spWriteLands
  | .mcast _ => some .dmcastArrival
  | .atomRet _ => some .atomicReturn
  | .chan _ => some .channelEntryLands
  | .mesh _ => some .channelEntryLands
  | .credit _ => some .creditReturn
  | .errinj _ => some .errinjApply
  | .manifest _ _ _ => some .manifestLands
  | _ => none

/-- Whether effect p lands before effect q (R39, R261). -/
def Pend.before (p q : Pend) : Bool :=
  p.land < q.land || (p.land = q.land && (p.unit < q.unit || (p.unit = q.unit && p.id < q.id)))

/-- The first of a list of effects. -/
def firstPend : List Pend → Option Pend
  | [] => none
  | p :: r => match firstPend r with
    | some q => if q.before p then some q else some p
    | none => some p

/-- The next landing of core k on this cycle. -/
def State.landTurn (s : State) (k : Nat) : Option Turn :=
  match firstPend ((s.core k).pend.filter fun p => p.eff.event.isSome && s.pendDue k p) with
  | some p => match p.eff.event with
    | some i => some (s.at_ k p.tide .vec p.id, i)
    | none => none
  | none => none

/-! ## The order of a cycle -/

/-- The cores in increasing hop count (R25; log 2). -/
def State.byHop (s : State) : List Nat :=
  (List.range 9).flatMap fun h => (List.range 24).filter fun k => (s.core k).run.hop = h

/-- What happens next in the gangs and their cores on this cycle. -/
def State.coreTurns (s : State) : Option Turn :=
  firstTurn [s.gangs.findSome? s.gangTurn, s.savingTurn, s.barrierTurn, s.gops.findSome? s.opTurn, s.byHop.findSome? s.coreTurn,
    (List.range 24).findSome? s.landTurn,
    (List.range 24).findSome? (fun k => turnIf (s.combinerDue k) (s.ev k 0 .combinerFires)),
    (List.range 24).findSome? (fun k => turnIf ((s.core k).unpins.any (s.core k).unpinDue) (s.ev k 0 .pageUnpin)),
    (List.range 6).findSome? fun cl => turnIf (s.serviceDue cl) (s.ev 0 cl .builderService)]

end Sys2Proof.Machine
end

