-- ==== Sys2Proof/Machine/Pick.lean ====
section
/-!
DEFINITION. What happens next in the part: inputs of the outside world, boot, the gangs, dispatch, queues, the rank engine, Pilot cores,
decoders, sensors, and the Pilot firmware's own acts (R154, R156, R380, R385, R387, R388, R400, R430), whose choices and delays are
free (log 6, log 11).
-/

namespace Sys2Proof.Machine

/-- An event about object `arg`, outside the gangs. -/
def State.pev (s : State) (arg : Nat) (i : Instr) : Option Turn :=
  some ({ s with cur := { core := 0, shadow := false, unit := .vec, arg := arg, who := .pilot } }, i)

/-! ## Inputs and boot -/

/-- The oldest input whose time has come, in the order in which they stand (log 18). -/
def State.inputTurn (s : State) : Option Turn :=
  match s.inputs.find? fun x => x.at_ ≤ s.tide with
  | some x => some ({ s with inputs := s.inputs.erase x, cur := x.cur }, x.instr)
  | none => none

/-- The boot ROM runs once after a reset (R419). -/
def State.bootTurn (s : State) : Option Turn := turnIf (!s.fleet.booted) (s.pev 0 .powerOn)

/-! ## Dispatch, queues, rank engine -/

/-- Dispatch acts on an ARMED record (R379). -/
def State.armedTurn (s : State) : Option Turn :=
  (List.range 32).findSome? fun b => turnIf ((s.bind b).state == 1) (s.pev b .armed)

/-- A WAITV is over (R366), or an interrupt's delay (R383). -/
def State.queueTurn (s : State) : Option Turn :=
  (List.range 256).findSome? fun n =>
    let q := s.queue n
    firstTurn [turnIf (q.run.waitv.isSome && s.waitvOver n) (s.pev n .waitvSatisfied),
               turnIf (q.run.unrep != 0 && q.pol.irqen && q.run.firstN + s.micros q.pol.coalt.toNat ≤ s.tide) (s.pev n .coaltExpiry)]

/-- The instruction that the rank engine executes next, or the insertion of a ranked FRAME (R373, R374). -/
def State.rankTurn (s : State) : Option Turn :=
  let full : Bool := decide (Config.pifoDepth ≤ s.sched.pifo.length)
  let re := if s.sched.rank.cur.isNone && !full then s.sched.rank.begin_ else s.sched.rank
  match re.cur, re.result with
  | none, _ => none
  | some _, some _ => turnIf (!full) (s.pev 0 .rank)
  | some _, none =>
    if s.tide < re.next then none
    else match re.curProg[re.slot]? with
      | some w => match decodeRank w with
        | some i => (s.modRank fun _ => re).pev 0 i
        | none => none
      | none => none

/-- The event of the packet that queue n fetches next. -/
def State.packetEvent (s : State) (n : Nat) : Instr :=
  match s.packetType n with
  | 0 => .nopPacket
  | 1 => .frame
  | 2 => .indirect
  | 3 => .waitv
  | _ => .mark

/-- A fetcher that may fetch (R368). -/
def State.fetcherTurn (s : State) : Option Turn :=
  (List.range 8).findSome? fun f => match s.fetchTurn f with
    | some n => s.pev n (s.packetEvent n)
    | none => none

/-! ## Pilot cores, decoders, sensors -/

/-- Whether Pilot core k executes an instruction now. -/
def State.pilotReady (s : State) (k : Nat) : Bool := (s.pcore k).running && (s.pcore k).wait.isNone && (s.pcore k).next ≤ s.tide

/-- The word at the pc of a Pilot core that executes now. -/
def State.pilotWord (s : State) (k : Nat) : Option (BitVec 32) := if s.pilotReady k then s.rvFetch k else none

/-- The part after a Pilot core has executed a word that is no Xquay instruction (log 12). -/
def State.baseMove (s : State) : Option State :=
  (List.range 4).findSome? fun k =>
    if s.pilotReady k && ((s.pilotWord k).bind decodeXquay).isNone then some (s.rvStep k) else none

/-- A QWAIT that ends, or the next Xquay instruction of a Pilot core (R394, R397). -/
def State.xquayTurn (s : State) : Option Turn :=
  (List.range 4).findSome? fun k =>
    firstTurn [turnIf (s.qwaitOver k) (s.pev k .qwaitComplete),
               match s.pilotWord k with
               | some w => (match decodeXquay w with | some i => s.pev k i | none => none)
               | none => none]

/-- The next command of a decoder engine, or a stopped ring that goes on (R414); none in recovery (R425), nor during a full self-test, when service
stops (R430). -/
def State.decoderTurn (s : State) : Option Turn :=
  if s.fleet.recovery || s.fleet.test.level = 2 then none
  else (List.range 16).findSome? fun e =>
    match s.decWaits e with
    | some _ => s.pev e .decodeResume
    | none =>
      if s.tide < (s.dec e).due then none
      else match s.decNext e with
        | some c => s.pev e (if c.opc = 2 then .flush else if c.opc = 3 then .decoderReset else .decode)
        | none => none

/-- What the part does about fresh sensor values (R427, R434). -/
def State.sensorTurn (s : State) : Option Turn :=
  let f := s.fleet
  if f.fresh = 0 || !f.dieOn then none
  else if f.fresh = 2 && 115 ≤ f.dieTemp then s.pev 0 .thermalShutdown
  else if f.fresh = 2 && 105 ≤ f.dieTemp && 400 < f.clock then s.pev 0 .thermalCritical
  else s.pev 0 .powerCapControl

/-! ## The Pilot firmware (log 11) -/

/-- The firmware acts again after a free time. -/
def State.fwBusy (s : State) : State :=
  { s with pilot := { s.pilot with fw := { s.pilot.fw with ready := s.tide + 1 + Config.freeNat s.free } }, free := s.free + 1 }

/-- A register write of the firmware. -/
def State.fwWrite (s : State) (off : Nat) (v : Word) : Option Turn := s.fwBusy.pev 0 (.registerWrite .pilot off v)

/-- The firmware's two buffers in the Pilot SRAM: for QFETCH, and for QDISP. -/
def fetchBuf : Nat := Config.sramBase
def dispBuf : Nat := Config.sramBase + 256

/-- A QFETCH of the firmware from a source. -/
def State.fwFetch (s : State) (n : Nat) : Option Turn :=
  ((s.modPcore 0 fun c => (c.setReg 10 (word n)).setReg 11 (word fetchBuf)).pev 0 (.qfetch 0 10 11))

/-- A QDISP of the firmware: a record for a berth, staged in the Pilot SRAM. -/
def State.fwDisp (s : State) (berth : Nat) (b : Bind) : Option Turn :=
  let bs := (List.range 32).flatMap fun k => leBytes 8 (({ b with state := 1 } : Bind).word k).toNat
  (((s.putSram dispBuf bs).modPcore 0 fun c => (c.setReg 10 (word berth)).setReg 11 (word dispBuf)).pev 0 (.qdisp 0 10 11))

/-- An event of core k that the firmware causes. -/
def State.fwResponse (s : State) (k : Nat) (i : Instr) : Option Turn :=
  some ({ s.fwBusy with cur := { core := k, shadow := false, unit := .vec, arg := 0, who := .pilot } }, i)

/-- The image of a FRAME in one piece of HBM: its address, after a copy where it has none (R378). -/
def State.placeImage (s : State) (berth : Nat) (rs : List (Nat × Nat × Nat)) : Nat × State :=
  match rs with
  | [(0, a, _)] => if a % 8 = 0 then (a, s) else
      (8 * Config.imageArea berth, { s with mem := { s.mem with hbm := mblit s.mem.hbm (8 * Config.imageArea berth) (mnat (s.runsMemory rs) 12 4) (s.runsMemory rs) } })
  | rs =>
    let n := rs.foldl (fun n r => n + r.2.2) 0
    (8 * Config.imageArea berth, { s with mem := { s.mem with hbm := mblit s.mem.hbm (8 * Config.imageArea berth) n (s.runsMemory rs) } })

/-- Group g for a set of cores, written when it has none (R377, R380). -/
def State.groupFor (s : State) : Decision → Option (Nat × List Nat × State)
  | .place g cs => some (g, cs, s)
  | .write cs => match s.freeGroup cs with
    | some g =>
      let v : Word := cs.foldl (fun m k => m ||| word (2 ^ k)) 0x8000000000000000
      some (g, cs, s.writeGroup g v)
    | none => none
  | _ => none

/-- The record of a FRAME that is placed in a group (R359, R378, R380, R387). -/
def State.frameBind (s : State) (p : Popped) (g members imgpa slot : Nat) : Bind :=
  let f := p.frame
  let q := s.queue f.queue
  let pa : Nat := match q.run.resv.find? fun x => x.idx = f.slot with | some x => x.pa | none => 0
  { Bind.zero with
    group := BitVec.ofNat 8 g, stream := BitVec.ofNat 8 f.queue, members := BitVec.ofNat 5 members, seq := s.pilot.fw.seq + 1
    imgpa := BitVec.ofNat 52 imgpa, xroot := p.xroot, savepa := q.pol.savebase + BitVec.ofNat 40 (slot * 2 ^ (q.pol.sslog2.toNat - 12))
    cplpa := BitVec.ofNat 47 (pa / 32), cphase := q.ring.cphase f.slot, runlim := lget s.sched.runlim (p.rank.extractLsb' 30 2).toNat 0
    token := BitVec.ofNat 32 (bnat f.bytes 4 4), frameno := BitVec.ofNat 32 (bnat f.bytes 20 4), args := f.args }

/-- A popped FRAME placed: its group, its image, its save slot, its launch sequence number, and the record written by QDISP (R380). -/
def State.placeTurn (s : State) (p : Popped) (d : Decision) : Option Turn :=
  match s.groupFor d, s.freeBerth, s.imageRuns (p.xroot.toNat * 4096) p.frame, (s.queue p.frame.queue).freeSave with
  | some (g, cs, s), some berth, some rs, some slot =>
    let (pa, s) := s.placeImage berth rs
    let b := s.frameBind p g cs.length pa slot
    let s := s.modQueue p.frame.queue fun q => { q with run := { q.run with slots := (slot, b.seq.toNat) :: q.run.slots } }
    let fw := s.pilot.fw
    let tails := match p.frame.tailed with | some t => (b.seq, t) :: fw.tails | none => fw.tails
    let s : State := { s with pilot := { s.pilot with fw := { fw with popped := fw.popped.erase p, seq := b.seq, ranks := (b.seq, p.rank) :: fw.ranks, tails := tails } }
                              free := s.free + 1 }
    s.fwDisp berth b
  | _, _, _, _ => none

/-- The firmware places a popped FRAME whose time has come (R380). -/
def State.poppedTurn (s : State) : Option Turn :=
  s.pilot.fw.popped.findSome? fun p => if s.tide < p.due then none else s.placeTurn p (s.decide_ (p.xroot.toNat * 4096) p.frame)

/-- A popped FRAME that must now be refused after all (R360, R380). -/
def State.poppedRefusal (s : State) : Option State :=
  s.pilot.fw.popped.findSome? fun p =>
    if s.tide < p.due then none
    else match s.decide_ (p.xroot.toNat * 4096) p.frame with
      | .refuse r =>
        let fw := s.pilot.fw
        some (({ s with pilot := { s.pilot with fw := { fw with popped := fw.popped.erase p } } } : State).refuseFrame p.frame r)
      | _ => none

/-- Register writes that keep VNOW (R374) and SAVECOST (R385) up to date. -/
def State.keepTurn (s : State) : Option Turn :=
  let fw := s.pilot.fw
  match fw.vnow with
  | some v => ({ s with pilot := { s.pilot with fw := { fw with vnow := none } } } : State).fwWrite 0x10058 (v.setWidth 64)
  | none =>
    let c := BitVec.ofNat 32 (fw.costs.foldl Nat.max 0)
    turnIf (!fw.costs.isEmpty && s.sched.savecost != c) (s.fwWrite 0x10048 (c.setWidth 64))

/-- A DONE record made FREE (R378). -/
def State.doneTurn (s : State) : Option Turn :=
  (List.range 32).findSome? fun b => turnIf ((s.bind b).state == 3) (s.fwWrite (0x11000 + 256 * b) 0)

/-- A fault post read (R399), or a gang whose error no other response mends aborted (R154). -/
def State.postTurn (s : State) : Option Turn :=
  match s.pilot.posts, s.pilot.out with
  | _ :: _, _ => s.fwFetch 17
  | [], p :: _ => s.fwResponse p.1 .frespAbort
  | [], [] => none

/-- The event of a mailbox command. -/
def mboxEvent : Nat → Option Instr
  | 0x0001 => some .groupSet
  | 0x0002 => some .aperSet
  | 0x0003 => some .layerSet
  | 0x0004 => some .berthCtl
  | 0x0005 => some .grantSet
  | 0x0006 => some .peerwinSet
  | 0x0007 => some .powerCap
  | 0x0008 => some .selfTest
  | 0x0009 => some .rasRead
  | _ => none

/-- The firmware serves a mailbox: it takes the request, runs its command, and completes it (R400, R401). -/
def State.mailboxTurn (s : State) : Option Turn :=
  (List.range 16).findSome? fun m =>
    if (s.mbox m).door then s.fwFetch (m + 1)
    else if s.serving m then
      match mboxEvent (s.opcOf m) with
      | some i => s.fwBusy.pev m i
      | none => s.fwBusy.pev m .done
    else turnIf ((s.mbox m).busy && s.pilot.fw.serving.contains m) (s.fwBusy.pev m .done)

/-- The firmware pops a FRAME that it can refuse or place (R376, R380). -/
def State.popTurn (s : State) : Option Turn :=
  match s.sched.popHead with
  | some e => turnIf (s.pilot.fw.taking && s.canPlace ((s.queue e.frame.queue).ring.qxroot.toNat * 4096) e.frame) (s.fwFetch 0)
  | none => none

/-- The rank under which the gang of a record was popped. -/
def State.rankOf (s : State) (b : Bind) : BitVec 32 :=
  match s.pilot.fw.ranks.find? fun x => x.1 = b.seq with
  | some x => x.2
  | none => 0

/-- Whether a running gang may be asked to yield to a FRAME of a rank (R385). -/
def State.mayYield (s : State) (r : BitVec 32) (g : Gang) : Bool :=
  let b := s.bind g.berth
  g.started && g.y.isNone && b.state == 2 && precedes r (s.rankOf b) && s.sliceOver g

/-- The sets of cores on which a FRAME could run (R380). -/
def State.frameSets (s : State) (f : Frame) : List (List Nat) :=
  match s.imageRuns ((s.queue f.queue).ring.qxroot.toNat * 4096) f with
  | none => []
  | some rs =>
    let g := coresOf (s.group (bnat f.bytes 16 1)).2
    if bnat f.bytes 1 1 / 4 % 2 = 0 then [g] else (shapeSets (s.runsMemory rs)).filter s.working

/-- The gangs that hold a set of cores, when each of them may be asked to yield or has been (R385). -/
def State.yielders (s : State) (r : BitVec 32) (cs : List Nat) : Option (List Gang) :=
  let gs := s.gangs.filter fun g => g.members.any cs.contains
  if gs.all fun g => g.y.isSome || s.mayYield r g then some (gs.filter (s.mayYield r)) else none

/-- YIELDREQ for the FRAME that waits first (R385), or, for a full self-test, for every gang that is not of class 0 (R430). -/
def State.yieldTurn (s : State) : Option Turn :=
  if !s.pilot.fw.taking then
    s.gangs.findSome? fun g =>
      turnIf (g.started && g.y.isNone && (s.bind g.berth).state == 2 && s.classOf (s.bind g.berth) != 0 && s.sliceOver g) (s.fwBusy.pev g.berth .bindYieldreq)
  else match s.sched.popHead with
    | none => none
    | some e => match (s.frameSets e.frame).findSome? (s.yielders e.rank) with
      | some (g :: _) => s.fwBusy.pev g.berth .bindYieldreq
      | _ => none

/-- Where a saved gang may run again (R133, R162, R387). -/
def State.restorePlace (s : State) (im : Memory) (sv : Option Saved) : Decision :=
  let sets := ((shapeSets im).filter s.working).filter fun cs =>
    s.coresFree cs && !s.sp2Busy im cs && sv.all (fun v => s.slotsFree v cs) && ((s.groupOf cs).isSome || (s.freeGroup cs).isSome)
  if s.sp3Bad im then .wait
  else match pick s sets with
    | none => .wait
    | some cs => match s.groupOf cs with | some g => .place g cs | none => .write cs

/-- A saved gang bound again with RESTORE and the same SEQ, or relaunched from its start when this part cannot take its save (R161, R379,
R387); a FRAME that precedes it goes first. -/
def State.restoreTurn (s : State) : Option Turn :=
  if !s.pilot.fw.taking || !s.pilot.fw.popped.isEmpty then none
  else s.pilot.fw.savedFrames.findSome? fun x =>
    let b := x.2
    let first : Bool := match s.sched.popHead with | some e => precedes e.rank (s.rankOf b) | none => false
    let im := mwindow s.mem.hbm b.imgpa.toNat (mnat s.mem.hbm (b.imgpa.toNat + 12) 4)
    if first || s.sched.berths.any (fun y => y.state != 0 && y.state != 3 && y.seq = b.seq) then none
    else
      let sv := if s.saveUsable x.1 then s.saveFor x.1 im else none
      match s.groupFor (s.restorePlace im sv), s.freeBerth with
      | some (g, cs, s), some berth =>
        let use : Bool := sv.isSome
        let fw := s.pilot.fw
        let s : State := if use then s else ({ s with pilot := { s.pilot with fw := { fw with savedFrames := fw.savedFrames.filter fun y => y.1 != x.1 } } } : State).discardSave x.1
        let nb : Bind := { Bind.zero with
          restore := use, group := BitVec.ofNat 8 g, stream := b.stream, members := BitVec.ofNat 5 cs.length, seq := b.seq, imgpa := b.imgpa,
          xroot := b.xroot, savepa := b.savepa, cplpa := b.cplpa, cphase := b.cphase, runlim := b.runlim, token := b.token,
          frameno := b.frameno, args := b.args }
        ({ s with free := s.free + 1 } : State).fwDisp berth nb
      | _, _ => none

/-- The classes whose CLASSEN bit the shares of R388 clear: those that have exhausted their deficit while another enabled class, one with a
weight whose bit stays, has FRAMEs. DESIGN CHOICE: where several have exhausted theirs, the last class is cleared first (log 11). -/
def State.classesOff (s : State) : BitVec 4 :=
  let spent (c : Nat) : Bool := decide (lget s.pilot.fw.deficit c 0 ≤ 0)
  let waits (c : Nat) : Bool := lget s.sched.classw c 0 != 0 && s.sched.pifo.any fun e => (e.rank.extractLsb' 30 2).toNat = c
  let open_ := s.sched.classen ||| s.pilot.fw.off
  [3, 2, 1, 0].foldl (fun m c =>
    if spent c && (List.range 4).any fun d => d != c && open_.getLsbD d && !m.getLsbD d && waits d then m ||| BitVec.ofNat 4 (2 ^ c) else m) 0

/-- The write of CLASSEN (R388): bits that the firmware cleared come back, others stay as they are. -/
def State.classTurn (s : State) : Option Turn :=
  let fw := s.pilot.fw
  let off := s.classesOff
  turnIf (off != fw.off)
    (({ s with pilot := { s.pilot with fw := { fw with off := off } } } : State).fwWrite 0x10060
      (((s.sched.classen ||| fw.off) &&& ~~~off).setWidth 64))

/-- A millisecond's core-cycles shared out by the weights of the classes, less what the classes' gangs take in it (R388).
DESIGN CHOICE: a gang present at the millisecond's boundary is charged all of it, and a deficit has no cap (log 107). -/
def State.shareOut (s : State) : State :=
  let ms := s.micros 1000
  let cores := 24 - (coresOf s.sched.failed).length
  let total := (s.sched.classw.map (·.toNat)).foldl (· + ·) 0
  let used (c : Nat) : Nat := ((s.gangs.filter fun g => s.classOf (s.bind g.berth) = c).map fun g => g.members.length * ms).foldl (· + ·) 0
  let d := (List.range 4).map fun c =>
    lget s.pilot.fw.deficit c 0 + (((lget s.sched.classw c 0).toNat * cores * ms / Nat.max 1 total : Nat) : Int) - (used c : Int)
  { s with pilot := { s.pilot with fw := { s.pilot.fw with deficit := d, share := s.tide + Nat.max 1 ms } } }

/-- Whether the Pilot firmware runs. -/
def State.fwRuns (s : State) : Bool := s.fleet.booted && !s.fleet.recovery && s.fleet.dieOn && !(s.pcore 0).running

/-- What the firmware does next. -/
def State.fwTurn (s : State) : Option Turn :=
  if !s.fwRuns then none
  else firstTurn [s.poppedTurn,
    if s.tide < s.pilot.fw.ready then none
    else firstTurn [s.keepTurn, s.doneTurn, s.postTurn, s.mailboxTurn, s.classTurn, s.popTurn, s.restoreTurn, s.yieldTurn]]

/-- The firmware invalidates a translation page (R71, R392): the invalidation of a page whose in-flight counter is not 0 is held. -/
def State.invalidate (s : State) (page : Nat) : State :=
  if s.mem.pinned.any fun x => x.1 = page then { s with pilot := { s.pilot with fw := { s.pilot.fw with inval := page :: s.pilot.fw.inval } } } else s

/-- A held invalidation whose page's counter has reached 0 completes (R71). -/
def State.invalMove (s : State) : Option State :=
  (s.pilot.fw.inval.find? fun p => !(s.mem.pinned.any fun x => x.1 = p)).map fun p =>
    { s with pilot := { s.pilot with fw := { s.pilot.fw with inval := s.pilot.fw.inval.erase p } } }

/-- The transfer of an update that ends now (R420). -/
def State.updateMove (s : State) : Option State :=
  match s.fleet.update with
  | some u => if u.due ≤ s.tide then some (s.endUpdate u) else none
  | none => none

/-- What the part's firmware does without an instruction of the part: it ends a transfer and sends its evidence; and where the image's firmware runs,
refuses, completes invalidations, runs a self-test, shares out the cores, and begins invalidations of its choice. -/
def State.fwMove (s : State) : Option State :=
  match [s.updateMove, s.answerMove].findSome? id with
  | some t => some t
  | none =>
    if !s.fwRuns then none
    else match [s.poppedRefusal, s.invalMove, s.testMove, s.goldenMove].findSome? id with
      | some t => some t
      | none =>
        if s.pilot.fw.share ≤ s.tide then some (({ s.shareOut with free := s.free + 1 } : State).invalidate (Config.freeNat s.free)) else none

/-- What happens next in the part on this tide cycle; none: the cycle passes. -/
def State.turn (s : State) : Option Turn :=
  firstTurn [s.inputTurn, s.bootTurn, if s.fleet.dieOn then s.coreTurns else none,
    turnIf s.fleet.dieOn s.armedTurn, s.queueTurn, s.rankTurn, s.fetcherTurn, s.xquayTurn, s.decoderTurn, s.sensorTurn, s.fwTurn]

end Sys2Proof.Machine
end

