-- ==== Sys2Proof/Machine/Load.lean ====
section
/-!
DEFINITION. How one instruction is put where the next step fetches it (log 18): a stand-in for the launch of a gang (R23), for the firmware
of a Pilot core, and for the load of a rank program (R373).
-/

namespace Sys2Proof.Machine

/-- The part booted, with no input and no gang that could act before the loaded instruction. -/
def State.quiet (s : State) : State :=
  { s with cores := s.cores.map fun c => if c.run.berth.isSome then c.leave else { c with pend := [] }
           gangs := [], gops := [], inputs := []
           fleet := { s.fleet with booted := true, dieOn := true } }

/-- A gang of core 0 alone that runs in berth 0 from gang cycle 0. -/
def soloGang : Gang :=
  { berth := 0, members := [0], origin := 0, t0 := 0, started := true, hold := none, y := none, asked := false, nsave := 0, yielded := false,
    forced := false, clamped := false, saveReq := false, saveAt := 0, startedAt := 0, sp3lo := 0, sp3len := 0, digest := [] }

/-- Core 0 as the one member of that gang, its score memory holding n bytes of w at an address. -/
def Core.solo (c : Core) (a n w : Nat) : Core :=
  { c with
    run := { Run.idle with berth := some 0, started := true }
    seq := { c.seq with next := 0, slot := none, wait := .none, ended := false }
    hnd := Handler.idle
    engs := List.replicate 3 Engine.zero
    lanes := List.replicate 3 Engine.zero
    mem := { c.mem with score := mwriteL c.mem.score a (leBytes n w), scorePoi := [] } }

/-- The solo gang in the part. -/
def State.solo (s : State) (f : Core → Core) : State :=
  let s := s.quiet
  { s with gangs := [soloGang]
           cores := lmod s.cores 0 Core.reset f
           sched := { s.sched with berths := lmod s.sched.berths 0 Bind.zero fun b => { b with state := 2, runlim := 0 } } }

/-- A sequencer word at the PC of core 0, which is put at 0 when it points into the Pilot firmware's handler. -/
def State.loadSeq (s : State) (w : Nat) : State :=
  s.solo fun c =>
    let pc := if c.seq.pc.toNat + 4 ≤ Config.pilotHandler then c.seq.pc else 0
    { c with seq := { c.seq with pc := pc } }.solo pc.toNat 4 w

/-- A vector word as the passage that the vector engine of core 0 plays; the sequencer has ended. -/
def State.loadVec (s : State) (w : Nat) : State :=
  s.solo fun c =>
    let c := c.solo 0 6 w
    { c with seq := { c.seq with ended := true }
             engs := lput c.engs 0 { Engine.zero with q := [{ addr := 0, len := 1, stamp := 0, played := 0 }], started := true, played := true }
               Engine.zero }

/-- An Xquay word at the pc of Pilot core 0, which is put into the Pilot SRAM when it points elsewhere. -/
def State.loadXquay (s : State) (w : Nat) : State :=
  let s := s.quiet
  let pc := (s.pcore 0).pc
  let pc := if Config.sramBase ≤ pc.toNat && pc.toNat + 4 ≤ Config.sramBase + Config.sramSize then pc else word Config.sramBase
  let s := s.modPcore 0 fun c => { c with pc := pc, running := true, wait := none, next := 0 }
  { s with pilot := { s.pilot with sram := mwriteL s.pilot.sram pc.toNat (leBytes 4 w) } }

/-- A rank instruction in slot 0 of the program with which the rank engine ranks a FRAME. -/
def State.loadRank (s : State) (w : Nat) : State :=
  s.quiet.modRank fun r =>
    { r with cur := some { queue := 0, bytes := List.replicate 64 0, args := [], slot := 0 }, curProg := [BitVec.ofNat 32 w], slot := 0, next := 0
             stq := none, result := none }

end Sys2Proof.Machine
end

