-- ==== Sys2Proof/Machine/Step.lean ====
section
/-!
DEFINITION. One step of the part: the next instruction or event of this tide cycle; else a base instruction of a Pilot core; else an
instruction of a host core; else a data word reads its sources anew; else a read of SP3 that was delayed is performed; else what the Pilot firmware does by itself; else the cycle passes.
-/

namespace Sys2Proof.Machine

/-- One step (log 2, log 12). -/
def step (s : State) : Host.Outcome State Fault Refusal :=
  match s.turn with
  | some t => exec t.2 t.1
  | none => match [s.baseMove, s.hartMove, s.readMove, s.lateMove, s.fwMove].findSome? id with
    | some t => .next t
    | none => .next s.tick

/-- The state with an instruction of `nbits` bits where the next step fetches it (log 18). -/
def State.withFetchWord (s : State) (nbits w : Nat) : State :=
  match tableSpace nbits w with
  | 0 => s.loadSeq w
  | 1 => s.loadXquay w
  | 2 => s.loadRank w
  | 3 => s.loadVec w
  | _ => s

end Sys2Proof.Machine
end

