-- ==== Sys2Proof/Safety.lean ====
section
/-!
DEFINITION. What claims about runs are stated in: the canonical form of every memory, the part of the state that an instruction of one
unit leaves alone, and what counts as a safe step.
-/

namespace Sys2Proof.Machine

/-! ## Canonical memories -/

/-- SP1 and score memory of a core are canonical. -/
def Core.memOk (c : Core) : Prop := Memory.wf c.mem.sp1 = true ∧ Memory.wf c.mem.score = true

/-- The SP2 bytes that a save keeps are canonical. -/
def Saved.memOk (v : Saved) : Prop := ∀ x ∈ v.sp2, Memory.wf x.bytes = true

/-- SP2, SP3, HBM and PCIe memory are canonical. -/
def Mem.memOk (m : Mem) : Prop :=
  (∀ x ∈ m.sp2, Memory.wf x = true) ∧ Memory.wf m.sp3 = true ∧ Memory.wf m.hbm = true ∧ Memory.wf m.pcie = true

/-- Every memory of the part is canonical: equal contents are equal data (log 1). -/
structure State.memOk (s : State) : Prop where
  cores : ∀ c ∈ s.cores, c.memOk
  saves : ∀ v ∈ s.saves, v.memOk
  mem   : s.mem.memOk
  sram  : Memory.wf s.pilot.sram = true
  flash : Memory.wf s.fleet.flash = true

/-! ## Frames -/

/-- What a sequencer instruction that only writes a register may change: in its own core the effects in flight, where its context goes
on, and PERF; besides, the counter that names effects. Every register, flag, special register, accumulator, channel, descriptor,
memory, gang and every other core stands. -/
structure SeqFrame (s t : State) : Prop where
  rest   : t = { s with cores := t.cores, nextId := t.nextId }
  others : ∀ k, k ≠ s.cur.core → t.core k = s.core k
  own    : t.me = { s.me with
             pend := t.me.pend, perf := t.me.perf
             seq := { s.me.seq with pc := t.me.seq.pc, next := t.me.seq.next, slot := t.me.seq.slot }
             sh := { s.me.sh with pc := t.me.sh.pc, next := t.me.sh.next, slot := t.me.sh.slot } }

/-- What a vector word without channels may change: in its own core the effects in flight, the progress of the vector queue or lane, and
PERF; besides, the counter that names effects. -/
structure VecFrame (s t : State) : Prop where
  rest   : t = { s with cores := t.cores, nextId := t.nextId }
  others : ∀ k, k ≠ s.cur.core → t.core k = s.core k
  own    : t.me = { s.me with pend := t.me.pend, perf := t.me.perf, engs := t.me.engs, lanes := t.me.lanes }

/-- Memory reads the same at every home and in every scratchpad: at each home but SP3's, every byte as its readers see it; in SP3, every
byte and the landed writes that its readers come to see in their turn (R77, R81). -/
structure SameMemory (s t : State) : Prop where
  home : ∀ tgt a, tgt ≠ 3 → t.gByte tgt a = s.gByte tgt a
  sp3  : ∀ a, mread t.mem.sp3 a = mread s.mem.sp3 a
  spq  : t.mem.spq = s.mem.spq
  sp1  : ∀ k a, mread (t.core k).mem.sp1 a = mread (s.core k).mem.sp1 a
  sp2  : ∀ u a, mread (lget t.mem.sp2 u []) a = mread (lget s.mem.sp2 u []) a

/-! ## How a vector repeat completes -/

/-- Nothing stops a repeat with sources `vs` and destination `dst` (R137, R193, R194, R196, R238): its word is from a clean line, no channel
refuses it, every entry that it pops or peeks has landed, and the channel that it pushes has room. -/
def State.vecOk (s : State) (mesh : Bool) (vs : List VSrc) (dst : Option (Bool × Nat)) : Bool :=
  !s.wordBad .vec && (s.chanFaults vs dst).isNone && (s.srcMiss vs).isNone &&
  (match dst with | some (true, c) => (mesh || !s.isMesh s.cur.core c) && !s.pushMiss c | _ => true)

/-- The word in issue is legal; its fields are looked at when its first repeat issues (R135, R190). -/
def State.wordLegal (s : State) (u : Eng) (legal : Bool) : Bool := (s.eng u).rep != 0 || legal

/-- A vector repeat that has issued: its result is on its way with latency `lat`, its sources are popped, and the engine goes to the next
repeat or word after `occ` cycles (R36, R238, R240). -/
def State.vecDone (s : State) (dst : Option (Bool × Nat)) (reps occ lat : Nat) (vs : List VSrc) (o : VOut) : State :=
  let s := (popCounts vs).foldl (fun s (c, n) => s.popChan c n) (s.vecOut dst lat o)
  (o.also (s.modEng .vec fun e => { e with acc := o.acc })).engIssue .vec reps occ

/-- The result of a word that works lane by lane on va, vb and the old vd (R238, R239). -/
def State.laneOut (s : State) (w : V3) (f : VForm) (k : Nat) (op : Lane → Lane → Lane → LaneR) : VOut :=
  let old : List Lane := match v3Dest w f k with | some (false, r) => lget s.me.vec.v r [] | _ => []
  let src := s.srcLanes (v3Srcs w f k)
  let rs := (List.range 64).map fun l => op (lget (lget src 0 []) l 0) (lget (lget src 1 []) l 0) (lget old l 0)
  let wm := if w.msk then s.me.active else BitVec.allOnes 64
  { lanes := rs.map (·.1), wm := wm, fl := writtenFlags wm rs }

/-! ## Safe steps -/

/-- A step is safe when it answers a next state. -/
def SafeStep (s : State) : Prop := ∃ t, step s = .next t

end Sys2Proof.Machine
end

