-- ==== Sys2Proof/Certificates/Slice0/Obligations.lean ====
section
/-!
DEFINITION. The statements for the provers. Each docstring names the rules of spec/ that it formalises; where a clause rests on a choice of
the model, it names the log entry.
-/

open Sys2Proof Sys2Proof.Machine

/-! ## Which instructions are whose -/

/-- The Xquay instructions (R393) and the rank instructions (R372): their words are read in spaces of their own. -/
def Claims.isXquay : Instr → Bool
  | .qfetch _ _ _ => true
  | .qbfx _ _ _ => true
  | .qbfxS _ _ _ => true
  | .qwait _ _ _ => true
  | .qdisp _ _ _ => true
  | _ => false
def Claims.isRank : Instr → Bool
  | .rankEnd _ => true
  | .rankLdi _ _ => true
  | .rankLdf _ _ _ _ _ => true
  | .rankAdd _ _ _ => true
  | .rankSub _ _ _ => true
  | .rankMulsh _ _ _ _ => true
  | .rankShl _ _ _ => true
  | .rankShr _ _ _ => true
  | .rankMin _ _ _ => true
  | .rankSmax _ _ _ => true
  | .rankAnd _ _ _ => true
  | .rankOr _ _ _ => true
  | .rankStq _ => true
  | .rankSltu _ _ _ => true
  | _ => false

/-- The sequencer's instructions: those with a word of 32 bits that are neither Xquay nor rank instructions (R178). -/
def Claims.isSequencer (i : Instr) : Prop := (∃ w, encode i = some (32, w)) ∧ Claims.isXquay i = false ∧ Claims.isRank i = false

/-! ## The sequencer's ALU (R207, R208) -/

/-- R207: what sd receives from each row of the ALU group but the three that count bits, with the latency of R205. The write is in flight
until it lands, and the sequencer goes on. -/
def Claims.AluRegisterResults : Prop :=
  ∀ (s : State) (d a b : BitVec 5), s.canIssue anyPlace = true →
    ∀ r ∈ ([(.add d a b, 2, BitVec.ofNat 64 ((s.rd a).toNat + (s.rd b).toNat)),
            (.sub d a b, 2, BitVec.ofInt 64 ((s.rd a).toNat - (s.rd b).toNat)),
            (.and_ d a b, 2, s.rd a &&& s.rd b), (.or_ d a b, 2, s.rd a ||| s.rd b), (.xor d a b, 2, s.rd a ^^^ s.rd b),
            (.andn d a b, 2, s.rd a &&& ~~~s.rd b), (.orn d a b, 2, s.rd a ||| ~~~s.rd b),
            (.sll d a b, 2, s.rd a <<< ((s.rd b).toNat % 64)), (.srl d a b, 2, s.rd a >>> ((s.rd b).toNat % 64)),
            (.sra d a b, 2, (s.rd a).sshiftRight ((s.rd b).toNat % 64)),
            (.rol d a b, 2, (s.rd a).rotateLeft ((s.rd b).toNat % 64)), (.ror d a b, 2, (s.rd a).rotateRight ((s.rd b).toNat % 64)),
            (.slt d a b, 2, if (s.rd a).toInt < (s.rd b).toInt then 1 else 0),
            (.sltu d a b, 2, if (s.rd a).toNat < (s.rd b).toNat then 1 else 0),
            (.min_ d a b, 2, if (s.rd a).toInt < (s.rd b).toInt then s.rd a else s.rd b),
            (.max_ d a b, 2, if (s.rd a).toInt < (s.rd b).toInt then s.rd b else s.rd a),
            (.minu d a b, 2, if (s.rd a).toNat < (s.rd b).toNat then s.rd a else s.rd b),
            (.maxu d a b, 2, if (s.rd a).toNat < (s.rd b).toNat then s.rd b else s.rd a),
            (.mul d a b, 4, BitVec.ofNat 64 ((s.rd a).toNat * (s.rd b).toNat)),
            (.mulh d a b, 4, BitVec.ofInt 64 ((s.rd a).toInt * (s.rd b).toInt / 2 ^ 64)),
            (.mulhu d a b, 4, BitVec.ofNat 64 ((s.rd a).toNat * (s.rd b).toNat / 2 ^ 64)),
            (.mulhsu d a b, 4, BitVec.ofInt 64 ((s.rd a).toInt * (s.rd b).toNat / 2 ^ 64))] : List (Instr × Nat × Word)),
      exec r.1 s = .next ((s.wrReg d r.2.1 r.2.2).next1)

/-- R207: CLZ, CTZ and POPC. CLZ and CTZ give the n for which the n leading, or trailing, bits are 0 and the next one, unless n is 64, is
1; POPC gives the number of 1 bits. -/
def Claims.AluCounts : Prop :=
  ∀ (s : State) (d a : BitVec 5), s.canIssue anyPlace = true →
    (∃ n, n ≤ 64 ∧ (∀ i, i < n → (s.rd a).getLsbD (63 - i) = false) ∧ (n < 64 → (s.rd a).getLsbD (63 - n) = true) ∧
      exec (.clz d a) s = .next ((s.wrReg d 2 (BitVec.ofNat 64 n)).next1)) ∧
    (∃ n, n ≤ 64 ∧ (∀ i, i < n → (s.rd a).getLsbD i = false) ∧ (n < 64 → (s.rd a).getLsbD n = true) ∧
      exec (.ctz d a) s = .next ((s.wrReg d 2 (BitVec.ofNat 64 n)).next1)) ∧
    exec (.popc d a) s = .next ((s.wrReg d 2 (BitVec.ofNat 64 (((List.range 64).map fun i => ((s.rd a).getLsbD i).toNat).sum))).next1)

/-- R208: what sd receives from each immediate form, with the latency of R205. -/
def Claims.AluImmediateResults : Prop :=
  ∀ (s : State) (d a : BitVec 5) (i : BitVec 16) (h : BitVec 6), s.canIssue anyPlace = true →
    ∀ r ∈ ([(.addi d a i, 2, BitVec.ofInt 64 ((s.rd a).toNat + i.toInt)),
            (.andi d a i, 2, s.rd a &&& i.setWidth 64), (.ori d a i, 2, s.rd a ||| i.setWidth 64),
            (.xori d a i, 2, s.rd a ^^^ i.setWidth 64),
            (.slti d a i, 2, if (s.rd a).toInt < i.toInt then 1 else 0),
            (.sltiu d a i, 2, if (s.rd a).toNat < (BitVec.ofInt 64 i.toInt).toNat then 1 else 0),
            (.slli d a h, 2, s.rd a <<< h.toNat), (.srli d a h, 2, s.rd a >>> h.toNat), (.srai d a h, 2, (s.rd a).sshiftRight h.toNat),
            (.lui d i, 2, BitVec.ofInt 64 (i.toInt * 2 ^ 16)),
            (.shori d a i, 2, BitVec.ofNat 64 ((s.rd a).toNat * 2 ^ 16) ||| i.setWidth 64),
            (.muli d a i, 4, BitVec.ofInt 64 ((s.rd a).toInt * i.toInt))] : List (Instr × Nat × Word)),
      exec r.1 s = .next ((s.wrReg d r.2.1 r.2.2).next1)

/-- R30, R205, R207, R208, R230: the frame of the instructions that only write a scalar register: every register of both contexts, flag,
special register, accumulator, byte of memory and other core is unchanged; the write itself is in flight. -/
def Claims.RegisterFormsFrame : Prop :=
  ∀ (s t : State) (d a b : BitVec 5) (i : BitVec 16) (h : BitVec 6), s.canIssue anyPlace = true →
    ∀ x ∈ ([.add d a b, .sub d a b, .and_ d a b, .or_ d a b, .xor d a b, .andn d a b, .orn d a b, .sll d a b, .srl d a b, .sra d a b,
            .slt d a b, .sltu d a b, .min_ d a b, .max_ d a b, .minu d a b, .maxu d a b, .mul d a b, .mulh d a b, .mulhu d a b,
            .mulhsu d a b, .clz d a, .ctz d a, .popc d a, .rol d a b, .ror d a b, .addi d a i, .andi d a i, .ori d a i, .xori d a i,
            .slti d a i, .sltiu d a i, .slli d a h, .srli d a h, .srai d a h, .lui d i, .shori d a i, .muli d a i] : List Instr),
      exec x s = .next t → SeqFrame s t ∧ SameMemory s t

/-- R17, R37, R204: a write of a scalar register, once it lands, gives the register its value and leaves every other register of both
contexts; a write of s0 leaves s0 reading 0. -/
def Claims.RegisterWriteLands : Prop :=
  ∀ (s : State) (p : Pend) (r : Nat) (v : Word), p.eff = .sreg false r v → p.need = none →
    (s.landQuiet p).me.seq.reg r = (if r = 0 then 0 else v) ∧
    (∀ q, q ≠ r → (s.landQuiet p).me.seq.reg q = s.me.seq.reg q) ∧
    (∀ q, (s.landQuiet p).me.sh.reg q = s.me.sh.reg q) ∧ (s.landQuiet p).me.seq.reg 0 = 0

/-- R37, R204: an instruction that writes sd with latency L at cycle c is seen by instructions issued from c + L on: the one effect in
flight of a running core lands at the end of cycle c + L − 1 and not before. -/
def Claims.LatencyIsKept : Prop :=
  ∀ (s : State) (d : BitVec 5) (lat : Nat) (v : Word) (k : Nat), k = s.cur.core → s.cur.shadow = false → d ≠ 0 → 1 ≤ lat →
    s.me.pend = [] → s.me.run.stop = none → s.isLate s.nextId = false →
    ∀ g, s.me.run.g ≤ g →
      let t := (s.wrReg d lat v).modCore k fun c => { c with run := { c.run with g := g } }
      ((t.landAllQuiet k).core k).seq.reg d.toNat = (if s.me.run.g + lat - 1 ≤ g then v else s.me.seq.reg d.toNat)

/-! ## Branches and jumps (R38, R180, R213, R214) -/

/-- R213, R180, R38: when each branch is taken; its delay slot is next and then the target or the word after the slot. -/
def Claims.BranchResults : Prop :=
  ∀ (s : State) (a b : BitVec 5) (o : BitVec 16), s.canIssue noSlot = true →
    let tgt : Int := s.ctx.pc.toNat + 4 + 4 * o.toInt
    s.ctx.pc.toNat % 4 = 0 →
    ∀ r ∈ ([(.beq a b o, decide (s.rd a = s.rd b)), (.bne a b o, decide (s.rd a ≠ s.rd b)),
            (.blt a b o, decide ((s.rd a).toInt < (s.rd b).toInt)), (.bge a b o, decide ((s.rd b).toInt ≤ (s.rd a).toInt)),
            (.bltu a b o, decide ((s.rd a).toNat < (s.rd b).toNat)), (.bgeu a b o, decide ((s.rd b).toNat ≤ (s.rd a).toNat)),
            (.bmz o, s.maskSeen), (.bmnz o, !s.maskSeen)] : List (Instr × Bool)),
      (r.2 = true → 0 ≤ tgt ∧ tgt < (if s.cur.shadow then 0x40000 else 0x3E000)) →
      exec r.1 s = .next (s.branchTo (if r.2 then BitVec.ofInt 18 tgt else s.ctx.pc + 8) s.maskSeen)

/-- R214, R180: J, JAL and JR; JAL links in s31 and JR in sd with latency 2, and JR jumps to the value sa had at its issue. -/
def Claims.JumpResults : Prop :=
  ∀ (s : State) (d a : BitVec 5) (o : BitVec 26), s.canIssue noSlot = true → s.ctx.pc.toNat % 4 = 0 →
    let tgt : Int := s.ctx.pc.toNat + 4 + 4 * o.toInt
    let top : Nat := if s.cur.shadow then 0x40000 else 0x3E000
    let link : Word := BitVec.ofNat 64 (s.ctx.pc.toNat + 8)
    (0 ≤ tgt → tgt < top →
      exec (.j o) s = .next (s.branchTo (BitVec.ofInt 18 tgt) s.maskSeen) ∧
      exec (.jal o) s = .next ((s.wrReg 31 2 link).branchTo (BitVec.ofInt 18 tgt) s.maskSeen)) ∧
    ((s.rd a).toNat < top → (s.rd a).toNat % 4 = 0 →
      exec (.jr d a) s = .next ((s.wrReg d 2 link).branchTo ((s.rd a).setWidth 18) s.maskSeen))

/-- R38: after a branch the word at PC + 4 is in its delay slot; once that has issued, the next instruction is at the destination, one
cycle later. -/
def Claims.DelaySlot : Prop :=
  ∀ (s : State) (dest : BitVec 18) (m : Bool),
    let t := s.branchTo dest m
    t.ctx.pc = s.ctx.pc + 4 ∧ t.ctx.slot.map Slot.dest = some dest ∧ t.ctx.next = s.clk + 1 ∧
    t.next1.ctx.pc = dest ∧ t.next1.ctx.slot = none ∧ t.next1.ctx.next = s.clk + 1

/-- R38, R205: a branch or jump in a delay slot raises ILLEGAL_INSTR with the instruction in INFO and has no effect. -/
def Claims.BranchInSlot : Prop :=
  ∀ (s : State) (a b d : BitVec 5) (o : BitVec 16) (p : BitVec 26), s.ctx.slot.isSome = true → s.me.badLine s.ctx.pc.toNat 4 = false →
    ∀ i ∈ ([.beq a b o, .bne a b o, .blt a b o, .bge a b o, .bltu a b o, .bgeu a b o, .bmz o, .bmnz o, .j p, .jal p, .jr d a] : List Instr),
      exec i s = .next (s.takeFault (mkFault 0 0x01 (encodeNat i)))

/-- R180, R213: a taken transfer to a target outside the legal range raises PERM with the target in INFO, and a JR to a target that is no
multiple of 4 raises ALIGN; no link is written and no slot issues. That a target with both defects raises PERM is the model's choice (log
21). -/
def Claims.TransferFaults : Prop :=
  ∀ (s : State) (a b d : BitVec 5) (o : BitVec 16) (p : BitVec 26), s.canIssue noSlot = true →
    let top : Nat := if s.cur.shadow then 0x40000 else 0x3E000
    (let tgt : Int := s.ctx.pc.toNat + 4 + 4 * o.toInt
     (tgt < 0 ∨ top ≤ tgt) →
     ∀ r ∈ ([(.beq a b o, decide (s.rd a = s.rd b)), (.bne a b o, decide (s.rd a ≠ s.rd b)),
             (.blt a b o, decide ((s.rd a).toInt < (s.rd b).toInt)), (.bge a b o, decide ((s.rd b).toInt ≤ (s.rd a).toInt)),
             (.bltu a b o, decide ((s.rd a).toNat < (s.rd b).toNat)), (.bgeu a b o, decide ((s.rd b).toNat ≤ (s.rd a).toNat)),
             (.bmz o, s.maskSeen), (.bmnz o, !s.maskSeen)] : List (Instr × Bool)),
       r.2 = true → exec r.1 s = .next (s.takeFault (mkFault 0 0x05 (tgt % 2 ^ 64).toNat))) ∧
    (let tgt : Int := s.ctx.pc.toNat + 4 + 4 * p.toInt
     (tgt < 0 ∨ top ≤ tgt) →
       exec (.j p) s = .next (s.takeFault (mkFault 0 0x05 (tgt % 2 ^ 64).toNat)) ∧
       exec (.jal p) s = .next (s.takeFault (mkFault 0 0x05 (tgt % 2 ^ 64).toNat))) ∧
    (top ≤ (s.rd a).toNat → exec (.jr d a) s = .next (s.takeFault (mkFault 0 0x05 (s.rd a).toNat))) ∧
    ((s.rd a).toNat < top → (s.rd a).toNat % 4 ≠ 0 → exec (.jr d a) s = .next (s.takeFault (mkFault 0 0x03 (s.rd a).toNat)))

/-! ## Loads and stores (R206, R209 to R212) -/

/-- R209, R210, R205: a load from SP1, SP2 or SP3 at an aligned address inside its level delivers the bytes as its width says, after 6, 12
or 48 cycles; a poisoned granule sets CHKINT. SP2 needs the image's USESP2 (R360). In a handler the bytes must have no pending main
write (R141). -/
def Claims.ScratchpadLoads : Prop :=
  ∀ (s : State) (w : BitVec 3) (d a : BitVec 5) (off : BitVec 13), s.canIssue anyPlace = true → w.toNat ≤ 6 →
    let n := 2 ^ (w.toNat % 4)
    let o := (s.rd a + off.signExtend 64).toNat
    o % n = 0 →
    ∀ r ∈ ([(.ldSp1 w d a off, 0, 0x300000, 6), (.ldSp2 w d a off, 1, 0x800000, 12), (.ldSp3 w d a off, 2, 0x1400000, 48)] :
        List (Instr × Nat × Nat × Nat)),
      o < r.2.2.1 → (r.2.1 = 1 → s.me.run.usesp2 = true) → s.handlerWaits r.2.1 o n = false →
      let x := leNat (s.spRead s.cur.core r.2.1 o n)
      let v : Word :=
        if w = 0 then (BitVec.ofNat 8 x).signExtend 64 else if w = 1 then (BitVec.ofNat 16 x).signExtend 64
        else if w = 2 then (BitVec.ofNat 32 x).signExtend 64 else BitVec.ofNat 64 x
      exec r.1 s = .next (((s.wrReg d r.2.2.2 v).chkIf 0 (s.spPoison s.cur.core r.2.1 o n)).next1)

/-- R206, R209, R210: a store into SP1, SP2 or SP3 is one write in flight of the low bytes of sd at the effective address, landing at
c + 3, c + 11 or c + 47. -/
def Claims.ScratchpadStores : Prop :=
  ∀ (s : State) (w : BitVec 3) (d a : BitVec 5) (off : BitVec 13), s.canIssue anyPlace = true → w.toNat ≤ 3 →
    let n := 2 ^ w.toNat
    let o := (s.rd a + off.signExtend 64).toNat
    o % n = 0 →
    ∀ r ∈ ([(.stSp1 w d a off, 0, 0x300000, 3), (.stSp2 w d a off, 1, 0x800000, 11), (.stSp3 w d a off, 2, 0x1400000, 47)] :
        List (Instr × Nat × Nat × Nat)),
      o < r.2.2.1 → (r.2.1 = 1 → s.me.run.usesp2 = true) →
      exec r.1 s = .next ((s.addPend 0 (s.clk + r.2.2.2) (.sp r.2.1 [{ addr := o, bytes := leBytes n (s.rd d).toNat, poison := false }])).next1)

/-- R209, R210: a misaligned address raises ALIGN and an address at or above the level's size PERM, each with the address in INFO; the
instruction has no other effect. -/
def Claims.ScratchpadFaults : Prop :=
  ∀ (s : State) (w : BitVec 3) (d a : BitVec 5) (off : BitVec 13), s.canIssue anyPlace = true →
    let o := (s.rd a + off.signExtend 64).toNat
    ∀ r ∈ ([(.ldSp1 w d a off, 6, 0x300000), (.ldSp2 w d a off, 6, 0x800000), (.ldSp3 w d a off, 6, 0x1400000),
            (.stSp1 w d a off, 3, 0x300000), (.stSp2 w d a off, 3, 0x800000), (.stSp3 w d a off, 3, 0x1400000)] : List (Instr × Nat × Nat)),
      w.toNat ≤ r.2.1 →
      (o % 2 ^ (w.toNat % 4) ≠ 0 → exec r.1 s = .next (s.takeFault (mkFault 0 0x03 o))) ∧
      (o % 2 ^ (w.toNat % 4) = 0 → r.2.2 ≤ o → exec r.1 s = .next (s.takeFault (mkFault 0 0x05 o)))

/-- A write in flight after whose landing on this gang cycle no other of the core's own units has landed in the level: the one whose bytes
stand (R261). -/
def Claims.lastToLand (s : State) (p : Pend) (lvl : Nat) : Prop :=
  ∀ x ∈ s.me.landed, x.lvl = lvl → x.unit < p.unit ∨ (x.unit = p.unit ∧ x.id ≤ p.id)

/-- A byte of a served sync object's ARMED field at a target: a write leaves it (R79; log 66). -/
def Claims.keptArmed (s : State) (tgt a : Nat) : Prop := ∃ x ∈ s.mem.syncs, x.1 = tgt ∧ x.2 + 8 ≤ a ∧ a < x.2 + 10

/-- The state with core k one gang cycle on. -/
def Claims.oneOn (s : State) (k : Nat) : State := s.modCore k fun c => { c with run := { c.run with g := c.run.g + 1 } }

/-- R39, R73, R206, R261: when a write in flight of bytes in a level lands, and it is the last of its cycle, every byte is what its pieces make
of it, the later piece standing: in SP1 at once, in SP2 and SP3 as the core sees them from the next gang cycle on (ARMED of a served sync
object keeps its bytes, R79). -/
def Claims.PiecesLand : Prop :=
  ∀ (s : State) (p : Pend) (lvl : Nat) (ps : List Piece), s.thePend = some p → s.needMet p = true → Claims.lastToLand s p lvl →
    p.eff = .sp lvl ps →
    (lvl = 0 → Memory.wf s.me.mem.sp1 = true →
      ∃ t, exec .spWriteLands s = .next t ∧ ∀ a, mread t.me.mem.sp1 a = overlay ps a (mread s.me.mem.sp1 a)) ∧
    ((lvl = 1 ∨ lvl = 2) → ∀ b, s.me.run.berth = some b → (∀ w ∈ s.mem.spq, w.berth = b ∨ w.deps = []) →
      ∃ t, exec .spWriteLands s = .next t ∧
        let k := s.cur.core
        let u := Claims.oneOn t k
        let old (a : Nat) : Byte := (Claims.oneOn s k).spLanded k lvl a
        u.spAhead k lvl = [] → ∀ a,
          (lvl = 2 ∧ Claims.keptArmed s 3 a → u.spByte k lvl a = old a) ∧
          (¬ (lvl = 2 ∧ Claims.keptArmed s 3 a) → u.spByte k lvl a = overlay ps a (old a)))

/-- R39, R73, R206, R261: when the write in flight of a store lands, and it is the last of its cycle, the stored bytes are there and every
other byte of the level is as before: in SP1 at once, in SP2 and SP3 as the core sees them from the next gang cycle on (ARMED of a served
sync object keeps its bytes, R79). -/
def Claims.StoreLands : Prop :=
  ∀ (s : State) (p : Pend) (lvl o n v : Nat), s.thePend = some p → s.needMet p = true → Claims.lastToLand s p lvl →
    p.eff = .sp lvl [{ addr := o, bytes := leBytes n v, poison := false }] →
    (lvl = 0 → Memory.wf s.me.mem.sp1 = true →
      ∃ t, exec .spWriteLands s = .next t ∧
        (∀ i, i < n → mread t.me.mem.sp1 (o + i) = BitVec.ofNat 8 (v / 2 ^ (8 * i))) ∧
        ∀ a, a < o ∨ o + n ≤ a → mread t.me.mem.sp1 a = mread s.me.mem.sp1 a) ∧
    ((lvl = 1 ∨ lvl = 2) → ∀ b, s.me.run.berth = some b →
      ∃ t, exec .spWriteLands s = .next t ∧ t.me.mem.sp1 = s.me.mem.sp1 ∧
        let k := s.cur.core
        let u := Claims.oneOn t k
        u.spAhead k lvl = [] →
        (∀ i, i < n → ¬ (lvl = 2 ∧ Claims.keptArmed s 3 (o + i)) → u.spByte k lvl (o + i) = BitVec.ofNat 8 (v / 2 ^ (8 * i))) ∧
        ((∀ w ∈ s.mem.spq, w.berth = b ∨ w.deps = []) →
          ∀ a, a < o ∨ o + n ≤ a → u.spByte k lvl a = (Claims.oneOn s k).spLanded k lvl a))

/-- R30, R39, R206: no byte of any memory changes when a scratchpad store issues; the write is in flight. -/
def Claims.StoresFrame : Prop :=
  ∀ (s t : State) (w : BitVec 3) (d a : BitVec 5) (off : BitVec 13), s.canIssue anyPlace = true →
    ∀ i ∈ ([.stSp1 w d a off, .stSp2 w d a off, .stSp3 w d a off, .ldSp1 w d a off, .ldSp2 w d a off, .ldSp3 w d a off] : List Instr),
      exec i s = .next t → SameMemory s t ∧ (∀ k, k ≠ s.cur.core → (t.core k).seq = (s.core k).seq) ∧
        (∀ r, t.me.seq.reg r = s.me.seq.reg r) ∧ (∀ r, t.me.sh.reg r = s.me.sh.reg r) ∧ t.me.vec = s.me.vec ∧ t.me.mtx = s.me.mtx

/-- R211, R212, R301: a global load or store whose place the pinned ranges or the aperture give: the load waits for the home with the
class 0 budget, the store is an operation of the sequencer queue with no promised cycle; a place that they refuse is its fault. -/
def Claims.GlobalAccesses : Prop :=
  ∀ (s : State) (w : BitVec 3) (d a : BitVec 5) (off : BitVec 13), s.canIssue anyPlace = true →
    ∀ r ∈ ([(.ldG w d a off, .stG w d a off, false), (.ldAp w d a off, .stAp w d a off, true)] : List (Instr × Instr × Bool)),
      (w.toNat ≤ 6 → ∀ va rs, s.globalPlace r.2.2 false (s.rd a) off (2 ^ (w.toNat % 4)) = .inr (va, rs) →
        let b := budget 0 (runsTarget rs) (2 ^ (w.toNat % 4))
        let op := s.newOp s.cur.core 0 (.read rs) [] 0 b
        exec r.1 s = .next ((op.2.addPend 0 (s.clk + b - 1) (.ldReg s.cur.shadow d.toNat w.toNat)
          true (some op.1)).next1)) ∧
      (w.toNat ≤ 3 → ∀ va rs, s.globalPlace r.2.2 true (s.rd a) off (2 ^ w.toNat) = .inr (va, rs) →
        exec r.2.1 s = .next ((s.newOp s.cur.core 0 (.write (splitRuns rs (leBytes (2 ^ w.toNat) (s.rd d).toNat) false))
          [(0, va, 2 ^ w.toNat)]).2.next1)) ∧
      (w.toNat ≤ 6 → ∀ f, s.globalPlace r.2.2 false (s.rd a) off (2 ^ (w.toNat % 4)) = .inl f → exec r.1 s = .next (s.takeFault f)) ∧
      (w.toNat ≤ 3 → ∀ f, s.globalPlace r.2.2 true (s.rd a) off (2 ^ w.toNat) = .inl f → exec r.2.1 s = .next (s.takeFault f))

/-- R69, R211: the places of LD.G and ST.G: a misaligned address is ALIGN; with no bound LEVEL 3 descriptor (for a store, one whose RO is
clear) in whose pinned range every byte lies it is PERM; with one, the translation that a DBIND recorded there is taken. -/
def Claims.GlobalPlaces : Prop :=
  ∀ (s : State) (store : Bool) (x : Word) (off : BitVec 13) (n : Nat),
    let o := (x + off.signExtend 64).toNat
    let fits (d : Desc) : Prop := d.bound = true ∧ d.level = 3 ∧ (store = true → d.ro = false)
    (o % n ≠ 0 → s.globalPlace false store x off n = .inl (mkFault 0 0x03 o)) ∧
    (o % n = 0 → (∀ d ∈ s.me.descs, fits d → d.xlate o n = none) → s.globalPlace false store x off n = .inl (mkFault 0 0x05 o)) ∧
    (o % n = 0 → ∀ d ∈ s.me.descs, fits d → d.xlate o n ≠ none →
      ∃ e ∈ s.me.descs, fits e ∧ ∃ rs, e.xlate o n = some rs ∧ s.globalPlace false store x off n = .inr (o, rs))

/-- R64, R209, R211: the checks of LD.AP and ST.AP: bits [59:48] of the address, the range of the offset, alignment, VALID, APERTURE_KIND
for a BTC aperture, LEN, a store through an RO aperture, and the pinned range of a bound LEVEL 4 descriptor of the aperture (for a store,
one whose RO is clear). Their order is the model's choice (log 22), and so is that the first byte alone is held against LEN (log 91). -/
def Claims.ApertureChecks : Prop :=
  ∀ (s : State) (store : Bool) (w : BitVec 3) (d a : BitVec 5) (off : BitVec 13), s.canIssue anyPlace = true →
    w.toNat ≤ (if store then 3 else 6) →
    let i : Instr := if store then .stAp w d a off else .ldAp w d a off
    let x := s.rd a
    let ap := x.toNat / 2 ^ 60
    let oi : Int := (x.toNat % 2 ^ 48 : Nat) + off.toInt
    let n := 2 ^ (w.toNat % 4)
    (x.toNat / 2 ^ 48 % 2 ^ 12 ≠ 0 → exec i s = .next (s.takeFault (mkFault 0 0x05 x.toNat))) ∧
    (x.toNat / 2 ^ 48 % 2 ^ 12 = 0 →
      ((oi < 0 ∨ 2 ^ 48 ≤ oi) → exec i s = .next (s.takeFault (mkFault 0 0x05 (oi % 2 ^ 64).toNat))) ∧
      (0 ≤ oi → oi < 2 ^ 48 →
        let o := oi.toNat
        let kind := (s.aperWord ap 0).toNat / 2 ^ 61 % 4
        let len := (s.aperWord ap 2).toNat % 2 ^ 48
        let va := (s.aperWord ap 0).toNat % 2 ^ 48 + o
        let fits (e : Desc) : Prop := e.bound = true ∧ e.level = 4 ∧ e.apidx.toNat = ap ∧ (store = true → e.ro = false)
        (o % n ≠ 0 → exec i s = .next (s.takeFault (mkFault 0 0x03 o))) ∧
        (o % n = 0 → (s.aperWord ap 0).getLsbD 63 = false → exec i s = .next (s.takeFault (mkFault 0 0x05 o))) ∧
        (o % n = 0 → (s.aperWord ap 0).getLsbD 63 = true →
          (kind = 1 → exec i s = .next (s.takeFault (mkFault 0 0x06 ap))) ∧
          (kind ≠ 1 → (len ≤ o ∨ (store = true ∧ kind = 2) ∨ ∀ e ∈ s.me.descs, fits e → e.xlate va n = none) →
            exec i s = .next (s.takeFault (mkFault 0 0x05 o))) ∧
          (kind ≠ 1 → o < len → ¬ (store = true ∧ kind = 2) → ∀ e ∈ s.me.descs, fits e → e.xlate va n ≠ none →
            ∃ e' ∈ s.me.descs, fits e' ∧ ∃ rs, e'.xlate va n = some rs ∧ s.globalPlace true store x off n = .inr (va, rs)))))

/-! ## System registers (R230, R231, R166) -/

/-- R230, R231: MFS delivers the register's value with latency 2; a number without a register, and MAINS and MAINPC outside a handler,
raise ILLEGAL_INSTR; under DETMODE, TIDE, COREID, GANGID and the performance counters raise DET_READ in the main context (R166). -/
def Claims.SystemRegisterReads : Prop :=
  ∀ (s : State) (d : BitVec 5) (n : BitVec 12), s.canIssue anyPlace = true →
    (∀ v, s.sysRead n.toNat = some v → (mainReg n.toNat = true → s.cur.shadow = true) →
      (detReg n.toNat = true → s.cur.shadow = true ∨ s.me.modes.detEn = false) → exec (.mfs d n) s = .next ((s.wrReg d 2 v).next1)) ∧
    (s.sysRead n.toNat = none → exec (.mfs d n) s = .next (s.takeFault (mkFault 0 0x01 (encodeNat (.mfs d n))))) ∧
    (mainReg n.toNat = true → s.cur.shadow = false → exec (.mfs d n) s = .next (s.takeFault (mkFault 0 0x01 (encodeNat (.mfs d n))))) ∧
    (∀ v, s.sysRead n.toNat = some v → detReg n.toNat = true → mainReg n.toNat = false → s.cur.shadow = false → s.me.modes.detEn = true →
      exec (.mfs d n) s = .next (s.takeFault (mkFault 0 0x0B n.toNat)))

/-- R231, R26, R233: which value some registers read: TIDE the member's own tide count, GTIME its gang time, COREID its place. -/
def Claims.PlacementRegisters : Prop :=
  ∀ (s : State),
    s.sysRead 0x000 = some (BitVec.ofNat 64 (s.tide + 2 * s.me.run.hop)) ∧ s.sysRead 0x001 = some (BitVec.ofNat 64 s.me.run.g) ∧
    s.sysRead 0x002 = some (BitVec.ofNat 64 (s.me.run.member * 2 ^ 24 + (s.cur.core / 6 / 2 * 3 + s.cur.core % 6 / 2) * 2 ^ 16 +
      s.cur.core / 6 * 2 ^ 11 + s.cur.core % 6 * 2 ^ 8 + s.cur.core)) ∧
    (∀ i, i < 8 → s.sysRead (0x060 + i) = some (lget s.me.perf i 0)) ∧
    (∀ i, i < 16 → ∀ k, k < 4 → s.sysRead (0x080 + 4 * i + k) = some (s.aperWord i k))

/-- R42, R48, R100, R105, R116, R138, R140, R141, R146, R153, R158, R165, R195, R231, R234, R235, R242, R285, R287, R291, R306, R310: what
an MFS of each other register reads, field by field; every bit not named reads 0. -/
def Claims.RegisterValues : Prop :=
  ∀ (s : State),
    let c := s.me
    let m := c.modes
    let p := c.params
    let x := c.mtx
    let b (n : Nat) (v : Bool) : Nat := v.toNat * 2 ^ n
    let f (n : Nat) (v : Nat) : Nat := v * 2 ^ n
    let tile (t : Nat) : Bool := (lget x.tiles t Tile.zero).hovf
    let reads (n v : Nat) : Prop := s.sysRead n = some (BitVec.ofNat 64 v)
    reads 0x003 (f 32 c.run.seqNo.toNat + f 24 (c.run.berth.getD 0) + f 16 c.run.stream.toNat + c.run.group.toNat) ∧
    reads 0x004 (f 32 m.misscnt.toNat + b 16 m.late + b 8 m.miss + b 0 m.trapMode) ∧
    reads 0x005 (f 32 m.dreads.toNat + b 0 m.detEn) ∧
    reads 0x006 (f 32 m.pdl.toNat + b 2 m.ybad + b 1 m.forced + b 0 m.yieldreq) ∧
    reads 0x007 (f 44 m.rcnt.toNat + f 40 m.retrymax.toNat + b 35 m.noretry + b 34 m.cancel + b 33 m.refuse + b 32 m.chkint + m.phase.toNat) ∧
    reads 0x008 (b 32 p.cfgclamp + f 16 p.n8.toNat + p.n4.toNat) ∧
    reads 0x009 (f 8 p.allow.toNat + p.def_.toNat) ∧
    reads 0x00A (f 32 p.hmask.toNat + p.hentry.toNat) ∧
    reads 0x00B (f 48 p.xu.toNat + f 40 p.ts.toNat + b 0 p.strict) ∧
    reads 0x00C ((lget c.chans 7 Chan.empty).q.filter (·.landed)).length ∧
    reads 0x010 (f 16 c.vec.masks.length + b 8 (c.vec.masks.head? == some 0) + c.vec.flags.toNat) ∧
    reads 0x011 (f 48 x.ckcnt.toNat + f 32 x.fixcnt.toNat + f 30 x.ckmin.toNat + f 28 (Nat.max x.ckmode.toNat x.ckmin.toNat) +
      b 15 (tile 3) + b 14 (tile 2) + b 13 (tile 1) + b 12 (tile 0) + x.flags.toNat) ∧
    reads 0x012 (b 32 p.oobs + p.oob.toNat) ∧
    reads 0x013 (b 63 x.eiArm + b 62 x.eiEn + f 58 x.eiTile.toNat + f 40 x.eiRow.toNat + f 32 x.eiCol.toNat + x.eiBit.toNat) ∧
    (∀ k, k < 4 → reads (0x026 + k) (lget x.cktol k 0).toNat) ∧
    reads 0x030 p.lsel.toNat ∧
    reads 0x040 (f 56 c.trec.cause.toNat + f 48 c.trec.sub.toNat + b 47 c.trec.ds + b 46 c.trec.lat + f 44 c.trec.unit.toNat + c.trec.pc.toNat) ∧
    reads 0x041 (f 46 c.trec.paddr.toNat + f 32 c.trec.widx.toNat + f 26 c.trec.rep.toNat) ∧
    s.sysRead 0x042 = some c.trec.info ∧ s.sysRead 0x043 = some c.trec.gstop ∧
    reads 0x048 (b 63 c.tfrec.valid + b 62 c.tfrec.taint + b 61 c.tfrec.rb + f 59 c.tfrec.tile.toNat + f 56 c.tfrec.prof.toNat +
      f 52 c.tfrec.ckr.toNat + f 48 c.tfrec.fmt.toNat + f 40 c.tfrec.nrow.toNat + f 32 c.tfrec.ncol.toNat + f 24 c.tfrec.sgrp.toNat +
      f 18 c.tfrec.sslot.toNat + f 11 c.tfrec.srow.toNat) ∧
    (∀ k, k < 2 → reads (0x049 + k) (c.tfrec.rows.toNat / 2 ^ (64 * k)) ∧ reads (0x04B + k) (c.tfrec.cols.toNat / 2 ^ (64 * k))) ∧
    (∀ k, 9 ≤ k → k < 32 → s.sysRead (0x0C0 + k) = some (lget c.chmap (k - 9) 0)) ∧
    (∀ r, 1 ≤ r → r < 32 → c.hnd.mains.find? (·.1 = r) = none → s.sysRead (0x100 + r) = some (c.seq.reg r)) ∧
    (∀ r v, 1 ≤ r → r < 32 → c.hnd.mains.find? (·.1 = r) = some (r, v) → s.sysRead (0x100 + r) = some v) ∧
    reads 0x120 c.hnd.mainPc.toNat

/-- R230, R231, R116, R141, R195, R235: an MTS of a register without a row of its own is a write in flight that is seen from c + 2 on, and one of a
number without a register raises ILLEGAL_INSTR; so is one of PROMO, NPROF, ERRINJ, CKTOL, and in a handler MAINS and MAINPC. LSLOT passes when the
selected slot is not locked and else raises PERM with 0x800 + the slot. CHMAP passes for a channel from 9 on that is empty and has no credit in
use, with a value that passes the tests of R195; another value is ignored, another channel raises ILLEGAL_INSTR. SFIFO pushes into c7 when that
has room, and else is a schedule miss. -/
def Claims.SystemRegisterWrites : Prop :=
  ∀ (s : State) (a k : BitVec 5) (n : BitVec 12) (j : BitVec 2), s.canIssue anyPlace = true →
    ((Instr.mts n a).wf = true →
      (∀ v, s.sysRead n.toNat = some v → exec (.mts n a) s = .next ((s.addLat 0 2 (.sys n.toNat (s.rd a))).next1)) ∧
      (s.sysRead n.toNat = none → exec (.mts n a) s = .next (s.takeFault (mkFault 0 0x01 (encodeNat (.mts n a)))))) ∧
    exec (.promo a) s = .next ((s.addLat 0 2 (.sys 0x008 (s.rd a))).next1) ∧
    exec (.nprof a) s = .next ((s.addLat 0 2 (.sys 0x009 (s.rd a))).next1) ∧
    exec (.errinj a) s = .next ((s.addLat 0 2 (.sys 0x013 (s.rd a))).next1) ∧
    exec (.cktol j a) s = .next ((s.addLat 0 2 (.sys (0x026 + j.toNat) (s.rd a))).next1) ∧
    (s.cur.shadow = true → exec (.mainpc k a) s = .next ((s.addLat 0 2 (.sys (if k = 31 then 0x120 else 0x101 + k.toNat) (s.rd a))).next1)) ∧
    ((s.lslotWord 3).getLsbD 62 = false →
      exec (.lslot j a) s = .next ((s.addLat 0 2 (.sys (slotName s.me.params.lsel.toNat j.toNat) (s.rd a))).next1)) ∧
    ((s.lslotWord 3).getLsbD 62 = true →
      exec (.lslot j a) s = .next (s.takeFault (mkFault 0 0x05 (0x800 + s.me.params.lsel.toNat)))) ∧
    (9 ≤ k.toNat → (s.chan k.toNat).q = [] → (s.chan k.toNat).used = 0 → chmapOk (s.rd a) = true →
      exec (.chmap k a) s = .next ((s.addLat 0 2 (.sys (0x0C0 + k.toNat) (s.rd a &&& 0xFF0FFF8000000000))).next1)) ∧
    (9 ≤ k.toNat → (s.chan k.toNat).q = [] → (s.chan k.toNat).used = 0 → chmapOk (s.rd a) = false → exec (.chmap k a) s = .next s.next1) ∧
    (k.toNat < 9 ∨ (s.chan k.toNat).q ≠ [] ∨ (s.chan k.toNat).used ≠ 0 →
      exec (.chmap k a) s = .next (s.takeFault (mkFault 0 0x01 (encodeNat (.chmap k a))))) ∧
    (s.cur.shadow = false → (s.chan 7).heldAt s.clk < 32 →
      exec (.sfifo a) s = .next ((s.pushLocal 0 7 (s.clk + 1) [(s.rd a).setWidth 32, (s.rd a).extractLsb' 32 32] none).next1)) ∧
    (s.cur.shadow = false → 32 ≤ (s.chan 7).heldAt s.clk → exec (.sfifo a) s = .next (s.schedMiss 0 0x107 (.room 7)))

/-- R42, R146, R153, R158, R242, R287, R310: flags that software clears by writing 1 (LATE and MISS, YBAD, CANCEL and REFUSE, those of VSTAT, MSTAT and
GSTAT, and TFREC's VALID) stay for every 0 bit and clear for every 1 bit written, and a write never sets one; MISSCNT, DREADS, YIELDREQ, FORCED
and the other modes do not change but for SCHEDMODE's TRAP. -/
def Claims.WriteOneToClear : Prop :=
  ∀ (c : Core) (v : Word),
    (c.sysWrite 0x004 v).modes = { c.modes with late := c.modes.late && !v.getLsbD 16, miss := c.modes.miss && !v.getLsbD 8,
                                                trapMode := v.getLsbD 0 } ∧
    (c.sysWrite 0x006 v).modes = { c.modes with ybad := c.modes.ybad && !v.getLsbD 2 } ∧
    (c.sysWrite 0x007 v).modes = { c.modes with cancel := c.modes.cancel && !v.getLsbD 34, refuse := c.modes.refuse && !v.getLsbD 33 } ∧
    (c.sysWrite 0x012 v).params.oobs = (c.params.oobs && !v.getLsbD 32) ∧
    (c.sysWrite 0x048 v).tfrec = { c.tfrec with valid := c.tfrec.valid && !v.getLsbD 63 } ∧
    (∀ i : Fin 7, (c.sysWrite 0x010 v).vec.flags.getLsbD i = (c.vec.flags.getLsbD i && !v.getLsbD i)) ∧
    (∀ i : Fin 5, (c.sysWrite 0x011 v).mtx.flags.getLsbD i = (c.mtx.flags.getLsbD i && !v.getLsbD i))

/-- R11, R12, R116, R141, R165, R195, R230, R231, R236, R291, R306, R310: which fields an MTS sets as it lands: its own and no others; the
registers that are read-only or the Pilot firmware's do not change. -/
def Claims.RegisterFields : Prop :=
  (∀ (s : State) (p : Pend) (n : Nat) (v : Word), p.eff = .sys n v → n < 0x1000 → p.need = none → s.cur.core < s.cores.length →
    (s.landQuiet p).me = ({ s.me with pend := s.me.pend.filter fun q => q.id != p.id } : Core).sysWrite n v) ∧
  ∀ (c : Core) (v : Word),
    c.sysWrite 0x00B v = { c with params := { c.params with xu := BitVec.ofNat 16 (v.toNat / 2 ^ 48), ts := BitVec.ofNat 8 (v.toNat / 2 ^ 40),
                                                            strict := v.getLsbD 0 } } ∧
    c.sysWrite 0x012 v = { c with params := { c.params with oobs := c.params.oobs && !v.getLsbD 32, oob := BitVec.ofNat 32 v.toNat } } ∧
    c.sysWrite 0x013 v = { c with mtx := { c.mtx with eiArm := v.getLsbD 63 && c.mtx.eiEn, eiTile := BitVec.ofNat 2 (v.toNat / 2 ^ 58),
                                                      eiRow := BitVec.ofNat 8 (v.toNat / 2 ^ 40), eiCol := BitVec.ofNat 8 (v.toNat / 2 ^ 32),
                                                      eiBit := BitVec.ofNat 5 v.toNat } } ∧
    c.sysWrite 0x030 v = { c with params := { c.params with lsel := BitVec.ofNat 6 v.toNat } } ∧
    (∀ k, k < 8 → lget (c.sysWrite (0x060 + k) v).perf k 0 = v ∧
      (∀ j, j ≠ k → lget (c.sysWrite (0x060 + k) v).perf j 0 = lget c.perf j 0) ∧
      c.sysWrite (0x060 + k) v = { c with perf := (c.sysWrite (0x060 + k) v).perf }) ∧
    (∀ k, 9 ≤ k → k < 32 → chmapOk v = true →
      let t := c.sysWrite (0x0C0 + k) v
      lget t.chmap (k - 9) 0 = v &&& 0xFF0FFF8000000000 ∧ (∀ j, j ≠ k - 9 → lget t.chmap j 0 = lget c.chmap j 0) ∧
      (∀ j, j ≠ k → lget t.chans j Chan.empty = lget c.chans j Chan.empty)) ∧
    (∀ k, 9 ≤ k → k < 32 → chmapOk v = false → c.sysWrite (0x0C0 + k) v = c) ∧
    (∀ r, 1 ≤ r → r < 32 → (c.sysWrite (0x100 + r) v).hnd.mains.find? (·.1 = r) = some (r, v) ∧
      (∀ q, q ≠ r → (c.sysWrite (0x100 + r) v).hnd.mains.find? (·.1 = q) = c.hnd.mains.find? (·.1 = q)) ∧
      c.sysWrite (0x100 + r) v = { c with hnd := { c.hnd with mains := (c.sysWrite (0x100 + r) v).hnd.mains } }) ∧
    ((c.sysWrite 0x120 v).hnd.mainPc = BitVec.ofNat 18 v.toNat ∧ (c.sysWrite 0x120 v).hnd.ds = false ∧
      (c.sysWrite 0x120 v).trec = { c.trec with ds := false }) ∧
    (∀ n, n < 0x200 → (n ≤ 3 ∨ n = 5 ∨ n = 0x00A ∨ (0x040 ≤ n ∧ n ≤ 0x043) ∨ (0x049 ≤ n ∧ n ≤ 0x04C) ∨ (0x080 ≤ n ∧ n ≤ 0x0BF)) →
      c.sysWrite n v = c)

/-- R100, R105, R285: PROMO stores each interval as written, or its bound (512 for N8, 2,048 for N4) when the interval written is 0 or above it; such a
write sets CFGCLAMP, and another clears it when bit 32 is 1 and leaves it else. NPROF stores ALLOW and DEF, but a write with DEF 5 to 7 changes
nothing. CKTOL stores TOL, or 8 below 8 and 40 above 40, in its own entry. -/
def Claims.ParametersClamp : Prop :=
  ∀ (c : Core) (v : Word),
    (let p := (c.sysWrite 0x008 v).params
     let x := v.toNat / 2 ^ 16 % 2 ^ 12
     let y := v.toNat % 2 ^ 12
     let clamped : Prop := x = 0 ∨ 512 < x ∨ y = 0 ∨ 2048 < y
     p.n8.toNat = (if x = 0 ∨ 512 < x then 512 else x) ∧ p.n4.toNat = (if y = 0 ∨ 2048 < y then 2048 else y) ∧
     (clamped → p.cfgclamp = true) ∧ (¬ clamped → p.cfgclamp = (c.params.cfgclamp && !v.getLsbD 32)) ∧
     c.sysWrite 0x008 v = { c with params := { c.params with n8 := p.n8, n4 := p.n4, cfgclamp := p.cfgclamp } } ∧
     (c.sysWrite 0x008 v).promo = word ((if p.cfgclamp then 2 ^ 32 else 0) + p.n8.toNat * 2 ^ 16 + p.n4.toNat)) ∧
    (5 ≤ v.toNat % 8 → c.sysWrite 0x009 v = c) ∧
    (v.toNat % 8 ≤ 4 →
      c.sysWrite 0x009 v = { c with params := { c.params with allow := BitVec.ofNat 5 (v.toNat / 2 ^ 8), def_ := BitVec.ofNat 3 v.toNat } }) ∧
    (∀ k, k < 4 →
      let tol := v.toNat % 64
      let m := (c.sysWrite (0x026 + k) v).mtx
      c.sysWrite (0x026 + k) v = { c with mtx := { c.mtx with cktol := m.cktol } } ∧
      (lget m.cktol k 0).toNat = (if tol < 8 then 8 else if 40 < tol then 40 else tol) ∧ ∀ j, j ≠ k → lget m.cktol j 0 = lget c.mtx.cktol j 0)

/-! ## Waits and arrivals (R43, R46, R148, R159, R204, R217) -/

/-- R204, R217, R43, R46, R148, R159: an instruction that waits has issued at c; the sequencer then stands in its wait. GBAR needs a valid
group of members of the gang that holds the core, YIELD a live mask without bits above 51. -/
def Claims.WaitsBegin : Prop :=
  ∀ (s : State) (d a : BitVec 5) (g : BitVec 8) (m : BitVec 16), s.canIssue mainOnly = true →
    exec (.waitg a) s = .next (s.waitOn (.waitg (s.rd a).toNat)) ∧
    exec (.phase d m) s = .next (s.waitOn (.phase 0 m s.clk d.toNat)) ∧
    exec (.pabort d) s = .next (s.waitOn (.phase 1 0 s.clk d.toNat)) ∧
    exec (.pabortR d) s = .next (s.waitOn (.phase 2 0 s.clk d.toNat)) ∧
    (let mine : Prop := (s.group g.toNat).1 = true ∧ (s.group g.toNat).2.getLsbD s.cur.core = true ∧
       ∃ gg, s.gangOf s.cur.core = some gg ∧ ∀ k ∈ coresOf (s.group g.toNat).2, k ∈ gg.members
     (mine → exec (.gbar d g) s = .next (s.waitOn (.gbar g.toNat s.clk d.toNat))) ∧
     (¬ mine → ∃ n u, (∃ f, u = { s with free := f }) ∧ exec (.gbar d g) s = .next (u.takeFault (mkFault 0 0x05 n)))) ∧
    ((s.rd a).toNat < 2 ^ 52 → exec (.yield d a) s = .next (s.waitOn (.yield (s.rd a) s.clk d.toNat))) ∧
    (2 ^ 52 ≤ (s.rd a).toNat → exec (.yield d a) s = .next (s.takeFault (mkFault 0 0x01 (encodeNat (.yield d a)))))

/-- R204: what a wait's issue leaves: the context stands in the wait with PC at the next word, and no register, memory byte or effect in
flight has changed. -/
def Claims.WaitState : Prop :=
  ∀ (s : State) (w : Wait), s.ctx.slot = none →
    (s.waitOn w).ctx.wait = w ∧ (s.waitOn w).ctx.pc = s.ctx.pc + 4 ∧ (∀ r, (s.waitOn w).ctx.reg r = s.ctx.reg r) ∧
    (s.waitOn w).me.pend = s.me.pend ∧ SameMemory s (s.waitOn w)

/-- R217, R34, R346: the end of a WAITG, and of a PLAY that waits for room: it issues at the present cycle once its queue counts fewer than 32 entries (one
whose last word has not run its last cycle among them), and waits on while it counts more. -/
def Claims.WaitsEnd : Prop :=
  ∀ (s : State) (n : Nat),
    (s.me.seq.wait = .waitg n →
      exec .waitgExpiry s = .next (s.modMe fun c => { c with seq := { c.seq with wait := .none, next := c.run.g } })) ∧
    (s.me.seq.wait = .play n →
      let e := lget s.me.engs n Engine.zero
      let held := e.q.length + (if e.started = false ∧ s.me.run.g < e.next then 1 else 0)
      (held < 32 → exec .playQueueRoom s = .next (s.modMe fun c => { c with seq := { c.seq with wait := .none, next := c.run.g } })) ∧
      (32 ≤ held → exec .playQueueRoom s = .next s))

/-- R43: a member arrives when it waits in a GBAR of the group. When every member has arrived, BARRIER_RELEASE lets each go on at G, 64 cycles
after the last arrival, with G in its destination register. -/
def Claims.BarrierReleases : Prop :=
  (∀ (s : State) (n : Nat) (arr : List Nat), s.barrierArrivals n = some arr ↔
    List.Forall₂ (fun k a => ∃ d, (s.core k).seq.wait = .gbar n a d) (coresOf (s.group n).2) arr) ∧
  ∀ (s : State) (arr : List Nat), s.barrierArrivals s.cur.arg = some arr →
    let g := arr.foldl Nat.max 0 + 64
    ∃ t, exec .barrierRelease s = .next t ∧
      (∀ k ∈ coresOf (s.group s.cur.arg).2, (t.core k).seq.wait = .until_ g ∧ (t.core k).seq.next = g ∧
        ∃ d p, (s.core k).seq.wait = .gbar s.cur.arg d p ∧
          ∃ e ∈ (t.core k).pend, e.eff = .sreg false p (BitVec.ofNat 64 g) ∧ e.land = g - 1) ∧
      ∀ k, k ∉ coresOf (s.group s.cur.arg).2 → t.core k = s.core k

/-! ## PLAY, NOTIFY, HALT (R34, R216, R226, R227, R229) -/

/-- R34, R346: the entries that a PLAY counts: those in the queue, and one whose last word has issued and not run its last cycle. -/
def Claims.entriesHeld (s : State) (u : Eng) : Nat :=
  (s.eng u).q.length + if (s.eng u).started = false ∧ s.clk < (s.eng u).next then 1 else 0

/-- R34, R216: a PLAY with a legal engine, length, address and range appends its passage, with the value of its stamp register, to the
engine's queue that holds fewer than 32 entries and has not ended, or in a handler to the lane while that holds fewer than four. -/
def Claims.PlayAppends : Prop :=
  ∀ (s : State) (e : BitVec 2) (u : Eng) (a b : BitVec 5) (len : BitVec 14), s.canIssue anyPlace = true → engOf e = some u → len ≠ 0 →
    (s.rd a).toNat % 2 = 0 → (s.rd a).toNat < 0x40000 →
    (s.rd a).toNat + 6 * len.toNat ≤ (if s.cur.shadow then 0x40000 else 0x3E000) →
    (s.cur.shadow = true → (s.eng u).q.length < 4) → (s.cur.shadow = false → Claims.entriesHeld s u < 32 ∧ (s.eng u).ended = false) →
    exec (.play e a b len) s = .next ((s.modEng u fun x =>
      { x with q := x.q ++ [{ addr := (s.rd a).toNat, len := len.toNat, stamp := (s.rd b).toNat, played := s.clk }], played := true }).next1)

/-- R34, R41, R42: a PLAY that finds 32 entries is a schedule miss with INFO 0x700 + engine: under STALL the sequencer waits for room, under
TRAP the fault is taken; MISS is set and MISSCNT advances. -/
def Claims.PlayFull : Prop :=
  ∀ (s : State) (e : BitVec 2) (u : Eng) (a b : BitVec 5) (len : BitVec 14), s.canIssue anyPlace = true → s.cur.shadow = false →
    engOf e = some u → len ≠ 0 → (s.rd a).toNat % 2 = 0 → (s.rd a).toNat + 6 * len.toNat ≤ 0x3E000 →
    32 ≤ Claims.entriesHeld s u → (s.eng u).ended = false →
    let s' := s.modMe fun c => { c with modes := c.modes.noteMiss }
    exec (.play e a b len) s = .next (if s.me.modes.trapMode then s'.takeFault (mkFault 0 0x07 (0x700 + e.toNat))
      else s'.modCtx fun c => { c with wait := .play e.toNat })

/-- R34: the faults of PLAY: engine field 3, length 0, and an engine that has issued its NOTIFY raise ILLEGAL_INSTR, an address that is no
multiple of 2 ALIGN, and a passage past the end of score memory (of the part below the handler, in the main context) PERM, each with no
entry appended. Where two conditions hold, the one higher in the rule's table is taken (log 22). -/
def Claims.PlayFaults : Prop :=
  ∀ (s : State) (e : BitVec 2) (a b : BitVec 5) (len : BitVec 14), s.canIssue anyPlace = true →
    let i : Instr := .play e a b len
    let x := (s.rd a).toNat
    let top : Nat := if s.cur.shadow then 0x40000 else 0x3E000
    let illegal : Prop := exec i s = .next (s.takeFault (mkFault 0 0x01 (encodeNat i)))
    (e = 3 → illegal) ∧
    (∀ u, engOf e = some u →
      (len = 0 → illegal) ∧
      (len ≠ 0 → x % 2 ≠ 0 → exec i s = .next (s.takeFault (mkFault 0 0x03 x))) ∧
      (len ≠ 0 → x % 2 = 0 → top < x + 6 * len.toNat → exec i s = .next (s.takeFault (mkFault 0 0x05 x))) ∧
      (len ≠ 0 → x % 2 = 0 → x + 6 * len.toNat ≤ top → s.cur.shadow = false → (s.eng u).ended = true → illegal)) ∧
    (e ≠ 3 → ∃ u, engOf e = some u)

/-- R50, R229, R226, R227, R185: NOTIFY ends the sequencer; HALT ends every unit and keeps CHKINT for the record; CHKERR raises POISON with
SUB 2 when CHKINT is set and does nothing else; TRAP is taken with its code in INFO and PC + 4 as the return address; a word that no
instruction has raises ILLEGAL_INSTR with the word in INFO. -/
def Claims.EndsAndTraps : Prop :=
  ∀ (s : State) (code : BitVec 16) (w : BitVec 32),
    (s.canIssue mainOnly = true →
      exec .notify s = .next (s.next1.modCtx fun c => { c with ended := true }) ∧
      (∃ t, exec .halt s = .next t ∧ t.me.seq.ended = true ∧ (∀ e ∈ t.me.engs, e.ended = true ∧ e.q.length ≤ 1) ∧ t.me.run.halted = true ∧
        t.me.run.poisoned = (s.me.run.poisoned || s.me.modes.chkint) ∧ SameMemory s t) ∧
      exec (.trap code) s = .next (s.takeFault { cause := 0x20, sub := 0, unit := 0, info := code.toNat, lat := false, skip := 4 })) ∧
    (s.canIssue mainSlot = true →
      (s.me.modes.chkint = true →
        exec .chkerr s = .next (s.takeFault { cause := 0x0A, sub := 2, unit := 0, info := s.ctx.pc.toNat, lat := false, skip := 0 })) ∧
      (s.me.modes.chkint = false → exec .chkerr s = .next s.next1)) ∧
    (s.canIssue anyPlace = true →
      exec (.reservedSequencerEncoding w) s = .next (s.takeFault (mkFault 0 0x01 w.toNat)))

/-! ## Descriptors (R60, R70, R71, R218 to R221) -/

/-- R60, R219: DSET of a legal field is a write in flight seen from c + 2 on; the cases of R60 raise ILLEGAL_INSTR. -/
def Claims.DescriptorSets : Prop :=
  ∀ (s : State) (n : BitVec 4) (f a : BitVec 5), s.canIssue anyPlace = true →
    let d := s.desc n.toNat
    let v := (s.rd a).toNat
    let bad : Prop := 15 ≤ f.toNat ∨ (f = 0 ∧ (5 ≤ v % 8 ∨ d.bound = true)) ∨ (f = 1 ∧ 12 ≤ v % 16) ∨ (f = 2 ∧ 5 ≤ v % 8) ∨
      ((f = 3 ∨ f = 14) ∧ d.shw = true)
    (¬ bad → exec (.dset n f a) s = .next ((s.addLat 0 2 (.dfield n.toNat f.toNat (s.rd a))).next1)) ∧
    (bad → exec (.dset n f a) s = .next (s.takeFault (mkFault 0 0x01 (encodeNat (.dset n f a)))))

/-- R58, R60, R219: the field written, each of the fifteen, holds the low bits of the value as wide as it is, and every other field of the descriptor,
BOUND and BANK among them, stands; when the write lands it changes its own descriptor, and no other. -/
def Claims.DescriptorFields : Prop :=
  ∀ (c : Core) (d : Desc) (v : Word),
    d.setField 0 v = { d with level := BitVec.ofNat 3 v.toNat } ∧ d.setField 1 v = { d with fmt := BitVec.ofNat 4 v.toNat } ∧
    d.setField 2 v = { d with swz := BitVec.ofNat 3 v.toNat } ∧ d.setField 3 v = { d with db := v.getLsbD 0 } ∧
    d.setField 4 v = { d with ro := v.getLsbD 0 } ∧
    d.setField 5 v = { d with base := BitVec.ofNat 48 v.toNat } ∧ d.setField 6 v = { d with rows := BitVec.ofNat 16 v.toNat } ∧
    d.setField 7 v = { d with cols := BitVec.ofNat 16 v.toNat } ∧ d.setField 8 v = { d with rstride := BitVec.ofNat 32 v.toNat } ∧
    d.setField 9 v = { d with estride := BitVec.ofNat 16 v.toNat } ∧ d.setField 12 v = { d with fill := BitVec.ofNat 32 v.toNat } ∧
    d.setField 10 v = { d with sbase := BitVec.ofNat 48 v.toNat } ∧ d.setField 11 v = { d with sstride := BitVec.ofNat 24 v.toNat } ∧
    d.setField 13 v = { d with apidx := BitVec.ofNat 4 v.toNat } ∧ d.setField 14 v = { d with shbase := BitVec.ofNat 24 v.toNat } ∧
    (∀ f, (d.setField f v).bound = d.bound ∧ (d.setField f v).pins = d.pins ∧ (d.setField f v).bank = d.bank) ∧
    ∀ n f, let c' := c.landReg (.dfield n f v)
      c' = { c with descs := c'.descs } ∧ lget c'.descs n Desc.zero = (lget c.descs n Desc.zero).setField f v ∧
      ∀ m, m ≠ n → lget c'.descs m Desc.zero = lget c.descs m Desc.zero

/-- R220, R221, R71: DBIND that passes its checks unbinds the descriptor first, walks its ranges, and waits 6,000 + 40 × P cycles; one
whose LEVEL is not 3 or 4, or that names an aperture that is not valid, raises PERM, and one that fails a check of R63 its fault; DUNBIND of an
unbound descriptor does nothing, of a bound one that passes those checks it clears BOUND after one cycle and leaves the pages to be unpinned. -/
def Claims.BindingBegins : Prop :=
  ∀ (s : State) (n : BitVec 4),
    (s.canIssue mainOnly = true →
      let d := s.desc n.toNat
      (d.level ≠ 3 → d.level ≠ 4 → exec (.dbind n) s = .next (s.takeFault (mkFault 0 0x05 n.toNat))) ∧
      (d.level = 4 → s.aperValid d.apidx.toNat = false → exec (.dbind n) s = .next (s.takeFault (mkFault 0 0x05 n.toNat))) ∧
      (∀ f, (d.level = 3 ∨ (d.level = 4 ∧ s.aperValid d.apidx.toNat = true)) → s.takesFault n.toNat { d with bound := true } = some f →
        exec (.dbind n) s = .next (s.takeFault f)) ∧
      ((d.level = 3 ∨ (d.level = 4 ∧ s.aperValid d.apidx.toNat = true)) →
        s.takesFault n.toNat { d with bound := true } = none →
        let u := s.dunbind n.toNat
        let w := u.walkRanges (u.xroot u.cur.core) d.ro n.toNat 4100 (u.bindRanges d) [] 0
        ∃ t, exec (.dbind n) s = .next t ∧ t.me.seq.next = s.clk + (6000 + 40 * w.2.1) ∧
          t.me.seq.wait = .dbind n.toNat (s.clk + 6000 + 40 * w.2.1) u.nextId w.1 w.2.2)) ∧
    (s.canIssue mainSlot = true →
      ((s.desc n.toNat).bound = false → exec (.dunbind n) s = .next s.next1) ∧
      ((s.desc n.toNat).bound = true → s.takesFault n.toNat (s.desc n.toNat) = none →
        exec (.dunbind n) s = .next ((s.startUnpin s.cur.core n.toNat).addLat 0 1 (.unbind n.toNat)).next1) ∧
      ∀ f, (s.desc n.toNat).bound = true → s.takesFault n.toNat (s.desc n.toNat) = some f → exec (.dunbind n) s = .next (s.takeFault f))

/-- R220: at the end of the occupancy a walk that has finished without a fault sets BOUND with the pages it pinned; one that found a fault
takes it with the DBIND's own PC; TABLE_WALK_FINISHED marks the walk finished. -/
def Claims.BindingEnds : Prop :=
  ∀ (s : State) (n e id : Nat) (pins : List Pin),
    ((∀ o ∈ s.gops, o.id = id → o.done = true) → s.me.seq.wait = .dbind n e id pins none →
      ∃ t, exec .dbindComplete s = .next t ∧ (lget t.me.descs n Desc.zero).bound = true ∧ (lget t.me.descs n Desc.zero).pins = pins ∧
        t.me.seq.wait = .none ∧ t.me.seq.next = s.me.run.g ∧ ∀ m, m ≠ n → lget t.me.descs m Desc.zero = lget s.me.descs m Desc.zero) ∧
    (∀ c u i, (∀ o ∈ s.gops, o.id = id → o.done = true) → s.me.seq.wait = .dbind n e id pins (some (c, u, i)) →
      ∃ t, exec .dbindComplete s = .next t ∧ t.me.descs = s.me.descs ∧
        (s.cur.shadow = false → s.me.seq.slot = none → t.me.trec.pc = s.me.seq.pc - 4 ∧ t.me.trec.cause = BitVec.ofNat 8 c ∧
          t.me.trec.info = BitVec.ofNat 64 i)) ∧
    (∀ o, (s.gops.find? fun o => o.id = s.cur.arg && o.kind = .walk) = some o →
      (∃ d x ps f, (s.core o.core).seq.wait = .dbind d x o.id ps f) →
      ∃ t, exec .tableWalkFinished s = .next t ∧ ∀ p ∈ t.gops, p.id = o.id → p.done = true)

/-- R71: PAGE_UNPIN takes the first page release that is due off the core's list and counts its pages down. -/
def Claims.PagesUnpin : Prop :=
  ∀ (s : State) (u : Unpin), s.me.unpins.find? s.me.unpinDue = some u →
    exec .pageUnpin s = .next ((s.modMe fun c => { c with unpins := c.unpins.erase u }).bumpPins u.pins false)

/-! ## Homes, releases and acquires (R75 to R83, R223 to R225) -/

/-- R224, R225: SREL, SACQ and SWAIT at a legal sync object become operations of the sequencer queue; SREL goes on at once, SACQ and SWAIT
wait; QFENCE orders later operations behind the named queues and goes on; an illegal address is its fault. -/
def Claims.SyncBegins : Prop :=
  ∀ (s : State) (d a b : BitVec 5) (m : BitVec 3),
    (s.canIssue anyPlace = true →
      (∀ t x, s.syncPlace (s.rd a) = .inr (t, x) → exec (.srel a) s = .next ((s.newOp s.cur.core 0 (.srel t x) []).2.next1)) ∧
      (∀ f, s.syncPlace (s.rd a) = .inl f → exec (.srel a) s = .next (s.takeFault f)) ∧
      exec (.qfence m) s = .next ((s.qfence s.cur.core 0 ([1, 2, 3].filter fun u => m.getLsbD (u - 1))).next1)) ∧
    (s.canIssue mainOnly = true →
      (∀ t x, s.syncPlace (s.rd a) = .inr (t, x) →
        let op := s.newOp s.cur.core 0 (.wait t x (s.rd b)) []
        exec (.sacq a b) s = .next (op.2.waitOn (.sync op.1 none)) ∧
        exec (.swait d a b) s = .next (op.2.waitOn (.sync op.1 (some d.toNat)))) ∧
      (∀ f, s.syncPlace (s.rd a) = .inl f → exec (.sacq a b) s = .next (s.takeFault f) ∧ exec (.swait d a b) s = .next (s.takeFault f)))

/-- R224: a sync address has bits [61:48] 0, level 0 or 1 and an offset that is a multiple of 64; else PERM or ALIGN with the address. That
PERM comes first where both fail is the model's choice (log 22). -/
def Claims.SyncAddresses : Prop :=
  ∀ (s : State) (a : Word),
    (a.toNat / 2 ^ 48 % 2 ^ 14 ≠ 0 ∨ 2 ≤ a.toNat / 2 ^ 62 → s.syncPlace a = .inl (mkFault 0 0x05 a.toNat)) ∧
    (a.toNat / 2 ^ 48 % 2 ^ 14 = 0 → a.toNat / 2 ^ 62 < 2 → a.toNat % 64 ≠ 0 → s.syncPlace a = .inl (mkFault 0 0x03 a.toNat)) ∧
    (a.toNat / 2 ^ 48 % 2 ^ 14 = 0 → a.toNat / 2 ^ 62 = 1 → a.toNat % 64 = 0 → a.toNat % 2 ^ 48 < 0x1400000 →
      s.badBinding 3 (a.toNat % 2 ^ 48) = false → s.syncPlace a = .inr (3, a.toNat % 2 ^ 48))

/-- R40, R75, R80, R83: a home performs the operation that is ready: a write, a read whose data then answer, a release or an atomic. -/
def Claims.HomesPerform : Prop :=
  ∀ (s : State) (o : GOp), s.theOp = some o → s.opReady o = true →
    ((∃ ps, o.kind = .write ps) → exec .globalWritePerformed s = .next (s.performOp o)) ∧
    ((∃ rs, o.kind = .read rs) → ∃ t, exec .globalReadArrival s = .next t ∧ ∀ p ∈ t.gops, p.id = o.id → p.done = true) ∧
    ((∃ t a, o.kind = .srel t a) ∨ (∃ t a v, o.kind = .wait t a v) ∨ (∃ t a f z x y r, o.kind = .atomic t a f z x y r) →
      exec .homeUpdate s = .next (s.performOp o))

/-- R75, R79: a write of one piece to HBM, performed where no wait is armed: every byte of it but those of an ARMED that the home keeps is in HBM, and every
other byte of HBM, ARMED among them, stands. -/
def Claims.GlobalWriteBytes : Prop :=
  ∀ (s : State) (o : GOp) (p : Piece), s.theOp = some o → s.opReady o = true → o.kind = .write [(0, p)] →
    Memory.wf s.mem.hbm = true → s.armedAt 0 p.addr p.bytes.length = [] →
    ∃ t, exec .globalWritePerformed s = .next t ∧
      (∀ i, i < p.bytes.length → ¬ Claims.keptArmed s 0 (p.addr + i) → t.gByte 0 (p.addr + i) = lget p.bytes i 0) ∧
      ∀ a, a < p.addr ∨ p.addr + p.bytes.length ≤ a ∨ Claims.keptArmed s 0 a → t.gByte 0 a = s.gByte 0 a

/-- R79, R80: a release adds 1 to VERSION, wrapping at 2^64; ARMED beside it holds the number of the object's armed waits, and every other byte stands. -/
def Claims.ReleaseAddsOne : Prop :=
  ∀ (s : State) (o : GOp) (a : Nat), s.theOp = some o → s.opReady o = true → o.kind = .srel 0 a →
    Memory.wf s.mem.hbm = true → s.armedAt 0 a 8 = [] → (∀ x ∈ s.mem.syncs, x.2 % 64 = 0) → a % 64 = 0 →
    ∃ t, exec .homeUpdate s = .next t ∧ t.gNat 0 a 8 = (s.gNat 0 a 8 + 1) % 2 ^ 64 ∧ t.gNat 0 (a + 8) 2 = s.armedCount 0 a % 2 ^ 16 ∧
      ∀ x, x < a ∨ a + 10 ≤ x → t.gByte 0 x = s.gByte 0 x

/-- R83: what each atomic leaves at its home, for 32-bit and 64-bit operands: wrapping addition, signed and unsigned minima and maxima,
bitwise operations, exchange, and compare-and-swap. -/
def Claims.AtomicValues : Prop :=
  ∀ (size old x cmp : Nat), size = 4 ∨ size = 8 → old < 2 ^ (8 * size) → x < 2 ^ (8 * size) →
    let sg (v : Nat) : Int := if v < 2 ^ (8 * size - 1) then v else (v : Int) - 2 ^ (8 * size)
    atomicNew 0 size old x cmp = (old + x) % 2 ^ (8 * size) ∧
    sg (atomicNew 2 size old x cmp) = min (sg old) (sg x) ∧ sg (atomicNew 3 size old x cmp) = max (sg old) (sg x) ∧
    atomicNew 4 size old x cmp = min old x ∧ atomicNew 5 size old x cmp = max old x ∧
    atomicNew 6 size old x cmp = old &&& x ∧ atomicNew 7 size old x cmp = old ||| x ∧ atomicNew 8 size old x cmp = old ^^^ x ∧
    atomicNew 9 size old x cmp = x ∧ atomicNew 10 size old x cmp = (if old = cmp then x else old)

/-- R82, R225: the answer to a wait reaches its queue: the sequencer goes on at its present cycle, SWAIT's register holding the VERSION that
the home answered with. -/
def Claims.WaitAnswered : Prop :=
  ∀ (s : State) (o : GOp) (r : Nat), s.theOp = some o → o.done = true → o.unit = 0 → (s.core o.core).seq.wait = .sync o.id (some r) →
    ∃ t, exec .sacqComplete s = .next t ∧ (t.core o.core).seq.wait = .none ∧ (t.core o.core).seq.next = (s.core o.core).run.g ∧
      (t.core o.core).seq.reg r = (if r = 0 then 0 else BitVec.ofNat 64 (leNat (o.data.flatMap (·.bytes)))) ∧
      ∀ q, q ≠ r → (t.core o.core).seq.reg q = (s.core o.core).seq.reg q

/-! ## Faults and handlers (R30, R134 to R144) -/

/-- R138, R140, R141, R30: a fault of the sequencer in the main context. TREC holds its code, SUB, LAT, PC (the branch's when it arose in the
slot), INFO and the gang cycle; the member stops as a source; its handler, the timetable's when HCTL routes the code there and else the Pilot
firmware's at 0x3_E000, will start on the next tide cycle, with MAINPC at PC, or PC + 4 after TRAP. -/
def Claims.FaultEntry : Prop :=
  ∀ (s : State) (f : FaultRec), s.cur.shadow = false → f.unit = 0 →
    let t := s.takeFault f
    let own : BitVec 18 := match s.me.seq.slot with | some sl => sl.brPc | none => s.me.seq.pc
    let routed : Prop := s.me.params.hentry ≠ 0 ∧
      ((f.cause = 0x20 ∧ s.me.params.hmask.getLsbD 0 = true) ∨ (1 ≤ f.cause ∧ f.cause ≤ 0x10 ∧ s.me.params.hmask.getLsbD f.cause = true))
    t.me.trec = { cause := BitVec.ofNat 8 f.cause, sub := BitVec.ofNat 8 f.sub, ds := s.me.seq.slot.isSome, lat := f.lat, unit := 0, pc := own,
                  paddr := 0, widx := 0, rep := 0, info := BitVec.ofNat 64 f.info, gstop := BitVec.ofNat 64 s.me.run.g } ∧
    t.me.run.stop.isSome = true ∧ t.me.hnd.mainPc = own + BitVec.ofNat 18 f.skip ∧ t.me.hnd.entry = s.tide + 1 ∧
    t.me.sh.next = s.tide + 1 ∧ (routed → t.me.sh.pc = s.me.params.hentry ∧ t.me.hnd.pilot = false) ∧
    (¬ routed → t.me.sh.pc = 0x3E000 ∧ t.me.hnd.pilot = true)

/-- R30, R134, R141: what a fault leaves as it was: every register of both contexts, the queues, flags, descriptors, effects in flight and
memory, and every other core. -/
def Claims.FaultFrame : Prop :=
  ∀ (s : State) (f : FaultRec), s.cur.shadow = false →
    let t := s.takeFault f
    (∀ r, t.me.seq.reg r = s.me.seq.reg r) ∧ (∀ r, t.me.sh.reg r = s.me.sh.reg r) ∧ t.me.seq = s.me.seq ∧ t.me.vec = s.me.vec ∧
    t.me.mtx = s.me.mtx ∧ t.me.descs = s.me.descs ∧ t.me.engs = s.me.engs ∧ t.me.chans = s.me.chans ∧ t.me.pend = s.me.pend ∧
    t.me.perf = s.me.perf ∧ SameMemory s t ∧ ∀ k, k ≠ s.cur.core → t.core k = s.core k

/-- R143: a fault in the shadow context leaves TREC as it was; it starts the Pilot firmware's handler, and inside that one it marks the gang
for its abort. R143 speaks of a second such case there; that a first one inside a Pilot handler entered directly aborts too is the model's
choice (log 84). -/
def Claims.FaultInHandler : Prop :=
  ∀ (s : State) (f : FaultRec), s.cur.shadow = true →
    (s.takeFault f).me.trec = s.me.trec ∧
    (s.me.hnd.pilot = false → (s.takeFault f).me.hnd.pilot = true ∧ (s.takeFault f).me.sh.pc = 0x3E000 ∧
      (s.takeFault f).me.hnd.entry = s.tide + 1) ∧
    (s.me.hnd.pilot = true → (s.takeFault f).me.hnd.fatal = true)

/-- R137: an instruction of the sequencer from a poisoned line raises POISON with SUB 1, its address in INFO, and LAT set, whatever it is. -/
def Claims.PoisonedLine : Prop :=
  ∀ (s : State) (i : Instr), Claims.isSequencer i → s.me.badLine s.ctx.pc.toNat 4 = true →
      exec i s = .next (s.takeFault { cause := 0x0A, sub := 1, unit := 0, info := s.ctx.pc.toNat, lat := true, skip := 0 })

/-- R205: an instruction used where the table says no raises ILLEGAL_INSTR and has no effect: one of the main context only in the shadow
context, a TRET form, TSUPPLY or TESC in the main context, one with no slot in a delay slot. -/
def Claims.WrongPlace : Prop :=
  ∀ (s : State) (d a b : BitVec 5) (m : BitVec 16) (g : BitVec 8) (n : BitVec 4), s.me.badLine s.ctx.pc.toNat 4 = false →
    (s.cur.shadow = true →
      ∀ i ∈ ([.waitg a, .dbind n, .dunbind n, .gbar d g, .phase d m, .pabort d, .pabortR d, .yield d a, .sacq a b, .swait d a b, .chkerr,
              .trap m, .notify, .halt, .sfifo a] : List Instr), exec i s = .next (s.takeFault (mkFault 0 0x01 (encodeNat i)))) ∧
    (s.cur.shadow = false →
      ∀ i ∈ ([.tret, .tretSkip, .tretRb, .tesc, .tsupply a, .mainpc d a] : List Instr),
        exec i s = .next (s.takeFault (mkFault 0 0x01 (encodeNat i)))) ∧
    (s.ctx.slot.isSome = true →
      ∀ i ∈ ([.waitg a, .dbind n, .gbar d g, .phase d m, .pabort d, .pabortR d, .yield d a, .sacq a b, .swait d a b, .trap m, .notify,
              .halt, .tret, .tretSkip, .tretRb, .tesc, .tsupply a] : List Instr),
        exec i s = .next (s.takeFault (mkFault 0 0x01 (encodeNat i))))

/-- R141: TRAP_ENTRY makes the handler run at its entry on the present tide cycle. -/
def Claims.HandlerEntry : Prop :=
  ∀ (s : State), s.me.hnd.active = false → s.me.hnd.entry ≠ 0 → s.me.hnd.posted = false →
    ∃ t, exec .trapEntry s = .next t ∧ t.me.hnd.active = true ∧ t.me.sh.next = s.tide ∧ t.me.sh.pc = s.me.sh.pc ∧ t.me.seq = s.me.seq

/-- R136, R141, R142, R144: where the main sequencer q of core c goes on after TRET and TRET.SKIP. It has the registers that the handler wrote. At MAINPC
out of a slot, when the handler wrote MAINPC or no slot is open; an open slot issues again, its branch evaluated again from those registers; and
after TSUPPLY in a slot the branch's destination is next, one cycle on. A PLAY at which SCHED_MISS found a full queue waits for room (R34). -/
def Claims.Resumed (c : Core) (q : SeqCtx) : Prop :=
  let st := c.seq.stage c.hnd.mains
  let moved : Prop := ∃ m ∈ c.hnd.mains, m.1 = 32
  let dest (sl : Slot) : BitVec 18 := (reeval st sl.brPc sl.mask (decodeSeq (BitVec.ofNat 32 (c.code sl.brPc.toNat 4)))).1
  (∀ r, q.reg r = st.reg r) ∧ (moved ∨ c.seq.slot = none → q.pc = c.hnd.mainPc ∧ q.slot = none) ∧
  (∀ sl, ¬ moved → c.seq.slot = some sl → c.hnd.ds = true → c.hnd.supply = none →
    q.pc = sl.brPc + 4 ∧ q.slot = some { sl with dest := dest sl } ∧ q.next = c.run.g) ∧
  (∀ sl v, ¬ moved → c.seq.slot = some sl → c.hnd.ds = true → c.hnd.supply = some v →
    q.pc = dest sl ∧ q.slot = none ∧ q.next = c.run.g + 1) ∧
  (c.trec.cause = 0x07 → 0x700 ≤ c.trec.info.toNat → c.trec.unit = 0 →
    (c.seq.slot = none ∧ q.pc = c.trec.pc) ∨ (∃ sl, q.slot = some sl ∧ q.pc = sl.brPc + 4) → q.wait = .play (c.trec.info.toNat - 0x700))

/-- R136, R144: the register writes that TRET leaves in flight, landing one cycle on: the link of a branch evaluated again, and the value that TSUPPLY
gave for the destination of its MFS. -/
def Claims.ResumeWrites (c c' : Core) : Prop :=
  let st := c.seq.stage c.hnd.mains
  let sent (d : BitVec 5) (v : Word) : Prop := ∃ p ∈ c'.pend, p.eff = .sreg false d.toNat v ∧ p.land = c.run.g + 1 ∧ p.need = none
  (∀ sl d, c.seq.slot = some sl → c.hnd.ds = true →
    (reeval st sl.brPc sl.mask (decodeSeq (BitVec.ofNat 32 (c.code sl.brPc.toNat 4)))).2 = some d → sent d (sl.brPc.setWidth 64 + 8)) ∧
  ∀ v d n, c.hnd.supply = some v →
    decodeSeq (BitVec.ofNat 32 (c.code (match c.seq.slot with | some sl => sl.brPc + 4 | none => c.trec.pc).toNat 4)) = .mfs d n → sent d v

/-- R142, R281: what TRET.SKIP does to the engines of core c when an engine's word raised the fault in TREC: its word is stepped past with its later
repeats, and the next word, or the next passage, may issue at the stop cycle; other engines stand. Of a drain whose entry missed, whose word has
issued, what it has not pushed and its verdict are discarded (log 85). A fault of the sequencer, and a checksum fault, leave the engines. -/
def Claims.WordSkipped (c c' : Core) : Prop :=
  let u := c.trec.unit.toNat - 1
  let e := lget c.engs u Engine.zero
  let e' := lget c'.engs u Engine.zero
  let whole : Prop := c.trec.unit = 0 ∨ c.trec.cause = 0x08
  let drain : Prop := c.trec.cause = 0x07 ∧ c.trec.unit = 2 ∧ 0x100 ≤ c.trec.info.toNat ∧ c.trec.info.toNat < 0x200
  (whole → c'.engs = c.engs) ∧
  (¬ whole → e'.next = c.run.g ∧ (∀ j, j ≠ u → lget c'.engs j Engine.zero = lget c.engs j Engine.zero)) ∧
  (∀ q r, ¬ whole → ¬ drain → e.q = q :: r → e'.rep = 0 ∧
    (e.widx + 1 < q.len → e'.q = e.q ∧ e'.widx = e.widx + 1) ∧ (q.len ≤ e.widx + 1 → e'.q = r ∧ e'.started = false)) ∧
  (¬ whole → drain → (∀ d, c'.mtx.drain = some d → d.open_ = false) ∧
    ∀ p ∈ c'.pend, p.unit = 2 → p.tide = false → p.eff ≠ .verdict)

/-- R32, R142: the conditions of core k's own faults and misses as sources of its gang's hold have ended now; h' is the hold h but for that and for a
rollback asked for. -/
def Claims.SourceEnded (s t : State) (k : Nat) : Prop :=
  ∀ g h, s.gangOf k = some g → g.hold = some h → ∃ g' h', t.gang g.berth = some g' ∧ g'.hold = some h' ∧ h'.waves = h.waves ∧
    h'.srcs = h.srcs.map fun x => if x.core = k ∧ x.cause ≠ 3 ∧ x.ended = none then { x with ended := some (s.tide + 2 * (s.core k).run.hop) } else x

/-- R136, R141, R142, R144: TRET, TRET.SKIP and TRET.RB once the handler lanes are done: no handler is active any more and the fault's condition as a
source has ended. After TRET and TRET.SKIP the main sequencer goes on as `Resumed` says, TRET leaving the engines and TRET.SKIP stepping a faulting
engine word past its repeats. TRET.RB leaves the main sequencer, and asks for a rollback at the release, noting it in TFREC after a checksum
fault. While the lanes are not done, each waits. -/
def Claims.HandlerReturns : Prop :=
  ∀ (s : State), s.canIssue shadowOnly = true →
    (s.lanesDone s.cur.core = false →
      exec .tret s = .next s.retryNext ∧ exec .tretSkip s = .next s.retryNext ∧ exec .tretRb s = .next s.retryNext) ∧
    (s.lanesDone s.cur.core = true →
      (∃ t, exec .tret s = .next t ∧ t.me.hnd = Handler.idle ∧ Claims.Resumed s.me t.me.seq ∧ Claims.ResumeWrites s.me t.me ∧
        t.me.engs = s.me.engs ∧ t.mem = s.mem ∧ Claims.SourceEnded s t s.cur.core) ∧
      (∃ t, exec .tretSkip s = .next t ∧ t.me.hnd = Handler.idle ∧ Claims.Resumed s.me t.me.seq ∧ Claims.ResumeWrites s.me t.me ∧
        Claims.WordSkipped s.me t.me ∧ t.mem = s.mem ∧ Claims.SourceEnded s t s.cur.core) ∧
      ∃ t, exec .tretRb s = .next t ∧ t.me.hnd = Handler.idle ∧ t.me.seq = s.me.seq ∧ t.me.engs = s.me.engs ∧ t.mem = s.mem ∧
        (s.me.trec.cause = 0x08 → t.me.tfrec = { s.me.tfrec with rb := true }) ∧ (s.me.trec.cause ≠ 0x08 → t.me.tfrec = s.me.tfrec) ∧
        Claims.SourceEnded s t s.cur.core ∧
        ∀ b g h, s.me.run.berth = some b → s.gang b = some g → g.hold = some h → ∃ g' h', t.gang b = some g' ∧ g'.hold = some h' ∧ h'.rb = true)

/-- R141: a register that a handler has written takes that value at TRET, s0 excepted, and every other register keeps the main context's. -/
def Claims.StagedRegisters : Prop :=
  ∀ (c : SeqCtx) (ms : List (Nat × Word)) (r : Nat), r < 32 →
    (c.stage ms).reg r = (if r = 0 then 0 else match ms.find? (·.1 = r) with | some m => m.2 | none => c.reg r)

/-- R143, R144, R399: TESC from the timetable's handler starts the Pilot firmware's on the same context, from that one it posts the fault;
TSUPPLY, only in a handler entered for DET_READ, keeps the value for the MFS, and its first use there moves MAINPC past an MFS that is in no delay
slot; in another handler it raises ILLEGAL_INSTR. -/
def Claims.HandlerEscalates : Prop :=
  ∀ (s : State) (a : BitVec 5), s.canIssue shadowOnly = true →
    (s.me.hnd.pilot = false → ∃ t, exec .tesc s = .next t ∧ t.me.hnd.pilot = true ∧ t.me.hnd.active = false ∧ t.me.sh.pc = 0x3E000 ∧
      t.me.trec = s.me.trec ∧ t.me.hnd.mains = s.me.hnd.mains) ∧
    (s.me.hnd.pilot = true → ∃ t, exec .tesc s = .next t ∧ t.me.hnd.posted = true ∧
      (s.pilot.posts.length < 64 → ∃ bs, t.pilot.posts = s.pilot.posts ++ [(s.cur.core, bs)] ∧ bs.length = 64) ∧
      (64 ≤ s.pilot.posts.length → ∃ bs, t.pilot.waiting = s.pilot.waiting ++ [(s.cur.core, bs)])) ∧
    (s.me.trec.cause = 0x0B → ∃ t, exec (.tsupply a) s = .next t ∧ t.me.hnd.supply = some (s.rd a) ∧
      (s.me.hnd.ds = false → s.me.hnd.supply = none → t.me.hnd.mainPc = s.me.hnd.mainPc + 4) ∧
      (s.me.hnd.ds = true ∨ s.me.hnd.supply ≠ none → t.me.hnd.mainPc = s.me.hnd.mainPc)) ∧
    (s.me.trec.cause ≠ 0x0B → exec (.tsupply a) s = .next (s.takeFault (mkFault 0 0x01 (encodeNat (.tsupply a)))))

/-- R399: core k has no post left: it is in no list of the ring, and its handler awaits no answer. -/
def Claims.PostGone (t : State) (k : Nat) : Prop :=
  (t.core k).hnd.posted = false ∧ ∀ p ∈ t.pilot.posts ++ t.pilot.waiting ++ t.pilot.out, p.1 ≠ k

/-- R399, R142, R154, R161, R157: the Pilot firmware's answers to a fault post: resume as TRET, roll back as TRET.RB, save by force, abort with reason 5,
or, after a checksum fault whose rollback has been made, with reason 7, the core then out of service. Each takes the core's post off the ring;
a return waits for the handler lanes as TRET does. Without a post outstanding each does nothing. -/
def Claims.FaultPostAnswers : Prop :=
  ∀ (s : State),
    let k := s.cur.core
    let u := s.dropPost k
    (s.me.hnd.posted = false → ∀ i ∈ ([.frespResume, .frespRollback, .frespForcedSave, .frespAbort] : List Instr), exec i s = .next s) ∧
    (s.me.hnd.posted = true →
      Claims.PostGone u k ∧ u.gangs = s.gangs ∧ u.gops = s.gops ∧ u.me = { s.me with hnd := { s.me.hnd with posted := false } } ∧
      (∀ r ∈ ([(.frespResume, 0), (.frespRollback, 2)] : List (Instr × Nat)), ∃ t, exec r.1 s = .next t ∧ Claims.PostGone t k ∧
        (s.lanesDone k = true → t = u.finishHandler k r.2) ∧
        (s.lanesDone k = false → t = u.modCore k fun c => { c with hnd := { c.hnd with answer := some r.2 } })) ∧
      (∃ t, exec .frespForcedSave s = .next t ∧ Claims.PostGone t k ∧
        ∀ b g, s.me.run.berth = some b → s.gang b = some g → ∃ g', t.gang b = some g' ∧ g'.saveReq = true ∧ g'.members = g.members) ∧
      (∀ b, s.me.run.berth = some b → ∃ t, exec .frespAbort s = .next t ∧
        (s.me.trec.cause = 0x08 ∧ s.me.tfrec.rb = true → t = (u.abortGang b 7).failCore k b 7) ∧
        (¬ (s.me.trec.cause = 0x08 ∧ s.me.tfrec.rb = true) → t = u.abortGang b 5)))

/-- R143: the deadline: a timetable's handler that has not returned in 4,194,304 cycles is escalated; the Pilot firmware's own, or a second case inside it,
aborts the gang with reason 8. Before the deadline, and while the Pilot complex has the fault, nothing happens. That the first overrun of a
Pilot handler entered directly aborts is the model's choice (log 84). -/
def Claims.HandlerDeadlines : Prop :=
  ∀ (s : State), let h := s.me.hnd
    (h.entry = 0 ∨ (h.fatal = false ∧ (h.posted = true ∨ h.answer ≠ none ∨ s.tide < h.entry + 4194304)) → exec .handlerDeadline s = .next s) ∧
    (h.entry ≠ 0 → h.posted = false → h.answer = none → h.fatal = false → h.pilot = false → h.entry + 4194304 ≤ s.tide →
      exec .handlerDeadline s = .next (s.escalate s.cur.core)) ∧
    (∀ b, s.me.run.berth = some b → h.entry ≠ 0 →
      (h.fatal = true ∨ (h.posted = false ∧ h.answer = none ∧ h.pilot = true ∧ h.entry + 4194304 ≤ s.tide)) →
      exec .handlerDeadline s = .next (s.abortGang b 8))

/-! ## Vector words (R187 to R190, R237 to R264) -/

/-- A V3 word of a table row: instruction, form, latency, and the function of the lanes of va, vb and the old vd. -/
abbrev Claims.LaneRow := Instr × VForm × Nat × (Lane → Lane → Lane → LaneR)

/-- A row completes: whenever its word is legal and nothing stops it, exec answers the state in which the repeat has issued with the row's
result and latency. -/
def Claims.LaneRowCompletes (s : State) (w : V3) (r : Claims.LaneRow) : Prop :=
  let k := (s.eng .vec).rep
  s.wordLegal .vec (v3Legal r.2.1 w) = true → s.vecOk false (v3Srcs w r.2.1 k) (v3Dest w r.2.1 k) = true →
  exec r.1 s = .next (s.vecDone (v3Dest w r.2.1 k) (w.rep.toNat + 1) 1 r.2.2.1 (v3Srcs w r.2.1 k) (s.laneOut w r.2.1 k r.2.2.2))

/-- R244, R237, R240: the integer words, sub-element by sub-element, on the exact integers a, b and d; SAT, where it is allowed, saturates. -/
def Claims.IntegerWords : Prop :=
  ∀ (s : State) (w : V3),
    let n := intW w.t
    let sg := intS w.t
    let form (sat vb red : Bool) : VForm := { ty := 1, rm := false, sat := sat, msk := true, x := 0, va := true, vb := vb, vd := if red then 2 else 1 }
    let row (i : Instr) (satOk vb red sat : Bool) (lat : Nat) (op : Int → Int → Int → Int) : Claims.LaneRow :=
      (i, form satOk vb red, lat, subElems n fun a b d => intResult n sg sat (op (toVal n sg a) (toVal n sg b) (toVal n sg d)))
    ∀ r ∈ [row (.vadd w) false true false false 3 (fun a b _ => a + b), row (.vsub w) false true false false 3 (fun a b _ => a - b),
           row (.vmul w) true true false w.sat 4 (fun a b _ => a * b), row (.vmulh w) false true false false 4 (fun a b _ => a * b / 2 ^ n),
           row (.vmac w) true true true w.sat 4 (fun a b d => d + a * b), row (.vadds w) false true false true 3 (fun a b _ => a + b),
           row (.vsubs w) false true false true 3 (fun a b _ => a - b), row (.vabs w) true false false w.sat 3 (fun a _ _ => a.natAbs),
           row (.vneg w) true false false w.sat 3 (fun a _ _ => -a), row (.vmin w) false true false false 3 (fun a b _ => min a b),
           row (.vmax w) false true false false 3 (fun a b _ => max a b), row (.vabsd w) false true false false 3 (fun a b _ => (a - b).natAbs)],
      Claims.LaneRowCompletes s w r

/-- R16, R237, R244: what a sub-element is and what its result is, for the widths 32, 16 and 8. Sub-element e of a lane is its bits from n × e on, each is
computed on its own, and the word's flags are those of its sub-elements. A pattern is read as the signed or unsigned number that it is. Without
SAT a result wraps to its width and raises nothing; with SAT it is the nearest value of the type and SA (bit 5) is raised exactly when that
differs. -/
def Claims.SubElements : Prop :=
  ∀ (n : Nat), n ∈ [32, 16, 8] → ∀ (a b d : Lane) (op : Nat → Nat → Nat → Nat × Fx) (p : Nat) (x : Int) (sg : Bool),
    let el (y : Lane) (e : Nat) : Nat := y.toNat / 2 ^ (n * e) % 2 ^ n
    let r := subElems n op a b d
    (∀ e, e < 32 / n → el r.1 e = (op (el a e) (el b e) (el d e)).1 % 2 ^ n) ∧
    (∀ i, r.2.getLsbD i = true ↔ ∃ e, e < 32 / n ∧ (op (el a e) (el b e) (el d e)).2.getLsbD i = true) ∧
    (p < 2 ^ n → toVal n sg p = if sg = true ∧ 2 ^ (n - 1) ≤ p then (p : Int) - 2 ^ n else p) ∧
    ((intResult n sg false x).1 : Int) = x % 2 ^ n ∧ (intResult n sg false x).2 = 0 ∧
    (let lo : Int := if sg then -2 ^ (n - 1) else 0
     let hi : Int := if sg then 2 ^ (n - 1) - 1 else 2 ^ n - 1
     ((intResult n sg true x).1 : Int) = max lo (min hi x) % 2 ^ n ∧ (intResult n sg true x).2 = if lo ≤ x ∧ x ≤ hi then 0 else 1 <<< 5)

/-- R246, R247: the bit words on whole lanes, with latency 2. -/
def Claims.BitWords : Prop :=
  ∀ (s : State) (w : V3),
    let row (i : Instr) (x : Nat) (vb red : Bool) (op : Lane → Lane → Lane → Lane) : Claims.LaneRow :=
      (i, { ty := 0, rm := false, sat := false, msk := true, x := x, va := true, vb := vb, vd := if red then 2 else 1 }, 2,
       fun a b d => (op a b d, 0))
    ∀ r ∈ [row (.vand w) 0 true false (fun a b _ => a &&& b), row (.vor w) 0 true false (fun a b _ => a ||| b),
           row (.vxor w) 0 true false (fun a b _ => a ^^^ b), row (.vnot w) 0 false false (fun a _ _ => ~~~a),
           row (.vshl w) 0 true false (fun a b _ => a <<< (b.toNat % 64)), row (.vshr w) 0 true false (fun a b _ => a >>> (b.toNat % 64)),
           row (.vsra w) 0 true false (fun a b _ => a.sshiftRight (b.toNat % 64)),
           row (.vrot w) 1 true false (fun a b _ => if w.x = 1 then a.rotateRight (b.toNat % 32) else a.rotateLeft (b.toNat % 32)),
           row (.vpopc w) 0 false false (fun a _ _ => BitVec.ofNat 32 (((List.range 32).map fun i => (a.getLsbD i).toNat).sum)),
           row (.vclz w) 0 false false (fun a _ _ => if a = 0 then 32 else BitVec.ofNat 32 (31 - a.toNat.log2)),
           row (.vfsh w) 1 true true (fun a b d =>
             if w.x = 1 then (((a ++ b : BitVec 64) <<< (d.toNat % 64)) >>> 32).setWidth 32 else ((a ++ b : BitVec 64) >>> (d.toNat % 64)).setWidth 32),
           row (.vbfx w) 1 true false (fun a b _ =>
             let p := b.toNat % 32
             let n := min (b.toNat / 256 % 64) 32
             let f := a.toNat / 2 ^ p % 2 ^ n
             BitVec.ofInt 32 (if w.x = 1 && n != 0 && 2 ^ (n - 1) ≤ f then (f : Int) - 2 ^ n else f)),
           row (.vbfi w) 0 true true (fun a b d =>
             let p := b.toNat % 32
             let m : Lane := BitVec.ofNat 32 (2 ^ min (b.toNat / 256 % 64) 32 - 1) <<< p
             (d &&& ~~~m) ||| ((a <<< p) &&& m))],
      Claims.LaneRowCompletes s w r

/-- R190, R245, R246: the immediate words on whole lanes. A shift by an immediate of 64 or more raises ILLEGAL_WORD at the word's first repeat. -/
def Claims.ImmediateWords : Prop :=
  ∀ (s : State) (w : VI),
    let k := (s.eng .vec).rep
    (∀ r ∈ ([(.vaddi w, 3, true, true, fun a => a + w.imm.signExtend 32), (.vli w, 2, false, true, fun _ => w.imm.signExtend 32),
            (.vlih w, 2, true, true, fun a => w.imm ++ a.setWidth 16), (.vandi w, 2, true, true, fun a => a &&& w.imm.setWidth 32),
            (.vshli w, 2, true, decide (w.imm.toNat < 64), fun a => a <<< w.imm.toNat),
            (.vshri w, 2, true, decide (w.imm.toNat < 64), fun a => a >>> w.imm.toNat),
            (.vsrai w, 2, true, decide (w.imm.toNat < 64), fun a => a.sshiftRight w.imm.toNat)] :
        List (Instr × Nat × Bool × Bool × (Lane → Lane))),
      let vs : List VSrc := if r.2.2.1 then [{ f := w.va, idx := stepped (srcChan w.va) (stepsS1 w.step) (srcIdx w.va) k }] else []
      let dst := some (dstChan w.vd, stepped (dstChan w.vd) (stepsD w.step) (dstIdx w.vd) k)
      s.wordLegal .vec (viLegal w r.2.2.1 true && r.2.2.2.1) = true → s.vecOk false vs dst = true →
      exec r.1 s = .next (s.vecDone dst (w.rep.toNat + 1) 1 r.2.1 vs
        { lanes := (List.range 64).map fun l => r.2.2.2.2 (lget (lget (s.srcLanes vs) 0 []) l 0)
          wm := if w.msk then s.me.active else BitVec.allOnes 64, fl := 0 })) ∧
    (64 ≤ w.imm.toNat → s.wordBad .vec = false → k = 0 →
      ∀ i ∈ ([.vshli w, .vshri w, .vsrai w] : List Instr), exec i s = .next (s.takeFault (mkFault 1 0x02 (encodeNat i))))

/-- R252, R253, R255: the floating words, sub-element by sub-element, in the format that T names; arithmetic is exact, then rounded by RM. -/
def Claims.FloatingWords : Prop :=
  ∀ (s : State) (w : V3),
    let f := fltF w.t
    let m := w.rm.toNat
    let row (i : Instr) (rounds vb red : Bool) (lat : Nat) (op : Nat → Nat → Nat → Nat × Fx) : Claims.LaneRow :=
      (i, { ty := 2, rm := rounds, sat := rounds, msk := true, x := 0, va := true, vb := vb, vd := if red then 2 else 1 }, lat, subElems (fWidth f) op)
    let fl := decodeF f
    ∀ r ∈ [row (.vfadd w) true true false 5 (fun a b _ => roundR f m w.sat (flAdd m (fl a) (fl b))),
           row (.vfsub w) true true false 5 (fun a b _ => roundR f m w.sat (flAdd m (fl a) (flNeg (fl b)))),
           row (.vfmul w) true true false 5 (fun a b _ => roundR f m w.sat (flMul (fl a) (fl b))),
           row (.vfma w) true true true 5 (fun a b d => roundR f m w.sat (flFma m (fl a) (fl b) (fl d))),
           row (.vfms w) true true true 5 (fun a b d => roundR f m w.sat (flFma m (flNeg (fl a)) (fl b) (fl d))),
           row (.vfsqrt w) true false false 12 (fun a _ _ => fpSqrt f m a),
           row (.vfmin w) false true false 5 (fun a b _ => (fpMinMax f false false a b, 0)),
           row (.vfmax w) false true false 5 (fun a b _ => (fpMinMax f true false a b, 0)),
           row (.vfminp w) false true false 5 (fun a b _ => (fpMinMax f false true a b, 0)),
           row (.vfmaxp w) false true false 5 (fun a b _ => (fpMinMax f true true a b, 0)),
           row (.vfabs w) false false false 2 (fun a _ _ => (fpSign f a false, 0)),
           row (.vfneg w) false false false 2 (fun a _ _ => (fpSign f a (!signBit f a), 0))],
      Claims.LaneRowCompletes s w r

/-- The value of a sign, a magnitude and an exponent of 2. -/
def Claims.flVal (s : Bool) (m : Nat) (e : Int) : ℚ := (if s then -1 else 1) * m * 2 ^ e

/-- R87, R88: the values of the patterns of the five floating formats (code, exponent bits, mantissa bits, bias, canonical NaN). -/
def Claims.FormatValues : Prop :=
  ∀ r ∈ ([(6, 4, 3, 7, 0x7F), (7, 5, 2, 15, 0x7E), (8, 5, 10, 15, 0x7E00), (9, 8, 7, 127, 0x7FC0), (10, 8, 23, 127, 0x7FC00000)] :
      List (Nat × Nat × Nat × Nat × Nat)),
    ∀ p, p < 2 ^ (1 + r.2.1 + r.2.2.1) →
      let f : Nat := r.1
      let x : Nat := r.2.1
      let m : Nat := r.2.2.1
      let sg : Bool := decide (2 ^ (x + m) ≤ p)
      let e : Nat := p / 2 ^ m % 2 ^ x
      let n : Nat := p % 2 ^ m
      let v : Fl := decodeF f p
      fWidth f = 1 + x + m ∧ canonNaN f = r.2.2.2.2 ∧
      (f ≠ 6 → e = 2 ^ x - 1 → v = if n = 0 then .inf sg else .nan) ∧ (f = 6 → e = 15 → n = 7 → v = .nan) ∧
      ((f ≠ 6 ∧ e ≠ 2 ^ x - 1) ∨ (f = 6 ∧ ¬ (e = 15 ∧ n = 7)) →
        ∃ k j, v = .fin sg k j ∧ Claims.flVal sg k j =
          (if sg then -1 else 1) * (if e = 0 then (2 : ℚ) ^ (1 - (r.2.2.2.1 : Int)) * ((n : ℚ) / 2 ^ m)
            else (2 : ℚ) ^ ((e : Int) - r.2.2.2.1) * (1 + (n : ℚ) / 2 ^ m)))

/-- R90, R91: rounding to a floating format (code, mantissa bits, bias, the largest finite value as q × 2^k, its pattern, and the pattern that
an overflow without SAT gives in its direction). A finite nonzero x is q × 2^k or lies between two neighbours, k being the step of the format
where x lies; the mode picks one. When that exceeds the largest finite value the table of R90 gives the result, with OF and NX; else the result
is that value, NX tells that it is not x, and UF that x is tiny besides. An infinity stays (in E4M3 it sets IV), a NaN is the canonical one. -/
def Claims.Rounding : Prop :=
  ∀ r ∈ ([(6, 3, 7, 14, 5, 0x7E, 0x7F), (7, 2, 15, 7, 13, 0x7B, 0x7C), (8, 10, 15, 2047, 5, 0x7BFF, 0x7C00), (9, 7, 127, 255, 120, 0x7F7F, 0x7F80),
          (10, 23, 127, 2 ^ 24 - 1, 104, 0x7F7FFFFF, 0x7F800000)] : List (Nat × Nat × Nat × Nat × Int × Nat × Nat)),
    ∀ (mode : Nat) (sat s : Bool) (m : Nat) (e : Int), mode < 4 → m ≠ 0 →
      let f := r.1
      let man : Int := r.2.1
      let emin : Int := 1 - (r.2.2.1 : Int)
      let neg : Nat := if s then 2 ^ (fWidth f - 1) else 0
      let k : Int := max ((m.log2 : Int) + e) emin - man
      let x : ℚ := m * 2 ^ (e - k)
      let toMax : Prop := sat = true ∨ mode = 1 ∨ (mode = 2 ∧ s = false) ∨ (mode = 3 ∧ s = true)
      let res := roundF f mode sat s m e
      (∃ q : Nat,
        (mode = 0 → |(q : ℚ) - x| ≤ 1 / 2 ∧ (|(q : ℚ) - x| = 1 / 2 → q % 2 = 0)) ∧
        ((mode = 2 ∧ s = true) ∨ (mode = 3 ∧ s = false) → x ≤ q ∧ (q : ℚ) < x + 1) ∧
        (mode = 1 ∨ (mode = 2 ∧ s = false) ∨ (mode = 3 ∧ s = true) → (q : ℚ) ≤ x ∧ x < q + 1) ∧
        let past : Prop := r.2.2.2.2.1 < k ∨ (k = r.2.2.2.2.1 ∧ r.2.2.2.1 < q)
        (past → res.2 = fOF ||| fNX ∧ (toMax → res.1 = neg + r.2.2.2.2.2.1) ∧
          (¬ toMax → res.1 = if f = 6 then 0x7F else neg + r.2.2.2.2.2.2)) ∧
        (¬ past → (decodeF f res.1 = .fin s q k ∨ (q = 2 ^ (r.2.1 + 1) ∧ decodeF f res.1 = .fin s (2 ^ r.2.1) (k + 1))) ∧
          ((q : ℚ) = x → res.2 = 0) ∧ ((q : ℚ) ≠ x → res.2 = if (m : ℚ) * 2 ^ e < 2 ^ emin then fUF ||| fNX else fNX))) ∧
      roundF f mode sat s 0 e = (neg, 0) ∧
      roundFl f mode sat (.fin s m e) = res ∧ roundFl f mode sat .nan = (canonNaN f, 0) ∧
      roundFl f mode sat (.inf s) = (if f = 6 then (if sat then neg + 0x7E else 0x7F, fIV) else (neg + r.2.2.2.2.2.2, 0)) ∧
      ∀ v fl, roundR f mode sat (v, fl) = ((roundFl f mode sat v).1, fl ||| (roundFl f mode sat v).2)

/-- R89, R91, R94: sums, products and fused products are exact before they are rounded. A sum of zeros of one sign has that sign, every other zero
sum is +0, and −0 under RDN; infinities as IEEE 754 has them; a NaN result without a NaN operand sets IV, one with a NaN operand nothing. -/
def Claims.ExactArithmetic : Prop :=
  (∀ (mode : Nat) (s t u : Bool) (m n o : Nat) (i j l : Int),
    (∃ r q k, flAdd mode (.fin s m i) (.fin t n j) = (.fin r q k, 0) ∧
      Claims.flVal r q k = Claims.flVal s m i + Claims.flVal t n j ∧ (q = 0 → r = if m = 0 ∧ n = 0 ∧ s = t then s else decide (mode = 2))) ∧
    (∃ q k, flMul (.fin s m i) (.fin t n j) = (.fin (s != t) q k, 0) ∧ Claims.flVal (s != t) q k = Claims.flVal s m i * Claims.flVal t n j) ∧
    (∃ r q k, flFma mode (.fin s m i) (.fin t n j) (.fin u o l) = (.fin r q k, 0) ∧
      Claims.flVal r q k = Claims.flVal s m i * Claims.flVal t n j + Claims.flVal u o l) ∧
    flAdd mode (.inf s) (.fin t n j) = (.inf s, 0) ∧ flAdd mode (.fin t n j) (.inf s) = (.inf s, 0) ∧
    flAdd mode (.inf s) (.inf t) = (if s = t then (.inf s, 0) else (.nan, fIV)) ∧
    flMul (.inf s) (.inf t) = (.inf (s != t), 0) ∧
    flMul (.inf s) (.fin t n j) = (if n = 0 then (.nan, fIV) else (.inf (s != t), 0)) ∧
    flMul (.fin t n j) (.inf s) = (if n = 0 then (.nan, fIV) else (.inf (t != s), 0))) ∧
  ∀ (mode : Nat) (a b c : Fl),
    flAdd mode .nan b = (.nan, 0) ∧ flAdd mode a .nan = (.nan, 0) ∧ flMul .nan b = (.nan, 0) ∧ flMul a .nan = (.nan, 0) ∧
    flFma mode .nan b c = (.nan, 0) ∧ flFma mode a .nan c = (.nan, 0) ∧ flFma mode a b .nan = (.nan, 0) ∧
    (a ≠ .nan → b ≠ .nan → c ≠ .nan → (flFma mode a b c).1 = .nan → (flFma mode a b c).2 = fIV) ∧
    ((flFma mode a b c).1 ≠ .nan → (flFma mode a b c).2 = 0 ∧ (flFma mode a b c).1 = (flAdd mode (flMul a b).1 c).1)

/-- The order of two values, zeros being equal (R94). -/
def Claims.flLess : Fl → Fl → Prop
  | .inf s, .inf t => s = true ∧ t = false
  | .inf s, .fin _ _ _ => s = true
  | .fin _ _ _, .inf t => t = false
  | .fin s m e, .fin t n j => Claims.flVal s m e < Claims.flVal t n j
  | _, _ => False

/-- R95, R253: Min and Max return the numeric operand where one is NaN, MinP and MaxP the canonical NaN where any is; else the lesser or greater in
the order of R94 with −0 below +0. -/
def Claims.Minima : Prop :=
  ∀ (f a b : Nat) (prop : Bool), f ∈ [6, 7, 8, 9, 10] → a < 2 ^ fWidth f → b < 2 ^ fWidth f →
    let x := decodeF f a
    let y := decodeF f b
    let zero (v : Fl) (s : Bool) : Prop := ∃ e, v = .fin s 0 e
    let below (v w : Fl) : Prop := Claims.flLess v w ∨ (zero v true ∧ zero w false)
    (x = .nan → y = .nan → ∀ mx, fpMinMax f mx prop a b = canonNaN f) ∧
    ((x = .nan ∨ y = .nan) → ∀ mx, fpMinMax f mx true a b = canonNaN f) ∧
    (x = .nan → y ≠ .nan → ∀ mx, fpMinMax f mx false a b = b) ∧ (x ≠ .nan → y = .nan → ∀ mx, fpMinMax f mx false a b = a) ∧
    (below x y → fpMinMax f false prop a b = a ∧ fpMinMax f true prop a b = b) ∧
    (below y x → fpMinMax f false prop a b = b ∧ fpMinMax f true prop a b = a) ∧
    (x ≠ .nan → y ≠ .nan → ¬ below x y → ¬ below y x → a = b ∧ ∀ mx, fpMinMax f mx prop a b = a)

/-- R254: the table-defined words on FP32 lanes, with latency 8. -/
def Claims.TableWords : Prop :=
  ∀ (s : State) (w : V3),
    let form : VForm := { ty := 0, rm := false, sat := false, msk := true, x := 0, va := true, vb := false, vd := 1 }
    ∀ r ∈ ([(.vrcp w, fRcp), (.vrsq w, fRsq), (.vexp2 w, fExp2), (.vlog2 w, fLog2)] : List (Instr × (Nat → Nat × Fx))),
      Claims.LaneRowCompletes s w (r.1, form, 8, fun a _ _ => (BitVec.ofNat 32 (r.2 a.toNat).1, (r.2 a.toNat).2))

/-- R106, R107: the four table-defined functions. The knots are 2^23 × g(j/128) to nearest (for VLOG2 the statement bounds them to 2^-13), a
result is the exact reconstruction rounded to nearest even, and the special operands give what the table says. -/
def Claims.TableFunctions : Prop :=
  (∀ j, j ≤ 128 →
    (|(knotRcp j : ℚ) - 2 ^ 23 * (256 / (128 + j) - 1)| ≤ 1 / 2) ∧
    (∀ t, t < 2 → let c := 2 ^ 23 + knotRsq t j
      (2 * c - 1) ^ 2 * (2 ^ t * (128 + j)) ≤ 2 ^ 57 ∧ 2 ^ 57 ≤ (2 * c + 1) ^ 2 * (2 ^ t * (128 + j))) ∧
    (let c := 2 ^ 23 + knotExp j
     (2 * c - 1) ^ 128 ≤ 2 ^ (24 * 128 + j) ∧ 2 ^ (24 * 128 + j) ≤ (2 * c + 1) ^ 128) ∧
    (let c := knotLog j / 2 ^ 10
     2 ^ c * 128 ^ 8192 ≤ 2 * (128 + j) ^ 8192 ∧ (128 + j) ^ 8192 ≤ 2 ^ (c + 2) * 128 ^ 8192)) ∧
  ∀ (p : Nat), p < 2 ^ 32 →
    let v : Fl := decodeF 10 p
    let r (k : Nat → Nat) (u : Nat) : Int := k (u / 2 ^ 16) + ((k (u / 2 ^ 16 + 1) : Int) - k (u / 2 ^ 16)) * (u % 2 ^ 16 : Nat) / 2 ^ 16
    (v = .nan → fRcp p = (0x7FC00000, 0) ∧ fRsq p = (0x7FC00000, 0) ∧ fExp2 p = (0x7FC00000, 0) ∧ fLog2 p = (0x7FC00000, 0)) ∧
    (p = 0 → fRcp p = (0x7F800000, fDZ) ∧ fRsq p = (0x7F800000, fDZ) ∧ fExp2 p = (0x3F800000, 0) ∧ fLog2 p = (0xFF800000, fDZ)) ∧
    (p = 0x80000000 → fRcp p = (0xFF800000, fDZ) ∧ fRsq p = (0xFF800000, fDZ) ∧ fExp2 p = (0x3F800000, 0) ∧ fLog2 p = (0xFF800000, fDZ)) ∧
    (p = 0x7F800000 → fRcp p = (0, 0) ∧ fRsq p = (0, 0) ∧ fExp2 p = (0x7F800000, 0) ∧ fLog2 p = (0x7F800000, 0)) ∧
    (p = 0xFF800000 → fRcp p = (0x80000000, 0) ∧ fRsq p = (0x7FC00000, fIV) ∧ fExp2 p = (0, 0) ∧ fLog2 p = (0x7FC00000, fIV)) ∧
    (p = 0x3F800000 → fLog2 p = (0, 0)) ∧
    ∀ s m e, v = .fin s m e → m ≠ 0 →
      (∀ (x : Int) (u : Nat), u < 2 ^ 23 → (m : ℚ) * 2 ^ e = 2 ^ x * (1 + u / 2 ^ 23) →
        fRcp p = roundF 10 0 false s (2 ^ 23 + r knotRcp u).toNat (-x - 24) ∧
        (s = true → fRsq p = (0x7FC00000, fIV) ∧ fLog2 p = (0x7FC00000, fIV)) ∧
        (s = false → fRsq p = roundF 10 0 false false (2 ^ 23 + r (knotRsq (x % 2).toNat) u).toNat (-((x - x % 2) / 2) - 24) ∧
          fLog2 p = roundF 10 0 false (decide (x * 2 ^ 23 + r knotLog u < 0)) (x * 2 ^ 23 + r knotLog u).natAbs (-23))) ∧
      (let n : Int := ⌊Claims.flVal s m e⌋
       let u : Int := ⌊(Claims.flVal s m e - n) * 2 ^ 23⌋
       fExp2 p = roundF 10 0 false false (2 ^ 23 + r knotExp u.toNat).toNat (n - 23))

/-- R91, R92, R93: a conversion of one element. Between integers it wraps, or with SAT saturates and sets SA where that changes it; an integer, or a
floating value, into a floating format is rounded; a floating value into an integer is rounded to an integer and then wrapped, or with SAT
saturated, with IV where it lies outside the range and NX where it was not an integer; a NaN gives 0, an infinity 0 or with SAT the extreme of
its sign, each with IV. -/
def Claims.ElementConversions : Prop :=
  ∀ (mode : Nat) (sat : Bool) (p : Nat), mode < 4 →
    let width (g : Nat) : Nat := lget [4, 8, 8, 16, 32, 64] g 0
    let lo (g : Nat) : Int := if g = 1 then 0 else -2 ^ (width g - 1)
    let hi (g : Nat) : Int := if g = 1 then 255 else 2 ^ (width g - 1) - 1
    let num (g q : Nat) : Int := if g ≠ 1 ∧ 2 ^ (width g - 1) ≤ q then (q : Int) - 2 ^ width g else q
    ∀ f g, f ≤ 10 → g ≤ 10 →
      (f ≤ 5 → p < 2 ^ width f → g ≤ 5 →
        let y : Int := if sat then max (lo g) (min (hi g) (num f p)) else num f p
        ((cvt f g mode sat p).1 : Int) = y % 2 ^ width g ∧ (cvt f g mode sat p).2 = if y = num f p then 0 else fSA) ∧
      (f ≤ 5 → p < 2 ^ width f → 6 ≤ g → cvt f g mode sat p = roundF g mode sat (decide (num f p < 0)) (num f p).natAbs 0) ∧
      (6 ≤ f → 6 ≤ g → cvt f g mode sat p = roundFl g mode sat (decodeF f p)) ∧
      (6 ≤ f → g ≤ 5 →
        (decodeF f p = .nan → cvt f g mode sat p = (0, fIV)) ∧
        (∀ s, decodeF f p = .inf s → (cvt f g mode sat p).2 = fIV ∧
          ((cvt f g mode sat p).1 : Int) = if sat then (if s then lo g else hi g) % 2 ^ width g else 0) ∧
        (∀ s m e, decodeF f p = .fin s m e →
          let x := Claims.flVal s m e
          ∃ n : Int, (mode = 0 → |(n : ℚ) - x| ≤ 1 / 2 ∧ (|(n : ℚ) - x| = 1 / 2 → n % 2 = 0)) ∧
            (mode = 1 → |(n : ℚ)| ≤ |x| ∧ |x| < |(n : ℚ)| + 1 ∧ 0 ≤ (n : ℚ) * x) ∧ (mode = 2 → n = ⌊x⌋) ∧ (mode = 3 → n = ⌈x⌉) ∧
            ((cvt f g mode sat p).1 : Int) = (if sat then max (lo g) (min (hi g) n) else n) % 2 ^ width g ∧
            (cvt f g mode sat p).2 = (if lo g ≤ n ∧ n ≤ hi g then 0 else fIV) ||| (if (n : ℚ) = x then 0 else fNX)))

/-- R255: where a conversion between formats other than INT64 puts its results: lane by lane, a signed integer below 32 bits sign-extended, every
other narrower result zero-extended. -/
def Claims.ConvertedLanes : Prop :=
  ∀ (f g rm : Nat) (sat : Bool) (a : List Lane) (l : Nat), f ≤ 10 → g ≤ 10 → f ≠ 5 → g ≠ 5 → l < 64 →
    let bits (h : Nat) : Nat := lget [4, 8, 8, 16, 32, 64, 8, 8, 16, 16, 32] h 0
    let r := cvt f g rm sat ((lget a l 0).toNat % 2 ^ bits f)
    let out := lget (cvtLanes f g rm sat a) l (0, 0)
    out.2 = r.2 ∧ out.1.toNat = (if (g = 0 ∨ g = 2 ∨ g = 3) ∧ 2 ^ (bits g - 1) ≤ r.1 then r.1 + (2 ^ 32 - 2 ^ bits g) else r.1)

/-- R255: VCVT from format SF to DF, INT64 taking lane pairs, with latency 4. -/
def Claims.Conversions : Prop :=
  ∀ (s : State) (w : V3),
    let k := (s.eng .vec).rep
    let f := w.vb.toNat / 8
    let g := w.t.toNat * 8 + w.x.toNat
    let form : VForm := { ty := 3, rm := true, sat := true, msk := true, x := 7, va := true, vb := false, vd := 1 }
    let vs := v3Srcs w form k
    s.wordLegal .vec (v3Legal form { w with vb := 0 } && w.vb.toNat % 8 = 0 && f ≤ 10 && g ≤ 10) = true → s.vecOk false vs (v3Dest w form k) = true →
    let rs := cvtLanes f g w.rm.toNat w.sat (lget (s.srcLanes vs) 0 [])
    let act := if f = 5 || g = 5 then pairMask true s.me.active else s.me.active
    let wm := if w.msk then act else BitVec.allOnes 64
    exec (.vcvt w) s = .next (s.vecDone (v3Dest w form k) (w.rep.toNat + 1) 1 4 vs { lanes := rs.map (·.1), wm := wm, fl := writtenFlags wm rs })

/-- R248, R249: compares write all ones or 0 to each lane, or with PUSH push the mask of the lanes that pass, all with latency 3. -/
def Claims.Compares : Prop :=
  ∀ (s : State) (w : V3) (v : VI),
    let k := (s.eng .vec).rep
    let form : VForm := { ty := 0, rm := false, sat := true, msk := !w.sat, x := 7, va := true, vb := true, vd := if w.sat then 0 else 1 }
    (∀ r ∈ ([(.vcmp w, intCond), (.vfcmp w, fltCond)] : List (Instr × (Nat → Lane → Lane → Bool))),
      (w.sat = false → Claims.LaneRowCompletes s w (r.1, form, 3, fun a b _ => (if r.2 w.x.toNat a b then BitVec.allOnes 32 else 0, 0))) ∧
      (w.sat = true → s.wordLegal .vec (v3Legal form w && !w.msk) = true → s.me.maskDepth < 16 → s.vecOk false (v3Srcs w form k) none = true →
        exec r.1 s = .next (s.vecDone none (w.rep.toNat + 1) 1 3 (v3Srcs w form k)
          { lanes := [], wm := 0, fl := 0
            masks := [.push (laneMask fun l => r.2 w.x.toNat (lget (lget (s.srcLanes (v3Srcs w form k)) 0 []) l 0)
              (lget (lget (s.srcLanes (v3Srcs w form k)) 1 []) l 0))] }))) ∧
    (let vs : List VSrc := [{ f := v.va, idx := stepped (srcChan v.va) (stepsS1 v.step) (srcIdx v.va) k }]
     let dst := some (dstChan v.vd, stepped (dstChan v.vd) (stepsD v.step) (dstIdx v.vd) k)
     let b : Lane := (v.imm.setWidth 12).signExtend 32
     let pass (l : Nat) : Bool := intCond (v.imm.toNat / 4096 % 8) (lget (lget (s.srcLanes vs) 0 []) l 0) b
     (v.imm.getLsbD 15 = false → s.wordLegal .vec (viLegal v true true) = true → s.vecOk false vs dst = true →
       exec (.vcmpi v) s = .next (s.vecDone dst (v.rep.toNat + 1) 1 3 vs
         { lanes := (List.range 64).map fun l => if pass l then BitVec.allOnes 32 else 0
           wm := if v.msk then s.me.active else BitVec.allOnes 64, fl := 0 })) ∧
     (v.imm.getLsbD 15 = true → s.wordLegal .vec (viLegal v true false && !v.msk) = true → s.me.maskDepth < 16 → s.vecOk false vs none = true →
       exec (.vcmpi v) s = .next (s.vecDone none (v.rep.toNat + 1) 1 3 vs { lanes := [], wm := 0, fl := 0, masks := [.push (laneMask pass)] })))

/-- R248: the eight conditions of VCMP. -/
def Claims.CompareConditions : Prop :=
  ∀ (a b : Lane),
    intCond 0 a b = decide (a = b) ∧ intCond 1 a b = decide (a ≠ b) ∧ intCond 2 a b = decide (a.toInt < b.toInt) ∧
    intCond 3 a b = decide (b.toInt ≤ a.toInt) ∧ intCond 4 a b = decide (a.toNat < b.toNat) ∧ intCond 5 a b = decide (b.toNat ≤ a.toNat) ∧
    intCond 6 a b = decide (b.toInt < a.toInt) ∧ intCond 7 a b = decide (a.toInt ≤ b.toInt)

/-- R94, R248: the eight conditions of VFCMP: equal, not equal, less, less or equal, greater, greater or equal, unordered, ordered; zeros are equal,
and with a NaN only "not equal" and "unordered" hold. -/
def Claims.FloatConditions : Prop :=
  ∀ (a b : Lane),
    let x := decodeF 10 a.toNat
    let y := decodeF 10 b.toNat
    let un : Prop := x = .nan ∨ y = .nan
    let lt : Prop := Claims.flLess x y
    let gt : Prop := Claims.flLess y x
    (fltCond 0 a b = true ↔ ¬ un ∧ ¬ lt ∧ ¬ gt) ∧ (fltCond 1 a b = true ↔ un ∨ lt ∨ gt) ∧ (fltCond 2 a b = true ↔ lt) ∧
    (fltCond 3 a b = true ↔ ¬ un ∧ ¬ gt) ∧ (fltCond 4 a b = true ↔ gt) ∧ (fltCond 5 a b = true ↔ ¬ un ∧ ¬ lt) ∧
    (fltCond 6 a b = true ↔ un) ∧ (fltCond 7 a b = true ↔ ¬ un)

/-- R250: the mask words change the mask stack with latency 3; a change that the depth does not allow raises ILLEGAL_WORD. -/
def Claims.MaskWords : Prop :=
  ∀ (s : State) (w : V3),
    let n := w.x.toNat + 1
    ∀ r ∈ ([(.mpush w, 0, true, decide (s.me.maskDepth < 16),
              [.push (laneMask fun l => lget (lget (s.srcLanes (v3Srcs w (maskForm 0 true) 0)) 0 []) l 0 != 0)]),
            (.minv w, 0, false, decide (1 ≤ s.me.maskDepth), [.inv]), (.mpop w, 7, false, decide (n ≤ s.me.maskDepth), List.replicate n .pop),
            (.mclr w, 0, false, true, [.clr])] : List (Instr × Nat × Bool × Bool × List MaskOp)),
      let vs := v3Srcs w (maskForm r.2.1 r.2.2.1) 0
      s.wordLegal .vec (v3Legal (maskForm r.2.1 r.2.2.1) w && w.rep = 0 && w.step = 0) = true → s.wordBad .vec = false →
      (r.2.2.2.1 = true → s.vecOk false vs none = true →
        exec r.1 s = .next (s.vecDone none 1 1 3 vs { lanes := [], wm := 0, fl := 0, masks := r.2.2.2.2 })) ∧
      (r.2.2.2.1 = false → exec r.1 s = .next (s.takeFault (mkFault 1 0x02 (encodeNat r.1))))

/-- R250: what a change of the mask stack does: a push is and-ed with the enclosing mask, an inversion stays within it, pops and clears
remove. -/
def Claims.MaskStack : Prop :=
  ∀ (l : List (BitVec 64)) (m t : BitVec 64),
    (MaskOp.push m).apply [] = [m] ∧ (MaskOp.push m).apply (t :: l) = (t &&& m) :: t :: l ∧
    MaskOp.inv.apply [m] = [~~~m] ∧ MaskOp.inv.apply (m :: t :: l) = (t &&& ~~~m) :: t :: l ∧
    MaskOp.pop.apply (m :: l) = l ∧ MaskOp.clr.apply l = []

/-- R89, R251, R256: VSEL picks va in active lanes and vb in the others; a reduction gives every lane the value of the tree over the active lanes,
or over all without MSK, and its empty value when there is none; a floating reduction that comes to a NaN gives the canonical one. -/
def Claims.Reductions : Prop :=
  ∀ (s : State) (w : V3),
    let k := (s.eng .vec).rep
    (let f : VForm := { ty := 0, rm := false, sat := false, msk := false, x := 0, va := true, vb := true, vd := 1 }
     let src := s.srcLanes (v3Srcs w f k)
     s.wordLegal .vec (v3Legal f w) = true → s.vecOk false (v3Srcs w f k) (v3Dest w f k) = true →
     exec (.vsel w) s = .next (s.vecDone (v3Dest w f k) (w.rep.toNat + 1) 1 2 (v3Srcs w f k)
       { lanes := (List.range 64).map fun l => if s.me.active.getLsbD l then lget (lget src 0 []) l 0 else lget (lget src 1 []) l 0
         wm := BitVec.allOnes 64, fl := 0 })) ∧
    ∀ r ∈ ([(.vradd w, 1, false, true, decide (w.t.toNat ≤ 1), 0,
              fun a b => patR (intResult 32 (intS w.t) w.sat (toVal 32 (intS w.t) a.toNat + toVal 32 (intS w.t) b.toNat))),
            (.vrmin w, 1, false, false, decide (w.t.toNat ≤ 1), (if w.t = 0 then 0x7FFFFFFF else 0xFFFFFFFF),
              fun a b => (if (if w.t = 0 then decide (b.toInt < a.toInt) else decide (b.toNat < a.toNat)) then b else a, 0)),
            (.vrmax w, 1, false, false, decide (w.t.toNat ≤ 1), (if w.t = 0 then 0x80000000 else 0),
              fun a b => (if (if w.t = 0 then decide (a.toInt < b.toInt) else decide (a.toNat < b.toNat)) then b else a, 0)),
            (.vrand w, 0, false, false, true, 0xFFFFFFFF, fun a b => (a &&& b, 0)), (.vror w, 0, false, false, true, 0, fun a b => (a ||| b, 0)),
            (.vrxor w, 0, false, false, true, 0, fun a b => (a ^^^ b, 0)),
            (.vrfadd w, 0, true, false, true, 0, fun a b => patR (fpAdd 10 w.rm.toNat a.toNat b.toNat)),
            (.vrfmin w, 0, false, false, true, 0x7F800000, fun a b => patR (fpMinMax 10 false false a.toNat b.toNat, 0)),
            (.vrfmax w, 0, false, false, true, 0xFF800000, fun a b => patR (fpMinMax 10 true false a.toNat b.toNat, 0))] :
        List (Instr × Nat × Bool × Bool × Bool × Lane × (Lane → Lane → LaneR))),
      let f : VForm := { ty := r.2.1, rm := r.2.2.1, sat := r.2.2.2.1, msk := true, x := 0, va := true, vb := false, vd := 1 }
      let act := if w.msk then s.me.active else BitVec.allOnes 64
      let src := lget (s.srcLanes (v3Srcs w f k)) 0 []
      let root := (reduceTree (fun (x y : LaneR) => let z := r.2.2.2.2.2.2 x.1 y.1; (z.1, x.2 ||| y.2 ||| z.2))
        ((List.range 64).map fun l => if act.getLsbD l then some (lget src l 0, (0 : Fx)) else none)).getD (r.2.2.2.2.2.1, 0)
      s.wordLegal .vec (v3Legal f w && r.2.2.2.2.1) = true → s.vecOk false (v3Srcs w f k) (v3Dest w f k) = true →
      exec r.1 s = .next (s.vecDone (v3Dest w f k) (w.rep.toNat + 1) 1 9 (v3Srcs w f k)
        { lanes := List.replicate 64 (if r.1 ∈ ([.vrfadd w, .vrfmin w, .vrfmax w] : List Instr) ∧ root.1.toNat / 2 ^ 23 % 2 ^ 8 = 255 ∧
              root.1.toNat % 2 ^ 23 ≠ 0 then 0x7FC00000 else root.1)
          wm := BitVec.allOnes 64, fl := root.2 })

/-- R257, R258: the permutes and moves: which lane of va and vb each lane of the result is. -/
def Claims.Permutes : Prop :=
  ∀ (s : State) (w : V3),
    let k := (s.eng .vec).rep
    let n := w.t.toNat * 8 + w.x.toNat
    let h := 32 * w.x.toNat
    let p := w.x.toNat
    (∀ r ∈ ([(.vperm w, 0, 0, true, 3, false, fun a b l => lget a ((lget b l 0).toNat % 64) 0),
             (.vslup w, 3, 7, true, 3, false, fun a b l => if n ≤ l then lget a (l - n) 0 else lget b (64 + l - n) 0),
             (.vsldn w, 3, 7, true, 3, false, fun a b l => if l + n < 64 then lget a (l + n) 0 else lget b (l + n - 64) 0),
             (.vrev w, 0, 0, false, 3, false, fun a _ l => lget a (63 - l) 0),
             (.vzip w, 0, 1, true, 3, false, fun a b l => if l % 2 = 0 then lget a (l / 2 + h) 0 else lget b (l / 2 + h) 0),
             (.vuzp w, 0, 1, true, 3, false, fun a b l => if l < 32 then lget a (2 * l + p) 0 else lget b (2 * (l - 32) + p) 0),
             (.vmov w, 0, 0, false, 2, true, fun a _ l => lget a l 0)] :
         List (Instr × Nat × Nat × Bool × Nat × Bool × (List Lane → List Lane → Nat → Lane))),
      let f : VForm := { ty := r.2.1, rm := false, sat := false, msk := true, x := r.2.2.1, va := true, vb := r.2.2.2.1, vd := 1 }
      let src := s.srcLanes (v3Srcs w f k)
      s.wordLegal .vec (v3Legal f w) = true → s.vecOk r.2.2.2.2.2.1 (v3Srcs w f k) (v3Dest w f k) = true →
      exec r.1 s = .next (s.vecDone (v3Dest w f k) (w.rep.toNat + 1) 1 r.2.2.2.2.1 (v3Srcs w f k)
        { lanes := (List.range 64).map fun l => r.2.2.2.2.2.2 (lget src 0 []) (lget src 1 []) l
          wm := if w.msk then s.me.active else BitVec.allOnes 64, fl := 0 })) ∧
    (let f : VForm := { ty := 0, rm := false, sat := false, msk := true, x := 0, va := true, vb := false, vd := 1, six := false }
     s.wordLegal .vec (v3Legal f { w with vb := 0 } && !w.vb.getLsbD 6) = true → s.vecOk false (v3Srcs w f k) (v3Dest w f k) = true →
     exec (.vbcst w) s = .next (s.vecDone (v3Dest w f k) (w.rep.toNat + 1) 1 3 (v3Srcs w f k)
       { lanes := List.replicate 64 (lget (lget (s.srcLanes (v3Srcs w f k)) 0 []) (w.vb.toNat % 64) 0)
         wm := if w.msk then s.me.active else BitVec.allOnes 64, fl := 0 })) ∧
    (let f : VForm := { ty := 0, rm := false, sat := false, msk := true, x := 1, va := true, vb := false, vd := 1 }
     s.wordLegal .vec (v3Legal f w && srcChan w.va && srcIdx w.va = 7) = true → s.vecOk false (v3Srcs w f k) (v3Dest w f k) = true →
     exec (.vbcs w) s = .next (s.vecDone (v3Dest w f k) (w.rep.toNat + 1) 1 2 (v3Srcs w f k)
       { lanes := List.replicate 64 (lget (s.entry 7 0) w.x.toNat 0), wm := if w.msk then s.me.active else BitVec.allOnes 64, fl := 0 })) ∧
    (let f : VForm := { ty := 3, rm := false, sat := false, msk := false, x := 7, va := true, vb := false, vd := 2, six := false }
     s.wordLegal .vec (v3Legal f w) = true → s.vecOk false (v3Srcs w f k) (v3Dest w f k) = true →
     let old : List Lane := match v3Dest w f k with | some (false, r) => lget s.me.vec.v r [] | _ => []
     exec (.vins w) s = .next (s.vecDone (v3Dest w f k) (w.rep.toNat + 1) 1 2 (v3Srcs w f k)
       { lanes := (List.range 64).map fun l => if l = n then lget (lget (s.srcLanes (v3Srcs w f k)) 0 []) 0 0 else lget old l 0
         wm := BitVec.allOnes 64, fl := 0 }))

/-- R262, R263, R105: VDOTP adds the products of the active lanes' elements to the sums that its repeats carry, starting from lane 0 of vd
(or 0 in P4), and writes lane 0 with latency 12 at its last repeat; a profile that NPROF does not allow raises ILLEGAL_WORD. -/
def Claims.DotProducts : Prop :=
  ∀ (s : State) (w : V3),
    let k := (s.eng .vec).rep
    let p := w.x.toNat
    let form : VForm := { ty := 3, rm := true, sat := false, msk := false, x := 4, va := true, vb := true, vd := 2 }
    let last := k = w.rep.toNat
    let src := s.srcLanes (v3Srcs w form k)
    let acc : List Lane :=
      if k = 0 || (s.eng .vec).acc.isEmpty then [if p = 4 then 0 else lget (lget s.me.vec.v (dstIdx w.vd) []) 0 0] else (s.eng .vec).acc
    let dst := if last then v3Dest w form k else none
    (s.wordLegal .vec (dotLegal s.me.params.allow w) = true → s.vecOk false (v3Srcs w form k) dst = true →
      let acc' := dotRepeat w s.me.params.n8.toNat s.me.params.n4.toNat s.me.active (lget src 0 []) (lget src 1 []) acc
      exec (.vdotp w) s = .next (s.vecDone dst (w.rep.toNat + 1) 1 12 (v3Srcs w form k)
        { lanes := [BitVec.ofNat 32 (dotEnd p acc').1], wm := 1, fl := if last then (dotEnd p acc').2 else 0, acc := acc' })) ∧
    (s.wordBad .vec = false → k = 0 → s.me.params.allow.getLsbD p = false →
      exec (.vdotp w) s = .next (s.takeFault (mkFault 1 0x02 (encodeNat (.vdotp w)))))

/-- R259 to R261, R240, R342: loads, indexed loads, look-ups and stores of the vector engine through a descriptor that passes its checks. Lane
l of a VLD reads column 64u + l, of a VLDX or VLUT the column that the index lane names; beyond COLS a VLD reads 0 and the others FILL with XO
set; a store writes the active lanes whose columns exist. -/
def Claims.VectorMemory : Prop :=
  ∀ (s : State) (w : VM),
    let k := (s.eng .vec).rep
    let n := w.desc.toNat
    let d := lget (s.latch .vec [n]) 0 Desc.zero
    let s' := s.keepLatch .vec (s.latch .vec [n])
    let row := w.off.toNat + (if w.step = 7 then k else 0)
    let u := if w.step = 8 then k else 0
    let dst : Option (Bool × Nat) := some (dstChan (vmDst w), stepped (dstChan (vmDst w)) (stepsD w.step) (dstIdx (vmDst w)) k)
    d.fmt ≠ 5 → d.level.toNat < 3 → row < d.rows.toNat → s.wordBad .vec = false →
    (s.descFault s.cur.core 1 n d false = none → s.readMiss d = [] →
      ∀ r ∈ ([(.vld w, false, [6, 12, 48], [1, 1, 2], true, fun _ l => 64 * u + l),
              (.vldx w, true, [8, 14, 50], [4, 4, 16], true, fun x l => (lget x l 0).toNat),
              (.vlut w, true, [8], [1], d.level = 0 && d.cols.toNat ≤ 4096, fun x l => (lget x l 0).toNat % 65536)] :
          List (Instr × Bool × List Nat × List Nat × Bool × (List Lane → Nat → Nat))),
        let vs : List VSrc := if r.2.1 then [{ f := w.vi, idx := srcIdx w.vi }] else []
        let cols := (List.range 64).map fun l => r.2.2.2.2.2 (lget (s'.srcLanes vs) 0 []) l
        let out := s'.loadOut d row cols (lget r.2.2.2.1 d.level.toNat 1) (if r.2.1 then loadLane d.fmt.toNat d.fill.toNat else 0) r.2.1
        r.2.2.2.2.1 = true → s.wordLegal .vec (vmLoadLegal w r.2.1) = true → s'.vecOk false vs dst = true →
        exec r.1 s = .next (s'.vecDone dst (w.rep.toNat + 1) (lget r.2.2.2.1 d.level.toNat 1 + out.2) (lget r.2.2.1 d.level.toNat 0 + out.2) vs out.1)) ∧
    (s.descFault s.cur.core 1 n d true = none →
      let vs : List VSrc := [{ f := w.vx, idx := stepped (srcChan w.vx) (stepsS1 w.step) (srcIdx w.vx) k }]
      s.wordLegal .vec (vmStoreLegal w) = true → s'.vecOk false vs none = true →
      let ls := (List.range 64).filter fun l => s.me.active.getLsbD l && 64 * u + l < d.cols.toNat
      ∃ t, exec (.vst w) s = .next t ∧
        ∃ e ∈ t.me.pend, e.eff = .sp d.level.toNat (s'.elemPieces s.cur.core d d.writeBase (ls.map fun l =>
          (row, 64 * u + l, (lget (lget (s'.srcLanes vs) 0 []) l 0).toNat % 2 ^ d.bits, false))))

/-- R41, R63, R190, R259 to R261: the faults of the memory words. An INT64 descriptor, or an illegal field, is ILLEGAL_WORD; a LEVEL above 2, for
VLUT another than 0 or more than 4,096 columns, a check of R63 that fails, and a row at or above ROWS are the descriptor's fault; a load whose
region has a pending write is a schedule miss on the descriptor. Where several hold, their order is the model's choice (log 22). -/
def Claims.VectorMemoryFaults : Prop :=
  ∀ (s : State) (w : VM), s.wordBad .vec = false →
    let k := (s.eng .vec).rep
    let n := w.desc.toNat
    let d := lget (s.latch .vec [n]) 0 Desc.zero
    let row := w.off.toNat + (if w.step = 7 then k else 0)
    ∀ r ∈ ([(.vld w, vmLoadLegal w false, false, true), (.vldx w, vmLoadLegal w true, false, true),
            (.vlut w, vmLoadLegal w true, false, decide (d.level = 0 ∧ d.cols.toNat ≤ 4096)), (.vst w, vmStoreLegal w, true, true)] :
        List (Instr × Bool × Bool × Bool)),
      (k = 0 → r.2.1 = false → exec r.1 s = .next (s.takeFault (mkFault 1 0x02 (encodeNat r.1)))) ∧
      (s.wordLegal .vec r.2.1 = true →
        (d.fmt = 5 → exec r.1 s = .next (s.takeFault (mkFault 1 0x02 (encodeNat r.1)))) ∧
        (d.fmt ≠ 5 → 3 ≤ d.level.toNat ∨ r.2.2.2 = false → exec r.1 s = .next (s.takeFault (mkFault 1 0x05 n))) ∧
        (d.fmt ≠ 5 → d.level.toNat < 3 → r.2.2.2 = true →
          (∀ f, s.descFault s.cur.core 1 n d r.2.2.1 = some f → exec r.1 s = .next (s.takeFault f)) ∧
          (s.descFault s.cur.core 1 n d r.2.2.1 = none →
            (d.rows.toNat ≤ row → exec r.1 s = .next (s.takeFault (mkFault 1 0x05 n))) ∧
            (row < d.rows.toNat → r.2.2.1 = false → s.readMiss d ≠ [] →
              exec r.1 s = .next (s.schedMiss 1 n (.pends (s.readMiss d)))))))

/-- R39, R58, R61, R259: the bytes that elements written through a descriptor of 8 bits or more make of a byte: each element's, at its place, the
later one standing. With `PiecesLand` this is what a VST leaves. -/
def Claims.ElementBytes : Prop :=
  ∀ (s : State) (k : Nat) (d : Desc) (base a : Nat) (old : Byte) (es : List (Nat × Nat × Nat × Bool)), d.bits ≠ 4 →
    overlay (s.elemPieces k d base es) a old =
      es.foldl (fun b e =>
        let x := (d.addrIn base e.1 e.2.1).toNat
        if x ≤ a ∧ a < x + d.bits / 8 then BitVec.ofNat 8 (e.2.2.1 / 2 ^ (8 * (a - x))) else b) old

/-- R30, R236, R238, R239: the frame of a vector word with register operands: when its repeat issues (PERF1 counts it), every register, mask, flag,
descriptor, channel, byte of memory and other core is unchanged; its result is in flight. -/
def Claims.VectorWordFrame : Prop :=
  ∀ (s t : State) (w : V3) (v : VI), srcChan w.va = false → dstChan w.vd = false → srcChan v.va = false → dstChan v.vd = false →
    (srcChan w.vb = false →
      ∀ i ∈ ([.vadd w, .vsub w, .vmul w, .vmulh w, .vmac w, .vadds w, .vsubs w, .vabs w, .vneg w, .vmin w, .vmax w, .vabsd w, .vand w, .vor w,
              .vxor w, .vnot w, .vshl w, .vshr w, .vsra w, .vrot w, .vpopc w, .vclz w, .vfsh w, .vbfx w, .vbfi w, .vfadd w, .vfsub w, .vfmul w,
              .vfma w, .vfms w, .vfsqrt w, .vfmin w, .vfmax w, .vfminp w, .vfmaxp w, .vfabs w, .vfneg w, .vrcp w, .vrsq w, .vexp2 w, .vlog2 w,
              .vcmp w, .vfcmp w, .mpush w, .minv w, .mpop w, .mclr w, .vsel w, .vradd w, .vrmin w, .vrmax w, .vrand w, .vror w, .vrxor w,
              .vrfadd w, .vrfmin w, .vrfmax w, .vperm w, .vslup w, .vsldn w, .vrev w, .vzip w, .vuzp w, .vmov w, .vins w, .vdotp w] : List Instr),
        exec i s = .next t → lget t.me.perf 1 0 ≠ lget s.me.perf 1 0 → VecFrame s t ∧ SameMemory s t) ∧
    ∀ i ∈ ([.vcvt w, .vbcst w, .vaddi v, .vli v, .vlih v, .vandi v, .vshli v, .vshri v, .vsrai v, .vcmpi v] : List Instr),
      exec i s = .next t → lget t.me.perf 1 0 ≠ lget s.me.perf 1 0 → VecFrame s t ∧ SameMemory s t

/-- R37, R239: a vector result, once it lands, is in the lanes written, and every other lane and register is as before. -/
def Claims.VectorResultLands : Prop :=
  ∀ (s : State) (p : Pend) (r : Nat) (m : BitVec 64) (v : List Lane), p.eff = .vreg r m v → p.need = none →
    (∀ l, l < 64 → lget (lget (s.landQuiet p).me.vec.v r []) l 0 =
      if m.getLsbD l then lget v l 0 else lget (lget s.me.vec.v r (List.replicate 64 0)) l 0) ∧
    ∀ q, q ≠ r → q < s.me.vec.v.length → lget (s.landQuiet p).me.vec.v q [] = lget s.me.vec.v q []

/-! ## Control words of the engines (R35, R50, R77, R135, R190, R200 to R202) -/

/-- R35, R236: the head passage that is due starts at its first word and repeat; in the main queue a start after its stamp sets
SCHEDMODE.LATE and counts in PERF6, and a start in time does neither. -/
def Claims.PassageStarts : Prop :=
  ∀ (s : State), s.startDue s.cur.unit = true →
    let late : Prop := s.cur.shadow = false ∧ ∃ q r, (s.eng s.cur.unit).q = q :: r ∧ q.stamp < s.clk
    ∃ t, exec .passageStart s = .next t ∧ t.eng s.cur.unit = { s.eng s.cur.unit with started := true, widx := 0, rep := 0 } ∧
      (late → t.me.modes = { s.me.modes with late := true } ∧ lget t.me.perf 6 0 = lget s.me.perf 6 0 + 1) ∧
      (¬ late → t.me.modes = s.me.modes ∧ t.me.perf = s.me.perf) ∧ SameMemory s t

/-- R200 to R202, R50: the control words issue on each engine: NOP takes its repeats, one cycle each; WAIT makes the queue wait ARG cycles;
ENGINE_NOTIFY, alone and last, makes the engine reach its end, and raises PERM in a handler lane, with INFO 0, which is the model's choice (log
22); QFENCE names its classes. -/
def Claims.ControlWords : Prop :=
  ∀ (s : State) (u : Eng) (w : CT), s.wordBad u = false →
    (s.wordLegal u (w.step = 0 && w.arg = 0 && w.mask = 0) = true → exec (.nop u w) s = .next (s.engIssue u (w.rep.toNat + 1) 1)) ∧
    (s.wordLegal u (w.rep = 0 && w.step = 0 && w.arg != 0 && w.mask = 0) = true →
      exec (.wait u w) s = .next ((s.engIssue u 1 w.arg.toNat).modEng u fun e => { e with waiting := true })) ∧
    (s.wordLegal u (w.rep = 0 && w.step = 0 && w.arg = 0) = true →
      exec (.engineQfence u w) s =
        .next ((s.qfence s.cur.core (engNum u) ((List.range 4).filter fun i => w.mask.getLsbD i)).engIssue u 1 1)) ∧
    (s.wordLegal u (w.rep = 0 && w.step = 0 && w.arg = 0 && w.mask = 0) = true →
      (s.cur.shadow = true → exec (.engineNotify u w) s = .next (s.takeFault (mkFault (engNum u) 0x05 0))) ∧
      (s.cur.shadow = false → ∀ q, (s.eng u).q = [q] → (s.eng u).widx + 1 = q.len →
        exec (.engineNotify u w) s = .next ((s.engIssue u 1 1).modEng u fun e => { e with ended := true })))

/-- R200: the cycles of a WAIT end when the queue's next cycle has come, and not before. -/
def Claims.WaitExpires : Prop :=
  ∀ (s : State), let u := s.cur.unit
    ∃ t, exec .waitExpiry s = .next t ∧
      t.eng u = { s.eng u with waiting := (s.eng u).waiting && !decide ((s.eng u).next ≤ s.clk) }

/-- R36, R189, R240: what a repeat that issues does to its queue: a repeat with others to come keeps its word; the last repeat of a word
gives way to the next word, the last word's to the next passage; the queue issues nothing for the word's occupancy. -/
def Claims.RepeatsAdvance : Prop :=
  ∀ (e : Engine) (q : QEntry) (r : List QEntry) (reps nx : Nat), e.q = q :: r →
    (e.issued reps nx).next = nx ∧ (e.issued reps nx).last = (q.addr, e.widx, e.rep) ∧
    (e.rep + 1 < reps → (e.issued reps nx).q = e.q ∧ (e.issued reps nx).widx = e.widx ∧ (e.issued reps nx).rep = e.rep + 1) ∧
    (reps ≤ e.rep + 1 → e.widx + 1 < q.len →
      (e.issued reps nx).q = e.q ∧ (e.issued reps nx).widx = e.widx + 1 ∧ (e.issued reps nx).rep = 0) ∧
    (reps ≤ e.rep + 1 → q.len ≤ e.widx + 1 → (e.issued reps nx).q = r ∧ (e.issued reps nx).started = false ∧
      (e.issued reps nx).count = e.count + 1)

/-- R190, R137, R135: an unassigned opcode raises ILLEGAL_WORD with the word in INFO at its first repeat; any word from a poisoned line
raises POISON with the word's address. -/
def Claims.WordsRefused : Prop :=
  ∀ (s : State) (u : Eng) (b : BitVec 48) (w : CT),
    (s.wordBad u = false → (s.eng u).rep = 0 →
      exec (.unassignedEngineOpcode u b) s =
        .next (s.takeFault (mkFault (engNum u) 0x02 (encodeNat (.unassignedEngineOpcode u b))))) ∧
    (s.wordBad u = true →
      ∀ i ∈ ([.unassignedEngineOpcode u b, .nop u w, .wait u w, .engineNotify u w, .engineQfence u w] : List Instr),
        exec i s = .next (s.takeFault (poisonLine (engNum u) (s.eng u).wordAddr)))

/-! ## The matrix array (R265 to R291) -/

/-- A product word's row: the instruction, the legality of its fields, its descriptors, the formats that it takes, its history entry,
and its own conditions on shapes (R269, R272 to R278). -/
structure Claims.ProductRow where
  i     : Instr
  legal : Bool
  ns    : List Nat
  fmts  : List Desc → Bool
  hist  : List Desc → HistEntry
  own   : State → List Desc → Prop

/-- R97, R268, R272 to R278: the four product words with fields w. -/
def Claims.productRows (w : MX) : List Claims.ProductRow :=
  let f (ds : List Desc) (i : Nat) : Desc := lget ds i Desc.zero
  let n := w.arg.toNat + 1
  [{ i := .mmul w, legal := mxLegal (prodForm false (w.prof != 0) 1) w && w.prof.toNat ≤ 2, ns := [w.a.toNat, w.b.toNat]
     fmts := fun ds => profFmts w.prof.toNat (f ds 0).fmt (f ds 1).fmt, hist := histOf 0 w 0 0 0
     own := fun _ ds => (f ds 0).cols = (f ds 1).rows },
   { i := .mlata w, legal := mxLegal (prodForm false true 1) w && (w.prof = 1 || w.prof = 2), ns := [w.a.toNat, w.b.toNat]
     fmts := fun ds => profFmts w.prof.toNat (f ds 0).fmt (f ds 1).fmt, hist := histOf 3 w 0 0 0
     own := fun _ ds => (f ds 0).cols = (f ds 1).cols },
   { i := .mmuls w, legal := mxLegal (prodForm true (w.prof = 1) 64) w && w.prof.toNat ≤ 1, ns := [w.a.toNat, w.b.toNat, w.c.toNat]
     fmts := fun ds => profFmts w.prof.toNat (f ds 0).fmt (f ds 1).fmt && (f ds 0).fmt != 0 && (f ds 1).fmt != 0, hist := histOf 1 w n 0 0
     own := fun _ ds => (f ds 1).rows.toNat % 128 = 0 ∧ 128 ≤ (f ds 1).rows.toNat ∧ (f ds 1).rows.toNat ≤ 32768 ∧
       (f ds 0).cols.toNat = (f ds 1).rows.toNat / 128 * n ∧ (f ds 2).fmt = 11 ∧
       (f ds 2).cols.toNat = (f ds 1).rows.toNat / 128 * n ∧ (f ds 2).rows = (f ds 0).rows },
   { i := .mlatx w, legal := mxLegal (prodForm false true 4) w && w.prof = 4, ns := [w.a.toNat, w.b.toNat]
     fmts := fun ds => ((f ds 0).fmt = 8 || (f ds 0).fmt = 9) && 6 ≤ (f ds 1).fmt.toNat && (f ds 1).fmt.toNat ≤ 9
     hist := histOf 2 w 0 (w.arg.toNat % 2) (w.arg.toNat / 2)
     own := fun s ds =>
       let bk := lget s.me.mtx.banks (w.arg.toNat % 2) Bank.empty
       bk.r ≠ 0 ∧ (f ds 1).cols.toNat = bk.r ∧ (f ds 0).cols.toNat = if w.arg.toNat / 2 = 0 then bk.e else (f ds 1).rows.toNat }]

/-- The descriptors of a product word as its repeat uses them, its history entry and the shape that its operands give. -/
def Claims.ProductRow.descs (r : Claims.ProductRow) (s : State) : List Desc := s.latch .mtx r.ns
def Claims.ProductRow.entry (r : Claims.ProductRow) (s : State) : HistEntry := r.hist (r.descs s)
def Claims.ProductRow.shape (r : Claims.ProductRow) (s : State) : Nat × Nat := s.me.histShape (r.entry s)

/-- R269: the operands of a product word pass every check but those on the tile and on metadata. -/
structure Claims.ProductReady (s : State) (w : MX) (r : Claims.ProductRow) : Prop where
  clean : s.wordBad .mtx = false
  legal : s.wordLegal .mtx (r.legal && s.me.params.allow.getLsbD w.prof.toNat) = true
  fmts  : r.fmts (r.descs s) = true
  ops   : ∀ x ∈ r.ns.zip (r.descs s), x.2.level = 0 ∧ s.descFault s.cur.core 2 x.1 x.2 false = none ∧ s.readMiss x.2 = []
  own   : r.own s (r.descs s)
  dims  : w.acc = false → dim4 (r.shape s).1 = true ∧ dim4 (r.shape s).2 = true

/-- R266: the tile that a product with ACC adds to. -/
def Claims.TileFits (s : State) (w : MX) (r : Claims.ProductRow) : Prop :=
  let x := s.me.tile (mxTile w (s.eng .mtx).rep)
  x.shape = some (r.shape s) ∧ (x.kind = 0 ∨ x.kind = if (r.entry s).prof = 0 then 1 else 2)

/-- R266, R269 to R278, R287, R291: a product word that is ready starts a tile, or with ACC adds to one that fits: the tile takes the product
of the operands as they stand at issue, the engine is busy for the word's occupancy, in which the word stands as reading its operands (an
element written in it: log 41), and at its end flags are raised, HOVF set where the history was full, and an armed error applied. -/
def Claims.ProductWords : Prop :=
  ∀ (s : State) (w : MX), ∀ r ∈ Claims.productRows w,
    let n := mxTile w (s.eng .mtx).rep
    let h := r.entry s
    Claims.ProductReady s w r → (w.acc = true → Claims.TileFits s w r) →
    (r.i = .mmuls w → s.badMeta (lget (r.descs s) 2 Desc.zero) (lget (r.descs s) 0 Desc.zero).rows.toNat
      ((lget (r.descs s) 1 Desc.zero).rows.toNat / 128) (w.arg.toNat + 1) = none) →
    let u := (r.descs s).foldl State.noteRead s
    let old := if w.acc then (u.me.tile n).note h else Tile.start (r.shape s).1 (r.shape s).2 (if h.prof = 0 then 1 else 2) h
    let p := (u.matOps s.cur.core h).apply old (u.me.histG h)
    let occ := u.me.histOcc h
    let v := (((u.modMe fun c => c.setTile n p.1).keepLatch .mtx (r.descs s)).chkIf 2
      ((r.descs s).any fun d => s.matPoison s.cur.core d)).startReading h n h.bank occ old
    let v := if w.acc = true ∧ 16 ≤ (u.me.tile n).hist.length then v.addLat 2 occ (.hovf n) else v
    exec r.i s = .next ((v.addLat 2 occ (.errinj n)).mtxIssue (w.rep.toNat + 1) occ (mflags p.2))

/-- R266, R269, R275: a product with ACC on a tile that does not fit raises PERM with 0x400 + the tile; a profile that NPROF does not allow
raises ILLEGAL_WORD; a bad metadata byte of an MMULS raises SPARSE_META with the byte in INFO, its kind in SUB and its place in TFREC, whose
other fields are 0 (RB among them: log 97), and a bad byte is one from 128 to 254, or one that stands earlier in its group. -/
def Claims.ProductFaults : Prop :=
  ∀ (s : State) (w : MX), ∀ r ∈ Claims.productRows w,
    (s.wordBad .mtx = false → (s.eng .mtx).rep = 0 → s.me.params.allow.getLsbD w.prof.toNat = false →
      exec r.i s = .next (s.takeFault (mkFault 2 0x02 (encodeNat r.i)))) ∧
    (Claims.ProductReady s w r → w.acc = true → ¬ Claims.TileFits s w r →
      exec r.i s = .next (s.takeFault (mkFault 2 0x05 (0x400 + mxTile w (s.eng .mtx).rep)))) ∧
    (∀ g i sl m sub, r.i = .mmuls w → Claims.ProductReady s w r → (w.acc = true → Claims.TileFits s w r) →
      let a := lget (r.descs s) 0 Desc.zero
      let d := lget (r.descs s) 2 Desc.zero
      s.badMeta d a.rows.toNat ((lget (r.descs s) 1 Desc.zero).rows.toNat / 128) (w.arg.toNat + 1) = some (i, g, sl, m, sub) →
      exec r.i s = .next ((s.modMe fun c => { c with
        tfrec := { Tfrec.zero with valid := true, prof := w.prof, fmt := a.fmt, sgrp := BitVec.ofNat 8 g, sslot := BitVec.ofNat 6 sl
                                   srow := BitVec.ofNat 7 i, tile := BitVec.ofNat 2 (mxTile w (s.eng .mtx).rep) }
        mtx := { c.mtx with faultDrain := none } }).takeFault { mkFault 2 0x09 m with sub := sub }) ∧
      sl ≤ w.arg.toNat ∧ m = s.metaByte s.cur.core d (w.arg.toNat + 1) i g sl ∧
      ((sub = 2 ∧ 128 ≤ m ∧ m < 255) ∨ (sub = 1 ∧ m < 128 ∧ ∃ e, e < sl ∧ s.metaByte s.cur.core d (w.arg.toNat + 1) i g e = m)))

/-- R99, R272: under P0 the final value of an element is the exact sum of its old value and its products, wrapped to 32 bits, whatever PROMO
holds. -/
def Claims.IntegerProducts : Prop :=
  ∀ (o : MatOps) (acc : Nat) (ts : List (Option (Fl × Fl))), o.prof = 0 →
    BitVec.ofNat 32 (o.sum acc ts).1 =
      BitVec.ofInt 32 (toVal 32 true acc + (ts.map fun t => t.elim 0 fun p => flInt p.1 * flInt p.2).sum)

/-- R265, R266, R272, R282: a product gives element (i, j) the sum of its old value and the products of row i of A with column j of B, the
tile's shape stands, the group count grows, and a start has elements 0, no checksums and its word as history entry 0; a word takes the next
history entry, and a full history none: its HOVF is set when that lands. -/
def Claims.TilesAccumulate : Prop :=
  (∀ (o : MatOps) (t : Tile) (g i j : Nat), i < t.elems.length → j < (lget t.elems i []).length →
    lget (lget (o.apply t g).1.elems i []) j 0 = BitVec.ofNat 32 (o.elem i j (lget (lget t.elems i []) j 0).toNat).1 ∧
    (o.apply t g).1.shape = t.shape ∧ (o.apply t g).1.g = t.g + g ∧ (o.apply t g).1.hist = t.hist) ∧
  (∀ (m n kind : Nat) (h : HistEntry), (Tile.start m n kind h).shape = some (m, n) ∧ (Tile.start m n kind h).g = 0 ∧
    (Tile.start m n kind h).hist = [h] ∧ (Tile.start m n kind h).hovf = false ∧
    ∀ i j, lget (lget (Tile.start m n kind h).elems i []) j 0 = 0) ∧
  (∀ (t : Tile) (h : HistEntry), (t.hist.length < 16 → (t.note h).hist = t.hist ++ [h] ∧ (t.note h).hovf = t.hovf) ∧
    (16 ≤ t.hist.length → t.note h = t)) ∧
  (∀ (s : State) (p : Pend) (n : Nat), p.eff = .hovf n →
    (s.landQuiet p).me.tile n = { s.me.tile n with hovf := true } ∧ ∀ k, k ≠ n → (s.landQuiet p).me.tile k = s.me.tile k)

/-- R86, R270, R277, R279, R286: MZERO starts a tile of the shape in ARG with no kind; MLOAD starts one from an INT32 or FP32 source, and
raises ILLEGAL_WORD for a BYTE source; WXLOAD loads an expander bank; MCKSET sets the checksum mode, not below CKMIN. -/
def Claims.MatrixLoads : Prop :=
  ∀ (s : State) (w : MX), s.wordBad .mtx = false →
    let t := mxTile w (s.eng .mtx).rep
    let n := w.a.toNat
    let d := s.desc n
    let good : Prop := d.level = 0 ∧ s.descFault s.cur.core 2 n d false = none ∧ s.readMiss d = []
    (s.wordLegal .mtx (mxLegal (plainForm false 1024 true true) w) = true →
      exec (.mzero w) s = .next ((s.modMe fun c => c.setTile t (Tile.start (4 * (w.arg.toNat / 32 + 1)) (4 * (w.arg.toNat % 32 + 1)) 0
        (histOf 4 w 0 0 0 []))).mtxIssue (w.rep.toNat + 1) 2 0)) ∧
    (s.wordLegal .mtx (mxLegal (plainForm true 1 false true) w) = true → good → (d.fmt = 4 ∨ d.fmt = 10) →
      dim4 d.rows.toNat = true → dim4 d.cols.toNat = true →
      let h := histOf 5 w 0 0 0 [d]
      let x := loadTile d (s.patsOf s.cur.core d) h
      exec (.mload w) s = .next (((((s.noteRead d).modMe fun c => c.setTile w.tile.toNat x).chkIf 2 (s.matPoison s.cur.core d)).startReading
        h w.tile.toNat 0 (d.rows.toNat + 8) x).mtxIssue 1 (d.rows.toNat + 8) 0)) ∧
    (s.wordLegal .mtx (mxLegal (plainForm true 1 false true) w) = true → d.fmt = 11 →
      exec (.mload w) s = .next (s.takeFault (mkFault 2 0x02 (encodeNat (.mload w))))) ∧
    (s.wordLegal .mtx (mxLegal (plainForm true 2 false false) w) = true → good → d.fmt = 9 → 1 ≤ d.rows.toNat → d.rows.toNat ≤ 256 →
      dim4 d.cols.toNat = true →
      let bk : Bank := { r := d.rows.toNat, e := d.cols.toNat, w := (s.patsOf s.cur.core d).map fun row => row.map fun x => BitVec.ofNat 16 x }
      exec (.wxload w) s = .next (((((s.noteRead d).modMe fun c =>
        { c with mtx := { c.mtx with banks := lput c.mtx.banks w.arg.toNat bk Bank.empty } }).chkIf 2 (s.matPoison s.cur.core d)).startReading
        (histOf 10 w 0 w.arg.toNat 0 [d]) 0 w.arg.toNat (d.rows.toNat + 8) Tile.zero).mtxIssue 1 (d.rows.toNat + 8) 0)) ∧
    (s.wordLegal .mtx (mxLegal (plainForm false 3 false false) w) = true →
      ∃ t, exec (.mckset w) s = .next t ∧
        t.me.mtx = { s.me.mtx with ckmode := BitVec.ofNat 2 (Nat.max w.arg.toNat s.me.mtx.ckmin.toNat) })

/-- R279, R282: the tile that MLOAD starts holds the source's elements bit for bit, with G 1 for FP32; an INT32 row's checksums are the sum of
its elements and the sum of their absolute values, wrapped. -/
def Claims.LoadedTiles : Prop :=
  ∀ (d : Desc) (els : List (List Nat)) (h : HistEntry),
    (loadTile d els h).shape = some (d.rows.toNat, d.cols.toNat) ∧ (loadTile d els h).hist = [h] ∧
    (loadTile d els h).kind = (if d.fmt = 10 then 2 else 1) ∧ (loadTile d els h).g = (if d.fmt = 10 then 1 else 0) ∧
    (∀ i j, j < (lget els i []).length → lget (lget (loadTile d els h).elems i []) j 0 = BitVec.ofNat 32 (lget (lget els i []) j 0)) ∧
    (d.fmt = 4 → ∀ i, i < els.length →
      lget (loadTile d els h).rowCk i (0, 0) = (BitVec.ofInt 32 ((lget els i []).map fun x => toVal 32 true x).sum,
        BitVec.ofNat 32 ((lget els i []).map fun x => (toVal 32 true x).natAbs).sum))

/-- R291: at the end of a product an armed error inverts its bit of its element of its tile, or nothing outside the tile's shape; ARM clears,
EIH or EIX is set, and nothing else of the array changes; an error armed for another tile, or none, waits. -/
def Claims.ErrorsInjected : Prop :=
  ∀ (s : State) (p : Pend) (n : Nat), s.thePend = some p → p.eff = .errinj n →
    let m := s.me.mtx
    let x := s.me.tile n
    (m.eiArm = false ∨ m.eiTile.toNat ≠ n → exec .errinjApply s = .next (s.endPend p)) ∧
    (m.eiArm = true → m.eiTile.toNat = n →
      ∃ t, exec .errinjApply s = .next t ∧ t.me.mtx.eiArm = false ∧ (∀ k, k ≠ n → t.me.tile k = s.me.tile k) ∧
        ((∃ tr tc, x.shape = some (tr, tc) ∧ m.eiRow.toNat < tr ∧ m.eiCol.toNat < tc) →
          t.me.mtx.flags = m.flags ||| 8 ∧ (t.me.tile n).rowCk = x.rowCk ∧ (t.me.tile n).colCk = x.colCk ∧
          lget (lget (t.me.tile n).elems m.eiRow.toNat []) m.eiCol.toNat 0 =
            lget (lget x.elems m.eiRow.toNat []) m.eiCol.toNat 0 ^^^ (1 <<< m.eiBit.toNat)) ∧
        ((¬ ∃ tr tc, x.shape = some (tr, tc) ∧ m.eiRow.toNat < tr ∧ m.eiCol.toNat < tc) →
          t.me.mtx.flags = m.flags ||| 16 ∧ t.me.tile n = x))

/-! ## Drains, verdicts and recovery (R96, R280 to R290) -/

/-- R280, R281: an MDRAIN of a tile with a shape, whose descriptors pass their checks, opens a drain: row i of a descriptor drain lands at
c + 40 + i, a channel drain holds its entries for their own landings, the verdict falls at c + 43 + q × TR and the next matrix word issues
one cycle later; the tile stands. The main queue and the handler lane have each their own drain. -/
def Claims.DrainWords : Prop :=
  ∀ (s : State) (w : MX) (tr tc : Nat),
    let e := s.eng .mtx
    let n := mxTile w e.rep
    let ds := s.latch .mtx [w.a.toNat, w.b.toNat, w.c.toNat]
    let d (i : Nat) : Desc := lget ds i Desc.zero
    let q := if drCh w then (tc + 63) / 64 else 1
    let c := d 2
    s.wordBad .mtx = false → s.wordLegal .mtx (drainLegal w) = true → (s.me.tile n).shape = some (tr, tc) →
    (drRsc w = true → (d 0).level = 0 ∧ s.descFault s.cur.core 2 w.a.toNat (d 0) false = none ∧ s.readMiss (d 0) = []) →
    (drCsc w = true → (d 1).level = 0 ∧ s.descFault s.cur.core 2 w.b.toNat (d 1) false = none ∧ s.readMiss (d 1) = []) →
    (drCh w = false → c.level = 0 ∧ s.descFault s.cur.core 2 w.c.toNat c true = none ∧ c.fmt.toNat ≤ 10 ∧ c.fmt ≠ 5 ∧
      tr ≤ c.rows.toNat ∧ tc ≤ c.cols.toNat) →
    let v := (s.drainAll s.cur.core w ds (s.me.tile n)).1
    ∃ t dr rd, exec (.mdrain w) s = .next t ∧ t.me.mtx = (s.me.mtx.setDrain s.cur.shadow dr).setReading s.cur.shadow (some rd) ∧
      rd.hist.opc = 6 ∧ rd.end_ = s.clk + 44 + q * tr ∧ dr.lane = s.cur.shadow ∧ dr.word = w ∧ dr.descs = ds ∧ dr.tile = n ∧ dr.issue = s.clk ∧ dr.q = q ∧ dr.tr = tr ∧ dr.open_ = true ∧ dr.taint = false ∧ dr.done = 0 ∧ dr.pause = 0 ∧
      dr.mode = Nat.max s.me.mtx.ckmode.toNat s.me.mtx.ckmin.toNat ∧
      dr.chan = (if drCh w then some s.me.drainChan else none) ∧ (drCh w = true → dr.rows = drainEntries (drFmt w) tc v) ∧
      (∃ p ∈ t.me.pend, p.eff = .verdict ∧ p.land = s.clk + 43 + q * tr) ∧
      (drCh w = false → ∀ i, i < tr → ∃ p ∈ t.me.pend, p.land = s.clk + 40 + i ∧
        p.eff = .sp 0 (s.drainRow s.cur.core c i (lget v i []))) ∧
      (t.eng .mtx).next = s.clk + 44 + q * tr ∧ SameMemory s t

/-- R280, R281: an MDRAIN of a tile without a shape raises PERM with 0x400 + the tile. -/
def Claims.DrainOfNoTile : Prop :=
  ∀ (s : State) (w : MX), let n := mxTile w (s.eng .mtx).rep
    s.wordBad .mtx = false → s.wordLegal .mtx (drainLegal w) = true → (s.me.tile n).shape = none →
    exec (.mdrain w) s = .next (s.takeFault (mkFault 2 0x05 (0x400 + n)))

/-- R96, R280: with no scales and an equal format a drain returns the accumulator's bits and raises nothing; a channel drain's entry e of
row i holds element (i, 64e + l) in lane l, and 0 beyond TC. -/
def Claims.DrainedValues : Prop :=
  (∀ (x : Lane) (rtz clamp : Bool), drainElem 2 10 rtz clamp none none x = (x.toNat, 0) ∧ drainElem 1 4 rtz clamp none none x = (x.toNat, 0)) ∧
  (∀ (f tc i e l : Nat) (rows : List (List Nat)), i < rows.length → e < (tc + 63) / 64 → l < 64 →
    lget (lget (drainEntries f tc rows) (i * ((tc + 63) / 64) + e) []) l 0 =
      if 64 * e + l < tc then placeCvt f (lget (lget rows i []) (64 * e + l) 0) else 0)

/-- R193, R281: the next entry of a channel drain goes into the channel when it has room; when it has none the drain pauses for a cycle, and
the first such cycle is a schedule miss, which under TRAP raises SCHED_MISS with 0x100 + the channel, but not in the handler lane. -/
def Claims.DrainEntries : Prop :=
  ∀ (s : State) (d : Drain) (c : Nat), s.me.mtx.drainOf s.cur.shadow = some d → d.lane = s.cur.shadow → d.chan = some c → d.open_ = true →
    d.done < d.q * d.tr →
    let full : Prop := chanDepth c ≤ (s.chan c).heldIn s.cur.shadow s.clk
    (¬ full → exec .mdrainEntryLands s = .next ((s.pushLocal 2 c s.clk (lget d.rows d.done []) (some (d.id, d.done))).modMe fun x =>
      { x with mtx := x.mtx.setDrain d.lane { d with done := d.done + 1, paused := false } })) ∧
    (full → d.paused = true → exec .mdrainEntryLands s = .next (s.modMe fun x => x.pauseDrain d)) ∧
    (full → d.paused = false → s.me.modes.trapMode = false ∨ d.lane = true →
      exec .mdrainEntryLands s = .next ((s.modMe fun x => { x with modes := x.modes.noteMiss }).modMe fun x => x.pauseDrain d)) ∧
    (full → d.paused = false → s.me.modes.trapMode = true → d.lane = false →
      exec .mdrainEntryLands s = .next (((s.modMe fun x => { x with modes := x.modes.noteMiss }).modMe fun x =>
        { x with mtx := x.mtx.setDrain d.lane { d with paused := true } }).takeFault
        { mkFault 2 0x07 (0x100 + c) with pos := some d.pos })) ∧
    (s.me.pauseDrain d).mtx.drainOf d.lane = some { d with pause := d.pause + 1, paused := true } ∧
    (∀ p ∈ s.me.pend, p.unit = 2 → p.tide = d.lane → p.eff = .verdict → { p with land := p.land + 1 } ∈ (s.me.pauseDrain d).pend)

/-- R283, R286: a verdict closes the drain; OFF looks at nothing; a tile that matches changes nothing else; a mismatch counts in CKCNT, and
under LOG sets CKL, under ON writes TFREC with the tile, TAINT and the masks, RB as it stands, and raises CKSUM_TILE with the tile in INFO,
which in a handler lane escalates as every fault there does. -/
def Claims.Verdicts : Prop :=
  ∀ (s : State) (p : Pend) (d : Drain), s.thePend = some p → p.eff = .verdict → s.me.mtx.drainOf p.tide = some d → d.lane = p.tide →
    let u := s.endPend p
    let x := s.me.tile d.tile
    let m := s.me.mismatch x
    ∃ t, exec .checksumVerdict s = .next t ∧
      (s.cur.shadow = false ∨ d.mode = 1 ∨ m = ([], []) → t.me.mtx.drainOf d.lane = some { d with open_ := false }) ∧
      (d.mode = 2 → t = u.modMe fun c => { c with mtx := c.mtx.setDrain d.lane { d with open_ := false } }) ∧
      (d.mode ≠ 2 → m = ([], []) → t.me.mtx.ckcnt = s.me.mtx.ckcnt ∧ t.me.mtx.flags = s.me.mtx.flags ∧ t.me.tfrec = s.me.tfrec ∧
        t.me.trec = s.me.trec) ∧
      (d.mode ≠ 2 → m ≠ ([], []) → t.me.mtx.ckcnt = (if s.me.mtx.ckcnt = 0xFFFF then 0xFFFF else s.me.mtx.ckcnt + 1)) ∧
      (d.mode = 1 → m ≠ ([], []) → t.me.mtx.flags = s.me.mtx.flags ||| 4 ∧ t.me.tfrec = s.me.tfrec ∧ t.me.trec = s.me.trec) ∧
      (d.mode = 0 → m ≠ ([], []) → t.me.tfrec.valid = true ∧ t.me.tfrec.taint = d.taint ∧ t.me.tfrec.rb = s.me.tfrec.rb ∧
        t.me.tfrec.tile = BitVec.ofNat 2 d.tile ∧ t.me.tfrec.ckr = 0 ∧ t.me.tfrec.nrow = BitVec.ofNat 8 m.1.length ∧
        t.me.tfrec.ncol = BitVec.ofNat 8 m.2.length ∧ t.me.tfrec.rows = posMask m.1 ∧ t.me.tfrec.cols = posMask m.2 ∧
        t.me.mtx.faultDrain = some d ∧
        (s.cur.shadow = false → t.me.trec.cause = 0x08 ∧ t.me.trec.unit = 2 ∧ t.me.trec.info = BitVec.ofNat 64 d.tile))

/-- R283: a line of an INT tile mismatches when the wrapped sum of its elements differs from its signed checksum. -/
def Claims.IntegerLines : Prop :=
  ∀ (kind tol g : Nat) (els : List Lane) (q a : Lane), kind ≠ 2 →
    (lineBad kind tol g els (q, a) = true ↔ BitVec.ofInt 32 ((els.map fun x => x.toInt).sum) ≠ q)

/-- R288 to R290: LOCFIX and MRETRY issue only in the handler lane, for the tile of a valid TFREC whose history is whole, LOCFIX for one row
and column and MRETRY while CKR is not 2; elsewhere they raise ILLEGAL_WORD. Their effects come at the end of their occupancy. -/
def Claims.RecoveryWords : Prop :=
  ∀ (s : State) (w : MX), s.wordBad .mtx = false → (s.eng .mtx).rep = 0 →
    let n := w.tile.toNat
    let plain := mxLegal (plainForm false 1 false true) w
    let may : Prop := s.cur.shadow = true ∧ s.me.tfrec.valid = true ∧ s.me.tfrec.tile = w.tile ∧ (s.me.tile n).hovf = false
    let h := (s.me.tile n).hist
    let fix := 48 + (h.map fun x => (s.me.histK x + 63) / 64).sum
    let again := (h.map s.me.histOcc).sum + s.me.mtx.faultDrain.elim 0 (fun d => d.q * d.tr + 44)
    (plain = true → may → s.me.tfrec.nrow = 1 → s.me.tfrec.ncol = 1 →
      exec (.locfix w) s = .next ((s.addLat 2 fix (.fixEnd false n)).mtxIssue 1 fix 0)) ∧
    (¬ (may ∧ s.me.tfrec.nrow = 1 ∧ s.me.tfrec.ncol = 1) →
      exec (.locfix w) s = .next (s.takeFault (mkFault 2 0x02 (encodeNat (.locfix w))))) ∧
    (plain = true → may → s.me.tfrec.ckr ≠ 2 → exec (.mretry w) s = .next ((s.addLat 2 again (.fixEnd true n)).mtxIssue 1 again 0)) ∧
    (¬ (may ∧ s.me.tfrec.ckr ≠ 2) → exec (.mretry w) s = .next (s.takeFault (mkFault 2 0x02 (encodeNat (.mretry w)))))

/-- R289, R290: at its end LOCFIX gives the element of the row and column of TFREC its replayed value and leaves every other element; a match
clears VALID and counts in FIXCNT, a mismatch leaves VALID and rewrites the masks. What MRETRY leaves at its end is said by `RetryEnds`. -/
def Claims.RecoveryEnds : Prop :=
  ∀ (s : State) (n r c : Nat), r < 128 → c < 128 → s.me.tfrec.rows = BitVec.ofNat 128 (2 ^ r) → s.me.tfrec.cols = BitVec.ofNat 128 (2 ^ c) →
    (∀ i j, (i, j) ≠ (r, c) → lget (lget ((s.locfixEnd n).me.tile n).elems i []) j 0 = lget (lget (s.me.tile n).elems i []) j 0) ∧
    lget (lget ((s.locfixEnd n).me.tile n).elems r []) c 0 = s.replayElem s.cur.core (s.me.tile n) r c ∧
    (∀ rows cols mretry, (rows = [] → cols = [] →
        (s.fixVerdict rows cols mretry).me.tfrec.valid = false ∧
        (mretry = true → (s.fixVerdict rows cols mretry).me.tfrec.ckr = 0) ∧
        (s.fixVerdict rows cols mretry).me.mtx.fixcnt = (if s.me.mtx.fixcnt = 0xFFFF then 0xFFFF else s.me.mtx.fixcnt + 1)) ∧
      (rows ≠ [] ∨ cols ≠ [] → (s.fixVerdict rows cols mretry).me.tfrec = { s.me.tfrec with
        nrow := BitVec.ofNat 8 rows.length, ncol := BitVec.ofNat 8 cols.length, rows := posMask rows, cols := posMask cols })) ∧
    (∀ p mretry, s.thePend = some p → p.eff = .fixEnd mretry n →
      ∃ t, exec .checksumVerdict s = .next t ∧
        t.me.mtx = (if mretry then (s.endPend p).mretryEnd n else (s.endPend p).locfixEnd n).me.mtx ∧
        t.me.tfrec = (if mretry then (s.endPend p).mretryEnd n else (s.endPend p).locfixEnd n).me.tfrec)

/-- R290: what MRETRY leaves at its end. The tile is replayed from its history's operands, element by element as LOCFIX replays one, starting as
history entry 0 did; CKR advances; the verdict on the replayed tile clears VALID and CKR and counts in FIXCNT when nothing mismatches, and else
leaves VALID, with the new masks and counts; and the faulting drain has been performed again: the entries that it pushed are gone from its
channel and pushed anew behind the others, or its elements stand at their places in SP1 again. Without a faulting drain (after SPARSE_META)
nothing is drained (log 104). -/
def Claims.RetryEnds : Prop :=
  ∀ (s : State) (n : Nat), n < s.me.mtx.tiles.length → s.cur.core < s.cores.length →
    let k := s.cur.core
    let old := s.me.tile n
    let x := s.replay k old
    let t := s.mretryEnd n
    let v := s.modMe fun c => { c.setTile n x with tfrec := { c.tfrec with ckr := c.tfrec.ckr + 1 } }
    let bad := s.me.mismatch x
    let all : List (Nat × Nat) := (List.range x.dims.1).flatMap fun i => (List.range x.dims.2).map fun j => (i, j)
    x.hist = old.hist ∧
    (∀ h r, old.hist = h :: r → h.opc ≤ 5 → (∀ y ∈ r, y.opc ≤ 3) → ∀ i j, i < x.dims.1 → j < x.dims.2 →
      lget (lget x.elems i []) j 0 = s.replayElem k old i j) ∧
    t.me.tile n = { x with xcols := [], xall := false } ∧
    (bad = ([], []) → t.me.tfrec = { s.me.tfrec with valid := false, ckr := 0 } ∧ t.me.mtx.ckcnt = s.me.mtx.ckcnt ∧
      t.me.mtx.fixcnt = (if s.me.mtx.fixcnt = 0xFFFF then 0xFFFF else s.me.mtx.fixcnt + 1)) ∧
    (bad ≠ ([], []) → t.me.mtx.fixcnt = s.me.mtx.fixcnt ∧
      t.me.tfrec = { s.me.tfrec with ckr := s.me.tfrec.ckr + 1, nrow := BitVec.ofNat 8 bad.1.length, ncol := BitVec.ofNat 8 bad.2.length
                                     rows := posMask bad.1, cols := posMask bad.2 }) ∧
    (s.me.mtx.faultDrain = none → t.me.chans = s.me.chans ∧ SameMemory s t) ∧
    (∀ d c, s.me.mtx.faultDrain = some d → d.chan = some c → c < s.me.chans.length →
      let mine (e : ChEntry) : Prop := ∃ i, e.drain = some (d.id, i)
      let vals := drainEntries (drFmt d.word) x.dims.2 (v.drainAll k d.word d.descs x).1
      (∀ j, j ≠ c → lget t.me.chans j Chan.empty = lget s.me.chans j Chan.empty) ∧
      ∃ kept new, (lget t.me.chans c Chan.empty).q = kept ++ new ∧ kept.Sublist (lget s.me.chans c Chan.empty).q ∧
        (∀ e, e ∈ kept ↔ e ∈ (lget s.me.chans c Chan.empty).q ∧ ¬ mine e) ∧ new.map (·.v) = vals ∧ (∀ e ∈ new, mine e ∧ e.landed = true)) ∧
    (∀ d, s.me.mtx.faultDrain = some d → d.chan = none → Memory.wf s.me.mem.sp1 = true →
      let c := lget d.descs 2 Desc.zero
      t.me.chans = s.me.chans ∧
      ∀ a, mread t.me.mem.sp1 a = overlay (v.elemPieces k c c.writeBase (all.map fun e => (e.1, e.2, (v.drained k d.word d.descs x e.1 e.2).1, false)))
        a (mread s.me.mem.sp1 a))

/-! ## The data engine (R295 to R317) -/

/-- R135, R141, R190, R295: a data word issues its repeat: its line is clean, its fields are legal, and a handler lane holds no PHASED one. -/
def Claims.DataReady (s : State) (w : DX) (legal : Bool) : Prop :=
  s.wordBad .data = false ∧ s.wordLegal .data legal = true ∧ (s.cur.shadow = true → w.phased = false)

/-- The values of descriptors as the present repeat of a data word uses them, and the state with the repeat noted (R298) and them latched (R219). -/
def Claims.dataDescs (s : State) (ns : List (BitVec 4)) : List Desc := s.latch .data (ns.map (·.toNat))
def Claims.latched (s : State) (ns : List (BitVec 4)) : State := s.openRead.keepLatch .data (Claims.dataDescs s ns)

/-- R300, R343: what a repeat that has issued leaves while no vector word uses the port: each of its writes is in flight and lands at issue plus
latency minus 1 plus the cycles that groups beyond one per 16 SP1 chunks add (one that needs a home's answer, not before it); the queue is busy
for its occupancy and those cycles; PERF3 counts the repeat and PERF7 those cycles. -/
def Claims.RepeatsIssue : Prop :=
  ∀ (s : State) (reps occ : Nat) (how : DReads) (src : List Nat) (ws : List DWrite) (also : List (Nat × Nat)),
    let x := extraGroups src + (ws.map fun w => extraGroups w.chunks).sum
    let t := s.dataOut reps occ how src ws also
    (s.me.portsOf s.cur.shadow).vec = [] →
    (∀ w ∈ ws, ∃ p ∈ t.me.pend, p.eff = w.eff ∧ p.land = s.clk + w.lat + x - 1 ∧ p.need = w.need ∧ p.unit = 3 ∧ p.phased = w.phased) ∧
    t.eng .data = (s.eng .data).issued reps (s.clk + (occ + x)) ∧ lget t.me.perf 7 0 = lget s.me.perf 7 0 + BitVec.ofNat 64 x ∧
    lget t.me.perf 3 0 = lget s.me.perf 3 0 + 1 ∧ (∀ p ∈ s.me.pend, p ∈ t.me.pend) ∧ SameMemory s t

/-- R298: a data repeat in its occupancy whose source bytes have changed since they were last seen reads them anew: a place that did not change stays
as it was read, and one that changed is read with the old value or the new one; no memory, register or clock changes by it. Without a change, or
after the occupancy, nothing is read anew. -/
def Claims.SourcesReread : Prop :=
  ∀ (s : State) (k : Nat) (lane : Bool) (r : DataRead), (s.core k).dreadOf lane = some r →
    let now := s.bytesSeen k r.places
    let ended : Prop := r.end_ ≤ (if lane then s.tide else (s.core k).run.g)
    (ended ∨ now = r.seen → s.dataAnew k lane = none) ∧
    (¬ended → now ≠ r.seen → r.seen.length = r.places.length → r.reads.length = r.places.length →
      ∃ t x, s.dataAnew k lane = some t ∧ (t.core k).dreadOf lane = some x ∧ x.seen = now ∧ x.reads.length = r.places.length ∧
        SameMemory s t ∧ t.tide = s.tide ∧ (∀ m, (t.core m).run = (s.core m).run ∧ (t.core m).seq = (s.core m).seq ∧ (t.core m).vec = (s.core m).vec ∧
          (t.core m).pend.map (fun p => (p.id, p.land)) = (s.core m).pend.map fun p => (p.id, p.land)) ∧
        ∀ (i a n l : Nat) (pair : Bool) (v w y : Piece),
          r.places[i]? = some (l, a, n, pair) → r.seen[i]? = some v → now[i]? = some w → r.reads[i]? = some y →
          ∃ z, x.reads[i]? = some z ∧ (v = w → z = y) ∧ (pair = false → z = y ∨ z = w))

/-- The near and far fields of a block word (R297). -/
def Claims.nearField (w : DX) (load : Bool) : BitVec 4 := if load then w.dst else w.src
def Claims.farField (w : DX) (load : Bool) : BitVec 4 := if load then w.src else w.dst

/-- The state with the descriptors of a block word latched. -/
def Claims.blockState (s : State) (w : DX) (load : Bool) : State :=
  Claims.latched s [Claims.nearField w load, Claims.farField w load, w.aux]

/-- R296, R297, R303, R307: a repeat of a block word that issues moves block b between near and the far descriptor of number fn: outside
manifest mode the block at its row or column steps, inside both; in manifest mode the block that the oldest entry of c8 gives, inside near,
with aux as the far side for bank 1 under BSEL. -/
structure Claims.BlockReady (s : State) (w : DX) (load cls : Bool) (ph : Nat) (lv : Nat → Bool) (near : Desc) (fn : Nat) (far : Desc) (b : Blk) : Prop where
  ready  : Claims.DataReady s w (blkLegal w cls ph)
  near_  : near = lget (Claims.dataDescs s [Claims.nearField w load, Claims.farField w load, w.aux]) 0 Desc.zero
  checks : firstFault ((Claims.blockState s w load).blkFaults w load lv (Claims.nearField w load).toNat (Claims.farField w load).toNat near
    (lget (Claims.dataDescs s [Claims.nearField w load, Claims.farField w load, w.aux]) 1 Desc.zero)
    (lget (Claims.dataDescs s [Claims.nearField w load, Claims.farField w load, w.aux]) 2 Desc.zero)) = none
  inside : b.nearIn near = true
  plain  : argMf w = false →
    far = lget (Claims.dataDescs s [Claims.nearField w load, Claims.farField w load, w.aux]) 1 Desc.zero ∧
    fn = (Claims.farField w load).toNat ∧ b.farIn far = true ∧
    b = plainBlk near w.step.toNat (brRows (argBr w) near) (s.eng .data).rep
  entry  : argMf w = true →
    let h := entryHead ((Claims.blockState s w load).entry 8 0)
    let two := argBsel w && (if load then headBank h else !headBank h)
    (Claims.blockState s w load).entryLanded 8 0 = true ∧ headAct h ≠ 3 ∧
    far = lget (Claims.dataDescs s [Claims.nearField w load, Claims.farField w load, w.aux]) (if two then 2 else 1) Desc.zero ∧
    fn = (if two then w.aux else Claims.farField w load).toNat ∧
    b = manifestBlk w near (brRows (argBr w) near) s.me.params.ts.toNat s.me.params.xu.toNat h

/-- R297, R307: the origins of blocks: k row or column steps on both sides outside manifest mode; in manifest mode the tile of the entry, its
motion and the halo, as TN, TF and SHF select. -/
def Claims.BlockOrigins : Prop :=
  (∀ (near : Desc) (br k : Nat),
    plainBlk near 0 br k = { rn := 0, cn := 0, rf := 0, cf := 0, br := br, cols := near.cols.toNat } ∧
    plainBlk near 7 br k = { rn := k, cn := 0, rf := k, cf := 0, br := br, cols := near.cols.toNat } ∧
    plainBlk near 8 br k =
      { rn := 0, cn := k * near.cols.toNat, rf := 0, cf := ((k * near.cols.toNat : Nat) : Int), br := br, cols := near.cols.toNat }) ∧
  (∀ (w : DX) (near : Desc) (br ts xu h : Nat),
    (argTn w = true → (manifestBlk w near br ts xu h).rn = headTy h * ts ∧ (manifestBlk w near br ts xu h).cn = headTx h * ts * xu) ∧
    (argTn w = false → (manifestBlk w near br ts xu h).rn = 0 ∧ (manifestBlk w near br ts xu h).cn = 0) ∧
    (argTf w = true → argShf w = true →
      (manifestBlk w near br ts xu h).rf = headTy h * ts + headDy h - argHalo w ∧
      (manifestBlk w near br ts xu h).cf = (headTx h * ts + headDx h - argHalo w) * xu) ∧
    (argTf w = true → argShf w = false →
      (manifestBlk w near br ts xu h).rf = headTy h * ts - argHalo w ∧ (manifestBlk w near br ts xu h).cf = (headTx h * ts - argHalo w) * xu) ∧
    (argTf w = false → argShf w = false →
      (manifestBlk w near br ts xu h).rf = -argHalo w ∧ (manifestBlk w near br ts xu h).cf = -argHalo w * xu))

/-- R40, R297, R300, R303, R307: TMOV copies its block between SP levels, each near element the far element as it stands at issue or FILL where
the far descriptor has none, and the copy lands after the path's latency. -/
def Claims.TileMoves : Prop :=
  ∀ (s : State) (w : DX) (near far : Desc) (fn : Nat) (b : Blk), Claims.BlockReady s w true false 0 lvSp near fn far b →
    let u := Claims.blockState s w true
    u.readMiss far = [] →
    let v := u.noteRead far
    let es := b.offs.map fun o => match b.far far o with
      | some q => ((b.near o).1, (b.near o).2, v.elem s.cur.core far q.1 q.2, v.elemPoison s.cur.core far q.1 q.2)
      | none => ((b.near o).1, (b.near o).2, far.fill.toNat % 2 ^ near.bits, false)
    let n := near.bytesOf (b.br * b.cols)
    exec (.tmov w) s = .next (((if argMf w then v.popChan 8 1 else v).noteShadow w.dst.toNat).dataOut (w.rep.toNat + 1)
      (pathOcc far.level.toNat near.level.toNat n) { rd := [far], into := [near] } (far.elemChunks far.readBase (b.offs.filterMap (b.far far)))
      [spWrite near (pathLat far.level.toNat near.level.toNat n) (v.elemPieces s.cur.core near near.writeBase es)])

/-- R40, R301, R303: a DLOAD of a block of elements through a LEVEL 3, RAW or RO descriptor reads the physical ranges of its far elements at
their home and has the landing cycle of its class's budget; its copy awaits the home's answer. -/
def Claims.GlobalLoads : Prop :=
  ∀ (s : State) (w : DX) (near far : Desc) (fn : Nat) (b : Blk) (rs : List (Nat × Nat × Nat)),
    Claims.BlockReady s w true true 0 lvG near fn far b →
    let u := Claims.blockState s w true
    let cells := b.offs.map fun o => (b.near o, b.far far o)
    let plan := cells.foldl (fun (p : GPlan) (x, q) => match q with
      | some (i, j) => p.elem near.bits (u.gAddr far i j) (far.hiNib i j) (near.nibDst x.1 x.2)
      | none => p) GPlan.empty
    u.isBtc far = false → far.pinSpans plan.spans.reverse = .inr rs →
    let runs := (plan.fill near.bits ((cells.filter fun c => c.2.isNone).map fun c => near.nibDst c.1.1 c.1.2)).runs.reverse
    let n := near.bytesOf (b.br * b.cols)
    let lat := budget w.cls.toNat (far.target rs) n
    let g := u.readOp rs w.cls.toNat lat
    exec (.dload w) s = .next (((if argMf w then g.2.popChan 8 1 else g.2).noteShadow w.dst.toNat).dataOut
      (w.rep.toNat + 1) (2 + ceilDiv n 256) {} []
      [{ lat := lat, eff := .spData near.level.toNat runs far.fillBytes, need := g.1
         phased := near.phased, chunks := near.elemChunks near.writeBase (b.offs.map b.near) }])

/-- R66, R301, R304: a DLOAD through a BTC view reads the coded bytes of its blocks, counts them in its budget and adds 64; a block that
breaks R66 raises PERM. That its occupancy counts the decoded elements is the model's reading (log 44). -/
def Claims.CodedLoads : Prop :=
  ∀ (s : State) (w : DX) (near far : Desc) (fn : Nat) (b : Blk), Claims.BlockReady s w true true 0 lvG near fn far b →
    let u := Claims.blockState s w true
    let bp := u.btcReadPlan near far b
    u.isBtc far = true →
    (b.btcOk far = false → exec (.dload w) s = .next (u.takeFault (mkFault 3 0x05 fn))) ∧
    (∀ rs, b.btcOk far = true → far.pinSpans bp.1 = .inr rs →
      let lat := budget w.cls.toNat (far.target rs) (bp.1.map (·.2)).sum + 64
      let g := u.readOp rs w.cls.toNat lat
      exec (.dload w) s = .next (((if argMf w then g.2.popChan 8 1 else g.2).noteShadow w.dst.toNat).dataOut
        (w.rep.toNat + 1) (2 + ceilDiv (near.bytesOf (b.br * b.cols)) 256) {} []
        [{ lat := lat
           eff := .spBtc near.level.toNat near.fmt.toNat (u.aperBudget far.apidx.toNat) bp.2, need := g.1
           phased := near.phased, chunks := near.elemChunks near.writeBase (b.offs.map b.near) }]))

/-- R303 to R305: DSTORE gives the bytes of its block, with every far element outside the descriptor left out, to the homes in the data
queue's order; DPHST holds them until the commit, or raises PERM with 0x500 when they do not fit. -/
def Claims.GlobalStores : Prop :=
  ∀ (s : State) (w : DX) (near far : Desc) (fn ph : Nat) (b : Blk) (ps : List (Nat × Piece)) (names : List (Nat × Nat × Nat)),
    Claims.BlockReady s w false true ph lvG near fn far b →
    let u := Claims.blockState s w false
    let v := u.noteRead near
    let x := v.blkPieces near far b
    (u.isBtc far = true → b.btcOk far = true) → u.readMiss near = [] → far.storePieces x.1 = .inr (ps, names) →
    let after (t : State) : State := ((if argMf w then t.popChan 8 1 else t).chkIf 3 x.2).dataOut (w.rep.toNat + 1)
      (2 + ceilDiv (near.bytesOf (b.br * b.cols)) 256) { rd := [near] } (near.elemChunks near.readBase (b.offs.map b.near)) []
    (ph = 0 → exec (.dstore w) s = .next (after (v.storeNow w.cls.toNat ps names))) ∧
    (ph = 1 → ps = [] → exec (.dphst w) s = .next (after v)) ∧
    (ph = 1 → ps ≠ [] →
      let h : Held := { ps := ps, names := names, size := ceilDiv (ps.map fun p => p.2.bytes.length).sum 16 * 16 + 16, cls := w.cls.toNat }
      ((v.me.mem.held.map (·.size)).sum + h.size ≤ 262144 →
        exec (.dphst w) s = .next (after (v.modMe fun c => { c with mem := { c.mem with held := c.mem.held ++ [h] } }))) ∧
      (262144 < (v.me.mem.held.map (·.size)).sum + h.size → exec (.dphst w) s = .next (v.takeFault (mkFault 3 0x05 0x500))))

/-- R303, R307: a block word with an entry of ACT 3 takes its occupancy and the entry, and does nothing else; without an entry it is a
schedule miss; a DSTORE with PHASED set and a DPHST without it raise ILLEGAL_WORD. -/
def Claims.BlockWordsElse : Prop :=
  ∀ (s : State) (w : DX), s.wordBad .data = false →
    (∀ r ∈ ([(.tmov w, true, false, 0, lvSp), (.dload w, true, true, 0, lvG), (.dstore w, false, true, 0, lvG), (.dphst w, false, true, 1, lvG)] :
        List (Instr × Bool × Bool × Nat × (Nat → Bool))),
      let ds := Claims.dataDescs s [Claims.nearField w r.2.1, Claims.farField w r.2.1, w.aux]
      let u := Claims.blockState s w r.2.1
      let near := lget ds 0 Desc.zero
      let n := near.bytesOf (brRows (argBr w) near * near.cols.toNat)
      Claims.DataReady s w (blkLegal w r.2.2.1 r.2.2.2.1) → argMf w = true →
      firstFault (u.blkFaults w r.2.1 r.2.2.2.2 (Claims.nearField w r.2.1).toNat (Claims.farField w r.2.1).toNat near (lget ds 1 Desc.zero)
        (lget ds 2 Desc.zero)) = none →
      (u.entryLanded 8 0 = false → exec r.1 s = .next (u.schedMiss 3 0x108 (.entry 8 0))) ∧
      (u.entryLanded 8 0 = true → headAct (entryHead (u.entry 8 0)) = 3 →
        exec r.1 s = .next ((u.popChan 8 1).engIssue .data (w.rep.toNat + 1)
          (if r.2.2.1 then 2 + ceilDiv n 256 else pathOcc (lget ds 1 Desc.zero).level.toNat near.level.toNat n)))) ∧
    ((s.eng .data).rep = 0 → w.phased = true →
      exec (.dstore w) s = .next (s.takeFault (mkFault 3 0x02 (encodeNat (.dstore w)))) ∧
      exec (.tmov w) s = .next (s.takeFault (mkFault 3 0x02 (encodeNat (.tmov w)))) ∧
      exec (.dload w) s = .next (s.takeFault (mkFault 3 0x02 (encodeNat (.dload w))))) ∧
    ((s.eng .data).rep = 0 → w.phased = false → exec (.dphst w) s = .next (s.takeFault (mkFault 3 0x02 (encodeNat (.dphst w)))))

/-- The descriptors of a gather or scatter: table, rows, index; and the state with them latched. -/
def Claims.gatherFields (w : DX) (gather : Bool) : List (BitVec 4) := if gather then [w.src, w.dst, w.aux] else [w.dst, w.src, w.aux]
def Claims.gatherState (s : State) (w : DX) (gather : Bool) : State := Claims.latched s (Claims.gatherFields w gather)

/-- R296, R308, R309: a repeat of a gather (or scatter) passes the checks on its table t, rows d and index x, and its sources have landed. -/
structure Claims.GatherReady (s : State) (w : DX) (gather : Bool) (t d x : Desc) : Prop where
  ready  : Claims.DataReady s w (gatherLegal w (if gather then 0 else 2))
  descs  : Claims.dataDescs s (Claims.gatherFields w gather) = [t, d, x]
  level  : lvSp t.level.toNat = true → w.cls = 0 ∧ w.phased = false
  table  : (Claims.gatherState s w gather).opFault (if gather then w.src else w.dst).toNat t (fun _ => true) (!gather) false = none
  rows   : (Claims.gatherState s w gather).opFault (if gather then w.dst else w.src).toNat d lvSp gather false = none
  index  : (Claims.gatherState s w gather).opFault w.aux.toNat x (fun l => l = 0) false false = none
  fmts   : x.fmt = 4 ∧ t.fmt = d.fmt ∧ d.cols.toNat ≤ t.cols.toNat ∧ (Claims.gatherState s w gather).isBtc t = false
  sizes  : (w.rep.toNat + 1) * (w.arg.toNat % 64 + 1) ≤ d.rows.toNat ∧ (w.rep.toNat + 1) * (w.arg.toNat % 64 + 1) ≤ x.cols.toNat
  landed : (Claims.gatherState s w gather).readMiss x = [] ∧ (Claims.gatherState s w gather).readMiss (if gather then t else d) = []

/-- The state in which a gather or scatter has noted its reads. -/
def Claims.gatherRead (s : State) (w : DX) (gather : Bool) (t d x : Desc) : State :=
  ((Claims.gatherState s w gather).noteRead x).noteRead (if gather then t else d)

/-- R308, R309: the rows that a repeat of n indices moves: row k × n + i takes part with the table row that index i names when the table has
it, and is out of range when it does not. -/
def Claims.GatherRows : Prop :=
  ∀ (s : State) (x t : Desc) (n k i : Nat), i < n →
    lget (s.indices x n k) i 0 = s.elem s.cur.core x 0 (k * n + i) ∧ (s.indices x n k).length = n ∧
    (∀ r v, (r, v) ∈ rowPairs t (s.indices x n k) n k ↔
      ∃ j, j < n ∧ r = k * n + j ∧ v = lget (s.indices x n k) j 0 ∧ v < t.rows.toNat) ∧
    (∀ r, r ∈ rowsOut t (s.indices x n k) n k ↔ ∃ j, j < n ∧ r = k * n + j ∧ t.rows.toNat ≤ lget (s.indices x n k) j 0)

/-- R40, R300, R301, R308, R310: DGATHER from an SP table lands its rows and FILL in the other rows after the path's latency; from a G table it
reads the rows at their home and has the budget of all the repeat's bytes; indices out of range are counted. -/
def Claims.Gathers : Prop :=
  ∀ (s : State) (w : DX) (t d x : Desc), Claims.GatherReady s w true t d x →
    let k := (s.eng .data).rep
    let n := w.arg.toNat % 64 + 1
    let c := d.cols.toNat
    let b := d.bytesOf (n * c)
    let u := Claims.gatherRead s w true t d x
    let xs := u.indices x n k
    let pairs := rowPairs t xs n k
    let outs := rowsOut t xs n k
    let ic := x.elemChunks x.readBase ((List.range n).map fun i => (0, k * n + i))
    (s.me.params.strict = true → ∀ v ∈ xs, v < t.rows.toNat) →
    (lvSp t.level.toNat = true →
      let es := (pairs.flatMap fun (r, y) => (List.range c).map fun j => (r, j, u.elem s.cur.core t y j, u.elemPoison s.cur.core t y j)) ++
        (outs.flatMap fun r => (List.range c).map fun j => (r, j, t.fill.toNat % 2 ^ d.bits, false))
      exec (.dgather w) s = .next (((u.noteIndices w t x xs k).noteShadow w.dst.toNat).dataOut (w.rep.toNat + 1) (2 + Nat.max n (ceilDiv b 256))
        { rd := [t], once := [x], into := [d] }
        ((t.elemChunks t.readBase (pairs.flatMap fun (_, y) => rowElems y c)).foldl chunkIns ic.reverse).reverse
        [spWrite d (pathLat t.level.toNat d.level.toNat b) (u.elemPieces s.cur.core d d.writeBase es)])) ∧
    (lvSp t.level.toNat = false →
      let plan := pairs.foldl (fun (p : GPlan) (r, y) =>
        (List.range c).foldl (fun (p : GPlan) j => p.elem d.bits (u.gAddr t y j) (t.hiNib y j) (d.nibDst r j)) p) GPlan.empty
      ∀ rs, t.pinSpans plan.spans.reverse = .inr rs →
        let runs := (plan.fill d.bits (outs.flatMap fun r => (List.range c).map fun j => d.nibDst r j)).runs.reverse
        let lat := budget w.cls.toNat (t.target rs) b
        let g := u.readOp rs w.cls.toNat lat
        exec (.dgather w) s = .next (((g.2.noteIndices w t x xs k).noteShadow w.dst.toNat).dataOut (w.rep.toNat + 1)
          (2 + Nat.max n (ceilDiv b 256)) {} ic
          [{ lat := lat, eff := .spData d.level.toNat runs t.fillBytes, need := g.1
             phased := d.phased, chunks := d.elemChunks d.writeBase ((List.range n).flatMap fun i => rowElems (k * n + i) c) }]))

/-- R305, R308, R309: DSCATTER writes the in-range rows in order: at an SP level after the path's latency, at a G level in the data queue's
order, or, with PHASED, held until the commit. -/
def Claims.Scatters : Prop :=
  ∀ (s : State) (w : DX) (t d x : Desc), Claims.GatherReady s w false t d x →
    let k := (s.eng .data).rep
    let n := w.arg.toNat % 64 + 1
    let c := d.cols.toNat
    let b := d.bytesOf (n * c)
    let u := Claims.gatherRead s w false t d x
    let xs := u.indices x n k
    let pairs := rowPairs t xs n k
    let ic := x.elemChunks x.readBase ((List.range n).map fun i => (0, k * n + i))
    let sc := ((d.elemChunks d.readBase (pairs.flatMap fun (r, _) => rowElems r c)).foldl chunkIns ic.reverse).reverse
    (s.me.params.strict = true → ∀ v ∈ xs, v < t.rows.toNat) →
    (lvSp t.level.toNat = true →
      let es := pairs.flatMap fun (r, y) => (List.range c).map fun j => (y, j, u.elem s.cur.core d r j, u.elemPoison s.cur.core d r j)
      let v := u.noteIndices w t x xs k
      exec (.dscatter w) s = .next ((if pairs = [] then v else v.noteShadow w.dst.toNat).dataOut (w.rep.toNat + 1)
        (2 + Nat.max n (ceilDiv b 256)) { rd := [d], once := [x], into := [t] } sc
        (if pairs = [] then [] else [spWrite t (pathLat d.level.toNat t.level.toNat b) (u.elemPieces s.cur.core t t.writeBase es)]))) ∧
    (lvSp t.level.toNat = false → ∀ hs, u.scatterRows t d [] pairs = .inr hs →
      let after (v : State) : State := (v.noteIndices w t x xs k).dataOut (w.rep.toNat + 1) (2 + ceilDiv b 256)
        { rd := [d], once := [x] } sc []
      (w.phased = false → exec (.dscatter w) s = .next (after (u.storeNow w.cls.toNat (hs.flatMap (·.ps)) (hs.flatMap (·.names))))) ∧
      (w.phased = true → (u.me.mem.held.map (·.size)).sum + (hs.map (·.size)).sum ≤ 262144 →
        exec (.dscatter w) s = .next (after (u.modMe fun c =>
          { c with mem := { c.mem with held := c.mem.held ++ hs.map fun h => { h with cls := w.cls.toNat } } }))) ∧
      (w.phased = true → 262144 < (u.me.mem.held.map (·.size)).sum + (hs.map (·.size)).sum →
        exec (.dscatter w) s = .next (u.takeFault (mkFault 3 0x05 0x500))))

/-- R308: the conditions on a gather or scatter: an index descriptor that is not INT32, a table of another format or fewer columns than the rows or
behind a BTC aperture, and rows or indices too few for every repeat raise PERM with the descriptor's number, in this order where several hold
(log 22). -/
def Claims.GatherFaults : Prop :=
  ∀ (s : State) (w : DX) (gather : Bool) (t d x : Desc),
    let i : Instr := if gather then .dgather w else .dscatter w
    let tn := (if gather then w.src else w.dst).toNat
    let rn := (if gather then w.dst else w.src).toNat
    let u := Claims.gatherState s w gather
    let all := (w.rep.toNat + 1) * (w.arg.toNat % 64 + 1)
    let perm (n : Nat) : Prop := exec i s = .next (u.takeFault (mkFault 3 0x05 n))
    Claims.DataReady s w (gatherLegal w (if gather then 0 else 2)) → Claims.dataDescs s (Claims.gatherFields w gather) = [t, d, x] →
    (lvSp t.level.toNat = true → w.cls = 0 ∧ w.phased = false) →
    u.opFault tn t (fun _ => true) (!gather) false = none → u.opFault rn d lvSp gather false = none →
    u.opFault w.aux.toNat x (fun l => l = 0) false false = none →
    (x.fmt ≠ 4 → perm w.aux.toNat) ∧
    (x.fmt = 4 → t.fmt ≠ d.fmt ∨ t.cols.toNat < d.cols.toNat ∨ u.isBtc t = true → perm tn) ∧
    (x.fmt = 4 → t.fmt = d.fmt → d.cols.toNat ≤ t.cols.toNat → u.isBtc t = false →
      (d.rows.toNat < all → perm rn) ∧ (all ≤ d.rows.toNat → x.cols.toNat < all → perm w.aux.toNat))

/-- R308, R310: under STRICT the first index out of range raises GATHER_OOB with the index, and nothing moves and nothing is counted; without
STRICT the counts change two cycles on, and stop at 0xFFFFFFFF. -/
def Claims.OutOfRange : Prop :=
  (∀ (s : State) (w : DX) (t d x : Desc) (gather : Bool) (v : Nat), Claims.GatherReady s w gather t d x → s.me.params.strict = true →
    let u := Claims.gatherRead s w gather t d x
    ((u.indices x (w.arg.toNat % 64 + 1) (s.eng .data).rep).find? fun y => t.rows.toNat ≤ y) = some v →
    exec (if gather then .dgather w else .dscatter w) s = .next (u.takeFault (mkFault 3 0x10 v))) ∧
  (∀ (s : State) (n : Nat), (n = 0 → s.countOob n = s) ∧ (n ≠ 0 → s.countOob n = s.addLat 3 2 (.gstat n))) ∧
  (∀ (c : Core) (n : Nat), n ≠ 0 → (c.landReg (.gstat n)).params.oobs = true ∧
    (c.landReg (.gstat n)).params.oob.toNat = min 0xFFFFFFFF (c.params.oob.toNat + n))

/-- R311, R312: DMCAST sends the block that its repeat names, as it stands at issue, to the other members in the sender's mesh row or column:
a copy is seen in a receiver's scoreboard from its notice N on, and lands at N + E − 1 with E = 20 + Ceil(b / 128) and the cycles of extra
groups, which move with the word's reads; with SELF the sender's own copy lands after the SP1 path; the word takes 4 + Ceil(b / 128) cycles.
That a copy waits for the extra groups of the source and of its own receiver only is the model's choice (log 47). -/
def Claims.Multicasts : Prop :=
  ∀ (s : State) (w : DX) (d f : Desc), Claims.dataDescs s [w.dst, w.src] = [d, f] →
    let u := Claims.latched s [w.dst, w.src]
    let b := plainBlk d w.step.toNat (brRows (w.arg.toNat % 256) d) (s.eng .data).rep
    let form : DForm := { dst := true, src := true, aux := false, cls := false, ph := 0, rel := false, rep := true, steps := [0, 7, 8]
                          arg := w.arg.extractLsb' 8 4 = 0 }
    Claims.DataReady s w (dxLegal form w) →
    u.opFault w.dst.toNat d (fun l => l = 0) true false = none → u.opFault w.src.toNat f (fun l => l = 0) false false = none →
    f.fmt = d.fmt → (d.bits = 4 → d.cols.toNat % 2 = 0) → b.nearIn d = true → b.farIn f = true → u.readMiss f = [] →
    let v := u.noteRead f
    let es := b.offs.map fun o =>
      ((b.near o).1, (b.near o).2, v.elem s.cur.core f (b.near o).1 (b.near o).2, v.elemPoison s.cur.core f (b.near o).1 (b.near o).2)
    let sc := f.elemChunks f.readBase (b.offs.map b.near)
    let n := d.bytesOf (b.br * b.cols)
    let to_ := v.mcastTo (w.arg.getLsbD 13)
    let v' := if w.arg.getLsbD 12 || !to_.isEmpty then v.noteShadow w.dst.toNat else v
    exec (.dmcast w) s = .next ((to_.foldl (fun s r => s.mcastCopy r (20 + ceilDiv n 128 + extraGroups sc) d es) v').dataOut (w.rep.toNat + 1)
      (4 + ceilDiv n 128) { rd := [f], into := [d] } sc (if w.arg.getLsbD 12 then [spWrite d (8 + ceilDiv n 512) (v.elemPieces s.cur.core d d.writeBase es)] else [])
      (to_.zipIdx.map fun x => (x.1, v'.nextId + x.2)))

/-- R25, R311, R312, R343: the copy of a multicast in flight at a receiver r, which lands later by the extra groups of its own writes, and who
the receivers are (log 47). -/
def Claims.MulticastCopies : Prop :=
  ∀ (s : State) (r e : Nat) (d : Desc) (es : List (Nat × Nat × Nat × Bool)),
    let k := s.cur.core
    let notice := s.clk + 2 * hops k r + 2 * (s.core k).run.hop - 2 * (s.core r).run.hop
    (((s.core r).portsOf s.cur.shadow).vec = [] →
      let ps := s.elemPieces r d d.writeBase es
      ∃ p ∈ ((s.mcastCopy r e d es).core r).pend, p.eff = .mcast ps ∧ p.since = notice ∧
        p.land = notice + e + extraGroups (chunksOf (ps.map fun q => (q.addr, q.bytes.length))) - 1) ∧
    (∀ g, s.gangOf k = some g → ∀ m,
      (m ∈ s.mcastTo false ↔ m ∈ g.members ∧ m ≠ k ∧ m / 6 = k / 6) ∧ (m ∈ s.mcastTo true ↔ m ∈ g.members ∧ m ≠ k ∧ m % 6 = k % 6))

/-- R108 to R112, R313, R145: DCOMP codes the 4 × 4 blocks of four element rows into a coded row, and into a side row with SIDE; DEXP decodes
a coded row into four element rows; both land 16 cycles after the path and take 4 + Ceil(blocks / 2) cycles; a BYTE element descriptor
raises ILLEGAL_WORD, before other faults (log 22). -/
def Claims.CoderWords : Prop :=
  ∀ (s : State) (w : DX),
    let k := (s.eng .data).rep
    let bud := w.arg.toNat % 4
    (let side := w.arg.getLsbD 2
     let form : DForm := { dst := true, src := true, aux := side, cls := false, ph := 0, rel := false, rep := true, steps := [0]
                           arg := w.arg.toNat < 8 }
     ∀ c e x, Claims.DataReady s w (dxLegal form w) → Claims.dataDescs s [w.dst, w.src, w.aux] = [c, e, x] →
       let u := Claims.latched s [w.dst, w.src, w.aux]
       (e.fmt = 11 → exec (.dcomp w) s = .next (u.takeFault (mkFault 3 0x02 (encodeNat (.dcomp w))))) ∧
       ((e.fmt = 2 ∨ e.fmt = 8 ∨ e.fmt = 9) → e.cols.toNat % 4 = 0 → 4 * k + 4 ≤ e.rows.toNat → k < c.rows.toNat →
         e.cols.toNat / 4 * (4 * (bud + 1)) ≤ c.cols.toNat → (side = true → e.cols.toNat / 4 ≤ x.cols.toNat ∧ k < x.rows.toNat) →
         u.opFault w.dst.toNat c lvSp true true = none → u.opFault w.src.toNat e lvSp false false = none →
         (side = true → u.opFault w.aux.toNat x lvSp true true = none) → u.readMiss e = [] →
         let v := u.noteRead e
         let nb := e.cols.toNat / 4
         let blocks := (List.range nb).map fun bj =>
           let vs := (blockElems (4 * k) (4 * bj)).map (v.elemAt e)
           (btcEncode e.fmt.toNat bud (vs.map (·.1)), vs.any (·.2))
         let lat (d : Desc) : Nat := pathLat e.level.toNat d.level.toNat (e.bytesOf (4 * e.cols.toNat)) + 16
         let at_ (d : Desc) (bs : List Byte) : List Piece := [{ addr := (d.addrIn d.writeBase k 0).toNat, bytes := bs, poison := false }]
         let v' := (v.noteShadow w.dst.toNat).chkIf 3 (blocks.any (·.2))
         exec (.dcomp w) s = .next ((if side then v'.noteShadow w.aux.toNat else v').dataOut (w.rep.toNat + 1) (4 + ceilDiv nb 2) { rd := [e] }
           (e.elemChunks e.readBase ((List.range 4).flatMap fun i => rowElems (4 * k + i) e.cols.toNat))
           (spWrite c (lat c) (at_ c (blocks.flatMap (·.1.1))) ::
             if side then [spWrite x (lat x) (at_ x (blocks.map (·.1.2)))] else [])))) ∧
    (let form : DForm := { dst := true, src := true, aux := false, cls := false, ph := 0, rel := false, rep := true, steps := [0]
                           arg := w.arg.toNat < 4 }
     ∀ e c, Claims.DataReady s w (dxLegal form w) → Claims.dataDescs s [w.dst, w.src] = [e, c] →
       let u := Claims.latched s [w.dst, w.src]
       (e.fmt = 11 → exec (.dexp w) s = .next (u.takeFault (mkFault 3 0x02 (encodeNat (.dexp w))))) ∧
       ((e.fmt = 2 ∨ e.fmt = 8 ∨ e.fmt = 9) → e.cols.toNat % 4 = 0 → 4 * k + 4 ≤ e.rows.toNat → k < c.rows.toNat →
         e.cols.toNat / 4 * (4 * (bud + 1)) ≤ c.cols.toNat →
         u.opFault w.dst.toNat e lvSp true false = none → u.opFault w.src.toNat c lvSp false true = none → u.readMiss c = [] →
         let v := u.noteRead c
         let nb := e.cols.toNat / 4
         let bb := 4 * (bud + 1)
         let a := (c.addrIn c.readBase k 0).toNat
         let out (bj : Nat) := btcDecode e.fmt.toNat bud (v.spRead s.cur.core c.level.toNat (a + bj * bb) bb)
         let es := (List.range nb).flatMap fun bj =>
           ((blockElems (4 * k) (4 * bj)).zip (out bj).1).map fun (p, y) => (p.1, p.2, y, false)
         let bad := v.spPoison s.cur.core c.level.toNat a (nb * bb) || (List.range nb).any fun bj => (out bj).2
         exec (.dexp w) s = .next (((v.noteShadow w.dst.toNat).chkIf 3 bad).dataOut (w.rep.toNat + 1) (4 + ceilDiv nb 2)
           { rd := [c], into := [e] } (chunksAt c.level.toNat [(a, nb * bb)])
           [spWrite e (pathLat c.level.toNat e.level.toNat (e.bytesOf (4 * e.cols.toNat)) + 16)
             (v.elemPieces s.cur.core e e.writeBase es)])))

/-- R300, R314: DTRANS writes element (j, i) from element (ρ + i, j) with the path's latency plus 8 and occupancy plus 4; DFILL writes FILL
into its rows with the path's latency and occupancy 2 + Ceil(b / 1,024). That BR 0 stands for ROWS in both is the model's reading (log 39). -/
def Claims.LayoutWords : Prop :=
  ∀ (s : State) (w : DX),
    let k := (s.eng .data).rep
    let r := if w.step = 7 then k else 0
    (∀ d f, Claims.DataReady s w (dxLegal (layoutForm w true) w) → Claims.dataDescs s [w.dst, w.src] = [d, f] →
      let u := Claims.latched s [w.dst, w.src]
      let br := if w.arg.toNat % 256 = 0 then f.rows.toNat else w.arg.toNat % 256
      let c := f.cols.toNat
      let b := f.bytesOf (br * c)
      u.opFault w.dst.toNat d lvSp true false = none → u.opFault w.src.toNat f lvSp false false = none → u.readMiss f = [] →
      d.fmt = f.fmt → (f.bits = 8 ∨ f.bits = 16 ∨ f.bits = 32) → r + br ≤ f.rows.toNat → c ≤ d.rows.toNat → br ≤ d.cols.toNat →
      let v := u.noteRead f
      let cells := (List.range br).flatMap fun i => (List.range c).map fun j => (i, j)
      exec (.dtrans w) s = .next ((v.noteShadow w.dst.toNat).dataOut (w.rep.toNat + 1) (pathOcc f.level.toNat d.level.toNat b + 4)
        { rd := [f], into := [d] } (f.elemChunks f.readBase (cells.map fun (i, j) => (r + i, j)))
        [spWrite d (pathLat f.level.toNat d.level.toNat b + 8) (v.elemPieces s.cur.core d d.writeBase
          (cells.map fun (i, j) => (j, i, v.elem s.cur.core f (r + i) j, v.elemPoison s.cur.core f (r + i) j)))])) ∧
    (∀ d, Claims.DataReady s w (dxLegal (layoutForm w false) w) → Claims.dataDescs s [w.dst] = [d] →
      let u := Claims.latched s [w.dst]
      let br := if w.arg.toNat % 256 = 0 then d.rows.toNat else w.arg.toNat % 256
      let b := d.bytesOf (br * d.cols.toNat)
      u.opFault w.dst.toNat d lvSp true false = none → r + br ≤ d.rows.toNat →
      exec (.dfill w) s = .next ((u.noteShadow w.dst.toNat).dataOut (w.rep.toNat + 1) (2 + ceilDiv b 1024) {} []
        [spWrite d (pathLat d.level.toNat d.level.toNat b) (u.elemPieces s.cur.core d d.writeBase
          ((List.range br).flatMap fun i => (List.range d.cols.toNat).map fun j => (r + i, j, d.fill.toNat % 2 ^ d.bits, false)))]))

/-- R83, R315: a DATOM whose operands pass their checks sends one atomic to the home of its target with the operand read at issue, and the
old value comes back to SP1 when RET is set, with the budget of the SP3 unit or of the target plus 200. -/
def Claims.AtomicWords : Prop :=
  ∀ (s : State) (w : DX) (t o r : Desc) (tg a : Nat),
    let ret := w.arg.getLsbD 6
    let op := w.arg.toNat % 16
    let size := atomSize w
    let form : DForm := { dst := true, src := true, aux := ret, cls := true, ph := 0, rel := true, rep := true, steps := [0, 7]
                          arg := w.arg.toNat < 128 && op ≤ 10 && size ≤ 16 && atomSizeOk op size }
    let i := if w.step = 7 then (s.eng .data).rep else 0
    let n := if op = 10 then 2 * size else size
    let oa := (o.addrIn o.readBase i 0).toNat
    let ra := (r.addrIn r.writeBase i 0).toNat
    let u := Claims.latched s [w.dst, w.src, w.aux]
    Claims.DataReady s w (dxLegal form w) → Claims.dataDescs s [w.dst, w.src, w.aux] = [t, o, r] →
    u.opFault w.dst.toNat t (fun l => 2 ≤ l && l ≤ 4) true false = none → u.opFault w.src.toNat o (fun l => l = 0) false false = none →
    (ret = true → u.opFault w.aux.toNat r (fun l => l = 0) true false = none ∧ i < r.rows.toNat ∧ ra + size ≤ 0x300000) →
    u.isBtc t = false → i < t.rows.toNat → i < o.rows.toNat → oa + n ≤ 0x300000 → u.atomPlace w t i = .inr (tg, a) → u.readMiss o = [] →
    let v := u.noteRead o
    let bs := v.spRead s.cur.core 0 oa n
    let x := if op = 10 then bnat bs size size else leNat bs
    let cmp := if op = 10 then bnat bs 0 size else 0
    let g := v.newOp s.cur.core 3 (.atomic tg a op size x cmp w.rel)
      [if tg = 3 then (1, a, size) else (0, v.gAddr t i 0, size)] w.cls.toNat
    exec (.datom w) s = .next (((if ret then g.2.noteShadow w.aux.toNat else g.2).chkIf 3
        ((if ret then g.2.noteShadow w.aux.toNat else g.2).spPoison s.cur.core 0 oa n)).dataOut (w.rep.toNat + 1) 2 { rd := [o] } (chunksOf [(oa, n)])
      [{ lat := if tg = 3 then 240 else budget w.cls.toNat tg size + 200, eff := .atomRet (if ret then some (ra, size) else none)
         need := some g.1, phased := ret && r.phased, chunks := if ret then chunksOf [(ra, size)] else [] }])

/-- R83, R296, R315: where an atomic may act: an aligned address, in SP3 or in the pinned range; elsewhere than in HBM and SP3 only add, swap
and CAS; a release-marked one only as an 8-byte add at a 64-byte boundary of HBM or SP3. ALIGN comes before the others (log 22). -/
def Claims.AtomicPlaces : Prop :=
  ∀ (s : State) (w : DX) (d : Desc) (i tg a : Nat),
    let va := if d.level = 2 then (d.addrIn d.base.toNat i 0).toNat else s.gAddr d i 0
    (va % atomSize w ≠ 0 → s.atomPlace w d i = .inl (mkFault 3 0x03 va)) ∧
    (s.atomPlace w d i = .inr (tg, a) →
      va % atomSize w = 0 ∧ (d.level = 2 → tg = 3 ∧ a = va ∧ va + atomSize w ≤ 0x1400000) ∧
      (tg ≠ 3 → tg ≠ 0 → atomOp w = 0 ∨ atomOp w = 9 ∨ atomOp w = 10) ∧
      (w.rel = true → atomOp w = 0 ∧ atomSize w = 8 ∧ a % 64 = 0 ∧ (tg = 3 ∨ tg = 0)))

/-- R77, R78, R80, R82, R296, R316, R317: a release of the data queue goes to the home of its sync object in order, and through a descriptor
with RO raises PERM; an acquire waits there for the
value, and the data queue issues nothing until it is answered; AFENCE puts the queue's earlier writes before its later operations. -/
def Claims.DataSync : Prop :=
  ∀ (s : State) (w : DX),
    (let form : DForm := { dst := true, src := false, aux := false, cls := true, ph := 0, rel := false, rep := false, steps := [0]
                           arg := w.arg = 0 }
     ∀ d t a, Claims.DataReady s w (dxLegal form w) → Claims.dataDescs s [w.dst] = [d] →
       let u := Claims.latched s [w.dst]
       (u.opFault w.dst.toNat d lvSync true false = none → u.syncAt d = .inr (t, a) →
         exec (.dataSrel w) s = .next ((u.newOp s.cur.core 3 (.srel t a) [] w.cls.toNat).2.engIssue .data 1 1)) ∧
       (lvSync d.level.toNat = true → u.descFault s.cur.core 3 w.dst.toNat d false = none → d.ro = true →
         exec (.dataSrel w) s = .next (u.takeFault (mkFault 3 0x05 w.dst.toNat)))) ∧
    (let imm := w.arg.getLsbD 13
     let form : DForm := { dst := true, src := !imm, aux := false, cls := true, ph := 0, rel := false, rep := false, steps := [0], arg := true }
     let ns := w.dst :: if imm then [] else [w.src]
     let u := Claims.latched s ns
     let d := lget (Claims.dataDescs s ns) 0 Desc.zero
     let v := lget (Claims.dataDescs s ns) 1 Desc.zero
     let va := (v.addrIn v.readBase 0 0).toNat
     ∀ t a, Claims.DataReady s w (dxLegal form w) → u.opFault w.dst.toNat d lvSync false false = none → u.syncAt d = .inr (t, a) →
       (imm = true → ∃ x, exec (.dataSacq w) s = .next x ∧ (x.eng .data).sacq = some u.nextId ∧
         ∃ o ∈ x.gops, o.id = u.nextId ∧ o.kind = .wait t a ((w.arg.extractLsb' 0 13).setWidth 64) ∧ o.done = false) ∧
       (imm = false → u.opFault w.src.toNat v (fun l => l = 0) false false = none → va + 8 ≤ 0x300000 → u.readMiss v = [] →
         ∃ x, exec (.dataSacq w) s = .next x ∧ (x.eng .data).sacq = some u.nextId ∧
           ∃ o ∈ x.gops, o.id = u.nextId ∧ o.done = false ∧
             o.kind = .wait t a (BitVec.ofNat 64 (leNat ((u.noteRead v).spRead s.cur.core 0 va 8))))) ∧
    (let form : DForm := { dst := false, src := false, aux := false, cls := false, ph := 0, rel := false, rep := false, steps := [0]
                           arg := w.arg = 0 }
     Claims.DataReady s w (dxLegal form w) →
       let u := Claims.latched s []
       exec (.afence w) s = .next ((u.fence s.cur.core 3 ((u.openOps s.cur.core 3).filter fun id =>
         !(u.gops.any fun o => o.id = id && !o.kind.writes))).engIssue .data 1 1))

/-! ## Manifests (R113 to R128, R318 to R322) -/

/-- R120, R121: what a decision may be: COMPUTE clears drift and age; SHIFT and KEEP age the tile by one, stay within THLD, and SHIFT moves by
at most a tile, to a source inside the map; a tile of an intra or scene-cut frame, with an invalid record, a gap in frames or an empty
rectangle computes with cause 1; a refresh that is due computes with cause 2. -/
def Claims.TileDecisions : Prop :=
  ∀ (c : Call) (ti : Nat),
    let v := c.decide ti
    let l := c.l
    let st := c.rec_ ti
    let x0 := ti % l.tcols * l.ts
    let y0 := ti / l.tcols * l.ts
    let x1 := min (x0 + l.ts) l.mapw - 1
    let y1 := min (y0 + l.ts) l.maph - 1
    let cx := cellSpan l x0 x1 (mapCw c.map)
    let cy := cellSpan l y0 y1 (mapCh c.map)
    let frame := bnat c.map 0 4
    let lost : Prop := bnat c.map 8 2 % 4 ≠ 0 ∨ st.valid = false ∨ st.lfrm ≠ (frame + 2 ^ 32 - 1) % 2 ^ 32 ∨ cx.2 < cx.1 ∨ cy.2 < cy.1
    let due : Prop := l.rfsh ≠ 0 ∧ l.rfsh ≤ st.a + 1 ∧ frame % l.rfsh = ti % l.rfsh
    v.act < 3 ∧ (v.act = 0 → v.newd = 0 ∧ v.newa = 0) ∧ (v.act ≠ 1 → v.dx = 0 ∧ v.dy = 0) ∧
    (v.act ≠ 0 → v.cause = 0 ∧ v.newa = min (st.a + 1) 65535 ∧ v.newd ≤ 0xFFFFFFFF ∧ (l.thld = 0xFFFFFFFF ∨ v.newd ≤ l.thld)) ∧
    (v.act = 1 → (v.dx ≠ 0 ∨ v.dy ≠ 0) ∧ v.dx.natAbs ≤ l.ts ∧ v.dy.natAbs ≤ l.ts ∧ 0 ≤ x0 + v.dx ∧ x1 + v.dx < l.mapw ∧ 0 ≤ y0 + v.dy ∧
      y1 + v.dy < l.maph) ∧
    (lost → v.act = 0 ∧ v.cause = 1) ∧ (¬ lost → due → v.act = 0 ∧ v.cause = 2)

/-- R122, R123: a manifest has a header with the frame, the slot and the lengths of its runs, and one entry of 16 bytes per tile, COMPUTE
before SHIFT before KEEP; each entry is of its run and no tile is lost. -/
def Claims.ManifestForm : Prop :=
  ∀ (c : Call) (n : Nat), 4 ≤ c.map.length → n < 64 → c.l.nt ≤ 65535 →
    let m := c.manifest n
    let rs := c.runs
    m.length = 16 + 16 * c.l.nt ∧ m.take 4 = c.map.take 4 ∧ bnat m 4 1 = n ∧ bnat m 6 2 = (lget rs 0 []).length ∧
    bnat m 8 2 = (lget rs 1 []).length ∧ bnat m 10 2 = (lget rs 2 []).length ∧ m.drop 16 = (rs.flatMap fun r => r.flatMap id) ∧
    (∀ ti, ti < c.l.nt → c.entry ti (c.decide ti) ∈ lget rs (c.decide ti).act [])

/-- R320, R321: the entries that FEED pushes: the first COMPUTE entries of the manifest, then pad entries whose head holds ACT 3. -/
def Claims.FeedEntries : Prop :=
  ∀ (c : Call) (f i : Nat), i < f →
    (c.feed f).length = f ∧
    lget (c.feed f) i [] = (if i < (lget c.runs 0 []).length then entryLanes (lget (lget c.runs 0 []) i []) else [0xC0000000, 0, 0, 0])

/-- R116, R117, R319, R320: an MFBUILD that passes its checks latches the slot and the change map, asks for the directory entry, reserves its
FEED entries of c8, and occupies the data queue for 2 + B(64); a slot that does not allow it raises PERM with 0x800 + n, a map or an output
region that does not fit PERM with its descriptor, and no room in c8 is a schedule miss. -/
def Claims.ManifestCalls : Prop :=
  ∀ (s : State) (w : DX) (o dd b : Desc),
    let form : DForm := { dst := true, src := true, aux := true, cls := true, ph := 0, rel := false, rep := false, steps := [0]
                          arg := w.arg.toNat < 2 ^ 13 }
    let n := w.arg.toNat % 64
    let f := if w.arg.getLsbD 6 then w.arg.toNat / 128 % 64 + 1 else 0
    let u := Claims.latched s [w.dst, w.src, w.aux]
    let slot := lget (s.builder (cluster s.cur.core)).slots n []
    let l := layerOf slot
    let v := u.noteRead b
    let va := u.gAddr dd 0 0
    Claims.DataReady s w (dxLegal form w) → Claims.dataDescs s [w.dst, w.src, w.aux] = [o, dd, b] →
    u.opFault w.dst.toNat o lvNear true true = none → u.opFault w.src.toNat dd (fun x => x = 3) false false = none →
    u.opFault w.aux.toNat b lvNear false true = none →
    (l.ok = false → exec (.mfbuild w) s = .next (u.takeFault (mkFault 3 0x05 (0x800 + n)))) ∧
    (l.ok = true → u.readMiss b = [] →
      let bad := mapBad (v.linBytes b 0 (min b.len 32)) b.len
      (bad = true → exec (.mfbuild w) s = .next (v.takeFault (mkFault 3 0x05 w.aux.toNat))) ∧
      (bad = false → o.len < 16 + 16 * l.nt → exec (.mfbuild w) s = .next (v.takeFault (mkFault 3 0x05 w.dst.toNat))) ∧
      (∀ rs, bad = false → 16 + 16 * l.nt ≤ o.len → dd.pinSpans [(va, 64)] = .inr rs →
        (f ≠ 0 → 64 < v.me.c8Held s.cur.shadow s.clk + f → exec (.mfbuild w) s = .next (v.schedMiss 3 0x108 (.feed f))) ∧
        (f = 0 ∨ v.me.c8Held s.cur.shadow s.clk + f ≤ 64 →
          ∃ t bd, exec (.mfbuild w) s = .next t ∧ t.me.builds = s.me.builds ++ [bd] ∧ bd.slot = slot ∧ bd.checked = false ∧ bd.feed = f ∧
            bd.lane = s.cur.shadow ∧ bd.word = w ∧ bd.write = true ∧ bd.phase = s.me.modes.phase.toNat ∧
            bd.map = v.linBytes b 0 (min b.len (32 + 8 * mapCw (v.linBytes b 0 32) * mapCh (v.linBytes b 0 32))) ∧
            ((s.me.portsOf s.cur.shadow).vec = [] → (t.eng .data).next = s.clk + (2 + budget w.cls.toNat (dd.target rs) 64)) ∧
            (∃ p ∈ t.me.pend, p.id = bd.id ∧ p.eff = .manifest o.level.toNat o.writeBase (16 + 16 * l.nt)) ∧
            (∃ q ∈ t.gops, q.id = bd.read ∧ q.kind = .read rs) ∧ SameMemory s t)))

/-- R319: at cycle e a directory entry that has not arrived is a schedule miss; one that breaks R118, or whose records lie outside every
pinned LEVEL 3 range, raises PERM with dD; a good one sends the call to the cluster's builder with its runs. -/
def Claims.DirectoryChecks : Prop :=
  ∀ (s : State) (b : Build) (o : GOp), s.openBuild = some b → (s.eng .data).next ≤ s.clk → (s.gops.find? fun o => o.id = b.read) = some o →
    let dn := b.word.src.toNat
    let e := o.data.flatMap (·.bytes)
    let u := s.chkIf 3 (o.data.any (·.poison))
    (o.done = false → s.cur.shadow = false → s.me.modes.trapMode = false →
      exec .mfbuildDirectoryCheck s = .next (s.schedMiss 3 dn (.op b.read))) ∧
    (o.done = true → (dirBad e = true ∨ b.dirVa % 64 ≠ 0 ∨ u.layerRuns (layerOf b.slot) e = none) →
      exec .mfbuildDirectoryCheck s = .next ((u.dropBuild b).takeFault (mkFault 3 0x05 dn))) ∧
    (∀ rs, o.done = true → dirBad e = false → b.dirVa % 64 = 0 → u.layerRuns (layerOf b.slot) e = some rs →
      ∃ t, exec .mfbuildDirectoryCheck s = .next t ∧
        (t.builder (cluster s.cur.core)).calls = (s.builder (cluster s.cur.core)).calls ++ [(s.actual s.cur.core, s.cur.core, b.id)] ∧
        (∀ x ∈ s.me.builds, x.id = b.id → { x with checked := true, dir := e, runs := rs } ∈ t.me.builds))

/-- R128, R320: a builder that is free starts, of the calls that have reached it, the one that reached it first, by the tide cycle of its e: it reads
the layer, and the manifest will land BM − 1 cycles after that cycle or, where it was still busy then, after the end of the call before; one that
serves a call starts no other. That the state array and the side tables are read at the start of the service is log 45. -/
def Claims.BuildersServe : Prop :=
  ∀ (s : State),
    let cl := s.cur.arg
    (s.builderBusy cl = true → exec .builderService s = .next s) ∧
    (∀ e c b p, s.builderBusy cl = false → (e, c) ∈ (s.builder cl).calls → s.buildOf c = some b → e ≤ s.tide →
      (∀ y ∈ (s.builder cl).calls, y ≠ (e, c) → (s.buildOf y.2).isSome = true → e < y.1) →
      ((s.core c.1).pend.find? fun p => p.id = c.2) = some p → ((s.core c.1).portsOf b.lane).vec = [] →
      let nt := (layerOf b.slot).nt
      let bm := budget b.word.cls.toNat (runsTarget b.runs) (16 * nt) + 4 * nt + ceilDiv (mapCw b.map * mapCh b.map) 16
      let start := max e (max (s.builder cl).freeAt (if (s.builder cl).busy.isSome then s.tide else 0))
      ∃ t, exec .builderService s = .next t ∧ (t.builder cl).busy = some c ∧
        (∀ y, y ∈ (t.builder cl).calls → y ∈ (s.builder cl).calls ∧ (s.buildOf y.2).isSome = true) ∧
        (∀ y ∈ (s.builder cl).calls, y ≠ (e, c) → (s.buildOf y.2).isSome = true → y ∈ (t.builder cl).calls) ∧
        (∃ o ∈ t.gops, o.id = s.nextId ∧ o.kind = .read b.runs) ∧
        ∃ q ∈ (t.core c.1).pend, q.id = p.id ∧ q.land = s.pendClock c.1 p + start + bm - 1 - s.actual c.1 ∧ q.need = some s.nextId)

/-- R47, R145, R320: a manifest lands, unless its phase was cancelled and discards it, with its FEED entries in c8, and its builder is free; one
whose reads have not been answered waits. -/
def Claims.ManifestLandings : Prop :=
  ∀ (s : State) (p : Pend) (lvl addr len : Nat) (b : Build), s.thePend = some p → p.eff = .manifest lvl addr len →
    s.buildOf (s.cur.core, p.id) = some b →
    (s.needMet p = false → exec .manifestLands s = .next s) ∧
    (s.needMet p = true →
      let c := b.call (s.answer p)
      let ps : List Piece := [{ addr := addr, bytes := c.manifest (b.word.arg.toNat % 64), poison := false }]
      let u := if b.write then (s.endPend p).landNow s.cur.core p lvl ps else s.endPend p
      ∃ t, exec .manifestLands s = .next t ∧ t.mem = u.mem ∧
        (∀ k a, mread (t.core k).mem.sp1 a = mread (u.core k).mem.sp1 a) ∧ (∀ q ∈ t.me.builds, q.id ≠ b.id) ∧
        (t.chan 8).q.map (·.v) = (s.chan 8).q.map (·.v) ++ c.feed b.feed ∧
        ((s.builder (cluster s.cur.core)).busy = some (s.cur.core, b.id) → (t.builder (cluster s.cur.core)).busy = none))

/-- R321, R343: MFREAD pushes the entry of the run that its repeat names, or a pad entry beyond the run's end, 6 cycles on from SP1 and 12 from
SP2, later by the extra groups of its reads, with which the push moves; a full c8 is a schedule miss, and a manifest beyond dS raises PERM. -/
def Claims.ManifestReads : Prop :=
  ∀ (s : State) (w : DX) (o : Desc),
    let form : DForm := { dst := true, src := true, aux := false, cls := false, ph := 0, rel := false, rep := true, steps := [0], arg := true }
    let u := Claims.latched s [w.src]
    let v := u.noteRead o
    let start := w.dst.toNat * 4096 + w.arg.toNat % 4096 + (s.eng .data).rep
    let at_ := runIndex (manifestCounts (v.linBytes o 0 16)) (w.arg.toNat / 4096) start
    let off := match at_ with | some j => 16 + 16 * j | none => 0
    let e := match at_ with | some _ => v.linBytes o off 16 | none => padEntry
    Claims.DataReady s w (dxLegal form w) → Claims.dataDescs s [w.src] = [o] → u.opFault w.src.toNat o lvNear false true = none →
    16 ≤ o.len → u.readMiss o = [] →
    (o.len < off + 16 → exec (.mfread w) s = .next (v.takeFault (mkFault 3 0x05 w.src.toNat))) ∧
    (off + 16 ≤ o.len → v.pushMiss 8 = true → exec (.mfread w) s = .next (v.schedMiss 3 0x108 (.room 8))) ∧
    (off + 16 ≤ o.len → v.pushMiss 8 = false →
      let cs := chunksAt o.level.toNat ((o.readBase, 16) :: if at_.isSome then [(o.readBase + off, 16)] else [])
      exec (.mfread w) s = .next (((v.push 3 8 ((if o.level = 0 then 6 else 12) + extraGroups cs) 0 (entryLanes e)).chkIf 3
        (v.linPoison o 0 16 || (at_.isSome && v.linPoison o off 16))).dataOut (w.rep.toNat + 1) 1 {} cs [] [(s.cur.core, v.nextId)]))

/-- R113, R145, R318: CMFETCH reads the map's bytes at their home with the budget of all of dM, and lands the header and the cells that it
announces, clipped to the smaller descriptor; a byte is marked where what it copies was. -/
def Claims.MapFetches : Prop :=
  (∀ (s : State) (w : DX) (b m : Desc) (rs : List (Nat × Nat × Nat)),
    let form : DForm := { dst := true, src := true, aux := false, cls := true, ph := 0, rel := false, rep := false, steps := [0]
                          arg := w.arg = 0 }
    let u := Claims.latched s [w.dst, w.src]
    let cap := min b.len m.len
    Claims.DataReady s w (dxLegal form w) → Claims.dataDescs s [w.dst, w.src] = [b, m] → u.opFault w.dst.toNat b lvNear true true = none →
    u.opFault w.src.toNat m lvG false true = none → m.pinSpans [(u.gAddr m 0 0, cap)] = .inr rs →
    let lat := budget w.cls.toNat (m.target rs) m.len
    let g := u.readOp rs w.cls.toNat lat
    exec (.cmfetch w) s = .next ((g.2.noteShadow w.dst.toNat).dataOut 1 (2 + ceilDiv m.len 256) {} []
      [{ lat := lat, eff := .cmap b.level.toNat b.writeBase cap, need := g.1
         phased := b.phased, chunks := chunksAt b.level.toNat [(b.writeBase, cap)] }])) ∧
  (∀ (s : State) (old : Nat → Nat → Byte) (p : Pend) (lvl x cap : Nat), p.eff = .cmap lvl x cap →
    let bs := (s.answer p).flatMap (·.bytes)
    let n := min cap (32 + 8 * bnat bs 4 2 * bnat bs 6 2)
    ∃ ps, s.effPieces old p = some (lvl, ps, false) ∧ (∀ q ∈ ps, x ≤ q.addr ∧ q.addr + q.bytes.length ≤ x + n) ∧
      ∀ i, i < n → i < bs.length → overlay ps (x + i) 0 = lget bs i 0 ∧
        ((∃ q ∈ ps, q.poison = true ∧ q.addr ≤ x + i ∧ x + i < q.addr + q.bytes.length) ↔ markedRange (s.answer p) i 1 = true))

/-- R126, R305, R322: TSUPD holds one 16-byte record per entry of the manifest until the commit, or raises PERM and holds nothing; a record
takes NEWD and NEWA, is valid, has the other bank unless the entry keeps, the shift of a SHIFT, and the frame. -/
def Claims.StateUpdates : Prop :=
  (∀ (s : State) (w : DX) (d o : Desc) (hs : List Held),
    let form : DForm := { dst := true, src := true, aux := false, cls := true, ph := 1, rel := false, rep := false, steps := [0]
                          arg := w.arg != 0 }
    let u := Claims.latched s [w.dst, w.src]
    let v := u.noteRead o
    let n := (manifestCounts (v.linBytes o 0 16)).sum
    let es := (List.range n).map fun j => v.linBytes o (16 + 16 * j) 16
    let sum := (v.me.mem.held.map (·.size)).sum
    Claims.DataReady s w (dxLegal form w) → Claims.dataDescs s [w.dst, w.src] = [d, o] → u.opFault w.dst.toNat d (fun l => l = 3) true true = none →
    u.opFault w.src.toNat o lvNear false true = none → 16 ≤ o.len → u.readMiss o = [] →
    (w.arg.toNat < n → exec (.tsupd w) s = .next (v.takeFault (mkFault 3 0x05 w.src.toNat))) ∧
    (n ≤ w.arg.toNat → 16 + 16 * n ≤ o.len → 0x40000 < sum + n * 32 → exec (.tsupd w) s = .next (v.takeFault (mkFault 3 0x05 0x500))) ∧
    (n ≤ w.arg.toNat → 16 + 16 * n ≤ o.len → sum + n * 32 ≤ 0x40000 → v.tsupdStores w.dst.toNat d (v.linBytes o 0 4) es = .inr hs →
      hs.length = n ∧ ∃ t, exec (.tsupd w) s = .next t ∧ t.me.mem.held = s.me.mem.held ++ hs.map (fun h => { h with cls := w.cls.toNat }) ∧
        SameMemory s t)) ∧
  (∀ (e frame : List Byte) (free : Nat), e.length = 16 → frame.length = 4 →
    let act := bnat e 0 8 / 2 ^ 30 % 4
    let bank := bnat e 0 8 / 2 ^ 29 % 2 = 1
    let r := recordOf e frame free
    act < 3 → r.length = 16 ∧ r.take 6 = (e.drop 8).take 6 ∧ r.drop 12 = frame ∧ bnat r 6 1 % 2 = 1 ∧
      (bnat r 6 1 / 2 % 2 = 1 ↔ (if act = 2 then bank else ¬ bank)) ∧ (bnat r 6 1 / 4 % 2 = 1 ↔ act = 1) ∧ bnat r 7 1 = 0 ∧
      (r.drop 8).take 4 = (if act = 1 then (e.drop 4).take 4 else [0, 0, 0, 0]))

/-! ## Gangs and holds (R23 to R32, R51, R157, R386) -/

/-- R71, R157, R378: gang g has been aborted with a reason: its bind record stands at DONE with END 1 and that REASON, no gang has its berth,
and its members run no gang, hold no store, have no effect in flight and no bound descriptor. -/
def Claims.Aborted (g : Gang) (reason : Nat) (t : State) : Prop :=
  t.gang g.berth = none ∧ (t.bind g.berth).state = 3 ∧ (t.bind g.berth).reason = BitVec.ofNat 8 reason ∧ (t.bind g.berth).end_ = 1 ∧
  ∀ k ∈ g.members, (t.core k).run.berth = none ∧ (t.core k).run.started = false ∧ (t.core k).mem.held = [] ∧ (t.core k).pend = [] ∧
    (∀ d ∈ (t.core k).descs, d.bound = false) ∧ (t.core k).seq.ended = true

/-- R25, R149: GANG_START starts every member of the gang at its present place; a member without an entry snapshot takes one of its registers,
pc, descriptors and masks; a gang that has started, and every other core, stands. -/
def Claims.GangStarts : Prop :=
  ∀ (s : State) (g : Gang), s.gang s.cur.arg = some g →
    (g.started = true → exec .gangStart s = .next s) ∧
    (g.started = false → ∃ t, exec .gangStart s = .next t ∧ t.gang g.berth = some { g with started := true, startedAt := s.tide } ∧ SameMemory s t ∧
      (∀ k, k ∉ g.members → t.core k = s.core k) ∧
      ∀ k ∈ g.members, (t.core k).run = { (s.core k).run with started := true } ∧ (t.core k).seq = (s.core k).seq ∧
        ((s.core k).snap ≠ none → (t.core k).snap = (s.core k).snap) ∧
        ((s.core k).snap = none → ∃ sn, (t.core k).snap = some sn ∧ sn.regs = (s.core k).seq.regs ∧ sn.pc = (s.core k).seq.pc ∧ sn.ptReg = none ∧
          sn.descs = (s.core k).descs ∧ sn.masks = (s.core k).vec.masks ∧ sn.chmap = (s.core k).chmap))

/-- R30, R136: a hold wave stops the member that it reaches, at an issue boundary, with its delay slot due when it would issue now; it does not
stop again a member that stands, and the gang awaits it no more. -/
def Claims.HoldWaves : Prop :=
  ∀ (s : State) (g : Gang), s.gangOf s.cur.core = some g →
    let q := s.me.seq
    let due : Bool := q.slot.isSome && decide (q.wait = .none) && decide (q.next ≤ s.me.run.g) && !q.ended
    ∃ t, exec .holdWave s = .next t ∧ (∀ k, k ≠ s.cur.core → t.core k = s.core k) ∧ SameMemory s t ∧
      t.gang g.berth = some { g with hold := g.hold.map fun h => { h with waves := h.waves.filter fun w => w.1 != s.cur.core } } ∧
      (s.me.run.stop ≠ none → t.me = s.me) ∧
      (s.me.run.stop = none →
        t.me = { s.me with run := { s.me.run with stop := some { slotDue := due, source := false, await := none, until_ := none }, held := 0 } })

/-- R32: when the condition of every source has ended, every member is given a time to resume at which it will have been held for the same number d of
tide cycles: no fewer than the sources' own span nor than any member has been held, and, where that allows, ending within 256 cycles of the last
condition's end. Which d is the model's free choice (log 6). -/
def Claims.Releases : Prop :=
  ∀ (s : State) (g : Gang) (h : HoldRec), s.gang s.cur.arg = some g → g.hold = some h →
    (s.holdOver g h = false ∨ (g.saveReq = true ∧ s.pointArrivals g = none) → exec .release s = .next s) ∧
    (s.holdOver g h = true → (g.saveReq = false ∨ s.pointArrivals g ≠ none) → h.rb = false →
      let till (x : HoldSrc) : Nat := x.ended.getD (s.actual x.core)
      ∀ first last, (∀ x ∈ h.srcs, first ≤ x.stopA) → (∃ x ∈ h.srcs, x.stopA = first) →
        (∀ x ∈ h.srcs, till x ≤ last) → (∃ x ∈ h.srcs, till x = last) →
        ∃ t d, exec .release s = .next t ∧ last - first ≤ d ∧ (∀ k ∈ g.members, (s.core k).run.held ≤ d) ∧
          ((∀ k ∈ g.members, (s.core k).run.held ≤ last + 256 - first) → d ≤ last + 256 - first) ∧
          t.gang g.berth = some { g with hold := none } ∧ SameMemory s t ∧ (∀ k, k ∉ g.members → t.core k = s.core k) ∧
          ∀ k ∈ g.members, (t.core k).hnd = Handler.idle ∧ (t.core k).seq = (s.core k).seq ∧ (t.core k).engs = (s.core k).engs ∧
            (t.core k).run.stop = (s.core k).run.stop.map (fun st =>
              { st with until_ := some (s.tide - (s.core k).run.held + d), stall := h.srcs.any fun x => x.cause = 1 }))

/-- R142, R150: a release with a rollback requested makes the retry first; a gang with a member whose phase cannot be retried is aborted with
reason 3. -/
def Claims.RollbackRefused : Prop :=
  ∀ (s : State) (g : Gang) (h : HoldRec), s.gang s.cur.arg = some g → g.hold = some h → s.holdOver g h = true → (g.saveReq = false ∨ s.pointArrivals g ≠ none) → h.rb = true →
    (∃ k ∈ g.members, (s.core k).modes.noretry = true) → ∃ t, exec .release s = .next t ∧ Claims.Aborted g 3 t

/-- R32, R155: the release wave lets the member go on when its time has come, and nothing else changes; but one that has met a data-borne error since
its release was picked holds its gang again there, as a source that is over at once, and the hold rolls back. -/
def Claims.ReleaseWaves : Prop :=
  ∀ (s : State),
    (∀ st n, s.me.run.stop = some st → st.until_ = some n → n ≤ s.tide → s.me.run.errDue = false →
      exec .releaseWave s = .next (s.modMe fun c => { c with run := { c.run with stop := none, held := 0, errDue := false } })) ∧
    (∀ st n b g, s.me.run.stop = some st → st.until_ = some n → n ≤ s.tide → s.me.run.errDue = true → s.me.run.berth = some b →
      s.gang b = some g →
      ∃ t x g' h, exec .releaseWave s = .next t ∧ t.me.run.stop = some x ∧ x.source = true ∧ t.me.run.errDue = false ∧
        t.me.seq = s.me.seq ∧ t.mem = s.mem ∧ (∀ k, k ≠ s.cur.core → t.core k = s.core k) ∧
        t.gang b = some g' ∧ g'.hold = some h ∧ h.rb = true ∧ ∃ y ∈ h.srcs, y.core = s.cur.core ∧ y.cause = 0 ∧ y.ended ≠ none) ∧
    (∀ st n, s.me.run.stop = some st → st.until_ = some n → s.tide < n → exec .releaseWave s = .next s) ∧
    (∀ st, s.me.run.stop = some st → st.until_ = none → exec .releaseWave s = .next s)

/-- R51, R326, R381, R382: a member's combiner fires when its units have ended and its writes are done; the last to fire completes the gang: its
record has STATUS 0 and GCYCLES the latest firing in gang time, its berth is DONE with END 0, and its cores are free; what their channels hold
stands. -/
def Claims.Completion : Prop :=
  ∀ (s : State) (g : Gang),
    let k := s.cur.core
    let fire (c : Core) : Core := { c with run := { c.run with fired := some c.run.g } }
    let fired (m : Nat) : Option Nat := if m = k then some s.me.run.g else (s.core m).run.fired
    s.gangOf k = some g →
    (s.combinerDue k = false → exec .combinerFires s = .next s) ∧
    (s.combinerDue k = true → (∃ m ∈ g.members, fired m = none) → exec .combinerFires s = .next (s.modCore k fire)) ∧
    (∀ fs, s.combinerDue k = true → (g.members.mapM fun m => (fired m).map fun f => f + 2 * (s.core m).run.hop) = some fs →
      let b := s.bind g.berth
      let r := (s.modCore k fire).gangRecord g 0 0 (maxOf fs)
      r.token = b.token.toNat ∧ r.frameno = b.frameno.toNat ∧ r.seq = b.seq.toNat ∧ r.status = 0 ∧ r.reason = 0 ∧ r.gcycles = maxOf fs ∧
      r.group = b.group.toNat ∧ r.nsave = g.nsave ∧ r.phases = (s.core g.origin).modes.phase.toNat ∧
      ∃ t, exec .combinerFires s = .next t ∧ t.gang g.berth = none ∧ (t.bind g.berth).state = 3 ∧ (t.bind g.berth).end_ = 0 ∧
        (t.bind g.berth).reason = 0 ∧ (t.sched.queues = (((((s.modCore k fire).noteLate g b).freeGang g).writeBindRecord b r).freeSlotOf b).sched.queues) ∧
        ∀ m ∈ g.members, (t.core m).run.berth = none ∧ (t.core m).run.started = false ∧ (t.core m).snap = none ∧ (t.core m).pend = [] ∧
          (t.core m).chans = (s.core m).chans ∧
          ∀ d ∈ (t.core m).descs, d.bound = false)

/-- R381: the 32 bytes of a completion record. -/
def Claims.RecordFormat : Prop :=
  ∀ (r : Record) (ph : Bool), r.token < 2 ^ 32 → r.frameno < 2 ^ 32 → r.seq < 2 ^ 32 → r.status < 256 → r.reason < 256 → r.flags < 256 →
    r.gcycles < 2 ^ 64 → r.phases < 2 ^ 32 → r.nsave < 2 ^ 16 → r.group < 256 →
    let b := r.bytes ph
    b.length = 32 ∧ bnat b 0 4 = r.token ∧ bnat b 4 4 = r.frameno ∧ bnat b 8 4 = r.seq ∧ bnat b 12 1 = r.status ∧ bnat b 13 1 = r.reason ∧
    bnat b 14 1 = r.flags ∧ bnat b 15 1 = (if ph then 1 else 0) ∧ bnat b 16 8 = r.gcycles ∧ bnat b 24 4 = r.phases ∧ bnat b 28 2 = r.nsave ∧
    bnat b 30 1 = r.group ∧ bnat b 31 1 = 0

/-- R44, R386: at the limit of its run a gang is aborted with reason 6; below it, and with no limit, nothing happens. -/
def Claims.RunLimits : Prop :=
  ∀ (s : State) (g : Gang), s.gang s.cur.arg = some g →
    let lim := (s.bind g.berth).runlim.toNat
    (lim = 0 ∨ (s.core g.origin).run.g < lim → exec .runLimitExpiry s = .next s) ∧
    (lim ≠ 0 → lim ≤ (s.core g.origin).run.g → ∃ t, exec .runLimitExpiry s = .next t ∧ Claims.Aborted g 6 t)

/-! ## Phase points (R45 to R47, R146 to R152) -/

/-- R46, R146, R149: when no member refuses and all executed PHASE, the phase point commits on every member: the selected DB descriptors swap their banks,
held stores are handed to their homes, PHASE advances, RCNT and CHKINT are 0, CANCEL is clear, since the last phase point cancelled nothing (log 54), G is
in the destination register, and the entry snapshot of the next phase is taken. -/
def Claims.Commits : Prop :=
  ∀ (s : State) (gg : Gang) (arr : List (Nat × BitVec 16 × Nat × Nat)), s.gang s.cur.arg = some gg → gg.members.Nodup →
    s.pointArrivals gg = some arr →
    let g := maxOf (arr.map fun a => a.2.2.1) + 64
    (s.allAt gg g = false → exec .phasePointRelease s = .next s) ∧
    (s.allAt gg g = true → (∀ k ∈ gg.members, (s.core k).modes.chkint = false) → (∀ a ∈ arr, a.1 = 0) →
      ∃ t, exec .phasePointRelease s = .next t ∧ (∀ k, k ∉ gg.members → t.core k = s.core k) ∧
        ∀ (i k kind : Nat) (mask : BitVec 16) (a d : Nat), gg.members[i]? = some k → arr[i]? = some (kind, mask, a, d) →
          let c := s.core k
          let c' := t.core k
          (∀ j, let x := lget c.descs j Desc.zero
            lget c'.descs j Desc.zero = { x with bank := if x.db && mask.getLsbD j then !x.bank else x.bank, shw := false }) ∧
          c'.modes.phase = c.modes.phase + 1 ∧ c'.modes.rcnt = 0 ∧ c'.modes.chkint = false ∧ c'.modes.cancel = false ∧ c'.mem.held = [] ∧
          (∀ h ∈ c.mem.held, ∃ o ∈ t.gops, o.core = k ∧ o.unit = 3 ∧ o.kind = .write h.ps) ∧
          c'.seq = { c.seq.setReg d (word g) with wait := .none, next := g } ∧ c'.vec = c.vec ∧ c'.mtx = c.mtx ∧
          ∃ sn, c'.snap = some sn ∧ sn.ptReg = some d ∧ sn.pc = c.seq.pc ∧ sn.regs = c'.seq.regs ∧ sn.descs = c'.descs)

/-- R47, R148: when no member refuses and some executed PABORT, none PABORT.R, every member discards its phase (held stores, writes to shadow banks), has
CANCEL set, and goes on at G with G in its register; no bank swaps and PHASE stands. -/
def Claims.Cancels : Prop :=
  ∀ (s : State) (gg : Gang) (arr : List (Nat × BitVec 16 × Nat × Nat)), s.gang s.cur.arg = some gg → gg.members.Nodup →
    s.pointArrivals gg = some arr →
    let g := maxOf (arr.map fun a => a.2.2.1) + 64
    s.allAt gg g = true → (∀ k ∈ gg.members, (s.core k).modes.chkint = false) → (∀ a ∈ arr, a.1 ≠ 2) → (∃ a ∈ arr, a.1 = 1) →
      ∃ t, exec .phasePointRelease s = .next t ∧
        ∀ (i k kind : Nat) (mask : BitVec 16) (a d : Nat), gg.members[i]? = some k → arr[i]? = some (kind, mask, a, d) →
          let c := s.core k
          let c' := t.core k
          c'.mem.held = [] ∧ c'.descs = c.descs.map (fun x => { x with shw := false }) ∧ (∀ p ∈ c'.pend, p.phased = false) ∧
          c'.modes = { c.modes with cancel := true } ∧ c'.seq = { c.seq.setReg d (word g) with wait := .none, next := g } ∧ c'.snap = c.snap

/-- R151: what a retry leaves of a member whose snapshot is sn, resuming at gang cycle gr: the snapshot's registers, the one that the phase point
wrote holding gr, its pc, descriptors, masks and channel map; v0 to v31 and the tiles 0, the expander banks, queues and lanes empty, no store
held; RCNT one higher, up to 15. -/
def Claims.Retried (c c' : Core) (sn : Snapshot) (gr : Nat) : Prop :=
  c'.seq.pc = sn.pc ∧ c'.seq.next = gr ∧ c'.seq.slot = none ∧ c'.seq.ended = false ∧
  (∀ r, r ≠ 0 → c'.seq.reg r = if sn.ptReg = some r then word gr else lget sn.regs r 0) ∧
  c'.descs = sn.descs.map (fun d => { d with shw := false }) ∧ c'.chmap = sn.chmap ∧ c'.vec.masks = sn.masks ∧
  (∀ r l, lget (lget c'.vec.v r []) l 0 = 0) ∧ (∀ x ∈ c'.mtx.tiles, ∃ b, x = { Tile.zero with hovf := b }) ∧
  (∀ x ∈ c'.mtx.banks, x = Bank.empty) ∧ (∀ e ∈ c'.engs, e.q = []) ∧
  (∀ e ∈ c'.lanes, e.q = []) ∧ c'.mem.held = [] ∧ c'.modes.chkint = false ∧ c'.modes.phase = c.modes.phase ∧
  c'.modes.rcnt = (if c.modes.rcnt = 15 then 15 else c.modes.rcnt + 1)

/-- R148, R150 to R152: a phase point that is refused (a member has CHKINT) or at which some executed PABORT.R: while RCNT does not reach past RETRYMAX every
member retries from G + 64, with REFUSE set on a refusal, unless a phase cannot be retried (abort with reason 3); beyond it PABORT.R aborts
the gang with reason 4, and a refusal makes every member with CHKINT a source of POISON with SUB 3 and the phase in INFO, and the pc of the instruction
after the phase point in TREC.PC (log 87). -/
def Claims.Refusals : Prop :=
  ∀ (s : State) (gg : Gang) (arr : List (Nat × BitVec 16 × Nat × Nat)), s.gang s.cur.arg = some gg → gg.members.Nodup →
    s.pointArrivals gg = some arr →
    let g := maxOf (arr.map fun a => a.2.2.1) + 64
    let m := (s.core gg.origin).modes
    let full : Prop := m.retrymax.toNat < m.rcnt.toNat + 1
    let bad : Prop := ∃ k ∈ gg.members, (s.core k).modes.chkint = true
    let stuck : Prop := ∃ k ∈ gg.members, (s.core k).modes.noretry = true
    s.allAt gg g = true → (bad ∨ ∃ a ∈ arr, a.1 = 2) →
      (¬ full → ¬ stuck → ∃ t, exec .phasePointRelease s = .next t ∧ ∀ k ∈ gg.members,
        (bad → (t.core k).modes.refuse = true) ∧ ∀ sn, (s.core k).snap = some sn → Claims.Retried (s.core k) (t.core k) sn (g + 64)) ∧
      (¬ full → stuck → ∃ t, exec .phasePointRelease s = .next t ∧ Claims.Aborted gg 3 t) ∧
      (full → ¬ bad → ∃ t, exec .phasePointRelease s = .next t ∧ Claims.Aborted gg 4 t) ∧
      (full → bad → ∃ t, exec .phasePointRelease s = .next t ∧ ∀ k ∈ gg.members, (t.core k).modes.refuse = true ∧ (t.core k).mem.held = [] ∧
        ((s.core k).modes.chkint = true →
          (t.core k).trec.cause = 0x0A ∧ (t.core k).trec.sub = 3 ∧ (t.core k).trec.info = BitVec.ofNat 64 m.phase.toNat ∧
          (t.core k).trec.pc = (match (s.core k).seq.slot with | some sl => sl.brPc | none => (s.core k).seq.pc) ∧
          (t.core k).run.stop.isSome = true))

/-! ## Pre-emption (R158 to R163) -/

/-- R158: the request shows on the member from the gang cycle y on, and not before. -/
def Claims.YieldRequests : Prop :=
  ∀ (s : State) (g : Gang) (y : Nat), s.gangOf s.cur.core = some g → g.y = some y →
    (y ≤ s.me.run.g → exec .yieldreq s = .next (s.modMe fun c => { c with modes := { c.modes with yieldreq := true } })) ∧
    (s.me.run.g < y → exec .yieldreq s = .next s)

/-- R161, R163: when no YIELD has been taken by y + PDL, a forced save is due: a gang that runs is stopped from its origin, a hold in force stands
in; so it is when one asked for was put off by a phase point and the gang runs again. Before, with one due already, with every member waiting at
a phase point, or with every member in a YIELD that is taken, nothing happens. -/
def Claims.SavesFallDue : Prop :=
  ∀ (s : State) (g : Gang), s.gang s.cur.arg = some g →
    let c := s.core g.origin
    let late : Prop := ∃ y, g.y = some y ∧ y + c.modes.pdl.toNat ≤ c.run.g ∧ g.saveReq = false ∧ s.pointArrivals g = none ∧
      ∀ arr, s.yieldArrivals g = some arr → maxOf (arr.map fun x => x.2.1) < y
    let putOff : Prop := g.saveReq = true ∧ g.hold = none ∧ c.run.stop = none ∧ s.pointArrivals g = none
    let due : Prop := late ∨ putOff
    (¬ due → exec .pdlExpiry s = .next s) ∧
    (due → ∃ t, exec .pdlExpiry s = .next t ∧ (∀ k, k ≠ g.origin → t.core k = s.core k) ∧
      (∃ g', t.gang g.berth = some g' ∧ g'.saveReq = true ∧ g'.saveAt = c.run.g ∧ g'.members = g.members ∧
        (c.run.stop ≠ none → t.core g.origin = c ∧ g'.hold = g.hold) ∧
        (c.run.stop = none → c.run.berth = some g.berth → (∃ st, (t.core g.origin).run.stop = some st ∧ st.source = true) ∧
          ∃ h, g'.hold = some h ∧ (∃ x ∈ h.srcs, x.core = g.origin ∧ x.cause = 2 ∧ x.ended = none ∧ x.stopN = s.tide) ∧
            ∀ k ∈ g.members, k ≠ g.origin → ∃ w ∈ h.waves, w.1 = k)))

/-- R159, R161: a gang-wide YIELD. Not taken, it writes G and goes on as GBAR does; taken off a phase boundary it sets YBAD too, saves nothing, and
the request's deadline makes no save either (log 53). -/
def Claims.YieldsGoOn : Prop :=
  ∀ (s : State) (gg : Gang) (arr : List (Word × Nat × Nat)), s.gang s.cur.arg = some gg → gg.members.Nodup → s.yieldArrivals gg = some arr →
    let a := maxOf (arr.map fun x => x.2.1)
    let g := a + 64
    let taken : Bool := gg.asked || match gg.y with | some y => decide (y ≤ a) | none => false
    let boundary : Prop := ∀ k ∈ gg.members, s.atBoundary k g = true
    (s.allAt gg g = false → exec .yieldRelease s = .next s) ∧
    (s.allAt gg g = true → ¬ (taken = true ∧ boundary) →
      ∃ t, exec .yieldRelease s = .next t ∧ t.saves = s.saves ∧ SameMemory s t ∧
        t.gang gg.berth = some (if taken then { gg with y := none, asked := true } else gg) ∧
        ∀ (i k : Nat) (l : Word) (a' d : Nat), gg.members[i]? = some k → arr[i]? = some (l, a', d) →
          t.core k = { s.core k with seq := { (s.core k).seq.setReg d (word g) with wait := .none, next := g }
                                     modes := { (s.core k).modes with ybad := (s.core k).modes.ybad || taken } })

/-- R159, R160, R387: a YIELD taken on a phase boundary saves the gang: registers, descriptors, channel map and mask stack of every member, the
vectors and tiles that its live mask selects (the others as 0, HOVF kept: log 55), the resume place after YIELD with G in its register, under the SAVEPA of its
record; its cores are free, and the save goes on until a cycle that the model leaves free (log 10). -/
def Claims.CooperativeSaves : Prop :=
  ∀ (s : State) (gg : Gang) (arr : List (Word × Nat × Nat)), s.gang s.cur.arg = some gg → gg.members.Nodup → s.yieldArrivals gg = some arr →
    let a := maxOf (arr.map fun x => x.2.1)
    let g := a + 64
    s.allAt gg g = true → (gg.asked = true ∨ ∃ y, gg.y = some y ∧ y ≤ a) → (∀ k ∈ gg.members, s.atBoundary k g = true) →
      ∃ t sv, exec .yieldRelease s = .next t ∧ t.gang gg.berth = none ∧
        (∃ w ∈ t.sched.saving, w.berth = gg.berth ∧ w.from_ = s.tide ∧ w.savepa = sv.savepa) ∧
        (∀ k ∈ gg.members, (t.core k).run.berth = none ∧ ∀ d ∈ (t.core k).descs, d.bound = false) ∧
        sv ∈ t.saves ∧ sv.savepa = (s.bind gg.berth).savepa.toNat * 4096 ∧ sv.kind = 1 ∧ sv.gcyc = g ∧ sv.gang.nsave = gg.nsave + 1 ∧
        sv.mems.length = gg.members.length ∧
        ∀ (i k : Nat) (l : Word) (a' d : Nat), gg.members[i]? = some k → arr[i]? = some (l, a', d) → ∃ m, sv.mems[i]? = some m ∧
          m.core.seq = { (s.core k).seq.setReg d (word g) with wait := .none, next := g } ∧ m.core.sh.regs = (s.core k).sh.regs ∧
          m.core.descs = (s.core k).descs ∧ m.core.chmap = (s.core k).chmap ∧ m.core.vec.masks = (s.core k).vec.masks ∧
          m.core.snap = (s.core k).snap ∧ m.core.trec = (s.core k).trec ∧ m.core.modes.yieldreq = false ∧
          m.core.params.hentry = (s.core k).params.hentry ∧
          (∀ r, r < (s.core k).vec.v.length → lget m.core.vec.v r [] = if l.getLsbD r then lget (s.core k).vec.v r [] else List.replicate 64 0) ∧
          (∀ r x, (s.core k).mtx.tiles[r]? = some x → m.core.mtx.tiles[r]? = some (if l.getLsbD (32 + r) then x else { Tile.zero with hovf := x.hovf }))

/-- R133, R142, R161, R163: a forced save waits for the hold and for what is under way, and while every member waits at a phase point; then
everything of every member is saved, channels, queues and held stores included, with the valid layer slots of its cluster and a rollback that a
handler has asked for (log 80); its cores are free, and the save goes on until a cycle that the model leaves free (log 10). -/
def Claims.ForcedSaves : Prop :=
  ∀ (s : State) (g : Gang), s.gang s.cur.arg = some g →
    (s.pointArrivals g ≠ none → exec .forcedSave s = .next s) ∧
    (s.saveReady g = false → exec .forcedSave s = .next s) ∧
    (s.saveReady g = true → ∃ (t : State) (sv : Saved), exec .forcedSave s = .next t ∧ t.gang g.berth = none ∧
      (∃ w ∈ t.sched.saving, w.berth = g.berth ∧ w.from_ = s.tide ∧ w.savepa = sv.savepa) ∧
      sv.rb = g.hold.bind (fun h => if h.rb then some h.rbCount else none) ∧
      (∀ k ∈ g.members, (t.core k).run.berth = none) ∧ sv ∈ t.saves ∧ sv.savepa = (s.bind g.berth).savepa.toNat * 4096 ∧ sv.kind = 2 ∧
      sv.gcyc = (s.core g.origin).run.g ∧ sv.gang.nsave = g.nsave + 1 ∧ sv.mems.length = g.members.length ∧
      ∀ (i k : Nat), g.members[i]? = some k → ∃ m, sv.mems[i]? = some m ∧ m.sp1s = [(0, Config.sp1Size)] ∧
        (∀ n w, (n, w) ∈ m.slots ↔ n < 64 ∧ w = lget (s.slotsOf (cluster k)) n [] ∧ (lget w 3 0).getLsbD 63 = true) ∧
        m.core = { s.core k with hnd := Handler.idle, unpins := (s.core k).unpins.filter (fun u => !(s.core k).unpinDue u)
                                 perf := List.replicate 8 0, pend := (s.core k).pend.flatMap s.keptPend })

/-- R378, R379: a save that is over ends its record with END 2 and SAVECYC the tide cycles that it took; one that is not over goes on. -/
def Claims.SavesEnd : Prop :=
  ∀ (s : State), s.gang s.cur.arg = none → ∀ i ∈ ([.forcedSave, .yieldRelease] : List Instr),
    ((∀ w ∈ s.sched.saving, w.berth = s.cur.arg → s.tide < w.due) → exec i s = .next s) ∧
    (∀ w, (s.sched.saving.find? fun w => w.berth = s.cur.arg && w.due ≤ s.tide) = some w →
      ∃ t, exec i s = .next t ∧ (t.bind w.berth).state = 3 ∧ (t.bind w.berth).end_ = 2 ∧
        (t.bind w.berth).savecyc = BitVec.ofNat 32 (s.tide - w.from_) ∧ (∀ x ∈ t.sched.saving, x.berth ≠ w.berth) ∧ t.cores = s.cores ∧ SameMemory s t)

/-! ## Landings of channels, copies and atomics (R28, R192, R193, R212, R311, R315) -/

/-- R28, R192, R193: an entry that lands can be popped from now on, and no other does; a credit that comes back leaves one fewer in use; neither
touches a register or a memory. -/
def Claims.ChannelLandings : Prop :=
  ∀ (s : State) (p : Pend) (c : Nat), s.thePend = some p → p.need = none →
    (p.eff = .chan c ∨ p.eff = .mesh c → ∃ t, exec .channelEntryLands s = .next t ∧
      (t.chan c).q = (s.chan c).q.map (fun e => if e.src = p.id then { e with landed := true } else e) ∧
      (∀ c', c' ≠ c → t.chan c' = s.chan c') ∧ t.me.seq = s.me.seq ∧ t.me.vec = s.me.vec ∧ SameMemory s t) ∧
    (p.eff = .credit c → ∃ t, exec .creditReturn s = .next t ∧ (t.chan c).used = (s.chan c).used - 1 ∧ (t.chan c).q = (s.chan c).q ∧
      (∀ c', c' ≠ c → t.chan c' = s.chan c') ∧ t.me.seq = s.me.seq ∧ t.me.vec = s.me.vec ∧ SameMemory s t)

/-- R311, R312: a multicast copy writes its bytes into the receiver's SP1, and no other byte. -/
def Claims.CopiesLand : Prop :=
  ∀ (s : State) (p : Pend) (q : Piece), s.thePend = some p → p.need = none → Claims.lastToLand s p 0 → p.eff = .mcast [q] → Memory.wf s.me.mem.sp1 = true →
    ∃ t, exec .dmcastArrival s = .next t ∧ (∀ i, i < q.bytes.length → mread t.me.mem.sp1 (q.addr + i) = lget q.bytes i 0) ∧
      (∀ a, a < q.addr ∨ q.addr + q.bytes.length ≤ a → mread t.me.mem.sp1 a = mread s.me.mem.sp1 a) ∧
      t.mem = s.mem ∧ t.me.seq = s.me.seq ∧ t.me.vec = s.me.vec

/-- R145, R315: the old value of an atomic that its home has answered lands in SP1 where its descriptor said; one from a poisoned granule sets
CHKINT; an atomic without a place for it writes nothing. -/
def Claims.OldValuesLand : Prop :=
  ∀ (s : State) (p : Pend) (addr : Option (Nat × Nat)), s.thePend = some p → Claims.lastToLand s p 0 → p.eff = .atomRet addr → Memory.wf s.me.mem.sp1 = true →
    (s.needMet p = false → exec .atomicReturn s = .next s) ∧
    (s.needMet p = true → ∃ t, exec .atomicReturn s = .next t ∧
      let bs := (s.answer p).flatMap fun q => q.bytes
      (addr = none → ∀ a, mread t.me.mem.sp1 a = mread s.me.mem.sp1 a) ∧
      (∀ x n, addr = some (x, n) → (∀ i, i < bs.length → mread t.me.mem.sp1 (x + i) = lget bs i 0) ∧
        ∀ a, a < x ∨ x + bs.length ≤ a → mread t.me.mem.sp1 a = mread s.me.mem.sp1 a) ∧
      (((s.answer p).any fun q => q.poison) = true → t.me.modes.chkint = true) ∧
      (s.me.mtx.reads = none → s.me.mtx.laneReads = none →
        t.me.modes.chkint = (s.me.modes.chkint || (s.answer p).any fun q => q.poison)) ∧ t.mem = s.mem)

/-- R41, R42, R212: a load with no data at its budget's last cycle is a schedule miss: MISS is set and MISSCNT advances; under TRAP the fault SCHED_MISS has
INFO 0x200 + d; under STALL the member holds until the data arrive. In the shadow context the sequencer waits one cycle more. -/
def Claims.LoadBudgets : Prop :=
  ∀ (s : State) (p : Pend) (sh : Bool) (r n wid : Nat), (s.me.pend.find? fun q => q.id = s.cur.arg) = some p → p.eff = .ldReg sh r wid →
    (sh = true → exec .seqLoadBudgetExpiry s = .next (s.modMe fun c => { c with sh := { c.sh with next := s.tide + 1 } })) ∧
    (sh = false → s.cur.shadow = false → s.me.modes.misscnt = BitVec.ofNat 16 n → n < 0xFFFF →
      ∃ t, exec .seqLoadBudgetExpiry s = .next t ∧ t.me.modes.miss = true ∧ t.me.modes.misscnt = BitVec.ofNat 16 (n + 1) ∧ t.me.run.stop.isSome = true ∧
        (s.me.modes.trapMode = true → t.me.trec.cause = 0x07 ∧ t.me.trec.info = BitVec.ofNat 64 (0x200 + r)) ∧
        (s.me.modes.trapMode = false → t.me.trec = s.me.trec ∧ ∃ st, t.me.run.stop = some st ∧ st.source = true ∧ st.await = some (.load p.id)) ∧
        (∀ q, t.me.seq.reg q = s.me.seq.reg q) ∧ SameMemory s t)

/-! ## Stream queues (R362 to R371, R383) -/

/-- R362, R425: the parties that may write a queue's context: the Pilot firmware, and the owner that OWNER names. -/
def Claims.MayWrite (q : Queue) (who : Party) : Prop :=
  who = .pilot ∨ (who = .host ∧ q.pol.owner = false) ∨ (who = .external ∧ q.pol.owner = true)

/-- R362, R364: a doorbell takes the new TAIL unless more words than the ring holds would be pending, which sets TAILERR and leaves TAIL; a party
that may not write changes nothing, nor does any in a part in recovery. (The model notes beside it when the TAIL came, for R437.) -/
def Claims.Doorbells : Prop :=
  ∀ (s : State) (who : Party) (n : Nat) (v : BitVec 17),
    let q := s.queue n
    (¬ Claims.MayWrite q who ∨ s.fleet.recovery = true → exec (.tail who n v) s = .next s) ∧
    (Claims.MayWrite q who → s.fleet.recovery = false → ∃ t, exec (.tail who n v) s = .next t ∧ (∀ m, m ≠ n → t.queue m = s.queue m) ∧ SameMemory s t ∧
      (2 ^ q.ring.rlog2.toNat < (v - q.ring.head).toNat → t.queue n = { q with ring := { q.ring with tailerr := true } }) ∧
      ((v - q.ring.head).toNat ≤ 2 ^ q.ring.rlog2.toNat →
        t.queue n = { q with ring := { q.ring with tail := v }, run := { q.run with tails := (t.queue n).run.tails } }))

/-- R362, R364, R371: writes of STATE. DRAIN and RUN change STATE only; RUN with SKIP on a FAULT queue drops the word at HEAD with every open level; OFF closes the
levels, drops a WAITV, sets HEAD to TAIL, and takes the queue's FRAMEs out of the PIFO and the rank engine, and no others. That OFF acts in every
STATE and drops a WAITV is the model's reading (log 56). In recovery no write of STATE acts (R425). -/
def Claims.QueueStates : Prop :=
  ∀ (s : State),
    let n := s.cur.arg
    let q := s.queue n
    (¬ Claims.MayWrite q s.cur.who ∨ s.fleet.recovery = true →
      ∀ i ∈ ([.queueOff, .queueRun, .queueRunSkip, .queueDrain] : List Instr), exec i s = .next s) ∧
    (Claims.MayWrite q s.cur.who → s.fleet.recovery = false →
      exec .queueDrain s = .next (s.modQueue n fun q => { q with ring := { q.ring with state := 3 } }) ∧
      exec .queueRun s = .next (s.modQueue n fun q => { q with ring := { q.ring with state := 1 } }) ∧
      (q.ring.state ≠ 2 → exec .queueRunSkip s = .next (s.modQueue n fun q => { q with ring := { q.ring with state := 1 } })) ∧
      (q.ring.state = 2 → ∃ t, exec .queueRunSkip s = .next t ∧ (t.queue n).ring = { q.ring with state := 1, head := q.ring.head + 1 } ∧
        (t.queue n).depth = 0 ∧ (t.queue n).run.resv = q.run.resv ∧ ∀ m, m ≠ n → t.queue m = s.queue m) ∧
      ∃ t, exec .queueOff s = .next t ∧ (t.queue n).ring = { q.ring with state := 0, head := q.ring.tail, crtail := (t.queue n).ring.crtail } ∧
        (t.queue n).depth = 0 ∧ (t.queue n).run.waitv = none ∧ t.sched.pifo = s.sched.pifo.filter (fun e => e.frame.queue ≠ n) ∧
        t.sched.rank.wait = s.sched.rank.wait.filter (fun f => f.queue ≠ n) ∧
        (∀ f, s.sched.rank.cur = some f → t.sched.rank.cur = if f.queue = n then none else some f) ∧ ∀ m, m ≠ n → t.queue m = s.queue m)

/-- R364, R381: the records of the FRAMEs that a write of OFF purges: each of the queue's FRAMEs in the PIFO or the rank engine gets one in its own
reserved slot, with its TOKEN and FRAMENO, STATUS 2 and REASON 15; where one FRAME is purged, and no sync object stands there, the record's 32
bytes are in its slot and every other byte of HBM stands. -/
def Claims.PurgedRecords : Prop :=
  ∀ (s : State),
    let n := s.cur.arg
    let q := s.queue n
    let fs := ((s.sched.pifo.filter fun e => e.frame.queue = n).map (·.frame)) ++ (s.sched.rank.cur.toList.filter fun f => f.queue = n) ++
      s.sched.rank.wait.filter fun f => f.queue = n
    let r (f : Frame) : Record := { token := bnat f.bytes 4 4, frameno := bnat f.bytes 20 4, seq := 0, status := 2, reason := 15, flags := 0
                                    gcycles := 0, phases := 0, nsave := 0, group := 0 }
    Claims.MayWrite q s.cur.who → s.fleet.recovery = false → ∃ t u, exec .queueOff s = .next t ∧
      t = fs.foldl (fun x f => x.writeRecord n f.slot (r f)) u ∧ (u.queue n).run.resv = q.run.resv ∧ (u.queue n).run.marks = q.run.marks ∧
      (q.run.waitv = none → SameMemory s u) ∧
      ∀ f v, fs = [f] → q.run.waitv = none → q.run.marks = [] → q.run.resv.find? (fun x => x.idx = f.slot) = some v → v.tgt = 0 →
        Memory.wf s.mem.hbm = true → s.armedAt 0 v.pa 32 = [] → (∀ i, i < 32 → ¬ Claims.keptArmed s 0 (v.pa + i)) →
        (∀ i, i < 32 → t.gByte 0 (v.pa + i) = lget ((r f).bytes (decide (f.slot / 2 ^ q.ring.crlog2.toNat % 2 = 0))) i 0) ∧
        ∀ a, a < v.pa ∨ v.pa + 32 ≤ a → t.gByte 0 a = s.gByte 0 a

/-- R370: the word that has been taken: at the ring HEAD advances; inside a buffer its index does, and the end of the outermost buffer closes it and
advances HEAD. -/
def Claims.PacketsTaken : Prop :=
  ∀ (q : Queue),
    (q.depth = 0 → q.taken.ring = { q.ring with head := q.ring.head + 1 } ∧ q.taken.pol = q.pol ∧
      q.taken.run = { q.run with tails := q.taken.run.tails }) ∧
    (∀ l, q.depth = l + 1 → (lget q.pol.iidx l 0 + 1).toNat ≠ lget q.run.counts l 0 →
      q.taken.ring = q.ring ∧ lget q.taken.pol.iidx l 0 = lget q.pol.iidx l 0 + 1 ∧ q.taken.run = q.run) ∧
    (q.depth = 1 → (lget q.pol.iidx 0 0 + 1).toNat = lget q.run.counts 0 0 →
      q.taken.ring = { q.ring with head := q.ring.head + 1 } ∧ lget q.taken.run.counts 0 0 = 0 ∧ lget q.taken.pol.istart 0 0 = 0)

/-- R368: a fetch by the fetcher of queue n: its next is 64 cycles later, from the queue after n; no other queue changes. -/
def Claims.FetchedFrom (s t : State) (n : Nat) : Prop :=
  lget t.sched.fetch (n / 32) (0, 0) = (n / 32 * 32 + (n + 1) % 32, s.tide + 64) ∧ ∀ m, m ≠ n → t.queue m = s.queue m

/-- R371: queue n has been parked: FAULT with the code, the level and the address; HEAD and the levels stand. -/
def Claims.Parked (s t : State) (n code addr : Nat) : Prop :=
  let q := s.queue n
  (t.queue n).ring = { q.ring with state := 2 } ∧
  (t.queue n).pol = { q.pol with fcode := BitVec.ofNat 8 code, fdepth := BitVec.ofNat 3 q.depth, faddr := BitVec.ofNat 48 addr } ∧
  (t.queue n).run.resv = q.run.resv ∧ (t.queue n).run.counts = q.run.counts

/-- R366 to R371: what every fetch has in common: no visit that may not fetch, or that meets another TYPE, does anything; a word or a completion slot that does
not translate parks the queue with 0x0F; a malformed word takes a slot, whose record has STATUS 3 and the TYPE as REASON, and is taken. -/
def Claims.Fetches : Prop :=
  ∀ (s : State) (typ : Nat) (i : Instr), (typ, i) ∈ ([(0, .nopPacket), (1, .frame), (2, .indirect), (3, .waitv), (4, .mark)] : List (Nat × Instr)) →
    let n := s.cur.arg
    let q := s.queue n
    (s.canFetch n = false ∨ s.packetType n ≠ typ → exec i s = .next s) ∧
    (s.canFetch n = true → s.packetType n = typ →
      (∀ a, s.packet q = .inl a → ∃ t, exec i s = .next t ∧ Claims.Parked s t n 0x0F a ∧ Claims.FetchedFrom s t n) ∧
      (∀ bs a, s.packet q = .inr bs → s.slotPlace q = .inl a → ∃ t, exec i s = .next t ∧ Claims.Parked s t n 0x0F a ∧ Claims.FetchedFrom s t n) ∧
      (∀ bs at_, s.packet q = .inr bs → s.slotPlace q = .inr at_ → packetBad bs = true →
        exec i s = .next (((s.modQueue n fun q => (q.reserve at_.1 at_.2 false false).taken).writeRecord n q.run.nresv
          (plainRecord (bnat bs 4 4) 3 (bnat bs 0 1))).fetched n)))

/-- A well-formed word is at the front of the queue of the step, with a place for its record. -/
def Claims.PacketReady (s : State) (bs : List Byte) (at_ : Nat × Nat) : Prop :=
  let q := s.queue s.cur.arg
  s.canFetch s.cur.arg = true ∧ s.packet q = .inr bs ∧ s.slotPlace q = .inr at_ ∧ packetBad bs = false

/-- R366: a NOP is taken and reserves nothing. -/
def Claims.NopPackets : Prop :=
  ∀ (s : State) (bs : List Byte) (at_ : Nat × Nat), Claims.PacketReady s bs at_ → bnat bs 0 1 = 0 →
    ∃ t, exec .nopPacket s = .next t ∧ t.queue s.cur.arg = (s.queue s.cur.arg).taken ∧ Claims.FetchedFrom s t s.cur.arg ∧ SameMemory s t

/-- R367, R368, R373: a FRAME is copied with its arguments, those beyond NARGS 0, reserves a completion slot, and goes to the rank engine, which will
rank it with the program that stands now: it reaches the engine in the step that fetched it, which is the model's choice (log 59); arguments that do
not translate park the queue. -/
def Claims.Frames : Prop :=
  ∀ (s : State) (bs : List Byte) (at_ : Nat × Nat), Claims.PacketReady s bs at_ → bnat bs 0 1 = 1 →
    let n := s.cur.arg
    let q := s.queue n
    (∀ a, s.frameArgs q bs = .inl a → ∃ t, exec .frame s = .next t ∧ Claims.Parked s t n 0x0F a ∧ Claims.FetchedFrom s t n) ∧
    (∀ args, s.frameArgs q bs = .inr args → args.length = 16 ∧ (∀ i, bnat bs 17 1 ≤ i → lget args i 0 = 0) ∧
      ∃ t tl, exec .frame s = .next t ∧
        t.sched.rank.wait = s.sched.rank.wait ++
          [{ queue := n, bytes := bs, args := args, slot := q.run.nresv, prog := s.sched.rank.prog, tailed := tl }] ∧
        (t.queue n).run.resv = q.run.resv ++
          [{ idx := q.run.nresv, tgt := at_.1, pa := at_.2, wrote := false, isFrame := true, irq := bnat bs 1 1 % 2 = 1 }] ∧
        (t.queue n).run.nresv = (q.run.nresv + 1) % 2 ^ 17 ∧ (t.queue n).ring = q.taken.ring ∧ Claims.FetchedFrom s t n ∧ SameMemory s t)

/-- R370, R371: an INDIRECT opens its buffer as the next level; at four open levels it parks the queue with 0x0D, and for a buffer already open with 0x0E (0x0D
where both hold is the model's order, log 22). -/
def Claims.Indirects : Prop :=
  ∀ (s : State) (bs : List Byte) (at_ : Nat × Nat), Claims.PacketReady s bs at_ → bnat bs 0 1 = 2 →
    let n := s.cur.arg
    let q := s.queue n
    let buf := bnat bs 8 8
    let open_ : Prop := ∃ l, l < q.depth ∧ (lget q.pol.istart l 0).toNat = buf
    (q.depth = 4 → ∃ t, exec .indirect s = .next t ∧ Claims.Parked s t n 0x0D buf ∧ Claims.FetchedFrom s t n) ∧
    (q.depth ≠ 4 → open_ → ∃ t, exec .indirect s = .next t ∧ Claims.Parked s t n 0x0E buf ∧ Claims.FetchedFrom s t n) ∧
    (q.depth ≠ 4 → ¬ open_ → ∃ t, exec .indirect s = .next t ∧ (t.queue n).ring = q.ring ∧ lget (t.queue n).pol.istart q.depth 0 = BitVec.ofNat 48 buf ∧
      lget (t.queue n).pol.iidx q.depth 0 = 0 ∧ lget (t.queue n).run.counts q.depth 0 = bnat bs 16 4 ∧ (t.queue n).run.resv = q.run.resv ∧
      Claims.FetchedFrom s t n)

/-- R79: the home of target tgt keeps ARMED of the sync object at a: it holds the number of waits armed there, and no other byte has changed. -/
def Claims.KeepsArmed (s t : State) (tgt a : Nat) : Prop :=
  Memory.wf s.mem.hbm = true → t.gNat tgt (a + 8) 2 = t.armedCount tgt a % 65536 ∧
    ∀ b, b < a + 8 ∨ a + 10 ≤ b → t.gByte tgt b = s.gByte tgt b

/-- R79, R82, R366: a WAITV on an object in SP3 or HBM is taken, and its queue fetches no more until VERSION reaches VER, while the object's ARMED counts
the wait; the check lets the queue fetch again and counts it no more. An object that does not translate parks the queue, one behind PCIe makes
the word malformed. -/
def Claims.Waitvs : Prop :=
  (∀ (s : State) (bs : List Byte) (at_ : Nat × Nat), Claims.PacketReady s bs at_ → bnat bs 0 1 = 3 →
    let n := s.cur.arg
    let o := bnat bs 8 8
    let v := word (bnat bs 16 8)
    (∀ tgt a, (o / 2 ^ 62 = 1 ∧ tgt = 3 ∧ a = o % 2 ^ 48) ∨
        (o / 2 ^ 62 = 0 ∧ ∃ lf, s.translate (s.queue n).root true false o = .inr lf ∧ lf.tgt = 0 ∧ tgt = 0 ∧ a = lf.pa + (o - lf.va)) →
      ∃ t, exec .waitv s = .next t ∧ (t.queue n).ring = (s.queue n).taken.ring ∧ (t.queue n).run.resv = (s.queue n).run.resv ∧
        (t.queue n).run.waitv = (if v.toNat ≤ s.gNat tgt a 8 then (s.queue n).run.waitv else some (tgt, a, v)) ∧
        Claims.FetchedFrom s t n ∧ Claims.KeepsArmed s t tgt a) ∧
    (∀ lf, o / 2 ^ 62 = 0 → s.translate (s.queue n).root true false o = .inr lf → lf.tgt ≠ 0 →
      exec .waitv s = .next (((s.modQueue n fun q => (q.reserve at_.1 at_.2 false false).taken).writeRecord n (s.queue n).run.nresv
        (plainRecord (bnat bs 4 4) 3 3)).fetched n))) ∧
  (∀ (s : State) (bs : List Byte) (at_ : Nat × Nat) (x : Nat), Claims.PacketReady s bs at_ → bnat bs 0 1 = 3 → bnat bs 8 8 / 2 ^ 62 = 0 →
    s.translate (s.queue s.cur.arg).root true false (bnat bs 8 8) = .inl x →
    ∃ t, exec .waitv s = .next t ∧ Claims.Parked s t s.cur.arg 0x0F (bnat bs 8 8) ∧ Claims.FetchedFrom s t s.cur.arg) ∧
  (∀ (s : State) (tgt a : Nat) (v : Word), (s.queue s.cur.arg).run.waitv = some (tgt, a, v) →
    (v.toNat ≤ s.gNat tgt a 8 → ∃ t, exec .waitvSatisfied s = .next t ∧ (∀ m, m ≠ s.cur.arg → t.queue m = s.queue m) ∧
      t.queue s.cur.arg = { s.queue s.cur.arg with run := { (s.queue s.cur.arg).run with waitv := none } } ∧
      (tgt = 0 ∨ tgt = 3 → Claims.KeepsArmed s t tgt a)) ∧
    (s.gNat tgt a 8 < v.toNat → exec .waitvSatisfied s = .next s ∧ s.canFetch s.cur.arg = false))

/-- R366: a MARK reserves a slot; its record, with STATUS 4, is written at once when no FRAME fetched earlier lacks its own, and else waits for those that
do. -/
def Claims.Marks : Prop :=
  ∀ (s : State) (bs : List Byte) (at_ : Nat × Nat), Claims.PacketReady s bs at_ → bnat bs 0 1 = 4 →
    let n := s.cur.arg
    let q := s.queue n
    let waits := (q.run.resv.filter fun r => r.isFrame && !r.wrote).map fun r => r.idx
    let u := s.modQueue n fun q => (q.reserve at_.1 at_.2 false false).taken
    (waits = [] → exec .mark s = .next ((u.writeRecord n q.run.nresv (plainRecord (bnat bs 4 4) 4 0)).fetched n)) ∧
    (waits ≠ [] → ∃ t, exec .mark s = .next t ∧ (t.queue n).run.marks = q.run.marks ++ [(q.run.nresv, BitVec.ofNat 32 (bnat bs 4 4), waits)] ∧
      (t.queue n).run.nresv = (q.run.nresv + 1) % 2 ^ 17 ∧ (t.queue n).ring = q.taken.ring ∧ SameMemory s t)

/-- R364, R381: a record written into a reserved slot, where no sync object stands: its 32 bytes are at the slot's place in HBM, the slot has its record,
and CRTAIL passes the leading slots that have theirs. -/
def Claims.RecordsLand : Prop :=
  ∀ (s : State) (n idx : Nat) (ph : Bool) (r : Record) (v : Resv), (s.queue n).run.resv.find? (fun x => x.idx = idx) = some v → v.tgt = 0 →
    Memory.wf s.mem.hbm = true → s.armedAt 0 v.pa 32 = [] → (∀ i, i < 32 → ¬ Claims.keptArmed s 0 (v.pa + i)) →
    (s.queue n).run.resv.Pairwise (fun x y => x.idx ≠ y.idx) →
    let t := s.putRecord n idx ph r
    (∀ i, i < 32 → t.gByte 0 (v.pa + i) = lget (r.bytes ph) i 0) ∧
    (∀ a, a < v.pa ∨ v.pa + 32 ≤ a → t.gByte 0 a = s.gByte 0 a) ∧ (∀ x ∈ (t.queue n).run.resv, x.idx = idx → x.wrote = true) ∧
    (∀ x rest, (s.queue n).run.resv = x :: rest → x.idx = idx → (∀ y ∈ rest, y.wrote = false) →
      (t.queue n).ring.crtail = (s.queue n).ring.crtail + 1 ∧ (t.queue n).run.resv = rest)

/-- R383: when the coalescing time is over a queue with IRQEN set and unreported records raises its interrupt, and has none then; one with none, or with
IRQEN clear, does nothing. -/
def Claims.Coalescing : Prop :=
  ∀ (s : State),
    let n := s.cur.arg
    let q := s.queue n
    (q.run.unrep = 0 ∨ q.pol.irqen = false → exec .coaltExpiry s = .next s) ∧
    (q.run.unrep ≠ 0 → q.pol.irqen = true → ∃ t, exec .coaltExpiry s = .next t ∧ t.queue n = { q with run := { q.run with unrep := 0 } } ∧
      (q.pol.owner = false → t.io.outs = s.io.outs ++ [.irq false q.pol.vec.toNat]) ∧ SameMemory s t)

/-! ## Ranks and the PIFO (R372 to R376) -/

/-- R372, R373: each rank instruction that computes leaves its value in qd, the other registers as they were, and goes to the next slot one cycle on;
nothing outside the rank engine changes. -/
def Claims.RankInstructions : Prop :=
  ∀ (s : State) (d a b : BitVec 3) (imm : BitVec 19) (sh : BitVec 5),
    let x := s.rq a
    let y := s.rq b
    let serial (p q : BitVec 30) : BitVec 30 := if (p - q).toNat < 2 ^ 29 then p else q
    ∀ r ∈ ([(.rankLdi d imm, BitVec.ofNat 32 imm.toNat), (.rankAdd d a b, x + y), (.rankSub d a b, x - y),
            (.rankMulsh d a b sh, BitVec.ofNat 32 (min (x.toNat * y.toNat / 2 ^ sh.toNat) (2 ^ 32 - 1))),
            (.rankShl d a sh, BitVec.ofNat 32 (x.toNat * 2 ^ sh.toNat)), (.rankShr d a sh, BitVec.ofNat 32 (x.toNat / 2 ^ sh.toNat)),
            (.rankMin d a b, BitVec.ofNat 32 (min x.toNat y.toNat)),
            (.rankSmax d a b, (serial (x.setWidth 30) (y.setWidth 30)).setWidth 32),
            (.rankAnd d a b, x &&& y), (.rankOr d a b, x ||| y), (.rankSltu d a b, if x.toNat < y.toNat then 1 else 0)] : List (Instr × BitVec 32)),
      ∃ t, exec r.1 s = .next t ∧ t.rq d = r.2 ∧ (∀ q, q ≠ d → t.rq q = s.rq q) ∧ t.sched.rank.slot = s.sched.rank.slot + 1 ∧
        t.sched.rank.next = s.tide + 1 ∧ t = { s with sched := { s.sched with rank := t.sched.rank } } ∧ t.sched.rank.cur = s.sched.rank.cur ∧
        t.sched.rank.stq = s.sched.rank.stq ∧ t.sched.rank.result = s.sched.rank.result

/-- R372: LDF takes LEN + 1 bits at POS of a word of the packet, of the queue's context, or of the specials; STQ keeps qa, as it is at STQ's own execution
(log 76), for QSTATE; END stops the program with qa as the rank, and QSTATE takes what was kept. -/
def Claims.RankLoadsAndEnds : Prop :=
  ∀ (s : State) (f : Frame) (d a src : BitVec 3) (wd : BitVec 6) (pos len : BitVec 5), s.sched.rank.cur = some f →
    let q := s.queue f.queue
    let special : List (BitVec 32) := [s.sched.vnow.setWidth 32, q.pol.qstate, BitVec.ofNat 32 f.queue, BitVec.ofNat 32 (s.tide / 2 ^ 10)]
    let w : BitVec 32 := if src = 0 then BitVec.ofNat 32 (bnat f.bytes (4 * wd.toNat) 4)
      else if src = 1 then (q.word (wd.toNat / 2)).extractLsb' (32 * (wd.toNat % 2)) 32 else lget special wd.toNat 0
    (∃ t, exec (.rankLdf d src wd pos len) s = .next t ∧ t.rq d = BitVec.ofNat 32 (w.toNat / 2 ^ pos.toNat % 2 ^ (len.toNat + 1)) ∧
      (∀ r, r ≠ d → t.rq r = s.rq r) ∧ t.sched.rank.slot = s.sched.rank.slot + 1) ∧
    (∃ t, exec (.rankStq a) s = .next t ∧ t.sched.rank.stq = some (s.rq a) ∧ t.sched.rank.slot = s.sched.rank.slot + 1 ∧ (∀ r, t.rq r = s.rq r) ∧
      ∀ m, t.queue m = s.queue m) ∧
    (∃ t, exec (.rankEnd a) s = .next t ∧ t.sched.rank.result = some (s.rq a) ∧ (∀ m, m ≠ f.queue → t.queue m = s.queue m) ∧
      t.queue f.queue = { q with pol := { q.pol with qstate := s.sched.rank.stq.getD q.pol.qstate } } ∧ ∀ r, t.rq r = s.rq r)

/-- R374, R376, R384: the FRAME whose program has stopped enters the PIFO behind every entry that its rank does not precede and before the first that it
does. A rank precedes another of a higher class, or of the same class with a later serial number; one that would precede the queue's last takes
the last's place. A pop takes the first entry of a class that CLASSEN enables and whose weight is not 0. -/
def Claims.RanksInsert : Prop :=
  (∀ (x y : BitVec 32), precedes x y = true ↔ x.toNat / 2 ^ 30 < y.toNat / 2 ^ 30 ∨
    (x.toNat / 2 ^ 30 = y.toNat / 2 ^ 30 ∧ 2 ^ 29 ≤ (x.toNat % 2 ^ 30 + 2 ^ 30 - y.toNat % 2 ^ 30) % 2 ^ 30)) ∧
  (∀ (s : State) (f : Frame) (r : BitVec 32), s.sched.rank.cur = some f → s.sched.rank.result = some r →
    let q := s.queue f.queue
    let rank := match q.run.last with | some l => if precedes r l then l else r | none => r
    let e : PifoEntry := { rank := rank, frame := f, arr := s.sched.rank.arrivals }
    (Config.pifoDepth ≤ s.sched.pifo.length → exec .rank s = .next s) ∧
    (s.sched.pifo.length < Config.pifoDepth → ∃ t xs ys, exec .rank s = .next t ∧ s.sched.pifo = xs ++ ys ∧ t.sched.pifo = xs ++ e :: ys ∧
      (∀ x ∈ xs, precedes rank x.rank = false) ∧ (∀ y z, ys = y :: z → precedes rank y.rank = true) ∧ t.sched.rank.cur = none ∧
      t.sched.rank.arrivals = s.sched.rank.arrivals + 1 ∧ t.queue f.queue = { q with run := { q.run with last := some rank } })) ∧
  (∀ (s : State), s.sched.rank.cur = none ∨ s.sched.rank.result = none → exec .rank s = .next s) ∧
  ∀ (s : State), s.sched.popHead = s.sched.pifo.find? fun e =>
    s.sched.classen.getLsbD (e.rank.toNat / 2 ^ 30) && decide (lget s.sched.classw (e.rank.toNat / 2 ^ 30) 0 ≠ 0)

/-- R373: a staged program is loaded when all its slots decode and one holds an END; else LDERR is set and the program in force stands. A FRAME is ranked by
the program in force when it reached the engine, which is in the step that fetched it (the model's choice, log 59). -/
def Claims.RankPrograms : Prop :=
  (∀ (r : RankEngine) (f : Frame) (l : List Frame), r.wait = f :: l → r.begin_.cur = some f ∧ r.begin_.curProg = f.prog ∧ r.begin_.wait = l ∧
    r.begin_.slot = 0 ∧ r.begin_.result = none ∧ (∀ q, q < 8 → lget r.begin_.q q 0 = 0)) ∧
  ∀ (s : State),
    let is := s.sched.rank.staged.map decodeRank
    let good : Prop := (∀ i ∈ is, i ≠ none) ∧ ∃ q, some (.rankEnd q) ∈ is
    (good → exec .rankctlLoad s = .next (s.modRank fun r => { r with prog := r.staged })) ∧
    (¬ good → exec .rankctlLoad s = .next (s.modRank fun r => { r with lderr := true }))

/-! ## The group table, dispatch and triggers (R377 to R379, R385) -/

/-- R362, R377: an entry of the group table that no ARMED or RUNNING record uses takes its write, unless a core would stand in a fifth valid entry; else GTERR
is set. Only the Pilot firmware writes the table. -/
def Claims.GroupWrites : Prop :=
  (∀ n, State.reset.group n = (false, 0)) ∧
  ∀ (s : State) (who : Party) (n : Nat) (v : Word),
    let cores : BitVec 24 := v.setWidth 24
    let used : Prop := ∃ b ∈ s.sched.berths, (b.state = 1 ∨ b.state = 2) ∧ b.group.toNat = n
    let fifth : Prop := v.getLsbD 63 = true ∧ ∃ k, k < 24 ∧ cores.getLsbD k = true ∧
      4 ≤ ((List.range 256).filter fun i => i != n && (s.group i).1 && (s.group i).2.getLsbD k).length
    (who ≠ .pilot ∨ 256 ≤ n → exec (.groupTableWrite who n v) s = .next s) ∧
    (who = .pilot → n < 256 → used ∨ fifth →
      exec (.groupTableWrite who n v) s = .next { s with sched := { s.sched with gterr := true } }) ∧
    (who = .pilot → n < 256 → ¬ used → ¬ fifth → ∃ t, exec (.groupTableWrite who n v) s = .next t ∧ t.group n = (v.getLsbD 63, cores) ∧
      (∀ m, m ≠ n → t.group m = s.group m) ∧ t.sched.gterr = s.sched.gterr ∧ t.cores = s.cores ∧ SameMemory s t) ∧
    (n < 256 → s.fleet.recovery = false →
      s.readReg who (0x10100 + 8 * n) = word ((if (s.group n).1 then 2 ^ 63 else 0) + (s.group n).2.toNat))

/-- R379, R381: dispatch refuses a record with reason 11 for a group that is not valid or has not MEMBERS cores, 12 for a core out of service, 13
for one that another live record uses, 14 for a save area whose KIND is 0 or whose REV is another part's, in this order; the record is DONE with
END 3, and no core changes. -/
def Claims.DispatchRefuses : Prop :=
  ∀ (s : State),
    let berth := s.cur.arg
    let b := s.bind berth
    let g := s.group b.group.toNat
    let cores := coresOf g.2
    let bad11 : Prop := g.1 = false ∨ cores.length ≠ b.members.toNat
    let bad12 : Prop := ∃ k ∈ cores, s.sched.failed.getLsbD k = true
    let bad13 : Prop := ∃ k ∈ cores, k ∈ s.busyCores berth
    let bad14 : Prop := b.restore = true ∧ (s.gNat 0 (b.savepa.toNat * 4096) 4 = 0 ∨ s.gNat 0 (b.savepa.toNat * 4096 + 5) 1 ≠ Config.siliconRev)
    let refused (n : Nat) : Prop := ∃ t, exec .armed s = .next t ∧ (t.bind berth).state = 3 ∧ (t.bind berth).end_ = 3 ∧
      (t.bind berth).reason = BitVec.ofNat 8 n ∧ t.cores = s.cores ∧ t.gangs = s.gangs
    (b.state ≠ 1 → exec .armed s = .next s) ∧
    (b.state = 1 → (bad11 → refused 11) ∧ (¬ bad11 → bad12 → refused 12) ∧ (¬ bad11 → ¬ bad12 → bad13 → refused 13) ∧
      (¬ bad11 → ¬ bad12 → ¬ bad13 → bad14 → refused 14))

/-- R23, R357, R361: dispatch launches a record that is not refused: its gang has the group's cores, the lowest the origin, and starts at a later T0; each member has
its registers 0, its image's entry point, descriptors and score, and its hop count. -/
def Claims.DispatchLaunches : Prop :=
  ∀ (s : State) (ls : List Load),
    let berth := s.cur.arg
    let b := s.bind berth
    let im := s.imageOf berth
    let cores := coresOf (s.group b.group.toNat).2
    b.state = 1 → s.armReason berth = 0 → b.restore = false → imgLoads im b.args = some ls → ls.length = cores.length →
      ∃ t n, exec .armed s = .next t ∧ s.tide < n ∧ (t.bind berth).state = 2 ∧ (t.bind berth).t0 = word n ∧
        (∃ g, t.gangs = s.gangs ++ [g] ∧ g.berth = berth ∧ g.members = cores ∧ g.origin = cores.headD 0 ∧ g.t0 = n ∧ g.started = false ∧
          g.hold = none ∧ g.nsave = 0) ∧
        (∀ k, k ∉ cores → t.core k = s.core k) ∧
        ∀ i k, cores[i]? = some k →
          let c := t.core k
          c.run.berth = some berth ∧ c.run.member = i ∧ c.run.hop = hops (cores.headD 0) k ∧ c.run.started = false ∧ c.run.g = 0 ∧
          c.seq.pc = BitVec.ofNat 18 (imgEntry im i) ∧ (∀ r, c.seq.reg r = 0) ∧ (∀ r l, lget (lget c.vec.v r []) l 0 = 0) ∧
          (∀ l, ls[i]? = some l → c.descs = l.descs) ∧ c.mem.score = imgScore im i ∧ c.snap = none ∧ c.pend = []

/-- R162, R387: dispatch restores the gang whose save the area holds, wherever the area lies now: every member has the sequencer, vector and matrix state,
descriptors, channels and queues that were saved, at the gang cycle of its save, and its SP1 from the save area; after a forced save it stands until
the release wave. From an area that holds no save of this part for the image the gang starts anew, as if RESTORE were clear (log 10). -/
def Claims.DispatchRestores : Prop :=
  (∀ (s : State),
    let berth := s.cur.arg
    let b := s.bind berth
    b.state = 1 → s.armReason berth = 0 → b.restore = true → s.saveFor (b.savepa.toNat * 4096) (s.imageOf berth) = none →
      exec .armed s = .next (s.launch berth)) ∧
  ∀ (s : State) (sv : Saved),
    let berth := s.cur.arg
    let b := s.bind berth
    let cores := coresOf (s.group b.group.toNat).2
    b.state = 1 → s.armReason berth = 0 → b.restore = true → s.saveFor (b.savepa.toNat * 4096) (s.imageOf berth) = some sv → sv.rb = none →
      ∃ t, exec .armed s = .next t ∧ (t.bind berth).state = 2 ∧ (t.bind berth).restcyc = BitVec.ofNat 32 (s.startCycle - s.tide) ∧
        (∃ g, t.gangs = s.gangs ++ [g] ∧ g.berth = berth ∧ g.members = cores ∧ g.started = false ∧ g.nsave = sv.gang.nsave) ∧
        ∀ (i k : Nat) (m : SavedMember), cores[i]? = some k → sv.mems[i]? = some m →
          let c := t.core k
          c.seq = m.core.seq ∧ c.sh = m.core.sh ∧ c.vec = m.core.vec ∧ c.mtx = m.core.mtx ∧ c.descs = m.core.descs ∧ c.chans = m.core.chans ∧
          c.engs = m.core.engs ∧ c.snap = m.core.snap ∧ c.run.g = m.core.run.g ∧ c.run.berth = some berth ∧ c.run.member = i ∧
          c.modes.forced = decide (sv.kind = 2) ∧ (c.run.stop.isSome = true ↔ sv.kind = 2) ∧
          (∀ n a, m.sp1s = [(0, n)] → a < n → mread c.mem.sp1 a = mread s.mem.hbm (sp1Image (b.savepa.toNat * 4096) i + a))

/-- R29, R158, R378, R379: the triggers of a bind record act on the gang of a RUNNING record and on no other: an abort with reason 5; the end of a Pilot hold; a
request to yield, made once, at a gang cycle that is the model's free choice (log 6). -/
def Claims.Triggers : Prop :=
  ∀ (s : State),
    let berth := s.cur.arg
    ((s.bind berth).state ≠ 2 ∨ s.gang berth = none → ∀ i ∈ ([.abort, .hold, .bindRelease, .bindYieldreq] : List Instr), exec i s = .next s) ∧
    (∀ g, (s.bind berth).state = 2 → s.gang berth = some g →
      (∃ t, exec .abort s = .next t ∧ Claims.Aborted g 5 t) ∧
      (∃ t, exec .bindRelease s = .next t ∧ t.cores = s.cores ∧
        t.gang berth = some { g with hold := g.hold.map fun h => { h with srcs := h.srcs.map fun x =>
          if x.cause = 3 ∧ x.ended = none then { x with ended := some (s.tide + 2 * (s.core x.core).run.hop) } else x }, holdAsked := false }) ∧
      (g.y ≠ none → exec .bindYieldreq s = .next s) ∧
      (g.y = none → s.sliceOver g = false → ∃ t, exec .bindYieldreq s = .next t ∧ t.gang berth = some { g with yieldAsked := true } ∧ t.cores = s.cores) ∧
      (g.y = none → s.sliceOver g = true → ∃ t y, exec .bindYieldreq s = .next t ∧ (s.core g.origin).run.g ≤ y ∧ t.gang berth = some { g with yieldAsked := false, y := some y } ∧ t.cores = s.cores))

/-- R29, R378: a Pilot hold: the origin of a gang that runs stops as a source, and a wave leaves for every other member; at a stop it becomes a source of
the hold in force, once, and while its release is on its way the hold is kept for the origin's next cycle. What it does at a stop is the model's
choice, since R30 says that a stopped member is no new source (log 61). -/
def Claims.PilotHolds : Prop :=
  ∀ (s : State) (g : Gang),
    let berth := s.cur.arg
    let o := s.core g.origin
    (s.bind berth).state = 2 → s.gang berth = some g → o.run.berth = some berth →
    (o.run.stop = none → ∃ t st h, exec .hold s = .next t ∧ (t.core g.origin).run.stop = some st ∧ st.source = true ∧
      (∃ g', t.gang berth = some g' ∧ g'.hold = some h ∧ g'.members = g.members) ∧
      (∃ x ∈ h.srcs, x.core = g.origin ∧ x.cause = 3 ∧ x.ended = none ∧ x.stopN = s.tide) ∧ (∀ k ∈ g.members, k ≠ g.origin → ∃ w ∈ h.waves, w.1 = k) ∧
      ∀ k, k ≠ g.origin → t.core k = s.core k) ∧
    (∀ st h, o.run.stop = some st → g.hold = some h → (∃ x ∈ h.srcs, x.cause = 3 ∧ x.ended = none) →
      ∃ t, exec .hold s = .next t ∧ t.cores = s.cores ∧ t.gang berth = some { g with holdAsked := false }) ∧
    (∀ st, o.run.stop = some st → (∀ h, g.hold = some h → ∀ x ∈ h.srcs, x.cause = 3 → x.ended ≠ none) → st.until_ ≠ none →
      ∃ t, exec .hold s = .next t ∧ t.cores = s.cores ∧ t.gang berth = some { g with holdAsked := true }) ∧
    (∀ st h, o.run.stop = some st → g.hold = some h → (∀ x ∈ h.srcs, x.cause = 3 → x.ended ≠ none) → st.until_ = none →
      ∃ t g' h', exec .hold s = .next t ∧ t.cores = s.cores ∧ t.gang berth = some g' ∧ g'.hold = some h' ∧ h'.waves = h.waves ∧
        ∃ x, h'.srcs = h.srcs ++ [x] ∧ x.core = g.origin ∧ x.cause = 3 ∧ x.ended = none)

/-! ## Device registers (R11, R64, R390, R391, R397, R400) -/

/-- R64: a word of an aperture takes the fields that it has; a KIND or a BFMT that is reserved leaves the aperture as it was. -/
def Claims.ApertureWrites : Prop :=
  ∀ (s : State) (n : BitVec 4) (k : BitVec 2) (v : Word),
    let bad : Prop := k = 0 ∧ (v.extractLsb' 61 2 = 3 ∨ v.extractLsb' 57 2 = 3)
    (bad → exec (.aper n k v) s = .next s) ∧
    (¬ bad → ∃ t, exec (.aper n k v) s = .next t ∧ lget (lget t.apers n.toNat []) k.toNat 0 = v &&& aperMask k.toNat ∧
      (∀ m j, m ≠ n.toNat ∨ j ≠ k.toNat → lget (lget t.apers m []) j 0 = lget (lget s.apers m []) j 0) ∧ t.cores = s.cores ∧ SameMemory s t)

/-- R11, R362, R384, R391, R397, R405: writes of device registers: a part in recovery takes none; a misaligned offset changes nothing (the
model's choice, log 22), nor does another party than the Pilot firmware in the scheduler's registers, the windows, the core control blocks and
Pilot control; the Pilot firmware's writes set what the register holds, and SIGSET reads the signals that it can set. A system register of a
core, which an offset beyond the space names (log 96), takes the write of the Pilot firmware, PRW fields among it, or of the timetable; from any
other party it does not. -/
def Claims.RegisterWrites : Prop :=
  ∀ (s : State) (who : Party) (off : Nat) (v : Word),
    (s.fleet.recovery = true → off < 0x4000000 → exec (.registerWrite who off v) s = .next s) ∧
    (off % 4 ≠ 0 → off < 0x4000000 → exec (.registerWrite who off v) s = .next s) ∧
    (∀ k n, k < 24 → n < 0x1000 →
      (who = .host ∨ who = .external → exec (.registerWrite who (coreReg k n) v) s = .next s) ∧
      (¬ (0x031 ≤ n ∧ n < 0x035) → exec (.registerWrite .timetable (coreReg k n) v) s =
        .next (if 0x080 ≤ n ∧ n < 0x0C0 then s else s.modCore k fun c => c.sysWrite n v)) ∧
      (∃ t, exec (.registerWrite .pilot (coreReg k 0x006) v) s = .next t ∧ (t.core k).modes.pdl = v.extractLsb' 32 32) ∧
      (∃ t, exec (.registerWrite .pilot (coreReg k 0x007) v) s = .next t ∧ (t.core k).modes.retrymax = v.extractLsb' 40 4) ∧
      (∃ t, exec (.registerWrite .pilot (coreReg k 0x011) v) s = .next t ∧ (t.core k).mtx.ckmin = v.extractLsb' 30 2) ∧
      ∃ t, exec (.registerWrite .pilot (coreReg k 0x013) v) s = .next t ∧ (t.core k).mtx.eiEn = v.getLsbD 62) ∧
    (s.fleet.recovery = false → ∀ k, k < 4 → s.readReg who (0x50040 + 8 * k) = if who = .pilot then s.sigpend k &&& 0xFF000000 else 0) ∧
    (who ≠ .pilot → (0x10000 ≤ off ∧ off < 0x14000) ∨ (0x30000 ≤ off ∧ off < 0x31000) ∨ (0x40000 ≤ off ∧ off < 0x41800) ∨ (0x50000 ≤ off ∧ off < 0x50060) →
      exec (.registerWrite who off v) s = .next s) ∧
    (s.fleet.recovery = false →
      (∀ c, c < 4 → ∃ t, exec (.registerWrite .pilot (0x10000 + 8 * c) v) s = .next t ∧ lget t.sched.slice c 0 = v.setWidth 32 ∧
        (v.toNat % 2 ^ 32 < 2 * s.sched.savecost.toNat → t.sched.clamp.getLsbD c = true)) ∧
      (∃ t, exec (.registerWrite .pilot 0x10048 v) s = .next t ∧ t.sched.savecost = v.setWidth 32) ∧
      (∃ t, exec (.registerWrite .pilot 0x10058 v) s = .next t ∧ t.sched.vnow = v.setWidth 30) ∧
      (∃ t, exec (.registerWrite .pilot 0x10060 v) s = .next t ∧ t.sched.classen = v.setWidth 4) ∧
      (∃ t, exec (.registerWrite .pilot 0x100C0 v) s = .next t ∧ t.sched.failed = v.setWidth 24) ∧
      (∀ j, j < 16 → ∃ t, exec (.registerWrite .pilot (0x10080 + 4 * j) v) s = .next t ∧ lget t.sched.rank.staged j 0 = v.setWidth 32 ∧
        t.sched.rank.prog = s.sched.rank.prog) ∧
      (∀ n, n < 256 → exec (.registerWrite .pilot (0x10100 + 8 * n) v) s = exec (.groupTableWrite .pilot n v) s) ∧
      (∀ n, n < 256 → Claims.MayWrite (s.queue n) who → ∃ t, exec (.registerWrite who (0x14000 + 128 * n + 40) v) s = .next t ∧
        (t.queue n).pol.weight = v.extractLsb' 8 8 ∧ (t.queue n).pol.cls = v.setWidth 2 ∧ (t.queue n).pol.owner = v.getLsbD 32 ∧
        (t.queue n).ring = (s.queue n).ring) ∧
      (∃ t, exec (.registerWrite .pilot 0x30000 v) s = .next t ∧ t.io.obbase = v) ∧
      (∀ k, k < 4 → ∃ t, exec (.registerWrite .pilot (0x50040 + 8 * k) v) s = .next t ∧
        (t.pcore k).sigpend = (s.pcore k).sigpend ||| (v &&& 0xFF000000)))

/-- R397, R400, R425: a doorbell that the mailbox's owner rings sets DOORBELL and raises the mailbox's signal at every Pilot core; one rung already, by another
party, or in a part in recovery, changes nothing. -/
def Claims.MailboxDoorbells : Prop :=
  ∀ (s : State),
    let m := s.cur.arg
    let mine : Prop := s.fleet.recovery = false ∧ m < 16 ∧ s.cur.who = (if (s.mbox m).owner then .external else .host)
    (¬ mine ∨ (s.mbox m).door = true → exec .doorbell s = .next s) ∧
    (mine → (s.mbox m).door = false → ∃ t, exec .doorbell s = .next t ∧ t.mbox m = { s.mbox m with door := true } ∧
      (∀ n, n ≠ m → n ≠ 16 → t.mbox n = s.mbox n) ∧ t.pilot.cores = s.pilot.cores.map fun c => { c with sigpend := c.sigpend ||| BitVec.ofNat 64 (2 ^ (m + 1)) })

/-- R412, R425: XTSCAP by a party that drives the ports, of a part not in recovery, takes TIDE and the PTP clock on one cycle. -/
def Claims.CrossTimestamps : Prop :=
  ∀ (s : State),
    (s.fleet.recovery = false → s.cur.who = .host ∨ s.cur.who = .pilot → ∃ t, exec .xtscap s = .next t ∧ t.io.ptp.xtstide = word s.tide ∧
      t.io.ptp.xtsptp = word (2 ^ 30 * (s.io.ptp.sec.toNat % 2 ^ 32) + s.io.ptp.ns.toNat) ∧ t.io.ptp.sec = s.io.ptp.sec ∧ t.io.ptp.ns = s.io.ptp.ns) ∧
    (s.fleet.recovery = true ∨ s.cur.who = .external ∨ s.cur.who = .timetable → exec .xtscap s = .next s)

/-- R413, R425: TAIL and RUN of one of the 16 decoder engines; a number beyond them names none, and a part in recovery takes neither. -/
def Claims.DecoderRegisters : Prop :=
  ∀ (s : State) (e : Nat) (v : BitVec 8) (run : Bool),
    (16 ≤ e ∨ s.fleet.recovery = true → exec (.decoderTail e v) s = .next s ∧ exec (.decoderRun e run) s = .next s) ∧
    (e < 16 → s.fleet.recovery = false → (∃ t, exec (.decoderTail e v) s = .next t ∧ t.dec e = { s.dec e with tail := v } ∧ ∀ d, d ≠ e → t.dec d = s.dec d) ∧
      ∃ t, exec (.decoderRun e run) s = .next t ∧ (t.dec e).run = run ∧ (t.dec e).head = (s.dec e).head ∧ (t.dec e).tail = (s.dec e).tail ∧
        ∀ d, d ≠ e → t.dec d = s.dec d)

/-! ## Mailbox commands (R400, R401) -/

/-- A mailbox holds a request with OPC `opc` that the Pilot firmware has taken and not answered, and that nothing has written over. -/
def Claims.RequestAt (s : State) (opc : Nat) : Prop :=
  let m := s.cur.arg
  (s.mbox m).busy = true ∧ m ∉ s.pilot.fw.serving ∧ s.fleet.test.mbox ≠ some m ∧ bnat (s.mbox m).req 0 2 = opc ∧ (s.mbox m).clash = false

/-- R401: the response to the request in the mailbox of the step: its TAG, a status, and data from byte 8; DONE is due. -/
def Claims.Answered (s t : State) (status : Nat) : Prop :=
  let m := s.cur.arg
  (t.mbox m).resp.length = 64 ∧ bnat (t.mbox m).resp 0 2 = bnat (s.mbox m).req 2 2 ∧ bnat (t.mbox m).resp 2 2 = status ∧
  bnat (t.mbox m).resp 4 4 = 0 ∧ m ∈ t.pilot.fw.serving ∧ (t.mbox m).req = (s.mbox m).req

/-- R400, R401: a command is served only on a request that carries its OPC and has been taken; a request that was written over is answered with
status 3. -/
def Claims.CommandsServed : Prop :=
  ∀ (s : State) (opc : Nat) (i : Instr),
    (opc, i) ∈ ([(1, .groupSet), (2, .aperSet), (3, .layerSet), (4, .berthCtl), (5, .grantSet), (6, .peerwinSet), (7, .powerCap), (8, .selfTest),
      (9, .rasRead)] : List (Nat × Instr)) →
    let m := s.cur.arg
    ((s.mbox m).busy = false ∨ m ∈ s.pilot.fw.serving ∨ s.fleet.test.mbox = some m ∨ bnat (s.mbox m).req 0 2 ≠ opc → exec i s = .next s) ∧
    ((s.mbox m).busy = true → m ∉ s.pilot.fw.serving → s.fleet.test.mbox ≠ some m → bnat (s.mbox m).req 0 2 = opc → (s.mbox m).clash = true →
      (s.mbox m).req.length = 64 → ∃ t, exec i s = .next t ∧ Claims.Answered s t 3 ∧ t.sched = s.sched ∧ t.io = s.io ∧ t.cores = s.cores)

/-- R64, R133, R378, R401, R405, R408, R434: what each command does on good arguments, with status 0, and that bad arguments change nothing and answer with
status 2. That a reserved KIND or a nonzero RES0 is a bad argument, and that RAS_READ gives an entry's first 56 bytes, is the model's choice
(log 62). -/
def Claims.CommandsAct : Prop :=
  ∀ (s : State),
    let req := (s.mbox s.cur.arg).req
    let a := bnat req 8 1
    let v (k : Nat) : Word := argWord req k
    let bad (i : Instr) : Prop := ∃ t, exec i s = .next t ∧ Claims.Answered s t 2 ∧ t.sched = s.sched ∧ t.io = s.io ∧ t.apers = s.apers ∧
      t.builders = s.builders ∧ t.gangs = s.gangs ∧ t.fleet = s.fleet
    req.length = 64 →
    (Claims.RequestAt s 1 →
      (bnat req 9 7 ≠ 0 → bad .groupSet) ∧
      (bnat req 9 7 = 0 → s.groupInUse a = false → s.fifthGroup a ((v 0).getLsbD 63) ((v 0).setWidth 24) = false →
        ∃ t, exec .groupSet s = .next t ∧ Claims.Answered s t 0 ∧ t.group a = ((v 0).getLsbD 63, (v 0).setWidth 24))) ∧
    (Claims.RequestAt s 2 →
      let good : Prop := a < 16 ∧ bnat req 9 7 = 0 ∧ (v 0).extractLsb' 61 2 ≠ 3 ∧ (v 0).extractLsb' 57 2 ≠ 3
      (¬ good → bad .aperSet) ∧
      (good → ∃ t, exec .aperSet s = .next t ∧ Claims.Answered s t 0 ∧ ∀ k, k < 4 → lget (lget t.apers a []) k 0 = v k &&& aperMask k)) ∧
    (Claims.RequestAt s 3 →
      let good : Prop := a < 6 ∧ bnat req 9 1 < 64 ∧ bnat req 10 1 < 2 ∧ bnat req 11 5 = 0
      (¬ good → bad .layerSet) ∧
      (good → ∃ t, exec .layerSet s = .next t ∧ Claims.Answered s t 0 ∧ t.sched = s.sched ∧ t.cores = s.cores ∧
        (∀ c, c ≠ a → t.builder c = s.builder c) ∧
        let ws := lget (t.builder a).slots (bnat req 9 1) []
        (∀ k, k < 3 → lget ws k 0 = v k &&& slotMask k) ∧
        lget ws 3 0 = (v 3 &&& 0x8000000000000000) ||| (if bnat req 10 1 = 1 then 0x4000000000000000 else 0))) ∧
    (Claims.RequestAt s 4 →
      let good : Prop := a < 32 ∧ bnat req 9 1 < 4
      (¬ good → bad .berthCtl) ∧
      (∀ j, good → bnat req 9 1 = j → ∃ t, exec .berthCtl s = .next t ∧ Claims.Answered s t 0 ∧
        t.gangs = (s.writeBind a 8 (word (lget [2, 4, 8, 1] j 0))).gangs) ∧
      (∀ g, good → bnat req 9 1 = 2 → (s.bind a).state = 2 → s.gang a = some g →
        ∃ t, exec .berthCtl s = .next t ∧ Claims.Answered s t 0 ∧ Claims.Aborted g 5 t)) ∧
    (Claims.RequestAt s 5 →
      (8 ≤ a ∨ bnat req 9 7 ≠ 0 → bad .grantSet) ∧
      (a < 8 → bnat req 9 7 = 0 → ∃ t, exec .grantSet s = .next t ∧ Claims.Answered s t 0 ∧
        lget t.io.grants a Grant.zero = { valid := (v 0).getLsbD 63, w := (v 0).getLsbD 62, base := (v 0).extractLsb' 12 36, limit := (v 1).extractLsb' 12 36 } ∧
        ∀ n, n ≠ a → lget t.io.grants n Grant.zero = lget s.io.grants n Grant.zero)) ∧
    (Claims.RequestAt s 6 →
      (8 ≤ a ∨ bnat req 9 7 ≠ 0 → bad .peerwinSet) ∧
      (a < 8 → bnat req 9 7 = 0 → ∃ t, exec .peerwinSet s = .next t ∧ Claims.Answered s t 0 ∧
        lget t.io.peers a PeerWin.zero = { valid := (v 0).getLsbD 63, rd := (v 0).getLsbD 62, w := (v 0).getLsbD 61, anyrid := (v 0).getLsbD 60
                                           space := (v 0).getLsbD 59, rid := (v 0).setWidth 16, base := (v 1).extractLsb' 32 32, count := (v 1).setWidth 32 } ∧
        ∀ n, n ≠ a → lget t.io.peers n PeerWin.zero = lget s.io.peers n PeerWin.zero)) ∧
    (Claims.RequestAt s 7 →
      let w := bnat req 8 2
      (w < 75 ∨ 200 < w → bad .powerCap) ∧
      (75 ≤ w → w ≤ 200 → ∃ t, exec .powerCap s = .next t ∧ Claims.Answered s t 0 ∧ t.fleet = { s.fleet with cap := w, fresh := max 1 s.fleet.fresh })) ∧
    (Claims.RequestAt s 8 →
      let busy : Prop := s.fleet.test.level ≠ 0 ∨ s.fleet.update ≠ none ∨ s.fleet.recovery = true
      (busy → ∃ t, exec .selfTest s = .next t ∧ Claims.Answered s t 3 ∧ t.fleet = s.fleet) ∧
      (¬ busy → a = 0 ∨ 2 < a → bad .selfTest) ∧
      (¬ busy → a = 1 ∨ a = 2 → ∃ t, exec .selfTest s = .next t ∧ t.fleet.test.level = a ∧ t.fleet.test.mbox = some s.cur.arg ∧ t.fleet.test.lamp = 1 ∧
        (∀ k, k ∈ t.fleet.test.todo ↔ k < 24 ∧ s.sched.failed.getLsbD k = false) ∧ t.fleet.test.decs = List.range 16 ∧
        (t.mbox s.cur.arg) = s.mbox s.cur.arg ∧
        (a = 2 → t.pilot.fw.taking = false))) ∧
    (Claims.RequestAt s 9 →
      let i := bnat req 8 4
      ((∀ e ∈ s.fleet.ras, e.seq = i → s.tide < e.ready) → bad .rasRead) ∧
      (∀ e, (s.fleet.ras.find? fun e => e.seq = i && e.ready ≤ s.tide) = some e → ∃ t, exec .rasRead s = .next t ∧ Claims.Answered s t 0 ∧
        (t.mbox s.cur.arg).resp.drop 8 = e.bytes.take 56 ∧ (∀ x ∈ t.fleet.ras, x.seq = i → x.read = true) ∧ t.fleet.ras.length = s.fleet.ras.length))

/-- R383, R400, R401: DONE: the mailbox is free, DONE is set, and its interrupt goes to its owner; a request that was written over has status 3,
and one that no command served status 1. -/
def Claims.CommandsEnd : Prop :=
  ∀ (s : State),
    let m := s.cur.arg
    let x := s.mbox m
    (x.busy = false → exec .done s = .next s) ∧
    (x.busy = true → ∃ t, exec .done s = .next t ∧ (t.mbox m).busy = false ∧ (t.mbox m).done = true ∧ (t.mbox m).req = x.req ∧ m ∉ t.pilot.fw.serving ∧
      (m ∈ s.pilot.fw.serving → x.clash = false → (t.mbox m).resp = x.resp) ∧
      (m ∉ s.pilot.fw.serving ∨ x.clash = true → x.req.length = 64 → bnat (t.mbox m).resp 0 2 = bnat x.req 2 2 ∧ bnat (t.mbox m).resp 2 2 = if x.clash then 3 else 1) ∧
      (x.owner = false → t.io.outs = s.io.outs ++ [.irq false x.vec.toNat]))

/-! ## The Pilot cores (R393 to R398) -/

/-- R394: a Pilot core has trapped into machine mode: the cause, the code in mtval, mepc at the instruction, MIE saved in MPIE and cleared, and the mode in MPP; its
registers stand (which bits these are is log 12). -/
def Claims.PilotTrapped (c c' : PilotCore) (cause tval pc : Word) : Prop :=
  c'.mcause = cause ∧ c'.mtval = tval ∧ c'.mepc = c.pc ∧ c'.mode = 3 ∧ c'.pc = pc ∧ c'.mstatus.getLsbD 3 = false ∧
  c'.mstatus.getLsbD 7 = c.mstatus.getLsbD 3 ∧ c'.mstatus.extractLsb' 11 2 = c.mode ∧ c'.wait = none ∧ c'.x = c.x ∧ c'.sigpend = c.sigpend

/-- R394: the base of the trap vector. -/
def Claims.trapBase (c : PilotCore) : Word := BitVec.ofNat 64 (c.mtvec.toNat / 4 * 4)

/-- R394: an Xquay instruction of the Pilot core of the step raises a fault: mcause 24 and the code. -/
def Claims.XquayFaults (i : Instr) (s : State) (code : Nat) : Prop :=
  ∃ t, exec i s = .next t ∧
    Claims.PilotTrapped (s.pcore s.cur.arg) (t.pcore s.cur.arg) 24 (word code) (Claims.trapBase (s.pcore s.cur.arg)) ∧
    (∀ k, k ≠ s.cur.arg → t.pcore k = s.pcore k) ∧ t.sched = s.sched ∧ t.pilot.sram = s.pilot.sram ∧ t.pilot.mbox = s.pilot.mbox

/-- R394: an Xquay instruction writes v to rd, leaves the other registers, and the pc is 4 on. -/
def Claims.XquayWrites (s t : State) (rd : BitVec 5) (v : Word) : Prop :=
  let c := s.pcore s.cur.arg
  let c' := t.pcore s.cur.arg
  (∀ r, c'.reg r = if r = rd ∧ r ≠ 0 then v else c.reg r) ∧ c'.pc = c.pc + 4 ∧ ∀ k, k ≠ s.cur.arg → (t.pcore k).reg = (s.pcore k).reg ∧
    (t.pcore k).pc = (s.pcore k).pc

/-- R395: QBFX and QBFX.S take LEN bits of rs1 from POS on, zero- or sign-extended; a LEN over 64 raises 0x20, another bit set in rs2 0x21 (0x20 where both
hold is the model's order, log 22). -/
def Claims.BitFields : Prop :=
  ∀ (s : State) (rd rs1 rs2 : BitVec 5),
    let x := (s.px rs1).toNat
    let v := (s.px rs2).toNat
    let pos := v % 64
    let len := v / 256 % 128
    let f := x / 2 ^ pos % 2 ^ len
    let other : Prop := s.px rs2 &&& ~~~(0x7F3F : Word) ≠ 0
    (64 < len → Claims.XquayFaults (.qbfx rd rs1 rs2) s 0x20 ∧ Claims.XquayFaults (.qbfxS rd rs1 rs2) s 0x20) ∧
    (len ≤ 64 → other → Claims.XquayFaults (.qbfx rd rs1 rs2) s 0x21 ∧ Claims.XquayFaults (.qbfxS rd rs1 rs2) s 0x21) ∧
    (len ≤ 64 → ¬ other →
      (∃ t, exec (.qbfx rd rs1 rs2) s = .next t ∧ Claims.XquayWrites s t rd (BitVec.ofNat 64 f)) ∧
      ∃ t, exec (.qbfxS rd rs1 rs2) s = .next t ∧
        Claims.XquayWrites s t rd (BitVec.ofInt 64 (if len ≠ 0 ∧ 2 ^ (len - 1) ≤ f then (f : Int) - 2 ^ len else f)))

/-- R394, R396: QFETCH from a source that does not exist raises 0x10, to an address that is not 256-aligned in the SRAM 0x11 (0x10 where both hold is the
model's order, log 22); from an empty source it writes 0; else it
stores the head's 256 bytes, takes it from its source, and names it in rd with bit 63 set. -/
def Claims.QueueFetches : Prop :=
  ∀ (s : State) (rd rs1 rs2 : BitVec 5),
    let n := (s.px rs1).toNat
    let a := (s.px rs2).toNat
    let i : Instr := .qfetch rd rs1 rs2
    let good : Prop := a % 256 = 0 ∧ Config.sramBase ≤ a ∧ a + 256 ≤ Config.sramBase + Config.sramSize
    let stored (t : State) (bs : List Byte) : Prop := Memory.wf s.pilot.sram = true →
      (∀ j, j < 256 → mread t.pilot.sram (a + j) = lget bs j 0) ∧ ∀ x, x < a ∨ a + 256 ≤ x → mread t.pilot.sram x = mread s.pilot.sram x
    (17 < n → Claims.XquayFaults i s 0x10) ∧ (n ≤ 17 → ¬ good → Claims.XquayFaults i s 0x11) ∧
    (good →
      (n = 0 → s.sched.popHead = none → ∃ t, exec i s = .next t ∧ Claims.XquayWrites s t rd 0 ∧ t.sched = s.sched) ∧
      (∀ e, n = 0 → s.sched.popHead = some e → ∃ t, exec i s = .next t ∧ t.sched.pifo = s.sched.pifo.erase e ∧ stored t e.bytes ∧
        Claims.XquayWrites s t rd (word (2 ^ 63 + 2 ^ 32 * (e.frame.queue % 256) + e.rank.toNat))) ∧
      (1 ≤ n → n ≤ 16 → (s.mbox (n - 1)).door = false → ∃ t, exec i s = .next t ∧ Claims.XquayWrites s t rd 0 ∧ t.pilot.mbox = s.pilot.mbox) ∧
      (1 ≤ n → n ≤ 16 → (s.mbox (n - 1)).door = true → ∃ t, exec i s = .next t ∧ Claims.XquayWrites s t rd (word (2 ^ 63 + (n - 1))) ∧
        (t.mbox (n - 1)).door = false ∧ (t.mbox (n - 1)).busy = true ∧ stored t ((s.mbox (n - 1)).req.take 64)) ∧
      (n = 17 → s.pilot.posts = [] → ∃ t, exec i s = .next t ∧ Claims.XquayWrites s t rd 0) ∧
      (∀ p r, n = 17 → s.pilot.posts = p :: r → p.2.length ≤ 256 → ∃ t, exec i s = .next t ∧ Claims.XquayWrites s t rd (word (2 ^ 63 + p.1)) ∧
        stored t p.2 ∧ p ∈ t.pilot.out))

/-- R397: QWAIT on no signal without a timeout raises 0x30; on a signal that is pending it writes which and clears their edges; else the core waits, with the
timeout's end, and completes when a signal rises or the timeout is over. An interrupt traps with mepc at the waiting instruction (its mtval 0 and its
vectored entry are log 12). -/
def Claims.SignalWaits : Prop :=
  ∀ (s : State),
    let k := s.cur.arg
    (∀ (rd rs1 rs2 : BitVec 5),
      let mask := s.px rs1
      let n := (s.px rs2).toNat
      (mask = 0 → n = 0 → Claims.XquayFaults (.qwait rd rs1 rs2) s 0x30) ∧
      (s.sigpend k &&& mask ≠ 0 → ∃ t, exec (.qwait rd rs1 rs2) s = .next t ∧ Claims.XquayWrites s t rd (s.sigpend k &&& mask) ∧
        (t.pcore k).sigpend = (s.pcore k).sigpend &&& ~~~(s.sigpend k &&& mask)) ∧
      (mask ≠ 0 ∨ n ≠ 0 → s.sigpend k &&& mask = 0 → ∃ t w, exec (.qwait rd rs1 rs2) s = .next t ∧ (t.pcore k).wait = some w ∧ w.mask = mask ∧
        w.rd = rd.toNat ∧ (n = 0 → w.limit = 0) ∧ (n ≠ 0 → s.tide ≤ w.limit) ∧ (t.pcore k).pc = (s.pcore k).pc ∧ (t.pcore k).x = (s.pcore k).x)) ∧
    (∀ w, (s.pcore k).wait = some w → w.rd < 32 →
      let isOver : Prop := s.sigpend k &&& w.mask ≠ 0 ∨ (w.limit ≠ 0 ∧ w.limit ≤ s.tide)
      (¬ isOver → exec .qwaitComplete s = .next s) ∧
      (isOver → ∃ t, exec .qwaitComplete s = .next t ∧ Claims.XquayWrites s t (BitVec.ofNat 5 w.rd) (s.sigpend k &&& w.mask) ∧ (t.pcore k).wait = none)) ∧
    ((s.pcore k).wait = none → exec .qwaitComplete s = .next s) ∧
    ∀ (n : Nat) (cause : Word),
      let c := s.pcore n
      let b := Claims.trapBase c
      ∃ t, exec (.pilotInterrupt n cause) s = .next t ∧ (∀ j, j ≠ n → t.pcore j = s.pcore j) ∧
        Claims.PilotTrapped c (t.pcore n) cause 0 (if cause.getLsbD 63 = true ∧ c.mtvec.getLsbD 0 = true then b + 4 * (cause &&& 0x7FFFFFFFFFFFFFFF) else b)

/-- R394, R398: QDISP names a berth that does not exist (0x41) or is not FREE (0x40), an address that is not 64-aligned in the SRAM (0x42), or a
record with a field that must be 0 (0x43), in this order but for 0x41 and 0x40 the model's (log 22); else the berth takes the staged record,
ARMED, and rd is 0. -/
def Claims.Dispatches : Prop :=
  ∀ (s : State) (rd rs1 rs2 : BitVec 5),
    let b := (s.px rs1).toNat
    let a := (s.px rs2).toNat
    let i : Instr := .qdisp rd rs1 rs2
    let free : Prop := b < 32 ∧ (s.bind b).state = 0
    let good : Prop := a % 64 = 0 ∧ Config.sramBase ≤ a ∧ a + 256 ≤ Config.sramBase + Config.sramSize
    (32 ≤ b → Claims.XquayFaults i s 0x41) ∧ (b < 32 → (s.bind b).state ≠ 0 → Claims.XquayFaults i s 0x40) ∧
    (free → ¬ good → Claims.XquayFaults i s 0x42) ∧ (free → good → s.stagedBad a = true → Claims.XquayFaults i s 0x43) ∧
    (free → good → s.stagedBad a = false → ∃ t, exec i s = .next t ∧ Claims.XquayWrites s t rd 0 ∧ (t.bind b).state = 1 ∧
      (∀ k, k < 32 → (t.bind b).word k = s.staged a k) ∧
      ∀ m, m ≠ b → t.bind m = s.bind m)

/-- R389, R393: a Pilot core that executes a word of custom-0 or custom-1 that is no Xquay instruction traps with mcause 2; one that fetches where nothing lies
traps with mcause 1, and a load or a store there with mcause 5 or 7; a load of the Pilot SRAM takes its bytes (what else a base instruction does is
log 12). -/
def Claims.PilotBase : Prop :=
  ∀ (s : State) (k : Nat),
    let c := s.pcore k
    (∀ w : BitVec 32, s.rvFetch k = some w → w.extractLsb' 0 7 = 0b0001011 ∨ w.extractLsb' 0 7 = 0b0101011 → decodeXquay w = none →
      Claims.PilotTrapped c ((s.rvStep k).pcore k) 2 (w.setWidth 64) (Claims.trapBase c)) ∧
    (s.rvFetch k = none → Claims.PilotTrapped c ((s.rvStep k).pcore k) 1 c.pc (Claims.trapBase c)) ∧
    (∀ (w : BitVec 32) (len n : Nat) (sg : Bool) (rd rs1 rs2 : BitVec 5) (off : Word), n ∈ [1, 2, 4, 8] →
      let a := c.reg rs1 + off
      a.toNat % n = 0 →
      (s.pilotHome a.toNat n = none →
        Claims.PilotTrapped c ((s.rvExec k w len (.load n sg rd rs1 off)).pcore k) 5 a (Claims.trapBase c) ∧
        Claims.PilotTrapped c ((s.rvExec k w len (.store n rs1 rs2 off)).pcore k) 7 a (Claims.trapBase c)) ∧
      (Config.sramBase ≤ a.toNat → a.toNat + n ≤ Config.sramBase + Config.sramSize → rd ≠ 0 → len < 8 →
        let t := s.rvExec k w len (.load n sg rd rs1 off)
        let v := mnat s.pilot.sram a.toNat n
        ((t.pcore k).reg rd).toNat = (if sg = true ∧ 2 ^ (8 * n - 1) ≤ v then v + 2 ^ 64 - 2 ^ (8 * n) else v) ∧
        (t.pcore k).pc = c.pc + word len ∧ t.pilot.sram = s.pilot.sram)) ∧
    (∀ a n, 0x8000000000 ≤ a → 0 < n → s.pilotHome a n = none)

/-! ## Accesses from outside the cores (R80, R84, R389, R403 to R412) -/

/-- R75, R79: the homes of a target show bs from a on, but for an ARMED that they keep, and are otherwise as they were. -/
def Claims.HomeWritten (tgt : Nat) (s t : State) (a : Nat) (bs : List Byte) : Prop :=
  (∀ i, i < bs.length → ¬ Claims.keptArmed s tgt (a + i) → t.gByte tgt (a + i) = lget bs i 0) ∧
  ∀ x, x < a ∨ a + bs.length ≤ x ∨ Claims.keptArmed s tgt x → t.gByte tgt x = s.gByte tgt x

/-- R75, R79: HBM holds bs from a on, but for an ARMED that the home keeps, and is otherwise as it was. -/
def Claims.HbmWritten (s t : State) (a : Nat) (bs : List Byte) : Prop := Claims.HomeWritten 0 s t a bs

/-- R389, R403, R405, R425: a host core loads and stores HBM in its own region and in valid grants (stores where W is set); elsewhere in HBM,
where nothing lies, and in a part in recovery, the access faults without effect (mcause 5 or 7); the device register space answers as its
registers say, 8 bytes at a time or, in RANKPROG, 4. -/
def Claims.HostAccesses : Prop :=
  ∀ (s : State) (hart a len : Nat) (data : List Byte),
    let may (store : Bool) (n : Nat) : Prop := s.fleet.recovery = false ∧ ((s.io.hostBase ≤ a ∧ a + n ≤ s.io.hostBase + s.io.hostLen) ∨
      ∃ g ∈ s.io.grants, g.valid = true ∧ (store = true → g.w = true) ∧ g.base.toNat * 4096 ≤ a ∧ a + n ≤ (g.limit.toNat + 1) * 4096)
    (a + len ≤ Config.hbmSize →
      (may false len → exec (.hostAccess hart false a len data) s = .next (s.out (.data (s.gRead 0 a len) (s.gPoison 0 a len)))) ∧
      (¬ may false len → exec (.hostAccess hart false a len data) s = .next (s.out (.accessFault hart 5)))) ∧
    (a + data.length ≤ Config.hbmSize →
      (may true data.length → Memory.wf s.mem.hbm = true → s.armedAt 0 a data.length = [] →
        ∃ t, exec (.hostAccess hart true a len data) s = .next t ∧ Claims.HbmWritten s t a data ∧ t.io = s.io ∧ t.cores = s.cores) ∧
      (¬ may true data.length → exec (.hostAccess hart true a len data) s = .next (s.out (.accessFault hart 7)))) ∧
    (0x8000000000 < a → exec (.hostAccess hart false a len data) s = .next (s.out (.accessFault hart 5)) ∧
      exec (.hostAccess hart true a len data) s = .next (s.out (.accessFault hart 7))) ∧
    (∀ off, a = 0x2020000000 + off → off % 8 = 0 → off + 8 ≤ 0x4000000 →
      exec (.hostAccess hart false a 8 data) s = .next (s.out (.data (leBytes 8 (s.readReg .host off).toNat) false)) ∧
      (data.length = 8 → exec (.hostAccess hart true a len data) s = exec (.registerWrite .host off (word (leNat data))) s)) ∧
    (∀ off, a = 0x2020000000 + off → off % 4 = 0 → 0x10080 ≤ off → off < 0x100C0 →
      exec (.hostAccess hart false a 4 data) s = .next (s.out (.data ((leBytes 8 (s.readReg .host off).toNat).take 4) false)) ∧
      (data.length = 4 → exec (.hostAccess hart true a len data) s = exec (.registerWrite .host off (word (leNat data))) s))

/-- R80, R403, R405: a host core's AMO on 4 or 8 bytes in HBM leaves the operation's result there and returns the old bytes; its load-reserve returns them and
reserves them; a store-conditional stores and answers 0 when the hart still holds the reservation, and else answers 1 and stores nothing, and holds
none after it; without a grant each faults, and a misaligned one takes mcause 4 or 6 (log 12; what a store-conditional looks at is log 63). -/
def Claims.HostAtomics : Prop :=
  ∀ (s : State) (hart a n : Nat) (v : Word), n = 4 ∨ n = 8 → a + n ≤ Config.hbmSize → s.fleet.recovery = false →
    let old := s.gNat 0 a n
    let x := v.toNat % 2 ^ (8 * n)
    let sg (y : Nat) : Int := if y < 2 ^ (8 * n - 1) then y else (y : Int) - 2 ^ (8 * n)
    let ops : List (HartAtomic × Nat) := [(.swap, x), (.add, (old + x) % 2 ^ (8 * n)), (.xor, old ^^^ x), (.and, old &&& x), (.or, old ||| x),
      (.min, if sg x < sg old then x else old), (.max, if sg x < sg old then old else x), (.minu, min old x), (.maxu, max old x)]
    let held : Prop := (hart, 0, a, n) ∈ s.mem.resv
    (s.hostMay true a n = true → a % n = 0 →
      (∀ r ∈ ops, ∃ t, exec (.hostAmoRelease hart ⟨a, n⟩ ⟨r.1, v⟩) s = .next t ∧ t.io.outs = s.io.outs ++ [.data (s.gRead 0 a n) (s.gPoison 0 a n)] ∧
        (Memory.wf s.mem.hbm = true → s.armedAt 0 a n = [] → Claims.HbmWritten s t a (leBytes n r.2))) ∧
      (held → ∃ t, exec (.hostAmoRelease hart ⟨a, n⟩ ⟨.sc, v⟩) s = .next t ∧ t.io.outs = s.io.outs ++ [.data (leBytes 8 0) false] ∧
        (∀ r ∈ t.mem.resv, r.1 ≠ hart) ∧ (Memory.wf s.mem.hbm = true → s.armedAt 0 a n = [] → Claims.HbmWritten s t a (leBytes n v.toNat))) ∧
      (¬ held → ∃ t, exec (.hostAmoRelease hart ⟨a, n⟩ ⟨.sc, v⟩) s = .next t ∧ t.io.outs = s.io.outs ++ [.data (leBytes 8 1) false] ∧
        (∀ r ∈ t.mem.resv, r.1 ≠ hart) ∧ SameMemory s t)) ∧
    (s.hostMay false a n = true → a % n = 0 → ∃ t, exec (.hostLrAcquire hart ⟨a, n⟩) s = .next t ∧
      t.io.outs = s.io.outs ++ [.data (s.gRead 0 a n) (s.gPoison 0 a n)] ∧ (∀ r, r ∈ t.mem.resv ∧ r.1 = hart ↔ r = (hart, 0, a, n)) ∧ SameMemory s t) ∧
    (∀ op, (s.hostMay true a n = false → exec (.hostAmoRelease hart ⟨a, n⟩ ⟨op, v⟩) s = .next (s.out (.accessFault hart 7))) ∧
      (s.hostMay true a n = true → a % n ≠ 0 → exec (.hostAmoRelease hart ⟨a, n⟩ ⟨op, v⟩) s = .next (s.out (.accessFault hart 6)))) ∧
    (s.hostMay false a n = false → exec (.hostLrAcquire hart ⟨a, n⟩) s = .next (s.out (.accessFault hart 5))) ∧
    (s.hostMay false a n = true → a % n ≠ 0 → exec (.hostLrAcquire hart ⟨a, n⟩) s = .next (s.out (.accessFault hart 4)))

/-- R428: the part has logged an entry: it is the newest, numbered HEAD, at the tide cycle of its core, of that class, core, berth, code and address. -/
def Claims.Logged (s t : State) (cls core berth code addr : Nat) : Prop :=
  t.fleet.head = s.fleet.head + 1 ∧ ∃ e, t.fleet.ras.getLast? = some e ∧ e.seq = s.fleet.head ∧
    e.tide = (if core < 24 then s.tide + 2 * (s.core core).run.hop else s.tide) ∧ s.tide ≤ e.ready ∧ e.cls = cls ∧ e.core = core ∧
    e.berth = berth ∧ e.code = code ∧ e.addr = addr

/-- R83, R406, R408, R409, R425: an inbound request to BAR2 is performed when a window admits its bytes, direction and requester and the part is
not in recovery; else, or when an AtomicOp has not one of its sizes, a read or an AtomicOp is answered as unsupported and a write dropped, with
an entry of class 7. An AtomicOp on poisoned bytes returns them and leaves them. BAR0 is the device register space. -/
def Claims.InboundRequests : Prop :=
  ∀ (s : State) (rid : BitVec 16) (off len : Nat) (data : List Byte) (rx : Bool) (op : PcieAtomic) (x y : Nat),
    let ok (wr : Bool) (n : Nat) : Prop := s.fleet.recovery = false ∧ off + n ≤ Config.hbmSize ∧ ∃ p ∈ s.io.peers, p.valid = true ∧ p.space = false ∧
      (if wr then p.w else p.rd) = true ∧ (p.anyrid = true ∨ p.rid = rid) ∧ p.base.toNat * 4096 ≤ off ∧
      off + n ≤ (p.base.toNat + p.count.toNat) * 4096
    let code : Nat := match op with | .fetchAdd => 0 | .swap => 9 | .cas => 10
    let sizes : List Nat := if op = .cas then [4, 8, 16] else [4, 8]
    (ok false len → exec (.inboundRead rid 2 off len) s = .next (s.out (.data (s.gRead 0 off len) (s.gPoison 0 off len)))) ∧
    (¬ ok false len → ∃ t, exec (.inboundRead rid 2 off len) s = .next t ∧ t.io.outs = s.io.outs ++ [.unsupported] ∧ Claims.Logged s t 7 0xFF 0xFF 0 off ∧
      SameMemory s t) ∧
    (ok true data.length → Memory.wf s.mem.hbm = true → s.armedAt 0 off data.length = [] →
      ∃ t, exec (.inboundWrite rid 2 off data rx) s = .next t ∧ Claims.HbmWritten s t off data ∧ t.io = s.io) ∧
    (¬ ok true data.length → ∃ t, exec (.inboundWrite rid 2 off data rx) s = .next t ∧ t.io.outs = s.io.outs ++ [.dropped] ∧
      Claims.Logged s t 7 0xFF 0xFF 0 off ∧ SameMemory s t) ∧
    (∀ n ∈ sizes, ok true n → off % n = 0 → s.gPoison 0 off n = true →
      exec (.inboundAtomicop rid 2 off op n x y) s = .next (s.out (.data (s.gRead 0 off n) true))) ∧
    (∀ n ∈ sizes, ok true n → off % n = 0 → s.gPoison 0 off n = false → Memory.wf s.mem.hbm = true → s.armedAt 0 off n = [] →
      ∃ t, exec (.inboundAtomicop rid 2 off op n x y) s = .next t ∧ t.io.outs = s.io.outs ++ [.data (s.gRead 0 off n) false] ∧
        Claims.HbmWritten s t off (leBytes n (atomicNew code n (s.gNat 0 off n) x y))) ∧
    (∀ n, ¬ ok true n ∨ off % n ≠ 0 ∨ n ∉ sizes → ∃ t, exec (.inboundAtomicop rid 2 off op n x y) s = .next t ∧ t.io.outs = s.io.outs ++ [.unsupported] ∧
      Claims.Logged s t 7 0xFF 0xFF 0 off ∧ SameMemory s t) ∧
    (data.length = 8 → off < 0x4000000 → exec (.inboundWrite rid 0 off data rx) s = exec (.registerWrite .external off (word (leNat data))) s) ∧
    (off % 8 = 0 → off < 0x4000000 → exec (.inboundRead rid 0 off 8) s = .next (s.out (.data (leBytes 8 (s.readReg .external off).toNat) false)))

/-- R80, R83, R389, R406, R408, R409, R425: an inbound request to BAR4 is performed at SP3 as one to BAR2 is at HBM, through a window of that
space; one that is rejected is logged with its physical address. A posted write of VERSION of a sync object is a release: it is performed at
once, after every request that came before it, and every wait armed there whose VER it reaches is answered; so does a FetchAdd on VERSION. -/
def Claims.PeerRequests : Prop :=
  ∀ (s : State) (rid : BitVec 16) (off len : Nat) (data : List Byte) (rx : Bool) (op : PcieAtomic) (x y : Nat),
    let ok (wr : Bool) (n : Nat) : Prop := s.fleet.recovery = false ∧ off + n ≤ Config.sp3Size ∧ ∃ p ∈ s.io.peers, p.valid = true ∧ p.space = true ∧
      (if wr then p.w else p.rd) = true ∧ (p.anyrid = true ∨ p.rid = rid) ∧ p.base.toNat * 4096 ≤ off ∧
      off + n ≤ (p.base.toNat + p.count.toNat) * 4096
    let code : Nat := match op with | .fetchAdd => 0 | .swap => 9 | .cas => 10
    let sizes : List Nat := if op = .cas then [4, 8, 16] else [4, 8]
    let refused (t : State) : Prop := Claims.Logged s t 7 0xFF 0xFF 0 (0x2000000000 + off) ∧ SameMemory s t
    (ok false len → exec (.inboundRead rid 4 off len) s = .next (s.out (.data (s.gRead 3 off len) (s.gPoison 3 off len)))) ∧
    (¬ ok false len → ∃ t, exec (.inboundRead rid 4 off len) s = .next t ∧ t.io.outs = s.io.outs ++ [.unsupported] ∧ refused t) ∧
    (ok true data.length → s.armedAt 3 off data.length = [] →
      ∃ t, exec (.inboundWrite rid 4 off data rx) s = .next t ∧ Claims.HomeWritten 3 s t off data ∧ t.io = s.io) ∧
    (¬ ok true data.length → ∃ t, exec (.inboundWrite rid 4 off data rx) s = .next t ∧ t.io.outs = s.io.outs ++ [.dropped] ∧ refused t) ∧
    (∀ n ∈ sizes, ok true n → off % n = 0 → s.gPoison 3 off n = true →
      exec (.inboundAtomicop rid 4 off op n x y) s = .next (s.out (.data (s.gRead 3 off n) true))) ∧
    (∀ n ∈ sizes, ok true n → off % n = 0 → s.gPoison 3 off n = false → s.armedAt 3 off n = [] →
      ∃ t, exec (.inboundAtomicop rid 4 off op n x y) s = .next t ∧ t.io.outs = s.io.outs ++ [.data (s.gRead 3 off n) false] ∧
        Claims.HomeWritten 3 s t off (leBytes n (atomicNew code n (s.gNat 3 off n) x y))) ∧
    (∀ n, ¬ ok true n ∨ off % n ≠ 0 ∨ n ∉ sizes →
      ∃ t, exec (.inboundAtomicop rid 4 off op n x y) s = .next t ∧ t.io.outs = s.io.outs ++ [.unsupported] ∧ refused t) ∧
    ∀ bar ∈ ([(2, 0), (4, 3)] : List (BitVec 3 × Nat)), ∀ (o : GOp) (ver : Word), (s.inboundHome bar.1 true rid off 8).isSome = true →
      o ∈ s.gops → o.kind = .wait bar.2 off ver → o.armed = true → o.done = false → (bar.2 = 0 → Memory.wf s.mem.hbm = true) →
      (∀ i, i < 8 → ¬ Claims.keptArmed s bar.2 (off + i)) →
        let answered (t : State) : Prop := ∃ o' ∈ t.gops, o'.id = o.id ∧ o'.done = true ∧ s.tide ≤ o'.due
        (data.length = 8 → ver.toNat ≤ leNat data → ∃ t, exec (.inboundWrite rid bar.1 off data rx) s = .next t ∧ answered t) ∧
        (off % 8 = 0 → s.gPoison bar.2 off 8 = false → ver.toNat ≤ (s.gNat bar.2 off 8 + x) % 2 ^ 64 →
          ∃ t, exec (.inboundAtomicop rid bar.1 off .fetchAdd 8 x y) s = .next t ∧ answered t)

/-- R389, R393, R402, R403, R405, R425: a running host core takes an interrupt that pends and is enabled, or executes the instruction at its pc:
a word of custom-0 or custom-1 traps with mcause 2, one that cannot be fetched with mcause 1 or 12, a load or a store of the Pilot SRAM, of a
hole, or of HBM outside its region and every grant with mcause 5 or 7; an addition leaves the sum; a load gives the bytes that lie at its place,
a store leaves its own there. An interrupt sent to a hart pends in its interrupt file. What the spec does not say of these cores is the RISC-V
manuals' (log 98). -/
def Claims.HostCores : Prop :=
  ∀ (s : State) (k : Nat), k < 8 →
    let h := s.hart k
    let trapped (t : State) (cause : Nat) (tval : Word) : Prop :=
      (t.hart k) = { (h.trap false cause tval) with next := s.tide + 1 } ∧ (∀ j, j ≠ k → t.hart j = s.hart j) ∧ SameMemory s t
    (s.turn = none → s.baseMove = none → s.fleet.booted = true → s.fleet.recovery = false → h.running = true → h.next ≤ s.tide →
      (∀ j, j < k → (s.hart j).running = false ∨ s.tide < (s.hart j).next) → step s = .next (s.hartStep k)) ∧
    (s.fleet.recovery = true → s.hartMove = none) ∧
    (∀ c, h.interrupt = some c → (s.hartStep k).hart k = { (h.trap true c 0) with next := s.tide + 1 }) ∧
    (h.interrupt = none →
      (∀ c a, s.hartFetch k = .inl (c, a) → trapped (s.hartStep k) c a) ∧
      (∀ w : BitVec 32, s.hartFetch k = .inr w → w.extractLsb' 0 7 = 0b0001011 ∨ w.extractLsb' 0 7 = 0b0101011 → trapped (s.hartStep k) 2 (w.setWidth 64))) ∧
    (∀ cause tval, (h.mode = 3 ∨ h.medeleg.getLsbD cause = false) → cause < 64 →
      let h' := h.trap false cause tval
      h'.mcause = word cause ∧ h'.mtval = tval ∧ h'.mepc = h.pc ∧ h'.mode = 3 ∧ h'.pc = h.mtvec &&& ~~~(3 : Word) ∧ h'.x = h.x ∧ h'.f = h.f) ∧
    (∀ (w : BitVec 32) (len n : Nat) (sg : Bool) (rd r1 r2 : BitVec 5) (off : Word), n ∈ [1, 2, 4, 8] → h.mode = 3 → h.mstatus.getLsbD 17 = false →
      let a := h.reg r1 + off
      a.toNat % n = 0 →
      (s.hostHome false a.toNat n = none → (∀ o, s.placeOf a.toNat n ≠ .reg o) → trapped (s.hartExec k w len (.base (.load n sg rd r1 off))) 5 a) ∧
      (s.hostHome true a.toNat n = none → (∀ o, s.placeOf a.toNat n ≠ .reg o) → trapped (s.hartExec k w len (.base (.store n r1 r2 off))) 7 a) ∧
      (∀ p, s.hostHome false a.toNat n = some p → rd ≠ 0 →
        let t := s.hartExec k w len (.base (.load n sg rd r1 off))
        let v := s.gNat p.1 p.2 n
        ((t.hart k).reg rd).toNat = (if sg = true ∧ 2 ^ (8 * n - 1) ≤ v then v + 2 ^ 64 - 2 ^ (8 * n) else v) ∧ (t.hart k).pc = h.pc + word len ∧ SameMemory s t) ∧
      (∀ p, s.hostHome true a.toNat n = some p → p.1 = 0 → Memory.wf s.mem.hbm = true → s.armedAt 0 p.2 n = [] →
        let t := s.hartExec k w len (.base (.store n r1 r2 off))
        Claims.HbmWritten s t p.2 (leBytes n (h.reg r2).toNat) ∧ (t.hart k).pc = h.pc + word len ∧ ∀ r, (t.hart k).reg r = h.reg r)) ∧
    (∀ a n, (0x2010000000 ≤ a ∧ a + n ≤ 0x2010200000 ∨ 0x8000000000 ≤ a) → 0 < n → ∀ b, s.hostHome b a n = none ∧ ∀ o, s.placeOf a n ≠ .reg o) ∧
    (∀ (w : BitVec 32) (len : Nat) (rd r1 r2 : BitVec 5), rd ≠ 0 →
      ((s.hartExec k w len (.bits (.shadd 1 false) false rd r1 (.inl r2))).hart k).reg rd = (h.reg r1 <<< 1) + h.reg r2 ∧
      ((s.hartExec k w len (.bits .andn false rd r1 (.inl r2))).hart k).reg rd = h.reg r1 &&& ~~~(h.reg r2)) ∧
    ∀ vec, 0 < vec → vec < 1024 → let t := s.irq false vec; let j := Config.irqHart vec % 8
      (t.hart j).eip = (s.hart j).eip ||| BitVec.ofNat 1024 (2 ^ vec) ∧ t.io.outs = s.io.outs ++ [.irq false vec]

/-- R411, R412, R425: a frame that arrives on a port with link of a part not in recovery, no longer than 9,216 bytes, for a ring that has a
descriptor in HBM, goes to that descriptor's buffer and the ring's consumer index advances; else it is dropped. A transmission sends the bytes
that its descriptor names, when they are no more than 9,216. The descriptor's form is the model's (log 13). -/
def Claims.EthernetFrames : Prop :=
  ∀ (s : State) (port ring : Nat),
    let p := s.port port
    let rx := lget p.rx ring EthRing.zero
    let tx := lget p.tx ring EthRing.zero
    (∀ bs, s.fleet.recovery = true ∨ p.up = false ∨ 9216 < bs.length ∨ rx.nextDesc = none → exec (.ethernetReceive port ring bs) s = .next (s.out .dropped)) ∧
    (∀ bs d, s.fleet.recovery = false → p.up = true → bs.length ≤ 9216 → rx.nextDesc = some d → d + 16 ≤ Config.hbmSize →
      ∃ t, exec (.ethernetReceive port ring bs) s = .next t ∧ t.io.outs = s.io.outs ∧ lget (t.port port).rx ring EthRing.zero = { rx with cons := rx.cons + 1 } ∧
        (t.port port).tx = p.tx ∧ (Memory.wf s.mem.hbm = true → (∀ n, s.armedAt 0 0 n = []) → (∀ x, ¬ Claims.keptArmed s 0 x) →
          let b := s.gNat 0 d 6
          (b + bs.length ≤ d ∨ d + 16 ≤ b) → (∀ i, i < bs.length → t.gByte 0 (b + i) = lget bs i 0) ∧ t.gNat 0 (d + 6) 2 = bs.length)) ∧
    (tx.nextDesc = none ∨ p.up = false ∨ s.fleet.recovery = true → exec (.ethernetTransmit port ring) s = .next s) ∧
    (∀ d, s.fleet.recovery = false → p.up = true → tx.nextDesc = some d → d + 16 ≤ Config.hbmSize →
      let ctl := s.gNat 0 (d + 6) 2
      let g := s.gRead 0 (s.gNat 0 d 6) (ctl % 2 ^ 14)
      let f := if ctl / 2 ^ 15 % 2 = 1 then oneStep s.io.ptp g else g
      ∃ t, exec (.ethernetTransmit port ring) s = .next t ∧ t.io.outs = s.io.outs ++ (if f.length ≤ 9216 then [.frame port f] else []) ∧
        lget (t.port port).tx ring EthRing.zero = { tx with cons := tx.cons + 1 } ∧ (ctl / 2 ^ 14 % 2 = 0 ∨ 9216 < f.length → SameMemory s t)) ∧
    (s.fleet.recovery = true → ∀ up, exec (.autoNegotiation port up) s = .next s) ∧
    ∀ up, s.fleet.recovery = false → ∃ t, exec (.autoNegotiation port up) s = .next t ∧ (t.port port).up = up ∧ (t.port port).rx = p.rx ∧ (t.port port).tx = p.tx ∧
      ∀ q, q ≠ port → t.port q = s.port q

/-! ## Video decoders (R113, R114, R413, R414) -/

/-- R413, R414: the command at the head of the step's decoder ring: none, another's, or refused (ERR, and the ring goes on), as is a DECODE whose
access unit cannot be read or is above its codec's level; else DECODE holds one access unit more and emits a number of frames that the model
leaves free (log 14), FLUSH every held frame, as far as the slots are consumed; DECODER_RESET drops the context's frames. In recovery and during
a full self-test no ring is served (R425, R430). -/
def Claims.DecoderCommands : Prop :=
  ∀ (s : State),
    let e := s.cur.arg
    let taken (t : State) : Prop := (t.dec e).head = (s.dec e).head + 1 ∧ (t.dec e).tail = (s.dec e).tail ∧ (t.dec e).run = true
    let emitted (t : State) (x : DecCtx) (c k m : Nat) : Prop := (t.dctx c).out = x.out + k ∧ (t.dctx c).held.length + k = x.held.length ∧ (t.dctx c).emit = m ∧
      (t.dec e).blocked = decide (m ≠ 0) ∧ ∀ c', c' ≠ c → t.dctx c' = s.dctx c'
    (s.decNext e = none → ∀ i ∈ ([.decode, .flush, .decoderReset] : List Instr), exec i s = .next s) ∧
    (∀ c, s.decNext e = some c →
      let x := s.dctx c.ctx
      (c.opc ≠ 2 → exec .flush s = .next s) ∧ (c.opc ≠ 3 → exec .decoderReset s = .next s) ∧ (c.opc = 2 ∨ c.opc = 3 → exec .decode s = .next s) ∧
      (∀ i, (c.ok = false ∧ (c.opc, i) ∈ ([(1, .decode), (2, .flush), (3, .decoderReset)] : List (Nat × Instr))) ∨
          (c.opc ≠ 1 ∧ c.opc ≠ 2 ∧ c.opc ≠ 3 ∧ i = .decode) ∨ (c.opc = 1 ∧ s.decodable c = false ∧ i = .decode) →
        ∃ t, exec i s = .next t ∧ taken t ∧ (t.dec e).err = true ∧ (∀ c', t.dctx c' = s.dctx c') ∧ SameMemory s t) ∧
      (c.ok = true → c.opc = 1 → s.decodable c = true → ∃ t k m, exec .decode s = .next t ∧ taken t ∧ k + m ≤ x.held.length + 1 ∧
        emitted t { x with held := x.held ++ [(c.pts, c.token)] } c.ctx k m) ∧
      (c.ok = true → c.opc = 2 → ∃ t k m, exec .flush s = .next t ∧ taken t ∧ k + m = x.held.length ∧ emitted t x c.ctx k m) ∧
      (c.ok = true → c.opc = 3 → ∃ t, exec .decoderReset s = .next t ∧ taken t ∧ t.dctx c.ctx = { x with out := 0, held := [], emit := 0 } ∧
        SameMemory s t)) ∧
    (s.decWaits e = none → exec .decodeResume s = .next s) ∧
    (∀ c, s.decWaits e = some c → (s.dctx c).emit ≤ (s.dctx c).held.length →
      ∃ t k m, exec .decodeResume s = .next t ∧ k + m = (s.dctx c).emit ∧ 0 < k ∧ emitted t (s.dctx c) c k m) ∧
    (s.fleet.recovery = true ∨ s.fleet.test.level = 2 → s.decoderTurn = none)

/-- R113, R114, R414: the frame that a context emits into its open slot: the picture's bytes at the slot's picture address; at its map address the change map of the
frame's number, its cells concealed only where STATUS says so; at its record address FRAME, STATUS, PTS, TOKEN and the picture's address; and VERSION of SOBJ one
higher, unless SOBJ is 0; nothing else in HBM. What picture, cells and STATUS are, and which held frame comes first, is free (log 14). -/
def Claims.FramesEmitted : Prop :=
  ∀ (s : State) (c : Nat),
    let e := s.cur.arg
    let x := s.dctx c
    let slot := s.gRead 0 x.slotAddr 32
    let pa := bnat slot 0 8
    let ma := bnat slot 8 8
    let ra := bnat slot 16 8
    let va := x.fld 32 8
    let n := (x.width + 15) / 16 * ((x.height + 15) / 16)
    let spans : List (Nat × Nat) := [(pa, x.picSize 10), (ma, 32 + 8 * n), (ra, 32)] ++ if va = 0 then [] else [(va, 8)]
    s.decWaits e = some c → x.emit = 1 → x.held ≠ [] → x.slotAddr + 32 ≤ Config.hbmSize → (∀ r ∈ spans, r.1 + r.2 ≤ Config.hbmSize) →
    spans.Pairwise (fun p q => p.1 + p.2 ≤ q.1 ∨ q.1 + q.2 ≤ p.1) → Memory.wf s.mem.hbm = true → (∀ a k, s.armedAt 0 a k = []) →
    (∀ a, ¬ Claims.keptArmed s 0 a) →
      ∃ t depth key all status pic pts token cells, exec .decodeResume s = .next t ∧
        (depth = 8 ∨ depth = 10) ∧ (x.codec = 0 → depth = 8) ∧ status < 3 ∧ pic.length = x.picSize depth ∧ (pts, token) ∈ x.held ∧ cells.length = n ∧
        (status = 0 → ∀ y ∈ cells, y.hidden = false) ∧ (status = 1 → 0 < n → ∃ y ∈ cells, y.hidden = true) ∧
        (let holds (a : Nat) (bs : List Byte) : Prop := ∀ i, i < bs.length → t.gByte 0 (a + i) = lget bs i 0
         holds pa pic ∧ holds ma (changeMap x x.out depth key all cells) ∧
         holds ra (leBytes 4 (x.out % 2 ^ 32) ++ leBytes 1 status ++ leBytes 3 0 ++ leBytes 8 pts.toNat ++ leBytes 8 token.toNat ++ leBytes 8 pa)) ∧
        (va ≠ 0 → t.gNat 0 va 8 = (s.gNat 0 va 8 + 1) % 2 ^ 64) ∧
        (∀ a, (∀ r ∈ spans, a < r.1 ∨ r.1 + r.2 ≤ a) → t.gByte 0 a = s.gByte 0 a) ∧
        (t.dctx c).out = x.out + 1 ∧ (t.dctx c).held.length + 1 = x.held.length

/-- R113, R114, R414: a change map has the frame's number, its cells' extent, DEPTH, and 8 bytes a cell. In an IDR, I or key frame INTRA is set in the header and in
every cell; SCUT is set, in the header and in every cell, when the frame is not INTRA and at least half its cells are intra-coded. A cell that is
intra-coded or was concealed carries INTRA and NOREF; a vector of a reference to the previous frame, list 0 before list 1, is given in quarter
samples, saturated to 16 bits (AV1's eighths halved to the nearest, ties to even), and without one NOREF is set and the vector is 0; ENERGY is the
residual sum over 2^(DEPTH-8), saturated, and 0 with SKIP. That concealed cells count for SCUT, and that INTRA of another frame whose cells are all
intra-coded is free, is the model's (log 14). -/
def Claims.ChangeMaps : Prop :=
  ∀ (c : DecCtx) (frame depth : Nat) (key all : Bool) (cells : List DecCell), depth = 8 ∨ depth = 10 →
    let m := changeMap c frame depth key all cells
    let cw := (c.width + 15) / 16
    let ch := (c.height + 15) / 16
    let intra (x : DecCell) : Bool := key || x.intra || x.hidden
    let hdr := bnat m 8 2
    m.length = 32 + 8 * cells.length ∧ bnat m 0 4 = frame % 2 ^ 32 ∧ bnat m 4 2 = cw ∧ bnat m 6 2 = ch ∧ bnat m 10 1 = depth ∧ hdr < 4 ∧
    (key = true → hdr % 2 = 1) ∧ (hdr % 2 = 1 → ∀ x ∈ cells, intra x = true) ∧
    (hdr / 2 % 2 = 1 ↔ hdr % 2 = 0 ∧ cw * ch ≤ 2 * (cells.filter intra).length) ∧
    ∀ j x, cells[j]? = some x →
      let o := 32 + 8 * j
      let f := bnat m (o + 6) 2
      let ref (l : Option (Bool × Int × Int)) : Option (Int × Int) := match l with | some (true, v) => some v | _ => none
      let vec : Option (Int × Int) := if intra x then none else (ref x.l0).or (ref x.l1)
      let component (at_ : Nat) (v : Int) : Prop := ∃ r : Int, (c.codec ≠ 2 → r = v) ∧
        (c.codec = 2 → 2 * r = v ∨ (r % 2 = 0 ∧ (2 * r = v + 1 ∨ 2 * r = v - 1))) ∧
        (bnat m at_ 2 : Int) = (max (-32768) (min 32767 r)) % 65536
      f < 16 ∧ (f % 2 = 1 ↔ intra x = true) ∧ (f / 2 % 2 = 1 ↔ x.skip = true) ∧ f / 4 % 2 = hdr / 2 % 2 ∧ (f / 8 % 2 = 1 ↔ vec = none) ∧
      bnat m (o + 4) 2 = (if x.skip then 0 else min 65535 (x.resid / 2 ^ (depth - 8))) ∧
      (vec = none → bnat m o 4 = 0) ∧ ∀ p q, vec = some (p, q) → component o p ∧ component (o + 2) q

/-! ## Boot and the fleet (R416 to R434) -/

/-- R417: writing the boot state: the copy that does not govern takes it with SEQ one higher, and governs. -/
def Claims.BootStates : Prop :=
  ∀ (flash : Memory) (b : BootState), Memory.wf flash = true → b.seq = (bootState flash).seq → b.seq + 1 < 2 ^ 32 → b.pref < 2 → b.tries.1 < 256 → b.tries.2 < 256 →
    (let x := b.bytes
     x.length = 20 ∧ bnat x 0 4 = b.seq ∧ bnat x 4 1 = b.pref ∧ bnat x 5 1 = b.tries.1 ∧ bnat x 6 1 = b.tries.2 ∧ bnat x 7 1 = bit b.healthy.1 ∧
     bnat x 8 1 = bit b.healthy.2 ∧ bnat x 9 7 = 0 ∧ bnat x 16 4 = crc32 (x.take 16)) ∧
    (∀ x y, bootCopy flash 0 = some x → bootCopy flash 1 = some y → x.seq ≠ y.seq → bootState flash = if x.seq < y.seq then y else x) ∧
    bootState (writeBoot flash b) = { b with seq := b.seq + 1 } ∧ Memory.wf (writeBoot flash b) = true ∧
    ∀ a, 0x2000 ≤ a → mread (writeBoot flash b) a = mread flash a

/-- R417, R419: the slot that the boot ROM takes verifies, and is healthy or has been tried fewer than three times; PREF's is taken when it qualifies. A slot that is
not healthy is booted with its TRIES one higher in the boot state; a healthy one leaves the boot state as it is. A part with none goes into
recovery, with the red lamp. The boot ROM runs once after a reset. The host cores that an image starts stand at its addresses (log 98).
Which image verifies rests on the vendor's key hash, a constant without a value (log 15). -/
def Claims.Boots : Prop :=
  ∀ (s : State),
    let f := s.fleet
    let b := bootState f.flash
    let fit (n : Nat) : Prop := f.verifies n = true ∧ (b.healthyOf n = true ∨ b.triesOf n < 3)
    (f.booted = true → exec .powerOn s = .next s) ∧
    (f.booted = false → fit b.pref → ∃ t, exec .powerOn s = .next t ∧ t.fleet.booted = true ∧ t.fleet.recovery = false ∧ t.fleet.slot = b.pref) ∧
    (f.booted = false → ¬ fit b.pref → fit (1 - b.pref) →
      ∃ t, exec .powerOn s = .next t ∧ t.fleet.booted = true ∧ t.fleet.recovery = false ∧ t.fleet.slot = 1 - b.pref) ∧
    (f.booted = false → ¬ fit b.pref → ¬ fit (1 - b.pref) → ∃ t, exec .powerOn s = .next t ∧ t.fleet.booted = true ∧ t.fleet.recovery = true ∧
      t.fleet.test.lamp = 4 ∧ t.fleet.flash = f.flash) ∧
    (f.booted = false → fit b.pref ∨ fit (1 - b.pref) → Memory.wf f.flash = true → b.seq + 1 < 2 ^ 32 → ∀ t, exec .powerOn s = .next t →
      (b.healthyOf t.fleet.slot = true → bootState t.fleet.flash = b) ∧
      (b.healthyOf t.fleet.slot = false →
        bootState t.fleet.flash = { b.set t.fleet.slot (b.triesOf t.fleet.slot + 1) false with seq := b.seq + 1 }) ∧
      ∀ k a, k < 8 → Config.hartStart k = some a → (t.hart k).running = true ∧ (t.hart k).pc = a)

/-- R420, R433: an image that marks itself healthy is preferred, with no tries, and counter 0 rises to the smaller of the SVNs of the images that
verify; the transfer of an update begins, one at a time, and until it ends no more than a part of it stands in the flash; then its bytes stand
there, an image's in the slot that did not boot, and the image is verified; an activation makes it the preferred one and resets the part. How
long a transfer takes and what stands in the flash until it ends is free (log 15). -/
def Claims.Updates : Prop :=
  ∀ (s : State) (bs : List Byte),
    let f := s.fleet
    (f.booted = false ∨ f.recovery = true → exec .healthy s = .next s) ∧
    (f.booted = true → f.recovery = false → ∃ t, exec .healthy s = .next t ∧ f.ctr0 ≤ t.fleet.ctr0 ∧
      (Memory.wf f.flash = true → t.fleet.ctr0 = max f.ctr0 (match f.verifies 0, f.verifies 1 with
        | true, true => min (imgSvn f.flash 0) (imgSvn f.flash 1)
        | true, false => imgSvn f.flash 0
        | false, true => imgSvn f.flash 1
        | false, false => 0)) ∧
      t.fleet.flash = writeBoot f.flash { (bootState f.flash).set f.slot 0 true with pref := f.slot }) ∧
    let place (capsule : Bool) : Nat × Nat := if capsule then (0x100000, 0x40000) else (if f.slot = 1 then 0x1000000 else 0x2000000, 0x1000000)
    (∀ c, f.booted = false ∨ f.update ≠ none → exec (.pldmUpdate c bs) s = .next s) ∧
    (∀ c, f.booted = true → f.update = none → f.slot < 2 → ∃ t n u, exec (.pldmUpdate c bs) s = .next t ∧
      t.fleet.flash = mwriteL f.flash (place c).1 (bs.take n) ∧ n ≤ (place c).2 ∧ t.fleet.update = some u ∧ u.capsule = c ∧ u.bytes = bs ∧ s.tide ≤ u.due ∧
      (c = true → t.fleet.verified = f.verified) ∧ (c = false → t.fleet.verified = false)) ∧
    (∀ u, f.update = some u → f.slot < 2 →
      (s.tide < u.due → s.updateMove = none) ∧
      (u.due ≤ s.tide → ∃ t, s.fwMove = some t ∧ t.fleet.update = none ∧ t.fleet.head = f.head + 1 ∧
        t.fleet.flash = mwriteL f.flash (place u.capsule).1 (u.bytes.take (place u.capsule).2) ∧
        t.fleet.verified = if u.capsule then f.verified else t.fleet.verifies (1 - f.slot))) ∧
    (f.verified = false → exec .activation s = .next s) ∧
    (f.verified = true → ∃ t, exec .activation s = .next t ∧ t.fleet.booted = false ∧ t.cores = State.reset.cores ∧ t.sched = State.reset.sched ∧
      t.fleet.flash = writeBoot f.flash { (bootState f.flash).set (1 - f.slot) 0 false with pref := 1 - f.slot })

/-- R417, R421, R432, R433: a reset leaves the part as at reset but for its flash, its monotonic counters, the owner's key, host memory, and HBM
while the compute die has power (log 18); a loss of power empties HBM too. -/
def Claims.Resets : Prop :=
  ∀ (s : State), ∃ t u, exec .reset s = .next t ∧ exec .powerLoss s = .next u ∧
    (∀ x ∈ [t, u], x.tide = 0 ∧ x.cores = State.reset.cores ∧ x.gangs = [] ∧ x.gops = [] ∧ x.saves = [] ∧ x.sched = State.reset.sched ∧ x.apers = State.reset.apers ∧
      x.pilot = State.reset.pilot ∧ x.fleet.booted = false ∧ x.fleet.flash = s.fleet.flash ∧ x.fleet.ctr0 = s.fleet.ctr0 ∧ x.fleet.ctr1 = s.fleet.ctr1 ∧
      x.mem.pcie = s.mem.pcie ∧ x.mem.sp3 = State.reset.mem.sp3) ∧
    t.mem.hbm = (if s.fleet.dieOn then s.mem.hbm else []) ∧ u.mem.hbm = []

/-- R423: a piece of the certificates is sent from flash; a challenge while another is in progress is answered with status 3; else its evidence, which ends with the
alias key's signature and carries the nonce, is due within 12 s, and is sent then (the order of its fields is log 15). -/
def Claims.Attests : Prop :=
  ∀ (s : State) (off len : Nat) (nonce : List Byte),
    exec (.getCerts off len) s = .next (s.out (.response (mreadN s.fleet.flash (0x10000 + off) (min (len % 65536) (0x10000 - off))))) ∧
    (s.fleet.answer ≠ none → exec (.challenge nonce) s = .next (s.out (.response [3, 0]))) ∧
    (s.fleet.answer = none → nonce.length = 32 → ∃ t m r due, exec (.challenge nonce) s = .next t ∧ r.length = 24 ∧ t.io = s.io ∧
      t.fleet.answer = some (due, m ++ slhSign s.fleet.alias_ m r) ∧ s.tide ≤ due ∧ due ≤ s.tide + 12000000 * s.fleet.clock ∧
      m.drop (m.length - 32) = nonce ∧ m.take 4 = leBytes 4 Config.romVersion.toNat) ∧
    ∀ due r, s.fleet.answer = some (due, r) →
      (s.tide < due → s.answerMove = none) ∧
      (due ≤ s.tide → s.updateMove = none → ∃ t, s.fwMove = some t ∧ t.fleet.answer = none ∧ t.io.outs = s.io.outs ++ [.response r] ∧ SameMemory s t)

/-- R430 to R432: a press of the TEST switch starts the basic or the full test, which stops the taking of FRAMEs, and lights the lamp; while a
test runs or an update is transferred, and in recovery, it is logged only. A basic test takes an idle core at a time, a full one all of its cores
when no gang is left, with ERRINJ.EN set. The verdict takes failed cores out of service, sets the lamp, of which a flash that fails is a cause
too, and answers the mailbox that asked, with status 3 when its request was written over. The course of a test in time, and its verdict, are the
model's (log 65). -/
def Claims.SelfTests : Prop :=
  ∀ (s : State),
    let busy : Prop := s.fleet.test.level ≠ 0 ∨ s.fleet.update ≠ none ∨ s.fleet.recovery = true
    let starts (t : State) (n : Nat) : Prop := t.fleet.test.level = n ∧ t.fleet.test.mbox = none ∧ t.fleet.test.lamp = 1 ∧
      ∀ k, k ∈ t.fleet.test.todo ↔ k < 24 ∧ s.sched.failed.getLsbD k = false
    (busy → ∀ i ∈ ([.testButtonShort, .testButtonLong] : List Instr), ∃ t, exec i s = .next t ∧ t.fleet.test = s.fleet.test ∧
      t.fleet.head = s.fleet.head + 1) ∧
    (¬ busy →
      (∃ t, exec .testButtonShort s = .next t ∧ starts t 1 ∧ t.pilot = s.pilot) ∧
      (∃ t, exec .testButtonLong s = .next t ∧ starts t 2 ∧ t.pilot.fw.taking = false)) ∧
    (s.fleet.test.level = 0 → ∀ failed other, exec (.selfTestVerdict failed other) s = .next s) ∧
    (∀ t, s.fleet.test.on = [] → s.testMove = some t →
      t.fleet.test.on ≠ [] ∧ (∀ k ∈ t.fleet.test.on, k ∈ s.fleet.test.todo ∧ k ∉ t.fleet.test.todo ∧ (t.core k).mtx.eiEn = true) ∧
      (s.fleet.test.level = 1 → ∃ k, t.fleet.test.on = [k] ∧ (s.core k).run.berth = none) ∧
      (s.fleet.test.level ≠ 1 → s.gangs = [] ∧ t.fleet.test.on = s.fleet.test.todo)) ∧
    (s.fleet.test.level ≠ 0 → ∀ failed other,
      let out := s.sched.failed ||| failed
      let n := (coresOf out).length
      ∃ t, exec (.selfTestVerdict failed other) s = .next t ∧ t.sched.failed = out ∧ t.fleet.test.level = 0 ∧
        t.fleet.test.lamp = (if other = true ∨ 4 ≤ n ∨ s.fleet.flashBad s.fleet.test.level = true then 3 else if n = 0 then 0 else 2) ∧
        t.pilot.fw.taking = true ∧ t.fleet.test.on = [] ∧
        ∀ m, s.fleet.test.mbox = some m → (s.mbox m).req.length = 64 →
          ((s.mbox m).clash = true → bnat (t.mbox m).resp 2 2 = 3) ∧
          ((s.mbox m).clash = false → bnat (t.mbox m).resp 2 2 = 0 ∧ bnat (t.mbox m).resp 8 1 = t.fleet.test.lamp))

/-- R426, R427, R437: a refresh takes the measured values, counts failed cores, the last minute's completions of class 0 over their bound and the
last hour's correctable memory errors, and reports each sensor with its state; at 105 °C and above 400 MHz the compute clock falls, to no less
than 400 MHz; at 115 °C every gang stops and the compute die and HBM lose power. A limit is reached at its value (log 20). -/
def Claims.SensorsAndHeat : Prop :=
  ∀ (s : State),
    (∀ (die hbm inlet : Int) (power : Nat), ∃ t, exec (.sensorRefresh die hbm inlet power) s = .next t ∧
      t.fleet.sensors.take 4 = [die, hbm, inlet, (power : Int)] ∧
      lget t.fleet.sensors 4 0 = (s.fleet.clock : Int) ∧ lget t.fleet.sensors 5 0 = ((coresOf s.sched.failed).length : Int) ∧
      lget t.fleet.sensors 6 0 = (s.since 60000000 s.fleet.lates : Int) ∧ lget t.fleet.sensors 7 0 = (s.since 3600000000 s.fleet.memErrs : Int) ∧
      t.fleet.ras = s.fleet.ras ∧ t.io.outs.length = s.io.outs.length + 8 ∧ t.fleet.fresh = 2 ∧
      .sensor 0 die (if 105 ≤ die then 2 else if 95 ≤ die then 1 else 0) ∈ t.io.outs ∧
      .sensor 1 hbm (if 95 ≤ hbm then 2 else if 85 ≤ hbm then 1 else 0) ∈ t.io.outs) ∧
    (∀ n ts f, s.fleet.clocks = [(0, f)] → s.since n ts = (ts.filter fun x => s.tide - x < n * f).length) ∧
    (∀ n ts t₁ f₁ f₂, s.fleet.clocks = [(t₁, f₁), (0, f₂)] →
      s.since n ts = (ts.filter fun x => if x < t₁ then (t₁ - x) * f₁ + (s.tide - t₁) * f₂ < n * (f₁ * f₂) else s.tide - x < n * f₁).length) ∧
    (s.fleet.dieTemp < 105 ∨ s.fleet.clock ≤ 400 → ∃ t, exec .thermalCritical s = .next t ∧ t.fleet.clock = s.fleet.clock ∧ t.fleet.ras = s.fleet.ras) ∧
    (105 ≤ s.fleet.dieTemp → 400 < s.fleet.clock → ∃ t, exec .thermalCritical s = .next t ∧ 400 ≤ t.fleet.clock ∧ t.fleet.clock < s.fleet.clock ∧
      t.fleet.head = s.fleet.head + 1 ∧ t.gangs = s.gangs) ∧
    (s.fleet.dieTemp < 115 → ∃ t, exec .thermalShutdown s = .next t ∧ t.fleet.dieOn = s.fleet.dieOn ∧ t.gangs = s.gangs ∧ t.cores = s.cores) ∧
    (115 ≤ s.fleet.dieTemp → ∃ t, exec .thermalShutdown s = .next t ∧ t.fleet.dieOn = false ∧ t.gangs = [] ∧ t.cores = State.reset.cores ∧ t.mem.hbm = [] ∧
      t.mem.pcie = s.mem.pcie)

/-- R434: over the cap the clock falls but not below the cap's floor, and at the floor gangs of class 2 and 3 are held; within the cap the clock
does not fall, and nothing stays held for it. A clock below the floor is raised to it or above, but for heat. The floor between two rows of the
table is the lower row's (log 20). -/
def Claims.PowerCaps : Prop :=
  ∀ (s : State),
    let f := s.fleet
    let fl := if 150 ≤ f.cap then 1900 else if 120 ≤ f.cap then 1500 else if 100 ≤ f.cap then 1200 else 800
    (f.cap < f.power → fl < f.clock → ∃ t, exec .powerCapControl s = .next t ∧ fl ≤ t.fleet.clock ∧ t.fleet.clock < f.clock ∧ t.gangs = s.gangs) ∧
    (f.cap < f.power → f.clock ≤ fl → ∃ t, exec .powerCapControl s = .next t ∧ t.fleet.clock = (if f.dieTemp < 105 then fl else f.clock) ∧
      t.fleet.heldBy = f.heldBy ++ s.capTargets) ∧
    (f.power ≤ f.cap → ∃ t, exec .powerCapControl s = .next t ∧ t.fleet.heldBy = [] ∧ f.clock ≤ t.fleet.clock ∧ t.fleet.clock ≤ max f.clock 1900 ∧
      (105 ≤ f.dieTemp → t.fleet.clock = f.clock) ∧ (f.dieTemp < 105 → fl ≤ t.fleet.clock))

/-- R57, R137, R155, R156: an uncorrectable error of a memory marks its granule and is logged in class 3; one of logic aborts the gang with
reason 1 and takes the core out of service; one that data carries holds the gang for a rollback, as the hold in force or, where its member is
stopped in none, the next does, or, when the phase has had one on any member, aborts it with reason 2. A correctable error is only logged; an
error in a line fetched ahead poisons the line. A log entry of SP3 or HBM has the physical address (R389; SP1 and SP2 have none, log 20). -/
def Claims.Errors : Prop :=
  ∀ (s : State) (k lvl addr : Nat),
    let berth := (s.core k).run.berth
    let at_ (c : ErrClass) : ErrSite := { cls := c, core := k, lvl := lvl, addr := addr }
    let pa := if lvl = 2 then 0x2000000000 + addr else addr
    (∃ t, exec (.uncorrectableError (at_ .memory)) s = .next t ∧ Claims.Logged s t 3 k (berth.getD 0xFF) lvl pa ∧
      (lvl = 0 → addr / 64 ∈ (t.core k).mem.sp1Poi) ∧ (lvl = 2 → addr / 64 ∈ t.mem.sp3Poi) ∧ (lvl = 3 → addr / 64 ∈ t.mem.hbmPoi) ∧ SameMemory s t) ∧
    (∃ t, exec (.uncorrectableError (at_ .logic)) s = .next t ∧ (k < 24 → t.sched.failed.getLsbD k = true) ∧
      (∀ n, (t.group n).2.getLsbD k = false) ∧ ∀ b g, berth = some b → s.gang b = some g → Claims.Aborted g 1 t) ∧
    (∀ b g, berth = some b → s.gang b = some g → (∃ m ∈ g.members, (s.core m).run.dborne = true) →
      ∃ t, exec (.uncorrectableError (at_ .dataBorne)) s = .next t ∧ Claims.Aborted g 2 t) ∧
    (∀ b g, berth = some b → s.gang b = some g → (∀ m ∈ g.members, (s.core m).run.dborne = false) → (s.core k).run.stop = none →
      ∃ t g' h, exec (.uncorrectableError (at_ .dataBorne)) s = .next t ∧ t.gang b = some g' ∧ g'.hold = some h ∧ h.rb = true ∧
        (t.core k).run.dborne = true ∧ (t.core k).run.stop.isSome = true ∧ Claims.Logged s t 3 k b 2 addr) ∧
    (∀ b g, berth = some b → s.gang b = some g → (∀ m ∈ g.members, (s.core m).run.dborne = false) → (s.core k).run.stop ≠ none →
      ∃ t, exec (.uncorrectableError (at_ .dataBorne)) s = .next t ∧ (k < 24 → (t.core k).run.dborne = true) ∧
        (∀ h, g.hold = some h → ∃ g' h', t.gang b = some g' ∧ g'.hold = some h' ∧ h'.rb = true ∧ h'.srcs = h.srcs) ∧
        (g.hold = none → k < 24 → (t.core k).run.errDue = true)) ∧
    (∃ t, exec (.correctableError (at_ .memory)) s = .next t ∧ Claims.Logged s t 1 k (berth.getD 0xFF) lvl pa ∧ t.fleet.memErrs = s.fleet.memErrs ++ [s.tide] ∧ t.cores = s.cores ∧ t.mem = s.mem ∧
      t.gangs = s.gangs) ∧
    (∃ t, exec (.fetchAheadError k addr) s = .next t ∧ addr / 64 ∈ (t.core k).mem.scorePoi ∧ Claims.Logged s t 2 k (berth.getD 0xFF) 0 addr ∧
      (t.core k).run = (s.core k).run ∧ SameMemory s t)

/-! ## The part as a whole -/

/-- R13, R42, R100, R146, R158, R363, R375, R377, R378, R384, R400, R404, R421, R434: the reset values that the spec gives; and HENTRY, which an
image gives (R140), is 0 until one does (the model's choice, log 4). -/
def Claims.ResetState : Prop :=
  let s := State.reset
  (∀ k, k < 24 → let c := s.core k
    c.run.berth = none ∧ c.modes.misscnt = 0 ∧ c.modes.late = false ∧ c.modes.miss = false ∧ c.modes.retrymax = 2 ∧ c.modes.pdl = 2000000 ∧
    c.modes.phase = 0 ∧ c.modes.rcnt = 0 ∧ c.modes.chkint = false ∧ c.modes.cancel = false ∧ c.modes.refuse = false ∧ c.modes.yieldreq = false ∧
    c.modes.dreads = 0 ∧ c.params.n8 = 512 ∧ c.params.n4 = 2048 ∧ c.params.cfgclamp = false ∧ c.params.hentry = 0 ∧ c.params.oob = 0 ∧
    c.trec.cause = 0 ∧ c.trec.info = 0 ∧ c.perf = List.replicate 8 0 ∧ c.mtx.eiEn = false ∧ c.mtx.ckmin = 0 ∧ c.vec.flags = 0) ∧
  (∀ k, k < 4 → lget s.sched.slice k 0 = 1900000 ∧ lget s.sched.runlim k 0 = 0 ∧ lget s.sched.classw k 0 = 1) ∧ s.sched.savecost = 0 ∧
  s.sched.gterr = false ∧ s.sched.vnow = 0 ∧ s.sched.classen = 15 ∧ s.sched.rank.lderr = false ∧ s.sched.pifo = [] ∧
  (∀ b, b < 32 → (s.bind b).state = 0) ∧
  (∀ q ∈ s.sched.queues, q.ring.state = 0 ∧ q.ring.head = 0 ∧ q.ring.tail = 0 ∧ q.ring.tailerr = false) ∧ (∀ g ∈ s.sched.groups, g.1 = false) ∧
  (∀ m, m < 16 → (s.mbox m).door = false ∧ (s.mbox m).busy = false ∧ (s.mbox m).done = false ∧ (s.mbox m).owner = decide (8 ≤ m)) ∧
  s.io.hostBase = 0x1400000000 ∧ s.io.hostLen = 0x400000000 ∧ s.fleet.cap = 200 ∧ s.fleet.booted = false ∧ s.fleet.ras = [] ∧ s.tide = 0

/-- R178 to R200, R372, R393: words written out from the encodings decode to the instructions that they stand for. -/
def Claims.DecodeWords : Prop :=
  decodeSeq 0b000000_00101_00011_00100_00000000001 = .sub 5 3 4 ∧
  decodeSeq 0b000100_11111_00010_1111111111111111 = .addi 31 2 0xFFFF ∧
  decodeSeq 0b100000_00001_00010_1111111111111110 = .beq 1 2 0xFFFE ∧
  decodeSeq 0b111101_01_00010_00011_00000000000100 = .play 1 2 3 4 ∧
  decodeSeq 0b000001_00000_00000_0000000000000000 = .reservedSequencerEncoding 0x04000000 ∧
  decodeEng .vec 0b00000000_000011_0010_000101_0000011_0000100_01_1_1_000_000 =
    .vadd { rep := 3, step := 2, vd := 5, va := 3, vb := 4, rm := 1, sat := true, msk := true, t := 0, x := 0 } ∧
  decodeEng .mtx 0b00000000_000000_0000_10_0001_0010_0011_011_1_0_1_0000000101 =
    .mmul { rep := 0, step := 0, tile := 2, a := 1, b := 2, c := 3, prof := 3, rm := true, clamp := false, acc := true, arg := 5 } ∧
  decodeEng .data 0b00000001_000001_0000_0001_0010_0000_10_1_0_00000000000000 =
    .dload { rep := 1, step := 0, dst := 1, src := 2, aux := 0, cls := 2, phased := true, rel := false, arg := 0 } ∧
  decodeEng .mtx 0b11110010_000000_0000_00000000000000000000000111_0000 = .wait .mtx { rep := 0, step := 0, arg := 7, mask := 0 } ∧
  decodeXquay 0b0000001_00111_00110_001_00101_0001011 = some (.qbfxS 5 6 7) ∧
  decodeXquay 0b0000000_00111_00110_000_00101_0101011 = some (.qwait 5 6 7) ∧
  decodeRank 0b0011_001_010_011_0000000000000000000 = some (.rankAdd 1 2 3) ∧
  decodeRank 0b0001_111_000000_1000000000000000001 = some (.rankLdi 7 0x40001) ∧
  decodeRank 0b0011_001_010_011_0000000000000000001 = none

/-- R178 to R185: the sequencer's decoder reads back every well-formed sequencer instruction from its word, with every operand at every value;
and a word that it reads as a well-formed instruction is that instruction's word. -/
def Claims.SequencerRoundTrip : Prop :=
  (∀ (i : Instr) (w : Nat), i.wf = true → encode i = some (32, w) → Claims.isXquay i = false → Claims.isRank i = false →
    w < 2 ^ 32 ∧ decodeSeq (BitVec.ofNat 32 w) = i) ∧
  ∀ w : BitVec 32, (decodeSeq w).wf = true → encode (decodeSeq w) = some (32, w.toNat)

/-- R186 to R200: an engine reads back every well-formed word of its own from its 48 bits, with every operand at every value; and 48 bits that it
reads as a well-formed word are that word's. -/
def Claims.EngineRoundTrip : Prop :=
  (∀ (i : Instr) (w : Nat), i.wf = true → encode i = some (48, w) → w < 2 ^ 48 ∧ ∃ u, decodeEng u (BitVec.ofNat 48 w) = i) ∧
  ∀ (u : Eng) (w : BitVec 48), (decodeEng u w).wf = true → encode (decodeEng u w) = some (48, w.toNat)

/-- R372, R393: Xquay and rank instructions are read back from their words; and words that are read as such are theirs. -/
def Claims.XquayRankRoundTrip : Prop :=
  (∀ i, Claims.isXquay i = true → ∃ w, encode i = some (32, w) ∧ w < 2 ^ 32 ∧ decodeXquay (BitVec.ofNat 32 w) = some i) ∧
  (∀ i, Claims.isRank i = true → i.wf = true → ∃ w, encode i = some (32, w) ∧ w < 2 ^ 32 ∧ decodeRank (BitVec.ofNat 32 w) = some i) ∧
  (∀ (w : BitVec 32) (i : Instr), decodeXquay w = some i → encode i = some (32, w.toNat)) ∧
  ∀ (w : BitVec 32) (i : Instr), decodeRank w = some i → i.wf = true ∧ encode i = some (32, w.toNat)

/-- R18, R19, R34 to R36, R204, R373, R394: what a step does. An input whose time has come acts; else, of what is due in the part (boot, gangs
and their cores in order of hops, dispatch, queues, rank engine, fetchers, Pilot cores, decoders, sensors, firmware), the first. A member that
stands at its issue cycle executes the instruction that its bytes at PC decode to (score memory below the Pilot firmware's handler, log 88), an
engine the word at its place in the passage, the rank engine that of its slot, a Pilot core the Xquay instruction at its pc; then a Pilot core
executes the base instruction at its pc (log 12), then a host core the instruction at its pc (log 98), then a data word whose sources have
changed reads them anew (R298), then a read of SP3 that a fence delays is performed (R201; log 82), then the firmware does what is due of its
own; and when nothing is due a tide cycle passes. That inputs act first and in the order of their list is log 69, the order of what is due in a
tide cycle log 2, and where a test word is placed log 18: these are the model's choices. -/
def Claims.StepRunsDecoded : Prop :=
  ∀ (s : State),
    (∀ t i, s.turn = some (t, i) → step s = exec i t) ∧
    (∀ t, s.turn = none → s.baseMove = some t → step s = .next t) ∧
    (s.turn = none → s.pilotReady 0 = true → (∀ w, s.rvFetch 0 = some w → decodeXquay w = none) → step s = .next (s.rvStep 0)) ∧
    (∀ t, s.turn = none → s.baseMove = none → s.hartMove = some t → step s = .next t) ∧
    (∀ t, s.turn = none → s.baseMove = none → s.hartMove = none → s.readMove = some t → step s = .next t) ∧
    (∀ t, s.turn = none → s.baseMove = none → s.hartMove = none → s.readMove = none → s.lateMove = some t → step s = .next t) ∧
    (∀ t, s.turn = none → s.baseMove = none → s.hartMove = none → s.readMove = none → s.lateMove = none → s.fwMove = some t → step s = .next t) ∧
    (s.turn = none → s.baseMove = none → s.hartMove = none → s.readMove = none → s.lateMove = none → s.fwMove = none → step s = .next s.tick) ∧
    (∀ (c : Core) (a n : Nat), a + n ≤ Config.pilotHandler → c.code a n = mnat c.mem.score a n) ∧
    (∀ x, (s.inputs.find? fun x => x.at_ ≤ s.tide) = some x → step s = exec x.instr { s with inputs := s.inputs.erase x, cur := x.cur }) ∧
    (∀ k,
      let c := s.core k
      let i := decodeSeq (BitVec.ofNat 32 (c.code c.seq.pc.toNat 4))
      (∀ x ∈ s.inputs, s.tide < x.at_) → s.fleet.booted = true → s.fleet.dieOn = true → (∀ g ∈ s.gangs, s.gangTurn g = none) →
      s.savingTurn = none → s.barrierTurn = none → (∀ o ∈ s.gops, s.opTurn o = none) → (∃ l r, s.byHop = l ++ k :: r ∧ ∀ j ∈ l, s.coreTurn j = none) →
      c.run.berth.isSome = true → c.run.started = true → c.run.stop = none → (∀ u, s.engWake k false u = none) → s.lateLoad k false = none →
      c.seq.next ≤ c.run.g → c.seq.wait = .none → c.seq.ended = false →
      (∀ x ∈ s.issuing k, 0 < x.1 → x.2.stops k = false ∧ x.2.missedBy k 0 = false) → (isFence i = true → (s.issuing k).length ≤ 1) →
      let v := (s.modCore k fun c => { c with seq := { c.seq with wait := .none } }).at_ k false .vec 0
      ∃ u, step s = exec i u ∧ ((∀ wd d a off, i ≠ .ldSp3 wd d a off) → u = v) ∧
        (u = v ∨ ∃ op l, u = { v with gops := v.gops ++ [op], nextId := v.nextId + 1, late := v.late ++ [l] } ∧ op.id = v.nextId ∧ l.id = v.nextId ∧
          l.instr = i)) ∧
    (∀ k (sh : Bool) (u : Eng),
      let v := s.at_ k sh u 0
      let e := v.eng u
      e.started = true → e.waiting = false → e.sacq = none → e.next ≤ v.clk → (u = .data → v.openBuild = none) → e.q ≠ [] →
      s.engTurn k sh u = some (v, decodeEng u (BitVec.ofNat 48 ((s.core k).wordAt e.wordAddr)))) ∧
    (∀ f w i, s.sched.rank.cur = some f → s.sched.rank.result = none → s.sched.rank.next ≤ s.tide →
      s.sched.rank.curProg[s.sched.rank.slot]? = some w → decodeRank w = some i → ∃ t, s.rankTurn = some (t, i) ∧ t.sched = s.sched) ∧
    (∀ w i, s.turn = s.xquayTurn → s.qwaitOver 0 = false → s.pilotWord 0 = some w → decodeXquay w = some i → ∃ t, step s = exec i t ∧ t.cur.arg = 0 ∧ t.pilot = s.pilot) ∧
    (∀ w, w < 2 ^ 32 → tableSpace 32 w = 0 → ∃ t, step (State.reset.withFetchWord 32 w) = exec (decodeSeq (BitVec.ofNat 32 w)) t ∧ t.cur.core = 0 ∧
      t.cur.shadow = false ∧ t.me.seq.pc = 0 ∧ t.me.run.stop = none)

/-- R18, R139, R394: every instruction and event answers a next state in every state, and so does every step; what a rule makes illegal is a trap, and none ends
in a fault or a refusal. -/
def Claims.EveryMeaningAnswers : Prop :=
  (∀ (i : Instr) (s : State), ∃ t, exec i s = .next t) ∧ ∀ s, ∃ t, step s = .next t

/-- R7, R39, R54 (log 1): a read after a write gives the byte written and leaves every other byte, and a write keeps the canonical form. -/
def Claims.ReadAfterWrite : Prop :=
  ∀ (m : Memory) (a : Nat) (bs : List Byte), m.wf = true →
    (mwriteL m a bs).wf = true ∧ (∀ i, i < bs.length → mread (mwriteL m a bs) (a + i) = lget bs i 0) ∧
    (∀ x, x < a ∨ a + bs.length ≤ x → mread (mwriteL m a bs) x = mread m x) ∧
    (∀ m' : Memory, m'.wf = true → (∀ x, mread m x = mread m' x) → m = m') ∧
    (∀ n v, mnat (mwriteL m a (leBytes n v)) a n = v % 2 ^ (8 * n))

/-- The memories of the reset state are canonical (log 1). -/
def Claims.MemoryCanonicalAtReset : Prop := State.reset.memOk

/-- Every step keeps every memory canonical (log 1). -/
def Claims.MemoryStaysCanonical : Prop := ∀ (s t : State), s.memOk → step s = .next t → t.memOk

/-! # The obligations -/

/-- The reset values that the spec gives, and the model's HENTRY (log 4). -/
def Obligations.ResetState : Prop :=
  Claims.ResetState

/-- Words written out from the encodings decode to the instructions they stand for. -/
def Obligations.DecodeWords : Prop :=
  Claims.DecodeWords

/-- The sequencer's decoder and the encoder agree, with every operand at every value. -/
def Obligations.SequencerRoundTrip : Prop :=
  Claims.SequencerRoundTrip

/-- The engines' decoders and the encoder agree, with every operand at every value. -/
def Obligations.EngineRoundTrip : Prop :=
  Claims.EngineRoundTrip

/-- The decoders of Xquay and rank instructions agree with the encoder. -/
def Obligations.XquayRankRoundTrip : Prop :=
  Claims.XquayRankRoundTrip

/-- A step runs what is first due, a member the instruction that its bytes at PC decode to. -/
def Obligations.StepRunsDecoded : Prop :=
  Claims.StepRunsDecoded

/-- Every instruction and event, and every step, answers a next state in every state. -/
def Obligations.EveryMeaningAnswers : Prop :=
  Claims.EveryMeaningAnswers

/-- A read after a write gives the byte written and leaves the rest; equal contents are equal data (log 1). -/
def Obligations.ReadAfterWrite : Prop :=
  Claims.ReadAfterWrite

/-- The memories of the reset state are canonical (log 1). -/
def Obligations.MemoryCanonicalAtReset : Prop :=
  Claims.MemoryCanonicalAtReset

/-- Every step keeps every memory canonical (log 1). -/
def Obligations.MemoryStaysCanonical : Prop :=
  Claims.MemoryStaysCanonical

/-- Results of the integer ALU group, which go on their way and land in sd, or nowhere for s0. -/
def Obligations.AluResults : Prop :=
  Claims.AluRegisterResults ∧ Claims.AluCounts ∧ Claims.RegisterWriteLands

/-- Results of the immediate instructions. -/
def Obligations.AluImmediates : Prop :=
  Claims.AluImmediateResults

/-- What register instructions leave unchanged, and when a result is seen. -/
def Obligations.RegisterForms : Prop :=
  Claims.RegisterFormsFrame ∧ Claims.LatencyIsKept

/-- Branches: conditions, targets, the delay slot, and the faults of a target. -/
def Obligations.Branches : Prop :=
  Claims.BranchResults ∧ Claims.TransferFaults ∧ Claims.DelaySlot

/-- Jumps and links, and a branch in a delay slot. -/
def Obligations.JumpsAndSlots : Prop :=
  Claims.JumpResults ∧ Claims.BranchInSlot

/-- Loads and stores at SP1, SP2 and SP3: addresses, values and faults. -/
def Obligations.ScratchpadAccesses : Prop :=
  Claims.ScratchpadLoads ∧ Claims.ScratchpadStores ∧ Claims.ScratchpadFaults

/-- Where a store lands, and that its issue changes no memory. -/
def Obligations.StoresLand : Prop :=
  Claims.StoreLands ∧ Claims.PiecesLand ∧ Claims.StoresFrame

/-- Global loads and stores, apertures, and a load whose data are late. -/
def Obligations.GlobalAccessesAndBudgets : Prop :=
  Claims.GlobalAccesses ∧ Claims.GlobalPlaces ∧ Claims.ApertureChecks ∧ Claims.LoadBudgets

/-- MFS reads the register that its number names. -/
def Obligations.SystemReads : Prop :=
  Claims.SystemRegisterReads ∧ Claims.PlacementRegisters ∧ Claims.RegisterValues

/-- MTS writes under the access codes of each field. -/
def Obligations.SystemWrites : Prop :=
  Claims.SystemRegisterWrites ∧ Claims.WriteOneToClear ∧ Claims.ParametersClamp ∧ Claims.RegisterFields

/-- GBAR: who may name a group, the wait, and the release at G. -/
def Obligations.Barriers : Prop :=
  Claims.WaitsBegin ∧ Claims.WaitState ∧ Claims.BarrierReleases

/-- WAITG, PLAY, CHKERR, TRAP, NOTIFY and HALT. -/
def Obligations.WaitsPassagesAndEnds : Prop :=
  Claims.WaitsEnd ∧ Claims.PlayAppends ∧ Claims.PlayFull ∧ Claims.PlayFaults ∧ Claims.EndsAndTraps

/-- DSET and the fields of a descriptor. -/
def Obligations.Descriptors : Prop :=
  Claims.DescriptorSets ∧ Claims.DescriptorFields

/-- DBIND, its walk and its end, DUNBIND, and the unpinning of pages. -/
def Obligations.Bindings : Prop :=
  Claims.BindingBegins ∧ Claims.BindingEnds ∧ Claims.PagesUnpin

/-- SREL, SACQ, SWAIT and QFENCE, and the answer to a wait. -/
def Obligations.SyncAccesses : Prop :=
  Claims.SyncBegins ∧ Claims.SyncAddresses ∧ Claims.WaitAnswered

/-- What a home performs: writes, reads, releases and atomics. -/
def Obligations.Homes : Prop :=
  Claims.HomesPerform ∧ Claims.GlobalWriteBytes ∧ Claims.ReleaseAddsOne ∧ Claims.AtomicValues

/-- Taking a fault: what it saves, where it goes, and what it leaves. -/
def Obligations.Faults : Prop :=
  Claims.FaultEntry ∧ Claims.FaultFrame ∧ Claims.FaultInHandler

/-- Instructions from a poisoned line, or used where the table says no. -/
def Obligations.IllegalPlaces : Prop :=
  Claims.PoisonedLine ∧ Claims.WrongPlace

/-- A handler's start, its returns, and the registers that it stages. -/
def Obligations.Handlers : Prop :=
  Claims.HandlerEntry ∧ Claims.HandlerReturns ∧ Claims.StagedRegisters

/-- Escalation, fault posts and their answers, and the handler's deadline. -/
def Obligations.FaultService : Prop :=
  Claims.HandlerEscalates ∧ Claims.FaultPostAnswers ∧ Claims.HandlerDeadlines

/-- Integer and bit words of the vector engine. -/
def Obligations.VectorIntegers : Prop :=
  Claims.IntegerWords ∧ Claims.SubElements ∧ Claims.BitWords ∧ Claims.ImmediateWords

/-- Floating words, tables and conversions of the vector engine, and the values that they give. -/
def Obligations.VectorFloats : Prop :=
  Claims.FloatingWords ∧ Claims.TableWords ∧ Claims.Conversions ∧ Claims.FormatValues ∧ Claims.Rounding ∧ Claims.ExactArithmetic ∧ Claims.Minima ∧
  Claims.TableFunctions ∧ Claims.ElementConversions ∧ Claims.ConvertedLanes

/-- Compares, selection and the mask stack. -/
def Obligations.VectorCompares : Prop :=
  Claims.Compares ∧ Claims.CompareConditions ∧ Claims.FloatConditions ∧ Claims.MaskWords ∧ Claims.MaskStack

/-- Reductions, permutations and dot products. -/
def Obligations.VectorReductions : Prop :=
  Claims.Reductions ∧ Claims.Permutes ∧ Claims.DotProducts

/-- Vector loads, stores, indexed loads and table look-ups, their faults and the bytes they read or leave. -/
def Obligations.VectorMemories : Prop :=
  Claims.VectorMemory ∧ Claims.VectorMemoryFaults ∧ Claims.ElementBytes

/-- What a vector word leaves unchanged, and where its result lands. -/
def Obligations.VectorFrames : Prop :=
  Claims.VectorWordFrame ∧ Claims.VectorResultLands

/-- Passages, control words, repeats and refused words of an engine. -/
def Obligations.EngineControl : Prop :=
  Claims.PassageStarts ∧ Claims.ControlWords ∧ Claims.WaitExpires ∧ Claims.RepeatsAdvance ∧ Claims.WordsRefused

/-- Matrix and latent products, their faults and their accumulation. -/
def Obligations.MatrixProducts : Prop :=
  Claims.ProductWords ∧ Claims.ProductFaults ∧ Claims.IntegerProducts ∧ Claims.TilesAccumulate

/-- Loads of tiles and expander banks, and injected errors. -/
def Obligations.MatrixTiles : Prop :=
  Claims.MatrixLoads ∧ Claims.LoadedTiles ∧ Claims.ErrorsInjected

/-- Drains, checksum verdicts and recovery. -/
def Obligations.MatrixDrains : Prop :=
  Claims.DrainWords ∧ Claims.DrainOfNoTile ∧ Claims.DrainedValues ∧ Claims.DrainEntries ∧ Claims.Verdicts ∧ Claims.IntegerLines ∧
  Claims.RecoveryWords ∧ Claims.RecoveryEnds ∧ Claims.RetryEnds

/-- Block moves, global and coded loads, and stores of the data engine. -/
def Obligations.DataBlocks : Prop :=
  Claims.RepeatsIssue ∧ Claims.SourcesReread ∧ Claims.BlockOrigins ∧ Claims.TileMoves ∧ Claims.GlobalLoads ∧ Claims.CodedLoads ∧ Claims.GlobalStores ∧
  Claims.BlockWordsElse

/-- Gathers, scatters, out-of-range rows and multicasts. -/
def Obligations.DataGathers : Prop :=
  Claims.GatherRows ∧ Claims.Gathers ∧ Claims.Scatters ∧ Claims.GatherFaults ∧ Claims.OutOfRange ∧ Claims.Multicasts ∧ Claims.MulticastCopies

/-- Coders, transposes and fills, atomics and sync words of the data engine. -/
def Obligations.DataWords : Prop :=
  Claims.CoderWords ∧ Claims.LayoutWords ∧ Claims.AtomicWords ∧ Claims.AtomicPlaces ∧ Claims.DataSync

/-- Manifests: decisions, form, builder calls, reads, change maps and state updates. -/
def Obligations.Manifests : Prop :=
  Claims.TileDecisions ∧ Claims.ManifestForm ∧ Claims.FeedEntries ∧ Claims.ManifestCalls ∧ Claims.DirectoryChecks ∧
  Claims.BuildersServe ∧ Claims.ManifestLandings ∧ Claims.ManifestReads ∧ Claims.MapFetches ∧ Claims.StateUpdates

/-- The start of a gang, hold waves and the release. -/
def Obligations.GangsAndHolds : Prop :=
  Claims.GangStarts ∧ Claims.HoldWaves ∧ Claims.Releases ∧ Claims.RollbackRefused ∧ Claims.ReleaseWaves

/-- Completion, the completion record and the run limit. -/
def Obligations.GangEnds : Prop :=
  Claims.Completion ∧ Claims.RecordFormat ∧ Claims.RunLimits

/-- The outcomes of a phase point: commit, cancel, retry, refusal. -/
def Obligations.PhasePoints : Prop :=
  Claims.Commits ∧ Claims.Cancels ∧ Claims.Refusals

/-- Requests to yield, cooperative and forced saves, and the end of a save. -/
def Obligations.Preemption : Prop :=
  Claims.YieldRequests ∧ Claims.SavesFallDue ∧ Claims.YieldsGoOn ∧ Claims.CooperativeSaves ∧ Claims.ForcedSaves ∧ Claims.SavesEnd

/-- Landings of channel entries, credits, multicast copies and old values. -/
def Obligations.Landings : Prop :=
  Claims.ChannelLandings ∧ Claims.CopiesLand ∧ Claims.OldValuesLand

/-- Doorbells and states of a stream queue, its records and its interrupts. -/
def Obligations.QueueContexts : Prop :=
  Claims.Doorbells ∧ Claims.QueueStates ∧ Claims.PurgedRecords ∧ Claims.PacketsTaken ∧ Claims.RecordsLand ∧ Claims.Coalescing

/-- What each packet does at its fetch. -/
def Obligations.Packets : Prop :=
  Claims.Fetches ∧ Claims.NopPackets ∧ Claims.Frames ∧ Claims.Indirects ∧ Claims.Waitvs ∧ Claims.Marks

/-- The rank engine's instructions and the load of a program. -/
def Obligations.RankPrograms : Prop :=
  Claims.RankInstructions ∧ Claims.RankLoadsAndEnds ∧ Claims.RankPrograms

/-- The order of the PIFO, and its pops. -/
def Obligations.PifoOrder : Prop :=
  Claims.RanksInsert ∧ Claims.QueueFetches

/-- Writes of the group table. -/
def Obligations.GroupTable : Prop :=
  Claims.GroupWrites

/-- Dispatch refuses, launches and restores; the triggers of a bind record. -/
def Obligations.Dispatch : Prop :=
  Claims.DispatchRefuses ∧ Claims.DispatchLaunches ∧ Claims.DispatchRestores ∧ Claims.Triggers ∧ Claims.PilotHolds

/-- Device registers, apertures, doorbells and mailbox commands. -/
def Obligations.DeviceRegisters : Prop :=
  Claims.ApertureWrites ∧ Claims.RegisterWrites ∧ Claims.MailboxDoorbells ∧ Claims.CrossTimestamps ∧ Claims.DecoderRegisters ∧
  Claims.CommandsServed ∧ Claims.CommandsAct ∧ Claims.CommandsEnd

/-- The Xquay instructions of the Pilot cores, and the traps of their other words. -/
def Obligations.PilotInstructions : Prop :=
  Claims.BitFields ∧ Claims.SignalWaits ∧ Claims.Dispatches ∧ Claims.PilotBase

/-- Host cores and their accesses, inbound requests and Ethernet. -/
def Obligations.OutsideAccesses : Prop :=
  Claims.HostAccesses ∧ Claims.HostAtomics ∧ Claims.HostCores ∧ Claims.InboundRequests ∧ Claims.PeerRequests ∧ Claims.EthernetFrames

/-- Decoder commands, emitted frames and change maps. -/
def Obligations.VideoDecoders : Prop :=
  Claims.DecoderCommands ∧ Claims.FramesEmitted ∧ Claims.ChangeMaps

/-- Boot, updates, resets, attestation, self-tests, heat, power and detected errors. -/
def Obligations.FleetAndErrors : Prop :=
  Claims.BootStates ∧ Claims.Boots ∧ Claims.Updates ∧ Claims.Resets ∧ Claims.Attests ∧ Claims.SelfTests ∧ Claims.SensorsAndHeat ∧
  Claims.PowerCaps ∧ Claims.Errors
end

