-- ==== Sys2Proof/Laws/Encoding.lean ====
section
/-! SUPPORT. How large the words put together by the encoder's formats are: each fits the bits that its format gives it (R178, R186,
R187, R372, R393). -/

namespace Sys2Proof.Laws

/-- A format SR word has 32 bits. -/
theorem encSr_lt (maj fn : Nat) (d a b : BitVec 5) (hm : maj < 64) (hf : fn < 2048) : encSr maj fn d a b < 2 ^ 32 := by
  have := d.isLt; have := a.isLt; have := b.isLt; simp only [encSr]; omega

/-- A format SI word has 32 bits. -/
theorem encSi_lt (maj : Nat) (d a : BitVec 5) (n : Nat) (hm : maj < 64) (hn : n < 65536) : encSi maj d a n < 2 ^ 32 := by
  have := d.isLt; have := a.isLt; simp only [encSi]; omega

/-- A load or store word has 32 bits. -/
theorem encLs_lt (maj : Nat) (w : BitVec 3) (d a : BitVec 5) (o : BitVec 13) (hm : maj < 64) : encLs maj w d a o < 2 ^ 32 := by
  have := w.isLt; have := o.isLt; exact encSi_lt _ _ _ _ hm (by omega)

/-- An MTS word has 32 bits. -/
theorem encMts_lt (n : Nat) (a : BitVec 5) (hn : n < 4096) : encMts n a < 2 ^ 32 := by
  have := a.isLt; simp only [encMts]; omega

/-- The header of an engine word keeps to bits 47 to 30. -/
theorem encHd_lt (op : Nat) (r : BitVec 6) (s : BitVec 4) (h : op < 256) : encHd op r s + 2 ^ 30 ≤ 2 ^ 48 := by
  have := r.isLt; have := s.isLt; simp only [encHd]; omega

/-- A format V3 word has 48 bits. -/
theorem encV3_lt (op : Nat) (w : V3) (h : op < 256) : encV3 op w < 2 ^ 48 := by
  have := encHd_lt op w.rep w.step h
  have := w.vd.isLt; have := w.va.isLt; have := w.vb.isLt; have := w.rm.isLt; have := Bool.toNat_lt w.sat; have := Bool.toNat_lt w.msk
  have := w.t.isLt; have := w.x.isLt
  simp only [encV3]; omega

/-- A format VI word has 48 bits. -/
theorem encVI_lt (op : Nat) (w : VI) (h : op < 256) : encVI op w < 2 ^ 48 := by
  have := encHd_lt op w.rep w.step h
  have := w.vd.isLt; have := w.va.isLt; have := Bool.toNat_lt w.msk; have := w.imm.isLt
  simp only [encVI]; omega

/-- A format VM word has 48 bits. -/
theorem encVM_lt (op : Nat) (w : VM) (h : op < 256) : encVM op w < 2 ^ 48 := by
  have := encHd_lt op w.rep w.step h
  have := w.vx.isLt; have := w.vi.isLt; have := w.desc.isLt; have := w.off.isLt
  simp only [encVM]; omega

/-- A format MX word has 48 bits. -/
theorem encMX_lt (op : Nat) (w : MX) (h : op < 256) : encMX op w < 2 ^ 48 := by
  have := encHd_lt op w.rep w.step h
  have := w.tile.isLt; have := w.a.isLt; have := w.b.isLt; have := w.c.isLt; have := w.prof.isLt; have := Bool.toNat_lt w.rm
  have := Bool.toNat_lt w.clamp; have := Bool.toNat_lt w.acc; have := w.arg.isLt
  simp only [encMX]; omega

/-- A format DX word has 48 bits. -/
theorem encDX_lt (op : Nat) (w : DX) (h : op < 256) : encDX op w < 2 ^ 48 := by
  have := encHd_lt op w.rep w.step h
  have := w.dst.isLt; have := w.src.isLt; have := w.aux.isLt; have := w.cls.isLt; have := Bool.toNat_lt w.phased; have := Bool.toNat_lt w.rel
  have := w.arg.isLt
  simp only [encDX]; omega

/-- A format CT word has 48 bits. -/
theorem encCT_lt (op : Nat) (w : CT) (h : op < 256) : encCT op w < 2 ^ 48 := by
  have := encHd_lt op w.rep w.step h
  have := w.arg.isLt; have := w.mask.isLt
  simp only [encCT]; omega

/-- An Xquay word has 32 bits. -/
theorem encXq_lt (opc f3 f7 : Nat) (rd r1 r2 : BitVec 5) (h : opc < 128) (h3 : f3 < 8) (h7 : f7 < 128) :
    encXq opc f3 f7 rd r1 r2 < 2 ^ 32 := by
  have := rd.isLt; have := r1.isLt; have := r2.isLt
  simp only [encXq]; omega

/-- A rank word has 32 bits. -/
theorem encRank_lt (op : Nat) (qd qa qb : BitVec 3) (n : Nat) (h : op < 16) (hn : n < 2 ^ 19) : encRank op qd qa qb n < 2 ^ 32 := by
  have := qd.isLt; have := qa.isLt; have := qb.isLt
  simp only [encRank]; omega

end Sys2Proof.Laws
end

