-- ==== Sys2Proof/Laws/Issue.lean ====
section
/-!
SUPPORT. How an instruction or a word issues: what the shared frames of the sequencer (R204, R205), of an engine (R137, R190), of a vector
repeat (R238) and of a data word (R141) answer in each of their cases, so that no later proof unfolds them.
-/

namespace Sys2Proof.Machine

/-! ## The sequencer -/

/-- An instruction in place, from a clean line, has its effect. -/
theorem seqRun_issue {i : Instr} {p : Place} {body : State → State} {s : State} (h : s.canIssue p = true) : seqRun i p body s = .next (body s) := by
  unfold State.canIssue at h
  simp only [Bool.and_eq_true, Bool.not_eq_true'] at h
  simp [seqRun, h.1, h.2, ok]

/-- One from a poisoned line raises POISON. -/
theorem seqRun_poison {i : Instr} {p : Place} {body : State → State} {s : State} (h : s.me.badLine s.ctx.pc.toNat 4 = true) :
    seqRun i p body s = .next (s.takeFault (poisonLine 0 s.ctx.pc.toNat)) := by simp [seqRun, h, ok]

/-- One out of place raises ILLEGAL_INSTR. -/
theorem seqRun_misplaced {i : Instr} {p : Place} {body : State → State} {s : State} (h : s.me.badLine s.ctx.pc.toNat 4 = false)
    (hp : s.placed p = false) : seqRun i p body s = .next (s.illegal i) := by simp [seqRun, h, hp, ok]

/-- Whatever the case, a sequencer instruction answers a next state. -/
theorem seqRun_answers (i : Instr) (p : Place) (body : State → State) (s : State) : ∃ t, seqRun i p body s = .next t := by
  unfold seqRun ok; split_ifs <;> exact ⟨_, rfl⟩

/-- An instruction that computes a register sends its value after its latency and goes to the next. -/
theorem aluRun_issue {i : Instr} {d : BitVec 5} {lat : Nat} {v : State → Word} {s : State} (h : s.canIssue anyPlace = true) :
    aluRun i d lat v s = .next ((s.wrReg d lat (v s)).next1) := seqRun_issue h

/-! ## An engine -/

/-- A legal word from a clean line has its effect. -/
theorem engRun_issue {u : Eng} {i : Instr} {legal : Bool} {body : State → State} {s : State} (hb : s.wordBad u = false)
    (hl : s.wordLegal u legal = true) : engRun u i legal body s = .next (body s) := by
  unfold State.wordLegal at hl
  cases legal <;> simp_all [engRun, ok]

/-- A word from a poisoned line raises POISON. -/
theorem engRun_poison {u : Eng} {i : Instr} {legal : Bool} {body : State → State} {s : State} (hb : s.wordBad u = true) :
    engRun u i legal body s = .next (s.takeFault (poisonLine (engNum u) (s.eng u).wordAddr)) := by simp [engRun, hb, ok]

/-- A word that breaks a field rule raises ILLEGAL_WORD at its first repeat. -/
theorem engRun_illegal {u : Eng} {i : Instr} {body : State → State} {s : State} (hb : s.wordBad u = false) (hr : (s.eng u).rep = 0) :
    engRun u i false body s = .next (s.illegalWord u i) := by simp [engRun, hb, hr, ok]

/-- Whatever the case, an engine word answers a next state. -/
theorem engRun_answers (u : Eng) (i : Instr) (legal : Bool) (body : State → State) (s : State) : ∃ t, engRun u i legal body s = .next t := by
  unfold engRun ok; split_ifs <;> exact ⟨_, rfl⟩

/-! ## A vector repeat -/

/-- A repeat that nothing stops comes from a clean line. -/
theorem vecOk_clean {s : State} {mesh : Bool} {vs : List VSrc} {dst : Option (Bool × Nat)} (h : s.vecOk mesh vs dst = true) : s.wordBad .vec = false := by
  simp only [State.vecOk, Bool.and_eq_true, Bool.not_eq_true'] at h
  exact h.1.1.1

/-- A repeat that nothing stops sends its result and pops its sources. -/
theorem vecGo_done {s : State} {i : Instr} {reps occ lat : Nat} {mesh : Bool} {vs : List VSrc} {dst : Option (Bool × Nat)} {out : List (List Lane) → VOut}
    (h : s.vecOk mesh vs dst = true) : s.vecGo i reps occ lat mesh vs dst out = s.vecDone dst reps occ lat vs (out (s.srcLanes vs)) := by
  simp only [State.vecOk, Bool.and_eq_true, Bool.not_eq_true', Option.isNone_iff_eq_none] at h
  obtain ⟨⟨⟨h0, h1⟩, h2⟩, h3⟩ := h
  unfold State.vecGo
  rcases dst with _ | ⟨_ | _, c⟩
  · simp [h1, h2, State.vecDone]
  · simp [h1, h2, State.vecDone]
  · have hb : (!mesh && s.isMesh s.cur.core c) = false := by cases mesh <;> simp_all
    have hp : s.pushMiss c = false := by simp_all
    simp [h1, h2, hb, hp, State.vecDone]

/-- A word that works lane by lane, which nothing stops, sends what its operation gives in every lane. -/
theorem vec3_done {i : Instr} {w : V3} {f : VForm} {lat : Nat} {op : Lane → Lane → Lane → LaneR} {s : State}
    (hl : s.wordLegal .vec (v3Legal f w) = true) (h : s.vecOk false (v3Srcs w f (s.eng .vec).rep) (v3Dest w f (s.eng .vec).rep) = true) :
    vec3 i w f lat op s = .next (s.vecDone (v3Dest w f (s.eng .vec).rep) (w.rep.toNat + 1) 1 lat (v3Srcs w f (s.eng .vec).rep)
      (s.laneOut w f (s.eng .vec).rep op)) := by
  unfold vec3
  rw [engRun_issue (vecOk_clean h) hl, vecGo_done h]
  rfl

/-! ## A data word -/

/-- A legal data word from a clean line, not a PHASED one in a handler lane, takes its descriptors and has its effect. -/
theorem dataRun_issue {i : Instr} {w : DX} {legal : Bool} {ns : List (BitVec 4)} {body : List Desc → Nat → State → State} {s : State}
    (hb : s.wordBad .data = false) (hl : s.wordLegal .data legal = true) (hp : s.cur.shadow = true → w.phased = false) :
    dataRun i w legal ns body s = .next (body (s.latch .data (ns.map (·.toNat))) (s.eng .data).rep
      (s.openRead.keepLatch .data (s.latch .data (ns.map (·.toNat))))) := by
  unfold dataRun
  rw [engRun_issue hb hl]
  have : (s.cur.shadow && w.phased) = false := by cases h : s.cur.shadow <;> simp_all
  simp [this]

/-- Checks that all pass let the body run, and the first that fails is taken. -/
theorem unless_none {s : State} {fs : List (Option FaultRec)} {body : State → State} (h : firstFault fs = none) : s.unless fs body = body s := by
  simp [State.unless, h]
theorem unless_some {s : State} {fs : List (Option FaultRec)} {f : FaultRec} {body : State → State} (h : firstFault fs = some f) :
    s.unless fs body = s.takeFault f := by simp [State.unless, h]

end Sys2Proof.Machine
end

