-- ==== Sys2Proof/Laws/Memory.lean ====
section
/-!
SUPPORT. Sparse memory: what its canonical form says, and that every operation that makes a memory keeps it: a byte, a run of bytes, a
piece, a window, and a window put back (log 1).
-/

namespace Sys2Proof.Machine

/-- The canonical form: addresses rise strictly, and no listed byte is the one that an unlisted address reads as. -/
theorem wf_iff (m : Memory) : m.wf = true ↔ m.Pairwise (fun x y => x.1 < y.1) ∧ ∀ c ∈ m, c.2 ≠ 0 := by
  induction m with
  | nil => simp [Memory.wf]
  | cons c r ih =>
    obtain ⟨k, b⟩ := c
    simp only [Memory.wf, Bool.and_eq_true, bne_iff_ne, ih, List.pairwise_cons, List.mem_cons, forall_eq_or_imp]
    cases r with
    | nil => simp
    | cons d r =>
      simp only [decide_eq_true_eq, List.pairwise_cons, List.mem_cons, forall_eq_or_imp]
      constructor
      · rintro ⟨⟨hb, hk⟩, ⟨hd, hr⟩, hn⟩
        exact ⟨⟨⟨hk, fun c hc => hk.trans (hd c hc)⟩, hd, hr⟩, hb, hn⟩
      · rintro ⟨⟨⟨hk, -⟩, hd, hr⟩, hb, hn⟩
        exact ⟨⟨hb, hk⟩, ⟨hd, hr⟩, hn⟩

theorem wf_nil : Memory.wf [] = true := rfl

/-- A written byte leaves no address below those that were there. -/
theorem mwrite_low {k a : Nat} {b : Byte} {m : Memory} (h : ∀ c ∈ m, k < c.1) (ha : k < a) : ∀ c ∈ mwrite m a b, k < c.1 := by
  induction m with
  | nil => intro c hc; simp only [mwrite] at hc; split at hc <;> simp_all
  | cons d r ih =>
    intro c hc
    simp only [List.mem_cons, forall_eq_or_imp] at h
    simp only [mwrite] at hc
    have := ih h.2
    split at hc
    · split at hc
      · rcases List.mem_cons.1 hc with rfl | hc
        exacts [h.1, h.2 c hc]
      · rcases List.mem_cons.1 hc with rfl | hc
        · exact ha
        · rcases List.mem_cons.1 hc with rfl | hc
          exacts [h.1, h.2 c hc]
    · split at hc
      · split at hc
        · exact h.2 c hc
        · rcases List.mem_cons.1 hc with rfl | hc
          exacts [ha, h.2 c hc]
      · rcases List.mem_cons.1 hc with rfl | hc
        exacts [h.1, this c hc]

/-- A written byte keeps the canonical form. -/
theorem mwrite_wf {m : Memory} {a : Nat} {b : Byte} (h : m.wf = true) : (mwrite m a b).wf = true := by
  rw [wf_iff] at h ⊢
  induction m with
  | nil => simp only [mwrite]; split <;> simp_all
  | cons d r ih =>
    obtain ⟨k, x⟩ := d
    obtain ⟨hp, hn⟩ := h
    rw [List.pairwise_cons] at hp
    simp only [List.mem_cons, forall_eq_or_imp] at hn
    have ih := ih ⟨hp.2, hn.2⟩
    simp only [mwrite]
    split
    · split
      · exact ⟨List.pairwise_cons.2 hp, by simpa using hn⟩
      · refine ⟨?_, by simp only [List.mem_cons, forall_eq_or_imp]; exact ⟨‹_›, hn⟩⟩
        rw [List.pairwise_cons, List.pairwise_cons]
        refine ⟨?_, hp⟩
        intro c hc
        rcases List.mem_cons.1 hc with rfl | hc
        · assumption
        · have := hp.1 c hc; simp at *; omega
    · split
      · split
        · exact ⟨hp.2, hn.2⟩
        · subst_vars
          exact ⟨List.pairwise_cons.2 ⟨hp.1, hp.2⟩, by simp only [List.mem_cons, forall_eq_or_imp]; exact ⟨‹_›, hn.2⟩⟩
      · refine ⟨List.pairwise_cons.2 ⟨mwrite_low hp.1 (by simp; omega), ih.1⟩, ?_⟩
        simp only [List.mem_cons, forall_eq_or_imp]
        exact ⟨hn.1, ih.2⟩

/-- A run of bytes written keeps the canonical form. -/
theorem mwriteL_wf {m : Memory} {a : Nat} {bs : List Byte} (h : m.wf = true) : (mwriteL m a bs).wf = true := by
  induction bs generalizing m a with
  | nil => exact h
  | cons b r ih => exact ih (mwrite_wf h)

/-- A piece written keeps the canonical form. -/
theorem mwriteP_wf {m : Memory} {p : Piece} (h : m.wf = true) : (mwriteP m p).wf = true := mwriteL_wf h

/-- Pieces written one after another keep the canonical form. -/
theorem foldl_mwriteP_wf {m : Memory} {ps : List Piece} (h : m.wf = true) : (ps.foldl mwriteP m).wf = true := by
  induction ps generalizing m with
  | nil => exact h
  | cons p r ih => exact ih (mwriteP_wf h)

/-- What a filter leaves of a canonical memory is canonical. -/
theorem filter_wf {m : Memory} {f : Nat × Byte → Bool} (h : m.wf = true) : Memory.wf (m.filter f) = true := by
  rw [wf_iff] at h ⊢
  exact ⟨h.1.filter f, fun c hc => h.2 c (List.mem_of_mem_filter hc)⟩

/-- A window of a canonical memory is canonical. -/
theorem mwindow_wf {m : Memory} {lo n : Nat} (h : m.wf = true) : (mwindow m lo n).wf = true := by
  rw [wf_iff] at h ⊢
  refine ⟨?_, ?_⟩
  · rw [mwindow, List.pairwise_map]
    refine (h.1.filter _).imp_of_mem ?_
    intro c d hc hd hcd
    have hc := List.of_mem_filter hc
    have hd := List.of_mem_filter hd
    simp at hc hd ⊢
    omega
  · intro c hc
    simp only [mwindow, List.mem_map] at hc
    obtain ⟨d, hd, rfl⟩ := hc
    exact h.2 d (List.mem_of_mem_filter hd)

/-- A canonical memory with a window of another put into it is canonical. -/
theorem mblit_wf {m w : Memory} {lo n : Nat} (h : m.wf = true) (hw : w.wf = true) : (mblit m lo n w).wf = true := by
  rw [wf_iff] at h hw ⊢
  refine ⟨?_, ?_⟩
  · rw [mblit, List.pairwise_append, List.pairwise_append, List.pairwise_map]
    refine ⟨⟨h.1.filter _, (hw.1.filter _).imp (by simp), ?_⟩, h.1.filter _, ?_⟩
    · intro c hc d hd
      simp only [List.mem_map] at hd
      obtain ⟨e, -, rfl⟩ := hd
      have := List.of_mem_filter hc
      simp at this ⊢
      omega
    · intro c hc d hd
      have hd := List.of_mem_filter hd
      simp only [List.mem_append, List.mem_map] at hc
      rcases hc with hc | ⟨e, he, rfl⟩
      · have := List.of_mem_filter hc; simp at *; omega
      · have := List.of_mem_filter he; simp at *; omega
  · intro c hc
    simp only [mblit, List.mem_append, List.mem_map] at hc
    rcases hc with (hc | ⟨e, he, rfl⟩) | hc
    · exact h.2 c (List.mem_of_mem_filter hc)
    · exact hw.2 e (List.mem_of_mem_filter he)
    · exact h.2 c (List.mem_of_mem_filter hc)

end Sys2Proof.Machine
end

