-- ==== Sys2Proof/Laws/PerInstr.lean ====
section
/-! SUPPORT. The per-instruction family WordFits: the word of every instruction fits the number of bits that its form has (R178, R186,
R372, R393); an event has no word. -/

namespace Sys2Proof.Laws

/-- The word of an instruction, if it has one, fits its bits. -/
def WordFits.Statement (i : Instr) : Prop :=
  match encode i with
  | some (n, w) => w < 2 ^ n
  | none => True

theorem WordFits.add (d : BitVec 5) (a : BitVec 5) (b : BitVec 5) : WordFits.Statement (.add d a b) := by
  have hd := d.isLt; have ha := a.isLt; have hb := b.isLt;
  exact encSr_lt _ _ _ _ _ (by decide) (by omega)
theorem WordFits.sub (d : BitVec 5) (a : BitVec 5) (b : BitVec 5) : WordFits.Statement (.sub d a b) := by
  have hd := d.isLt; have ha := a.isLt; have hb := b.isLt;
  exact encSr_lt _ _ _ _ _ (by decide) (by omega)
theorem WordFits.and_ (d : BitVec 5) (a : BitVec 5) (b : BitVec 5) : WordFits.Statement (.and_ d a b) := by
  have hd := d.isLt; have ha := a.isLt; have hb := b.isLt;
  exact encSr_lt _ _ _ _ _ (by decide) (by omega)
theorem WordFits.or_ (d : BitVec 5) (a : BitVec 5) (b : BitVec 5) : WordFits.Statement (.or_ d a b) := by
  have hd := d.isLt; have ha := a.isLt; have hb := b.isLt;
  exact encSr_lt _ _ _ _ _ (by decide) (by omega)
theorem WordFits.xor (d : BitVec 5) (a : BitVec 5) (b : BitVec 5) : WordFits.Statement (.xor d a b) := by
  have hd := d.isLt; have ha := a.isLt; have hb := b.isLt;
  exact encSr_lt _ _ _ _ _ (by decide) (by omega)
theorem WordFits.andn (d : BitVec 5) (a : BitVec 5) (b : BitVec 5) : WordFits.Statement (.andn d a b) := by
  have hd := d.isLt; have ha := a.isLt; have hb := b.isLt;
  exact encSr_lt _ _ _ _ _ (by decide) (by omega)
theorem WordFits.orn (d : BitVec 5) (a : BitVec 5) (b : BitVec 5) : WordFits.Statement (.orn d a b) := by
  have hd := d.isLt; have ha := a.isLt; have hb := b.isLt;
  exact encSr_lt _ _ _ _ _ (by decide) (by omega)
theorem WordFits.sll (d : BitVec 5) (a : BitVec 5) (b : BitVec 5) : WordFits.Statement (.sll d a b) := by
  have hd := d.isLt; have ha := a.isLt; have hb := b.isLt;
  exact encSr_lt _ _ _ _ _ (by decide) (by omega)
theorem WordFits.srl (d : BitVec 5) (a : BitVec 5) (b : BitVec 5) : WordFits.Statement (.srl d a b) := by
  have hd := d.isLt; have ha := a.isLt; have hb := b.isLt;
  exact encSr_lt _ _ _ _ _ (by decide) (by omega)
theorem WordFits.sra (d : BitVec 5) (a : BitVec 5) (b : BitVec 5) : WordFits.Statement (.sra d a b) := by
  have hd := d.isLt; have ha := a.isLt; have hb := b.isLt;
  exact encSr_lt _ _ _ _ _ (by decide) (by omega)
theorem WordFits.slt (d : BitVec 5) (a : BitVec 5) (b : BitVec 5) : WordFits.Statement (.slt d a b) := by
  have hd := d.isLt; have ha := a.isLt; have hb := b.isLt;
  exact encSr_lt _ _ _ _ _ (by decide) (by omega)
theorem WordFits.sltu (d : BitVec 5) (a : BitVec 5) (b : BitVec 5) : WordFits.Statement (.sltu d a b) := by
  have hd := d.isLt; have ha := a.isLt; have hb := b.isLt;
  exact encSr_lt _ _ _ _ _ (by decide) (by omega)
theorem WordFits.min_ (d : BitVec 5) (a : BitVec 5) (b : BitVec 5) : WordFits.Statement (.min_ d a b) := by
  have hd := d.isLt; have ha := a.isLt; have hb := b.isLt;
  exact encSr_lt _ _ _ _ _ (by decide) (by omega)
theorem WordFits.max_ (d : BitVec 5) (a : BitVec 5) (b : BitVec 5) : WordFits.Statement (.max_ d a b) := by
  have hd := d.isLt; have ha := a.isLt; have hb := b.isLt;
  exact encSr_lt _ _ _ _ _ (by decide) (by omega)
theorem WordFits.minu (d : BitVec 5) (a : BitVec 5) (b : BitVec 5) : WordFits.Statement (.minu d a b) := by
  have hd := d.isLt; have ha := a.isLt; have hb := b.isLt;
  exact encSr_lt _ _ _ _ _ (by decide) (by omega)
theorem WordFits.maxu (d : BitVec 5) (a : BitVec 5) (b : BitVec 5) : WordFits.Statement (.maxu d a b) := by
  have hd := d.isLt; have ha := a.isLt; have hb := b.isLt;
  exact encSr_lt _ _ _ _ _ (by decide) (by omega)
theorem WordFits.mul (d : BitVec 5) (a : BitVec 5) (b : BitVec 5) : WordFits.Statement (.mul d a b) := by
  have hd := d.isLt; have ha := a.isLt; have hb := b.isLt;
  exact encSr_lt _ _ _ _ _ (by decide) (by omega)
theorem WordFits.mulh (d : BitVec 5) (a : BitVec 5) (b : BitVec 5) : WordFits.Statement (.mulh d a b) := by
  have hd := d.isLt; have ha := a.isLt; have hb := b.isLt;
  exact encSr_lt _ _ _ _ _ (by decide) (by omega)
theorem WordFits.mulhu (d : BitVec 5) (a : BitVec 5) (b : BitVec 5) : WordFits.Statement (.mulhu d a b) := by
  have hd := d.isLt; have ha := a.isLt; have hb := b.isLt;
  exact encSr_lt _ _ _ _ _ (by decide) (by omega)
theorem WordFits.mulhsu (d : BitVec 5) (a : BitVec 5) (b : BitVec 5) : WordFits.Statement (.mulhsu d a b) := by
  have hd := d.isLt; have ha := a.isLt; have hb := b.isLt;
  exact encSr_lt _ _ _ _ _ (by decide) (by omega)
theorem WordFits.clz (d : BitVec 5) (a : BitVec 5) : WordFits.Statement (.clz d a) := by
  have hd := d.isLt; have ha := a.isLt;
  exact encSr_lt _ _ _ _ _ (by decide) (by omega)
theorem WordFits.ctz (d : BitVec 5) (a : BitVec 5) : WordFits.Statement (.ctz d a) := by
  have hd := d.isLt; have ha := a.isLt;
  exact encSr_lt _ _ _ _ _ (by decide) (by omega)
theorem WordFits.popc (d : BitVec 5) (a : BitVec 5) : WordFits.Statement (.popc d a) := by
  have hd := d.isLt; have ha := a.isLt;
  exact encSr_lt _ _ _ _ _ (by decide) (by omega)
theorem WordFits.rol (d : BitVec 5) (a : BitVec 5) (b : BitVec 5) : WordFits.Statement (.rol d a b) := by
  have hd := d.isLt; have ha := a.isLt; have hb := b.isLt;
  exact encSr_lt _ _ _ _ _ (by decide) (by omega)
theorem WordFits.ror (d : BitVec 5) (a : BitVec 5) (b : BitVec 5) : WordFits.Statement (.ror d a b) := by
  have hd := d.isLt; have ha := a.isLt; have hb := b.isLt;
  exact encSr_lt _ _ _ _ _ (by decide) (by omega)
theorem WordFits.addi (d : BitVec 5) (a : BitVec 5) (imm : BitVec 16) : WordFits.Statement (.addi d a imm) := by
  have hd := d.isLt; have ha := a.isLt; have himm := imm.isLt;
  exact encSi_lt _ _ _ _ (by decide) (by omega)
theorem WordFits.andi (d : BitVec 5) (a : BitVec 5) (imm : BitVec 16) : WordFits.Statement (.andi d a imm) := by
  have hd := d.isLt; have ha := a.isLt; have himm := imm.isLt;
  exact encSi_lt _ _ _ _ (by decide) (by omega)
theorem WordFits.ori (d : BitVec 5) (a : BitVec 5) (imm : BitVec 16) : WordFits.Statement (.ori d a imm) := by
  have hd := d.isLt; have ha := a.isLt; have himm := imm.isLt;
  exact encSi_lt _ _ _ _ (by decide) (by omega)
theorem WordFits.xori (d : BitVec 5) (a : BitVec 5) (imm : BitVec 16) : WordFits.Statement (.xori d a imm) := by
  have hd := d.isLt; have ha := a.isLt; have himm := imm.isLt;
  exact encSi_lt _ _ _ _ (by decide) (by omega)
theorem WordFits.slti (d : BitVec 5) (a : BitVec 5) (imm : BitVec 16) : WordFits.Statement (.slti d a imm) := by
  have hd := d.isLt; have ha := a.isLt; have himm := imm.isLt;
  exact encSi_lt _ _ _ _ (by decide) (by omega)
theorem WordFits.sltiu (d : BitVec 5) (a : BitVec 5) (imm : BitVec 16) : WordFits.Statement (.sltiu d a imm) := by
  have hd := d.isLt; have ha := a.isLt; have himm := imm.isLt;
  exact encSi_lt _ _ _ _ (by decide) (by omega)
theorem WordFits.slli (d : BitVec 5) (a : BitVec 5) (sh : BitVec 6) : WordFits.Statement (.slli d a sh) := by
  have hd := d.isLt; have ha := a.isLt; have hsh := sh.isLt;
  exact encSi_lt _ _ _ _ (by decide) (by omega)
theorem WordFits.srli (d : BitVec 5) (a : BitVec 5) (sh : BitVec 6) : WordFits.Statement (.srli d a sh) := by
  have hd := d.isLt; have ha := a.isLt; have hsh := sh.isLt;
  exact encSi_lt _ _ _ _ (by decide) (by omega)
theorem WordFits.srai (d : BitVec 5) (a : BitVec 5) (sh : BitVec 6) : WordFits.Statement (.srai d a sh) := by
  have hd := d.isLt; have ha := a.isLt; have hsh := sh.isLt;
  exact encSi_lt _ _ _ _ (by decide) (by omega)
theorem WordFits.lui (d : BitVec 5) (imm : BitVec 16) : WordFits.Statement (.lui d imm) := by
  have hd := d.isLt; have himm := imm.isLt;
  exact encSi_lt _ _ _ _ (by decide) (by omega)
theorem WordFits.shori (d : BitVec 5) (a : BitVec 5) (imm : BitVec 16) : WordFits.Statement (.shori d a imm) := by
  have hd := d.isLt; have ha := a.isLt; have himm := imm.isLt;
  exact encSi_lt _ _ _ _ (by decide) (by omega)
theorem WordFits.muli (d : BitVec 5) (a : BitVec 5) (imm : BitVec 16) : WordFits.Statement (.muli d a imm) := by
  have hd := d.isLt; have ha := a.isLt; have himm := imm.isLt;
  exact encSi_lt _ _ _ _ (by decide) (by omega)
theorem WordFits.ldSp1 (wid : BitVec 3) (d : BitVec 5) (a : BitVec 5) (off : BitVec 13) : WordFits.Statement (.ldSp1 wid d a off) := encLs_lt _ _ _ _ _ (by decide)
theorem WordFits.ldSp2 (wid : BitVec 3) (d : BitVec 5) (a : BitVec 5) (off : BitVec 13) : WordFits.Statement (.ldSp2 wid d a off) := encLs_lt _ _ _ _ _ (by decide)
theorem WordFits.ldSp3 (wid : BitVec 3) (d : BitVec 5) (a : BitVec 5) (off : BitVec 13) : WordFits.Statement (.ldSp3 wid d a off) := encLs_lt _ _ _ _ _ (by decide)
theorem WordFits.ldG (wid : BitVec 3) (d : BitVec 5) (a : BitVec 5) (off : BitVec 13) : WordFits.Statement (.ldG wid d a off) := encLs_lt _ _ _ _ _ (by decide)
theorem WordFits.ldAp (wid : BitVec 3) (d : BitVec 5) (a : BitVec 5) (off : BitVec 13) : WordFits.Statement (.ldAp wid d a off) := encLs_lt _ _ _ _ _ (by decide)
theorem WordFits.stSp1 (wid : BitVec 3) (d : BitVec 5) (a : BitVec 5) (off : BitVec 13) : WordFits.Statement (.stSp1 wid d a off) := encLs_lt _ _ _ _ _ (by decide)
theorem WordFits.stSp2 (wid : BitVec 3) (d : BitVec 5) (a : BitVec 5) (off : BitVec 13) : WordFits.Statement (.stSp2 wid d a off) := encLs_lt _ _ _ _ _ (by decide)
theorem WordFits.stSp3 (wid : BitVec 3) (d : BitVec 5) (a : BitVec 5) (off : BitVec 13) : WordFits.Statement (.stSp3 wid d a off) := encLs_lt _ _ _ _ _ (by decide)
theorem WordFits.stG (wid : BitVec 3) (d : BitVec 5) (a : BitVec 5) (off : BitVec 13) : WordFits.Statement (.stG wid d a off) := encLs_lt _ _ _ _ _ (by decide)
theorem WordFits.stAp (wid : BitVec 3) (d : BitVec 5) (a : BitVec 5) (off : BitVec 13) : WordFits.Statement (.stAp wid d a off) := encLs_lt _ _ _ _ _ (by decide)
theorem WordFits.beq (a : BitVec 5) (b : BitVec 5) (off : BitVec 16) : WordFits.Statement (.beq a b off) := by
  have ha := a.isLt; have hb := b.isLt; have hoff := off.isLt;
  exact encSi_lt _ _ _ _ (by decide) (by omega)
theorem WordFits.bne (a : BitVec 5) (b : BitVec 5) (off : BitVec 16) : WordFits.Statement (.bne a b off) := by
  have ha := a.isLt; have hb := b.isLt; have hoff := off.isLt;
  exact encSi_lt _ _ _ _ (by decide) (by omega)
theorem WordFits.blt (a : BitVec 5) (b : BitVec 5) (off : BitVec 16) : WordFits.Statement (.blt a b off) := by
  have ha := a.isLt; have hb := b.isLt; have hoff := off.isLt;
  exact encSi_lt _ _ _ _ (by decide) (by omega)
theorem WordFits.bge (a : BitVec 5) (b : BitVec 5) (off : BitVec 16) : WordFits.Statement (.bge a b off) := by
  have ha := a.isLt; have hb := b.isLt; have hoff := off.isLt;
  exact encSi_lt _ _ _ _ (by decide) (by omega)
theorem WordFits.bltu (a : BitVec 5) (b : BitVec 5) (off : BitVec 16) : WordFits.Statement (.bltu a b off) := by
  have ha := a.isLt; have hb := b.isLt; have hoff := off.isLt;
  exact encSi_lt _ _ _ _ (by decide) (by omega)
theorem WordFits.bgeu (a : BitVec 5) (b : BitVec 5) (off : BitVec 16) : WordFits.Statement (.bgeu a b off) := by
  have ha := a.isLt; have hb := b.isLt; have hoff := off.isLt;
  exact encSi_lt _ _ _ _ (by decide) (by omega)
theorem WordFits.bmz (off : BitVec 16) : WordFits.Statement (.bmz off) := by
  have hoff := off.isLt;
  exact encSi_lt _ _ _ _ (by decide) (by omega)
theorem WordFits.bmnz (off : BitVec 16) : WordFits.Statement (.bmnz off) := by
  have hoff := off.isLt;
  exact encSi_lt _ _ _ _ (by decide) (by omega)
theorem WordFits.j (off : BitVec 26) : WordFits.Statement (.j off) := by
  have hoff := off.isLt;
  simp only [WordFits.Statement, encode]; omega
theorem WordFits.jal (off : BitVec 26) : WordFits.Statement (.jal off) := by
  have hoff := off.isLt;
  simp only [WordFits.Statement, encode]; omega
theorem WordFits.jr (d : BitVec 5) (a : BitVec 5) : WordFits.Statement (.jr d a) := by
  have hd := d.isLt; have ha := a.isLt;
  exact encSr_lt _ _ _ _ _ (by decide) (by omega)
theorem WordFits.trap (code : BitVec 16) : WordFits.Statement (.trap code) := by
  have hcode := code.isLt;
  exact encSi_lt _ _ _ _ (by decide) (by omega)
theorem WordFits.dset (n : BitVec 4) (field : BitVec 5) (a : BitVec 5) : WordFits.Statement (.dset n field a) := by
  have hn := n.isLt; have hfield := field.isLt; have ha := a.isLt;
  exact encSr_lt _ _ _ _ _ (by decide) (by omega)
theorem WordFits.dbind (n : BitVec 4) : WordFits.Statement (.dbind n) := by
  have hn := n.isLt;
  exact encSr_lt _ _ _ _ _ (by decide) (by omega)
theorem WordFits.dunbind (n : BitVec 4) : WordFits.Statement (.dunbind n) := by
  have hn := n.isLt;
  exact encSr_lt _ _ _ _ _ (by decide) (by omega)
theorem WordFits.yield (d : BitVec 5) (a : BitVec 5) : WordFits.Statement (.yield d a) := by
  have hd := d.isLt; have ha := a.isLt;
  exact encSr_lt _ _ _ _ _ (by decide) (by omega)
theorem WordFits.chkerr : WordFits.Statement (.chkerr) := encSr_lt _ _ _ _ _ (by decide) (by omega)
theorem WordFits.swait (d : BitVec 5) (a : BitVec 5) (b : BitVec 5) : WordFits.Statement (.swait d a b) := by
  have hd := d.isLt; have ha := a.isLt; have hb := b.isLt;
  exact encSr_lt _ _ _ _ _ (by decide) (by omega)
theorem WordFits.sacq (a : BitVec 5) (b : BitVec 5) : WordFits.Statement (.sacq a b) := by
  have ha := a.isLt; have hb := b.isLt;
  exact encSr_lt _ _ _ _ _ (by decide) (by omega)
theorem WordFits.srel (a : BitVec 5) : WordFits.Statement (.srel a) := by
  have ha := a.isLt;
  exact encSr_lt _ _ _ _ _ (by decide) (by omega)
theorem WordFits.waitg (a : BitVec 5) : WordFits.Statement (.waitg a) := by
  have ha := a.isLt;
  exact encSr_lt _ _ _ _ _ (by decide) (by omega)
theorem WordFits.tret : WordFits.Statement (.tret) := encSr_lt _ _ _ _ _ (by decide) (by omega)
theorem WordFits.tretSkip : WordFits.Statement (.tretSkip) := encSr_lt _ _ _ _ _ (by decide) (by omega)
theorem WordFits.tretRb : WordFits.Statement (.tretRb) := encSr_lt _ _ _ _ _ (by decide) (by omega)
theorem WordFits.tesc : WordFits.Statement (.tesc) := encSr_lt _ _ _ _ _ (by decide) (by omega)
theorem WordFits.tsupply (a : BitVec 5) : WordFits.Statement (.tsupply a) := by
  have ha := a.isLt;
  exact encSr_lt _ _ _ _ _ (by decide) (by omega)
theorem WordFits.notify : WordFits.Statement (.notify) := encSr_lt _ _ _ _ _ (by decide) (by omega)
theorem WordFits.halt : WordFits.Statement (.halt) := encSr_lt _ _ _ _ _ (by decide) (by omega)
theorem WordFits.gbar (d : BitVec 5) (g : BitVec 8) : WordFits.Statement (.gbar d g) := by
  have hd := d.isLt; have hg := g.isLt;
  exact encSi_lt _ _ _ _ (by decide) (by omega)
theorem WordFits.phase (d : BitVec 5) (mask : BitVec 16) : WordFits.Statement (.phase d mask) := by
  have hd := d.isLt; have hmask := mask.isLt;
  exact encSi_lt _ _ _ _ (by decide) (by omega)
theorem WordFits.pabort (d : BitVec 5) : WordFits.Statement (.pabort d) := by
  have hd := d.isLt;
  exact encSi_lt _ _ _ _ (by decide) (by omega)
theorem WordFits.pabortR (d : BitVec 5) : WordFits.Statement (.pabortR d) := by
  have hd := d.isLt;
  exact encSi_lt _ _ _ _ (by decide) (by omega)
theorem WordFits.qfence (m : BitVec 3) : WordFits.Statement (.qfence m) := by
  have hm := m.isLt;
  exact encSi_lt _ _ _ _ (by decide) (by omega)
theorem WordFits.play (eng : BitVec 2) (a : BitVec 5) (b : BitVec 5) (len : BitVec 14) : WordFits.Statement (.play eng a b len) := by
  have heng := eng.isLt; have ha := a.isLt; have hb := b.isLt; have hlen := len.isLt;
  simp only [WordFits.Statement, encode]; omega
theorem WordFits.mfs (d : BitVec 5) (n : BitVec 12) : WordFits.Statement (.mfs d n) := by
  have hd := d.isLt; have hn := n.isLt;
  simp only [WordFits.Statement, encode]; omega
theorem WordFits.mts (n : BitVec 12) (a : BitVec 5) : WordFits.Statement (.mts n a) := by
  have hn := n.isLt; have ha := a.isLt;
  exact encMts_lt _ _ (by omega)
theorem WordFits.sfifo (a : BitVec 5) : WordFits.Statement (.sfifo a) := by
  have ha := a.isLt;
  exact encMts_lt _ _ (by omega)
theorem WordFits.lslot (k : BitVec 2) (a : BitVec 5) : WordFits.Statement (.lslot k a) := by
  have hk := k.isLt; have ha := a.isLt;
  exact encMts_lt _ _ (by omega)
theorem WordFits.chmap (n : BitVec 5) (a : BitVec 5) : WordFits.Statement (.chmap n a) := by
  have hn := n.isLt; have ha := a.isLt;
  exact encMts_lt _ _ (by omega)
theorem WordFits.errinj (a : BitVec 5) : WordFits.Statement (.errinj a) := by
  have ha := a.isLt;
  exact encMts_lt _ _ (by omega)
theorem WordFits.promo (a : BitVec 5) : WordFits.Statement (.promo a) := by
  have ha := a.isLt;
  exact encMts_lt _ _ (by omega)
theorem WordFits.cktol (k : BitVec 2) (a : BitVec 5) : WordFits.Statement (.cktol k a) := by
  have hk := k.isLt; have ha := a.isLt;
  exact encMts_lt _ _ (by omega)
theorem WordFits.nprof (a : BitVec 5) : WordFits.Statement (.nprof a) := by
  have ha := a.isLt;
  exact encMts_lt _ _ (by omega)
theorem WordFits.mainpc (k : BitVec 5) (a : BitVec 5) : WordFits.Statement (.mainpc k a) := by
  have hk := k.isLt; have ha := a.isLt;
  exact encMts_lt _ _ (by omega)
theorem WordFits.aper (n : BitVec 4) (k : BitVec 2) (v : Word) : WordFits.Statement (.aper n k v) := trivial
theorem WordFits.registerWrite (who : Party) (off : Nat) (v : Word) : WordFits.Statement (.registerWrite who off v) := trivial
theorem WordFits.trapEntry : WordFits.Statement (.trapEntry) := trivial
theorem WordFits.handlerDeadline : WordFits.Statement (.handlerDeadline) := trivial
theorem WordFits.holdWave : WordFits.Statement (.holdWave) := trivial
theorem WordFits.release : WordFits.Statement (.release) := trivial
theorem WordFits.releaseWave : WordFits.Statement (.releaseWave) := trivial
theorem WordFits.gangStart : WordFits.Statement (.gangStart) := trivial
theorem WordFits.passageStart : WordFits.Statement (.passageStart) := trivial
theorem WordFits.playQueueRoom : WordFits.Statement (.playQueueRoom) := trivial
theorem WordFits.waitgExpiry : WordFits.Statement (.waitgExpiry) := trivial
theorem WordFits.waitExpiry : WordFits.Statement (.waitExpiry) := trivial
theorem WordFits.spWriteLands : WordFits.Statement (.spWriteLands) := trivial
theorem WordFits.globalReadArrival : WordFits.Statement (.globalReadArrival) := trivial
theorem WordFits.seqLoadBudgetExpiry : WordFits.Statement (.seqLoadBudgetExpiry) := trivial
theorem WordFits.channelEntryLands : WordFits.Statement (.channelEntryLands) := trivial
theorem WordFits.creditReturn : WordFits.Statement (.creditReturn) := trivial
theorem WordFits.dmcastArrival : WordFits.Statement (.dmcastArrival) := trivial
theorem WordFits.barrierRelease : WordFits.Statement (.barrierRelease) := trivial
theorem WordFits.phasePointRelease : WordFits.Statement (.phasePointRelease) := trivial
theorem WordFits.yieldRelease : WordFits.Statement (.yieldRelease) := trivial
theorem WordFits.yieldreq : WordFits.Statement (.yieldreq) := trivial
theorem WordFits.pdlExpiry : WordFits.Statement (.pdlExpiry) := trivial
theorem WordFits.forcedSave : WordFits.Statement (.forcedSave) := trivial
theorem WordFits.combinerFires : WordFits.Statement (.combinerFires) := trivial
theorem WordFits.runLimitExpiry : WordFits.Statement (.runLimitExpiry) := trivial
theorem WordFits.uncorrectableError (e : ErrSite) : WordFits.Statement (.uncorrectableError e) := trivial
theorem WordFits.correctableError (e : ErrSite) : WordFits.Statement (.correctableError e) := trivial
theorem WordFits.fetchAheadError (core : Nat) (addr : Nat) : WordFits.Statement (.fetchAheadError core addr) := trivial
theorem WordFits.pageUnpin : WordFits.Statement (.pageUnpin) := trivial
theorem WordFits.dbindComplete : WordFits.Statement (.dbindComplete) := trivial
theorem WordFits.sacqComplete : WordFits.Statement (.sacqComplete) := trivial
theorem WordFits.homeUpdate : WordFits.Statement (.homeUpdate) := trivial
theorem WordFits.hostAmoRelease (hart : Nat) (addr : HartPlace) (v : HartAmo) : WordFits.Statement (.hostAmoRelease hart addr v) := trivial
theorem WordFits.hostLrAcquire (hart : Nat) (addr : HartPlace) : WordFits.Statement (.hostLrAcquire hart addr) := trivial
theorem WordFits.vadd (w : V3) : WordFits.Statement (.vadd w) := encV3_lt _ _ (by decide)
theorem WordFits.vsub (w : V3) : WordFits.Statement (.vsub w) := encV3_lt _ _ (by decide)
theorem WordFits.vmul (w : V3) : WordFits.Statement (.vmul w) := encV3_lt _ _ (by decide)
theorem WordFits.vmulh (w : V3) : WordFits.Statement (.vmulh w) := encV3_lt _ _ (by decide)
theorem WordFits.vmac (w : V3) : WordFits.Statement (.vmac w) := encV3_lt _ _ (by decide)
theorem WordFits.vadds (w : V3) : WordFits.Statement (.vadds w) := encV3_lt _ _ (by decide)
theorem WordFits.vsubs (w : V3) : WordFits.Statement (.vsubs w) := encV3_lt _ _ (by decide)
theorem WordFits.vabs (w : V3) : WordFits.Statement (.vabs w) := encV3_lt _ _ (by decide)
theorem WordFits.vneg (w : V3) : WordFits.Statement (.vneg w) := encV3_lt _ _ (by decide)
theorem WordFits.vmin (w : V3) : WordFits.Statement (.vmin w) := encV3_lt _ _ (by decide)
theorem WordFits.vmax (w : V3) : WordFits.Statement (.vmax w) := encV3_lt _ _ (by decide)
theorem WordFits.vabsd (w : V3) : WordFits.Statement (.vabsd w) := encV3_lt _ _ (by decide)
theorem WordFits.vaddi (w : VI) : WordFits.Statement (.vaddi w) := encVI_lt _ _ (by decide)
theorem WordFits.vli (w : VI) : WordFits.Statement (.vli w) := encVI_lt _ _ (by decide)
theorem WordFits.vlih (w : VI) : WordFits.Statement (.vlih w) := encVI_lt _ _ (by decide)
theorem WordFits.vand (w : V3) : WordFits.Statement (.vand w) := encV3_lt _ _ (by decide)
theorem WordFits.vor (w : V3) : WordFits.Statement (.vor w) := encV3_lt _ _ (by decide)
theorem WordFits.vxor (w : V3) : WordFits.Statement (.vxor w) := encV3_lt _ _ (by decide)
theorem WordFits.vnot (w : V3) : WordFits.Statement (.vnot w) := encV3_lt _ _ (by decide)
theorem WordFits.vandi (w : VI) : WordFits.Statement (.vandi w) := encVI_lt _ _ (by decide)
theorem WordFits.vshl (w : V3) : WordFits.Statement (.vshl w) := encV3_lt _ _ (by decide)
theorem WordFits.vshr (w : V3) : WordFits.Statement (.vshr w) := encV3_lt _ _ (by decide)
theorem WordFits.vsra (w : V3) : WordFits.Statement (.vsra w) := encV3_lt _ _ (by decide)
theorem WordFits.vshli (w : VI) : WordFits.Statement (.vshli w) := encVI_lt _ _ (by decide)
theorem WordFits.vshri (w : VI) : WordFits.Statement (.vshri w) := encVI_lt _ _ (by decide)
theorem WordFits.vsrai (w : VI) : WordFits.Statement (.vsrai w) := encVI_lt _ _ (by decide)
theorem WordFits.vrot (w : V3) : WordFits.Statement (.vrot w) := encV3_lt _ _ (by decide)
theorem WordFits.vfsh (w : V3) : WordFits.Statement (.vfsh w) := encV3_lt _ _ (by decide)
theorem WordFits.vbfx (w : V3) : WordFits.Statement (.vbfx w) := encV3_lt _ _ (by decide)
theorem WordFits.vbfi (w : V3) : WordFits.Statement (.vbfi w) := encV3_lt _ _ (by decide)
theorem WordFits.vpopc (w : V3) : WordFits.Statement (.vpopc w) := encV3_lt _ _ (by decide)
theorem WordFits.vclz (w : V3) : WordFits.Statement (.vclz w) := encV3_lt _ _ (by decide)
theorem WordFits.vcmp (w : V3) : WordFits.Statement (.vcmp w) := encV3_lt _ _ (by decide)
theorem WordFits.vcmpi (w : VI) : WordFits.Statement (.vcmpi w) := encVI_lt _ _ (by decide)
theorem WordFits.mpush (w : V3) : WordFits.Statement (.mpush w) := encV3_lt _ _ (by decide)
theorem WordFits.minv (w : V3) : WordFits.Statement (.minv w) := encV3_lt _ _ (by decide)
theorem WordFits.mpop (w : V3) : WordFits.Statement (.mpop w) := encV3_lt _ _ (by decide)
theorem WordFits.mclr (w : V3) : WordFits.Statement (.mclr w) := encV3_lt _ _ (by decide)
theorem WordFits.vsel (w : V3) : WordFits.Statement (.vsel w) := encV3_lt _ _ (by decide)
theorem WordFits.vfadd (w : V3) : WordFits.Statement (.vfadd w) := encV3_lt _ _ (by decide)
theorem WordFits.vfsub (w : V3) : WordFits.Statement (.vfsub w) := encV3_lt _ _ (by decide)
theorem WordFits.vfmul (w : V3) : WordFits.Statement (.vfmul w) := encV3_lt _ _ (by decide)
theorem WordFits.vfma (w : V3) : WordFits.Statement (.vfma w) := encV3_lt _ _ (by decide)
theorem WordFits.vfms (w : V3) : WordFits.Statement (.vfms w) := encV3_lt _ _ (by decide)
theorem WordFits.vfsqrt (w : V3) : WordFits.Statement (.vfsqrt w) := encV3_lt _ _ (by decide)
theorem WordFits.vfmin (w : V3) : WordFits.Statement (.vfmin w) := encV3_lt _ _ (by decide)
theorem WordFits.vfmax (w : V3) : WordFits.Statement (.vfmax w) := encV3_lt _ _ (by decide)
theorem WordFits.vfminp (w : V3) : WordFits.Statement (.vfminp w) := encV3_lt _ _ (by decide)
theorem WordFits.vfmaxp (w : V3) : WordFits.Statement (.vfmaxp w) := encV3_lt _ _ (by decide)
theorem WordFits.vfabs (w : V3) : WordFits.Statement (.vfabs w) := encV3_lt _ _ (by decide)
theorem WordFits.vfneg (w : V3) : WordFits.Statement (.vfneg w) := encV3_lt _ _ (by decide)
theorem WordFits.vfcmp (w : V3) : WordFits.Statement (.vfcmp w) := encV3_lt _ _ (by decide)
theorem WordFits.vrcp (w : V3) : WordFits.Statement (.vrcp w) := encV3_lt _ _ (by decide)
theorem WordFits.vrsq (w : V3) : WordFits.Statement (.vrsq w) := encV3_lt _ _ (by decide)
theorem WordFits.vexp2 (w : V3) : WordFits.Statement (.vexp2 w) := encV3_lt _ _ (by decide)
theorem WordFits.vlog2 (w : V3) : WordFits.Statement (.vlog2 w) := encV3_lt _ _ (by decide)
theorem WordFits.vcvt (w : V3) : WordFits.Statement (.vcvt w) := encV3_lt _ _ (by decide)
theorem WordFits.vradd (w : V3) : WordFits.Statement (.vradd w) := encV3_lt _ _ (by decide)
theorem WordFits.vrmin (w : V3) : WordFits.Statement (.vrmin w) := encV3_lt _ _ (by decide)
theorem WordFits.vrmax (w : V3) : WordFits.Statement (.vrmax w) := encV3_lt _ _ (by decide)
theorem WordFits.vrfadd (w : V3) : WordFits.Statement (.vrfadd w) := encV3_lt _ _ (by decide)
theorem WordFits.vrfmin (w : V3) : WordFits.Statement (.vrfmin w) := encV3_lt _ _ (by decide)
theorem WordFits.vrfmax (w : V3) : WordFits.Statement (.vrfmax w) := encV3_lt _ _ (by decide)
theorem WordFits.vrand (w : V3) : WordFits.Statement (.vrand w) := encV3_lt _ _ (by decide)
theorem WordFits.vror (w : V3) : WordFits.Statement (.vror w) := encV3_lt _ _ (by decide)
theorem WordFits.vrxor (w : V3) : WordFits.Statement (.vrxor w) := encV3_lt _ _ (by decide)
theorem WordFits.vperm (w : V3) : WordFits.Statement (.vperm w) := encV3_lt _ _ (by decide)
theorem WordFits.vbcst (w : V3) : WordFits.Statement (.vbcst w) := encV3_lt _ _ (by decide)
theorem WordFits.vslup (w : V3) : WordFits.Statement (.vslup w) := encV3_lt _ _ (by decide)
theorem WordFits.vsldn (w : V3) : WordFits.Statement (.vsldn w) := encV3_lt _ _ (by decide)
theorem WordFits.vrev (w : V3) : WordFits.Statement (.vrev w) := encV3_lt _ _ (by decide)
theorem WordFits.vzip (w : V3) : WordFits.Statement (.vzip w) := encV3_lt _ _ (by decide)
theorem WordFits.vuzp (w : V3) : WordFits.Statement (.vuzp w) := encV3_lt _ _ (by decide)
theorem WordFits.vmov (w : V3) : WordFits.Statement (.vmov w) := encV3_lt _ _ (by decide)
theorem WordFits.vbcs (w : V3) : WordFits.Statement (.vbcs w) := encV3_lt _ _ (by decide)
theorem WordFits.vins (w : V3) : WordFits.Statement (.vins w) := encV3_lt _ _ (by decide)
theorem WordFits.vld (w : VM) : WordFits.Statement (.vld w) := encVM_lt _ _ (by decide)
theorem WordFits.vst (w : VM) : WordFits.Statement (.vst w) := encVM_lt _ _ (by decide)
theorem WordFits.vldx (w : VM) : WordFits.Statement (.vldx w) := encVM_lt _ _ (by decide)
theorem WordFits.vlut (w : VM) : WordFits.Statement (.vlut w) := encVM_lt _ _ (by decide)
theorem WordFits.vdotp (w : V3) : WordFits.Statement (.vdotp w) := encV3_lt _ _ (by decide)
theorem WordFits.engineNotify (u : Eng) (w : CT) : WordFits.Statement (.engineNotify u w) := encCT_lt _ _ (by decide)
theorem WordFits.engineQfence (u : Eng) (w : CT) : WordFits.Statement (.engineQfence u w) := encCT_lt _ _ (by decide)
theorem WordFits.wait (u : Eng) (w : CT) : WordFits.Statement (.wait u w) := encCT_lt _ _ (by decide)
theorem WordFits.nop (u : Eng) (w : CT) : WordFits.Statement (.nop u w) := encCT_lt _ _ (by decide)
theorem WordFits.mmul (w : MX) : WordFits.Statement (.mmul w) := encMX_lt _ _ (by decide)
theorem WordFits.mmuls (w : MX) : WordFits.Statement (.mmuls w) := encMX_lt _ _ (by decide)
theorem WordFits.mlatx (w : MX) : WordFits.Statement (.mlatx w) := encMX_lt _ _ (by decide)
theorem WordFits.mlata (w : MX) : WordFits.Statement (.mlata w) := encMX_lt _ _ (by decide)
theorem WordFits.mzero (w : MX) : WordFits.Statement (.mzero w) := encMX_lt _ _ (by decide)
theorem WordFits.mload (w : MX) : WordFits.Statement (.mload w) := encMX_lt _ _ (by decide)
theorem WordFits.mdrain (w : MX) : WordFits.Statement (.mdrain w) := encMX_lt _ _ (by decide)
theorem WordFits.mdrainEntryLands : WordFits.Statement (.mdrainEntryLands) := trivial
theorem WordFits.checksumVerdict : WordFits.Statement (.checksumVerdict) := trivial
theorem WordFits.mckset (w : MX) : WordFits.Statement (.mckset w) := encMX_lt _ _ (by decide)
theorem WordFits.locfix (w : MX) : WordFits.Statement (.locfix w) := encMX_lt _ _ (by decide)
theorem WordFits.mretry (w : MX) : WordFits.Statement (.mretry w) := encMX_lt _ _ (by decide)
theorem WordFits.wxload (w : MX) : WordFits.Statement (.wxload w) := encMX_lt _ _ (by decide)
theorem WordFits.errinjApply : WordFits.Statement (.errinjApply) := trivial
theorem WordFits.tmov (w : DX) : WordFits.Statement (.tmov w) := encDX_lt _ _ (by decide)
theorem WordFits.dload (w : DX) : WordFits.Statement (.dload w) := encDX_lt _ _ (by decide)
theorem WordFits.dstore (w : DX) : WordFits.Statement (.dstore w) := encDX_lt _ _ (by decide)
theorem WordFits.dphst (w : DX) : WordFits.Statement (.dphst w) := encDX_lt _ _ (by decide)
theorem WordFits.dgather (w : DX) : WordFits.Statement (.dgather w) := encDX_lt _ _ (by decide)
theorem WordFits.dscatter (w : DX) : WordFits.Statement (.dscatter w) := encDX_lt _ _ (by decide)
theorem WordFits.dmcast (w : DX) : WordFits.Statement (.dmcast w) := encDX_lt _ _ (by decide)
theorem WordFits.dcomp (w : DX) : WordFits.Statement (.dcomp w) := encDX_lt _ _ (by decide)
theorem WordFits.dexp (w : DX) : WordFits.Statement (.dexp w) := encDX_lt _ _ (by decide)
theorem WordFits.dtrans (w : DX) : WordFits.Statement (.dtrans w) := encDX_lt _ _ (by decide)
theorem WordFits.dfill (w : DX) : WordFits.Statement (.dfill w) := encDX_lt _ _ (by decide)
theorem WordFits.datom (w : DX) : WordFits.Statement (.datom w) := encDX_lt _ _ (by decide)
theorem WordFits.atomicReturn : WordFits.Statement (.atomicReturn) := trivial
theorem WordFits.dataSrel (w : DX) : WordFits.Statement (.dataSrel w) := encDX_lt _ _ (by decide)
theorem WordFits.dataSacq (w : DX) : WordFits.Statement (.dataSacq w) := encDX_lt _ _ (by decide)
theorem WordFits.afence (w : DX) : WordFits.Statement (.afence w) := encDX_lt _ _ (by decide)
theorem WordFits.mfbuild (w : DX) : WordFits.Statement (.mfbuild w) := encDX_lt _ _ (by decide)
theorem WordFits.mfbuildDirectoryCheck : WordFits.Statement (.mfbuildDirectoryCheck) := trivial
theorem WordFits.builderService : WordFits.Statement (.builderService) := trivial
theorem WordFits.manifestLands : WordFits.Statement (.manifestLands) := trivial
theorem WordFits.mfread (w : DX) : WordFits.Statement (.mfread w) := encDX_lt _ _ (by decide)
theorem WordFits.cmfetch (w : DX) : WordFits.Statement (.cmfetch w) := encDX_lt _ _ (by decide)
theorem WordFits.tsupd (w : DX) : WordFits.Statement (.tsupd w) := encDX_lt _ _ (by decide)
theorem WordFits.qfetch (rd : BitVec 5) (rs1 : BitVec 5) (rs2 : BitVec 5) : WordFits.Statement (.qfetch rd rs1 rs2) := encXq_lt _ _ _ _ _ _ (by decide) (by decide) (by decide)
theorem WordFits.qbfx (rd : BitVec 5) (rs1 : BitVec 5) (rs2 : BitVec 5) : WordFits.Statement (.qbfx rd rs1 rs2) := encXq_lt _ _ _ _ _ _ (by decide) (by decide) (by decide)
theorem WordFits.qbfxS (rd : BitVec 5) (rs1 : BitVec 5) (rs2 : BitVec 5) : WordFits.Statement (.qbfxS rd rs1 rs2) := encXq_lt _ _ _ _ _ _ (by decide) (by decide) (by decide)
theorem WordFits.qwait (rd : BitVec 5) (rs1 : BitVec 5) (rs2 : BitVec 5) : WordFits.Statement (.qwait rd rs1 rs2) := encXq_lt _ _ _ _ _ _ (by decide) (by decide) (by decide)
theorem WordFits.qwaitComplete : WordFits.Statement (.qwaitComplete) := trivial
theorem WordFits.qdisp (rd : BitVec 5) (rs1 : BitVec 5) (rs2 : BitVec 5) : WordFits.Statement (.qdisp rd rs1 rs2) := encXq_lt _ _ _ _ _ _ (by decide) (by decide) (by decide)
theorem WordFits.rankEnd (qa : BitVec 3) : WordFits.Statement (.rankEnd qa) := by
  have hqa := qa.isLt;
  exact encRank_lt _ _ _ _ _ (by decide) (by omega)
theorem WordFits.rankLdi (qd : BitVec 3) (imm : BitVec 19) : WordFits.Statement (.rankLdi qd imm) := by
  have hqd := qd.isLt; have himm := imm.isLt;
  exact encRank_lt _ _ _ _ _ (by decide) (by omega)
theorem WordFits.rankLdf (qd : BitVec 3) (src : BitVec 3) (wd : BitVec 6) (pos : BitVec 5) (len : BitVec 5) : WordFits.Statement (.rankLdf qd src wd pos len) := by
  have hqd := qd.isLt; have hsrc := src.isLt; have hwd := wd.isLt; have hpos := pos.isLt; have hlen := len.isLt;
  exact encRank_lt _ _ _ _ _ (by decide) (by omega)
theorem WordFits.rankAdd (qd : BitVec 3) (qa : BitVec 3) (qb : BitVec 3) : WordFits.Statement (.rankAdd qd qa qb) := by
  have hqd := qd.isLt; have hqa := qa.isLt; have hqb := qb.isLt;
  exact encRank_lt _ _ _ _ _ (by decide) (by omega)
theorem WordFits.rankSub (qd : BitVec 3) (qa : BitVec 3) (qb : BitVec 3) : WordFits.Statement (.rankSub qd qa qb) := by
  have hqd := qd.isLt; have hqa := qa.isLt; have hqb := qb.isLt;
  exact encRank_lt _ _ _ _ _ (by decide) (by omega)
theorem WordFits.rankMulsh (qd : BitVec 3) (qa : BitVec 3) (qb : BitVec 3) (sh : BitVec 5) : WordFits.Statement (.rankMulsh qd qa qb sh) := by
  have hqd := qd.isLt; have hqa := qa.isLt; have hqb := qb.isLt; have hsh := sh.isLt;
  exact encRank_lt _ _ _ _ _ (by decide) (by omega)
theorem WordFits.rankShl (qd : BitVec 3) (qa : BitVec 3) (sh : BitVec 5) : WordFits.Statement (.rankShl qd qa sh) := by
  have hqd := qd.isLt; have hqa := qa.isLt; have hsh := sh.isLt;
  exact encRank_lt _ _ _ _ _ (by decide) (by omega)
theorem WordFits.rankShr (qd : BitVec 3) (qa : BitVec 3) (sh : BitVec 5) : WordFits.Statement (.rankShr qd qa sh) := by
  have hqd := qd.isLt; have hqa := qa.isLt; have hsh := sh.isLt;
  exact encRank_lt _ _ _ _ _ (by decide) (by omega)
theorem WordFits.rankMin (qd : BitVec 3) (qa : BitVec 3) (qb : BitVec 3) : WordFits.Statement (.rankMin qd qa qb) := by
  have hqd := qd.isLt; have hqa := qa.isLt; have hqb := qb.isLt;
  exact encRank_lt _ _ _ _ _ (by decide) (by omega)
theorem WordFits.rankSmax (qd : BitVec 3) (qa : BitVec 3) (qb : BitVec 3) : WordFits.Statement (.rankSmax qd qa qb) := by
  have hqd := qd.isLt; have hqa := qa.isLt; have hqb := qb.isLt;
  exact encRank_lt _ _ _ _ _ (by decide) (by omega)
theorem WordFits.rankAnd (qd : BitVec 3) (qa : BitVec 3) (qb : BitVec 3) : WordFits.Statement (.rankAnd qd qa qb) := by
  have hqd := qd.isLt; have hqa := qa.isLt; have hqb := qb.isLt;
  exact encRank_lt _ _ _ _ _ (by decide) (by omega)
theorem WordFits.rankOr (qd : BitVec 3) (qa : BitVec 3) (qb : BitVec 3) : WordFits.Statement (.rankOr qd qa qb) := by
  have hqd := qd.isLt; have hqa := qa.isLt; have hqb := qb.isLt;
  exact encRank_lt _ _ _ _ _ (by decide) (by omega)
theorem WordFits.rankStq (qa : BitVec 3) : WordFits.Statement (.rankStq qa) := by
  have hqa := qa.isLt;
  exact encRank_lt _ _ _ _ _ (by decide) (by omega)
theorem WordFits.rankSltu (qd : BitVec 3) (qa : BitVec 3) (qb : BitVec 3) : WordFits.Statement (.rankSltu qd qa qb) := by
  have hqd := qd.isLt; have hqa := qa.isLt; have hqb := qb.isLt;
  exact encRank_lt _ _ _ _ _ (by decide) (by omega)
theorem WordFits.rank : WordFits.Statement (.rank) := trivial
theorem WordFits.rankctlLoad : WordFits.Statement (.rankctlLoad) := trivial
theorem WordFits.tail (who : Party) (q : Nat) (v : BitVec 17) : WordFits.Statement (.tail who q v) := trivial
theorem WordFits.queueOff : WordFits.Statement (.queueOff) := trivial
theorem WordFits.queueRun : WordFits.Statement (.queueRun) := trivial
theorem WordFits.queueRunSkip : WordFits.Statement (.queueRunSkip) := trivial
theorem WordFits.queueDrain : WordFits.Statement (.queueDrain) := trivial
theorem WordFits.frame : WordFits.Statement (.frame) := trivial
theorem WordFits.nopPacket : WordFits.Statement (.nopPacket) := trivial
theorem WordFits.indirect : WordFits.Statement (.indirect) := trivial
theorem WordFits.waitv : WordFits.Statement (.waitv) := trivial
theorem WordFits.waitvSatisfied : WordFits.Statement (.waitvSatisfied) := trivial
theorem WordFits.mark : WordFits.Statement (.mark) := trivial
theorem WordFits.groupTableWrite (who : Party) (g : Nat) (v : Word) : WordFits.Statement (.groupTableWrite who g v) := trivial
theorem WordFits.armed : WordFits.Statement (.armed) := trivial
theorem WordFits.abort : WordFits.Statement (.abort) := trivial
theorem WordFits.hold : WordFits.Statement (.hold) := trivial
theorem WordFits.bindRelease : WordFits.Statement (.bindRelease) := trivial
theorem WordFits.bindYieldreq : WordFits.Statement (.bindYieldreq) := trivial
theorem WordFits.coaltExpiry : WordFits.Statement (.coaltExpiry) := trivial
theorem WordFits.frespResume : WordFits.Statement (.frespResume) := trivial
theorem WordFits.frespRollback : WordFits.Statement (.frespRollback) := trivial
theorem WordFits.frespForcedSave : WordFits.Statement (.frespForcedSave) := trivial
theorem WordFits.frespAbort : WordFits.Statement (.frespAbort) := trivial
theorem WordFits.doorbell : WordFits.Statement (.doorbell) := trivial
theorem WordFits.done : WordFits.Statement (.done) := trivial
theorem WordFits.groupSet : WordFits.Statement (.groupSet) := trivial
theorem WordFits.aperSet : WordFits.Statement (.aperSet) := trivial
theorem WordFits.layerSet : WordFits.Statement (.layerSet) := trivial
theorem WordFits.berthCtl : WordFits.Statement (.berthCtl) := trivial
theorem WordFits.grantSet : WordFits.Statement (.grantSet) := trivial
theorem WordFits.peerwinSet : WordFits.Statement (.peerwinSet) := trivial
theorem WordFits.powerCap : WordFits.Statement (.powerCap) := trivial
theorem WordFits.selfTest : WordFits.Statement (.selfTest) := trivial
theorem WordFits.rasRead : WordFits.Statement (.rasRead) := trivial
theorem WordFits.hostAccess (hart : Nat) (store : Bool) (addr : Nat) (len : Nat) (data : List Byte) : WordFits.Statement (.hostAccess hart store addr len data) := trivial
theorem WordFits.inboundWrite (rid : BitVec 16) (bar : BitVec 3) (off : Nat) (data : List Byte) (relaxed : Bool) : WordFits.Statement (.inboundWrite rid bar off data relaxed) := trivial
theorem WordFits.inboundRead (rid : BitVec 16) (bar : BitVec 3) (off : Nat) (len : Nat) : WordFits.Statement (.inboundRead rid bar off len) := trivial
theorem WordFits.inboundAtomicop (rid : BitVec 16) (bar : BitVec 3) (off : Nat) (op : PcieAtomic) (size : Nat) (operand : Nat) (compare : Nat) : WordFits.Statement (.inboundAtomicop rid bar off op size operand compare) := trivial
theorem WordFits.ethernetReceive (port : Nat) (ring : Nat) (bytes : List Byte) : WordFits.Statement (.ethernetReceive port ring bytes) := trivial
theorem WordFits.ethernetTransmit (port : Nat) (ring : Nat) : WordFits.Statement (.ethernetTransmit port ring) := trivial
theorem WordFits.xtscap : WordFits.Statement (.xtscap) := trivial
theorem WordFits.decoderTail (e : Nat) (v : BitVec 8) : WordFits.Statement (.decoderTail e v) := trivial
theorem WordFits.decoderRun (e : Nat) (run : Bool) : WordFits.Statement (.decoderRun e run) := trivial
theorem WordFits.decode : WordFits.Statement (.decode) := trivial
theorem WordFits.flush : WordFits.Statement (.flush) := trivial
theorem WordFits.decoderReset : WordFits.Statement (.decoderReset) := trivial
theorem WordFits.decodeResume : WordFits.Statement (.decodeResume) := trivial
theorem WordFits.powerOn : WordFits.Statement (.powerOn) := trivial
theorem WordFits.healthy : WordFits.Statement (.healthy) := trivial
theorem WordFits.pldmUpdate (capsule : Bool) (bytes : List Byte) : WordFits.Statement (.pldmUpdate capsule bytes) := trivial
theorem WordFits.activation : WordFits.Statement (.activation) := trivial
theorem WordFits.getCerts (off : Nat) (len : Nat) : WordFits.Statement (.getCerts off len) := trivial
theorem WordFits.challenge (nonce : List Byte) : WordFits.Statement (.challenge nonce) := trivial
theorem WordFits.testButtonShort : WordFits.Statement (.testButtonShort) := trivial
theorem WordFits.testButtonLong : WordFits.Statement (.testButtonLong) := trivial
theorem WordFits.selfTestVerdict (failed : BitVec 24) (other : Bool) : WordFits.Statement (.selfTestVerdict failed other) := trivial
theorem WordFits.sensorRefresh (die : Int) (hbm : Int) (inlet : Int) (power : Nat) : WordFits.Statement (.sensorRefresh die hbm inlet power) := trivial
theorem WordFits.thermalCritical : WordFits.Statement (.thermalCritical) := trivial
theorem WordFits.thermalShutdown : WordFits.Statement (.thermalShutdown) := trivial
theorem WordFits.powerCapControl : WordFits.Statement (.powerCapControl) := trivial
theorem WordFits.reset : WordFits.Statement (.reset) := trivial
theorem WordFits.powerLoss : WordFits.Statement (.powerLoss) := trivial
theorem WordFits.autoNegotiation (port : Nat) (up : Bool) : WordFits.Statement (.autoNegotiation port up) := trivial
theorem WordFits.globalWritePerformed : WordFits.Statement (.globalWritePerformed) := trivial
theorem WordFits.tableWalkFinished : WordFits.Statement (.tableWalkFinished) := trivial
theorem WordFits.pilotInterrupt (pc : Nat) (cause : Word) : WordFits.Statement (.pilotInterrupt pc cause) := trivial
theorem WordFits.reservedSequencerEncoding (w : BitVec 32) : WordFits.Statement (.reservedSequencerEncoding w) := by
  have hw := w.isLt;
  simp only [WordFits.Statement, encode]; omega
theorem WordFits.unassignedEngineOpcode (u : Eng) (w : BitVec 48) : WordFits.Statement (.unassignedEngineOpcode u w) := by
  have hw := w.isLt;
  simp only [WordFits.Statement, encode]; omega

end Sys2Proof.Laws
end

