-- ==== Sys2Proof/Laws/State.lean ====
section
/-!
SUPPORT. What each update of a state leaves: one lemma per field per update, and the readers of what was written. Later proofs cite
these and unfold no record update.
-/

namespace Sys2Proof.Machine

/-! ## Lists by index -/

@[simp] theorem lget_lput_same {α : Type} (l : List α) (i : Nat) (v d : α) : lget (lput l i v d) i d = v := by
  induction l generalizing i with
  | nil => induction i with
    | zero => rfl
    | succ n ih => exact ih
  | cons x r ih => cases i with
    | zero => rfl
    | succ n => exact ih n

theorem lget_nil {α : Type} (i : Nat) (d : α) : lget ([] : List α) i d = d := by cases i <;> rfl

theorem lget_lput_other {α : Type} (l : List α) (i j : Nat) (v d : α) (h : j ≠ i) : lget (lput l i v d) j d = lget l j d := by
  induction l generalizing i j with
  | nil =>
    induction i generalizing j with
    | zero => cases j with
      | zero => exact absurd rfl h
      | succ n => simp [lput, lget]
    | succ n ih => cases j with
      | zero => rfl
      | succ m => simpa [lput, lget, lget_nil] using ih m (by omega)
  | cons x r ih => cases i with
    | zero => cases j with
      | zero => exact absurd rfl h
      | succ m => rfl
    | succ n => cases j with
      | zero => rfl
      | succ m => exact ih n m (by omega)

@[simp] theorem lget_lmod_same {α : Type} (l : List α) (i : Nat) (d : α) (f : α → α) : lget (lmod l i d f) i d = f (lget l i d) :=
  lget_lput_same ..

theorem lget_lmod_other {α : Type} (l : List α) (i j : Nat) (d : α) (f : α → α) (h : j ≠ i) : lget (lmod l i d f) j d = lget l j d :=
  lget_lput_other _ _ _ _ _ h

/-! ## Cores -/

@[simp] theorem State.core_setCore (s : State) (k : Nat) (c : Core) : (s.setCore k c).core k = c := lget_lput_same ..
theorem State.core_setCore_other (s : State) (j k : Nat) (c : Core) (h : j ≠ k) : (s.setCore k c).core j = s.core j :=
  lget_lput_other _ _ _ _ _ h
@[simp] theorem State.core_modCore (s : State) (k : Nat) (f : Core → Core) : (s.modCore k f).core k = f (s.core k) := lget_lput_same ..
theorem State.core_modCore_other (s : State) (j k : Nat) (f : Core → Core) (h : j ≠ k) : (s.modCore k f).core j = s.core j :=
  lget_lput_other _ _ _ _ _ h
@[simp] theorem State.me_modMe (s : State) (f : Core → Core) : (s.modMe f).me = f s.me := lget_lput_same ..
theorem State.core_modMe_other (s : State) (j : Nat) (f : Core → Core) (h : j ≠ s.cur.core) : (s.modMe f).core j = s.core j :=
  lget_lput_other _ _ _ _ _ h

/-! ## A core replaced -/

@[simp] theorem State.tide_setCore (s : State) (k : Nat) (c : Core) : (s.setCore k c).tide = s.tide := rfl
@[simp] theorem State.gangs_setCore (s : State) (k : Nat) (c : Core) : (s.setCore k c).gangs = s.gangs := rfl
@[simp] theorem State.mem_setCore (s : State) (k : Nat) (c : Core) : (s.setCore k c).mem = s.mem := rfl
@[simp] theorem State.gops_setCore (s : State) (k : Nat) (c : Core) : (s.setCore k c).gops = s.gops := rfl
@[simp] theorem State.late_setCore (s : State) (k : Nat) (c : Core) : (s.setCore k c).late = s.late := rfl
@[simp] theorem State.saves_setCore (s : State) (k : Nat) (c : Core) : (s.setCore k c).saves = s.saves := rfl
@[simp] theorem State.apers_setCore (s : State) (k : Nat) (c : Core) : (s.setCore k c).apers = s.apers := rfl
@[simp] theorem State.builders_setCore (s : State) (k : Nat) (c : Core) : (s.setCore k c).builders = s.builders := rfl
@[simp] theorem State.sched_setCore (s : State) (k : Nat) (c : Core) : (s.setCore k c).sched = s.sched := rfl
@[simp] theorem State.pilot_setCore (s : State) (k : Nat) (c : Core) : (s.setCore k c).pilot = s.pilot := rfl
@[simp] theorem State.io_setCore (s : State) (k : Nat) (c : Core) : (s.setCore k c).io = s.io := rfl
@[simp] theorem State.fleet_setCore (s : State) (k : Nat) (c : Core) : (s.setCore k c).fleet = s.fleet := rfl
@[simp] theorem State.inputs_setCore (s : State) (k : Nat) (c : Core) : (s.setCore k c).inputs = s.inputs := rfl
@[simp] theorem State.cur_setCore (s : State) (k : Nat) (c : Core) : (s.setCore k c).cur = s.cur := rfl
@[simp] theorem State.free_setCore (s : State) (k : Nat) (c : Core) : (s.setCore k c).free = s.free := rfl
@[simp] theorem State.nextId_setCore (s : State) (k : Nat) (c : Core) : (s.setCore k c).nextId = s.nextId := rfl

/-! ## A core changed -/

@[simp] theorem State.tide_modCore (s : State) (k : Nat) (f : Core → Core) : (s.modCore k f).tide = s.tide := rfl
@[simp] theorem State.gangs_modCore (s : State) (k : Nat) (f : Core → Core) : (s.modCore k f).gangs = s.gangs := rfl
@[simp] theorem State.mem_modCore (s : State) (k : Nat) (f : Core → Core) : (s.modCore k f).mem = s.mem := rfl
@[simp] theorem State.gops_modCore (s : State) (k : Nat) (f : Core → Core) : (s.modCore k f).gops = s.gops := rfl
@[simp] theorem State.late_modCore (s : State) (k : Nat) (f : Core → Core) : (s.modCore k f).late = s.late := rfl
@[simp] theorem State.saves_modCore (s : State) (k : Nat) (f : Core → Core) : (s.modCore k f).saves = s.saves := rfl
@[simp] theorem State.apers_modCore (s : State) (k : Nat) (f : Core → Core) : (s.modCore k f).apers = s.apers := rfl
@[simp] theorem State.builders_modCore (s : State) (k : Nat) (f : Core → Core) : (s.modCore k f).builders = s.builders := rfl
@[simp] theorem State.sched_modCore (s : State) (k : Nat) (f : Core → Core) : (s.modCore k f).sched = s.sched := rfl
@[simp] theorem State.pilot_modCore (s : State) (k : Nat) (f : Core → Core) : (s.modCore k f).pilot = s.pilot := rfl
@[simp] theorem State.io_modCore (s : State) (k : Nat) (f : Core → Core) : (s.modCore k f).io = s.io := rfl
@[simp] theorem State.fleet_modCore (s : State) (k : Nat) (f : Core → Core) : (s.modCore k f).fleet = s.fleet := rfl
@[simp] theorem State.inputs_modCore (s : State) (k : Nat) (f : Core → Core) : (s.modCore k f).inputs = s.inputs := rfl
@[simp] theorem State.cur_modCore (s : State) (k : Nat) (f : Core → Core) : (s.modCore k f).cur = s.cur := rfl
@[simp] theorem State.free_modCore (s : State) (k : Nat) (f : Core → Core) : (s.modCore k f).free = s.free := rfl
@[simp] theorem State.nextId_modCore (s : State) (k : Nat) (f : Core → Core) : (s.modCore k f).nextId = s.nextId := rfl

/-! ## The core of the step changed -/

@[simp] theorem State.tide_modMe (s : State) (f : Core → Core) : (s.modMe f).tide = s.tide := rfl
@[simp] theorem State.gangs_modMe (s : State) (f : Core → Core) : (s.modMe f).gangs = s.gangs := rfl
@[simp] theorem State.mem_modMe (s : State) (f : Core → Core) : (s.modMe f).mem = s.mem := rfl
@[simp] theorem State.gops_modMe (s : State) (f : Core → Core) : (s.modMe f).gops = s.gops := rfl
@[simp] theorem State.late_modMe (s : State) (f : Core → Core) : (s.modMe f).late = s.late := rfl
@[simp] theorem State.saves_modMe (s : State) (f : Core → Core) : (s.modMe f).saves = s.saves := rfl
@[simp] theorem State.apers_modMe (s : State) (f : Core → Core) : (s.modMe f).apers = s.apers := rfl
@[simp] theorem State.builders_modMe (s : State) (f : Core → Core) : (s.modMe f).builders = s.builders := rfl
@[simp] theorem State.sched_modMe (s : State) (f : Core → Core) : (s.modMe f).sched = s.sched := rfl
@[simp] theorem State.pilot_modMe (s : State) (f : Core → Core) : (s.modMe f).pilot = s.pilot := rfl
@[simp] theorem State.io_modMe (s : State) (f : Core → Core) : (s.modMe f).io = s.io := rfl
@[simp] theorem State.fleet_modMe (s : State) (f : Core → Core) : (s.modMe f).fleet = s.fleet := rfl
@[simp] theorem State.inputs_modMe (s : State) (f : Core → Core) : (s.modMe f).inputs = s.inputs := rfl
@[simp] theorem State.cur_modMe (s : State) (f : Core → Core) : (s.modMe f).cur = s.cur := rfl
@[simp] theorem State.free_modMe (s : State) (f : Core → Core) : (s.modMe f).free = s.free := rfl
@[simp] theorem State.nextId_modMe (s : State) (f : Core → Core) : (s.modMe f).nextId = s.nextId := rfl

/-! ## The context of the step changed -/

@[simp] theorem State.tide_modCtx (s : State) (f : SeqCtx → SeqCtx) : (s.modCtx f).tide = s.tide := rfl
@[simp] theorem State.gangs_modCtx (s : State) (f : SeqCtx → SeqCtx) : (s.modCtx f).gangs = s.gangs := rfl
@[simp] theorem State.mem_modCtx (s : State) (f : SeqCtx → SeqCtx) : (s.modCtx f).mem = s.mem := rfl
@[simp] theorem State.gops_modCtx (s : State) (f : SeqCtx → SeqCtx) : (s.modCtx f).gops = s.gops := rfl
@[simp] theorem State.late_modCtx (s : State) (f : SeqCtx → SeqCtx) : (s.modCtx f).late = s.late := rfl
@[simp] theorem State.saves_modCtx (s : State) (f : SeqCtx → SeqCtx) : (s.modCtx f).saves = s.saves := rfl
@[simp] theorem State.apers_modCtx (s : State) (f : SeqCtx → SeqCtx) : (s.modCtx f).apers = s.apers := rfl
@[simp] theorem State.builders_modCtx (s : State) (f : SeqCtx → SeqCtx) : (s.modCtx f).builders = s.builders := rfl
@[simp] theorem State.sched_modCtx (s : State) (f : SeqCtx → SeqCtx) : (s.modCtx f).sched = s.sched := rfl
@[simp] theorem State.pilot_modCtx (s : State) (f : SeqCtx → SeqCtx) : (s.modCtx f).pilot = s.pilot := rfl
@[simp] theorem State.io_modCtx (s : State) (f : SeqCtx → SeqCtx) : (s.modCtx f).io = s.io := rfl
@[simp] theorem State.fleet_modCtx (s : State) (f : SeqCtx → SeqCtx) : (s.modCtx f).fleet = s.fleet := rfl
@[simp] theorem State.inputs_modCtx (s : State) (f : SeqCtx → SeqCtx) : (s.modCtx f).inputs = s.inputs := rfl
@[simp] theorem State.cur_modCtx (s : State) (f : SeqCtx → SeqCtx) : (s.modCtx f).cur = s.cur := rfl
@[simp] theorem State.free_modCtx (s : State) (f : SeqCtx → SeqCtx) : (s.modCtx f).free = s.free := rfl
@[simp] theorem State.nextId_modCtx (s : State) (f : SeqCtx → SeqCtx) : (s.modCtx f).nextId = s.nextId := rfl

@[simp] theorem State.ctx_modCtx (s : State) (f : SeqCtx → SeqCtx) : (s.modCtx f).ctx = f s.ctx := by
  simp only [State.modCtx, State.ctx, State.me_modMe, State.cur_modMe]; split <;> rfl

/-! ## The queue or lane of the step changed -/

@[simp] theorem State.tide_modEng (s : State) (u : Eng) (f : Engine → Engine) : (s.modEng u f).tide = s.tide := rfl
@[simp] theorem State.gangs_modEng (s : State) (u : Eng) (f : Engine → Engine) : (s.modEng u f).gangs = s.gangs := rfl
@[simp] theorem State.mem_modEng (s : State) (u : Eng) (f : Engine → Engine) : (s.modEng u f).mem = s.mem := rfl
@[simp] theorem State.gops_modEng (s : State) (u : Eng) (f : Engine → Engine) : (s.modEng u f).gops = s.gops := rfl
@[simp] theorem State.late_modEng (s : State) (u : Eng) (f : Engine → Engine) : (s.modEng u f).late = s.late := rfl
@[simp] theorem State.saves_modEng (s : State) (u : Eng) (f : Engine → Engine) : (s.modEng u f).saves = s.saves := rfl
@[simp] theorem State.apers_modEng (s : State) (u : Eng) (f : Engine → Engine) : (s.modEng u f).apers = s.apers := rfl
@[simp] theorem State.builders_modEng (s : State) (u : Eng) (f : Engine → Engine) : (s.modEng u f).builders = s.builders := rfl
@[simp] theorem State.sched_modEng (s : State) (u : Eng) (f : Engine → Engine) : (s.modEng u f).sched = s.sched := rfl
@[simp] theorem State.pilot_modEng (s : State) (u : Eng) (f : Engine → Engine) : (s.modEng u f).pilot = s.pilot := rfl
@[simp] theorem State.io_modEng (s : State) (u : Eng) (f : Engine → Engine) : (s.modEng u f).io = s.io := rfl
@[simp] theorem State.fleet_modEng (s : State) (u : Eng) (f : Engine → Engine) : (s.modEng u f).fleet = s.fleet := rfl
@[simp] theorem State.inputs_modEng (s : State) (u : Eng) (f : Engine → Engine) : (s.modEng u f).inputs = s.inputs := rfl
@[simp] theorem State.cur_modEng (s : State) (u : Eng) (f : Engine → Engine) : (s.modEng u f).cur = s.cur := rfl
@[simp] theorem State.free_modEng (s : State) (u : Eng) (f : Engine → Engine) : (s.modEng u f).free = s.free := rfl
@[simp] theorem State.nextId_modEng (s : State) (u : Eng) (f : Engine → Engine) : (s.modEng u f).nextId = s.nextId := rfl

@[simp] theorem State.eng_modEng (s : State) (u : Eng) (f : Engine → Engine) : (s.modEng u f).eng u = f (s.eng u) := by
  simp only [State.modEng, State.eng, State.me_modMe, State.cur_modMe]; split <;> simp

/-! ## An effect goes on its way -/

@[simp] theorem State.tide_addPend (s : State) (u l : Nat) (e : Eff) (g : Bool) (n : Option Nat) (p : Bool) : (s.addPend u l e g n p).tide = s.tide := rfl
@[simp] theorem State.gangs_addPend (s : State) (u l : Nat) (e : Eff) (g : Bool) (n : Option Nat) (p : Bool) : (s.addPend u l e g n p).gangs = s.gangs := rfl
@[simp] theorem State.mem_addPend (s : State) (u l : Nat) (e : Eff) (g : Bool) (n : Option Nat) (p : Bool) : (s.addPend u l e g n p).mem = s.mem := rfl
@[simp] theorem State.gops_addPend (s : State) (u l : Nat) (e : Eff) (g : Bool) (n : Option Nat) (p : Bool) : (s.addPend u l e g n p).gops = s.gops := rfl
@[simp] theorem State.late_addPend (s : State) (u l : Nat) (e : Eff) (g : Bool) (n : Option Nat) (p : Bool) : (s.addPend u l e g n p).late = s.late := rfl
@[simp] theorem State.saves_addPend (s : State) (u l : Nat) (e : Eff) (g : Bool) (n : Option Nat) (p : Bool) : (s.addPend u l e g n p).saves = s.saves := rfl
@[simp] theorem State.apers_addPend (s : State) (u l : Nat) (e : Eff) (g : Bool) (n : Option Nat) (p : Bool) : (s.addPend u l e g n p).apers = s.apers := rfl
@[simp] theorem State.builders_addPend (s : State) (u l : Nat) (e : Eff) (g : Bool) (n : Option Nat) (p : Bool) : (s.addPend u l e g n p).builders = s.builders := rfl
@[simp] theorem State.sched_addPend (s : State) (u l : Nat) (e : Eff) (g : Bool) (n : Option Nat) (p : Bool) : (s.addPend u l e g n p).sched = s.sched := rfl
@[simp] theorem State.pilot_addPend (s : State) (u l : Nat) (e : Eff) (g : Bool) (n : Option Nat) (p : Bool) : (s.addPend u l e g n p).pilot = s.pilot := rfl
@[simp] theorem State.io_addPend (s : State) (u l : Nat) (e : Eff) (g : Bool) (n : Option Nat) (p : Bool) : (s.addPend u l e g n p).io = s.io := rfl
@[simp] theorem State.fleet_addPend (s : State) (u l : Nat) (e : Eff) (g : Bool) (n : Option Nat) (p : Bool) : (s.addPend u l e g n p).fleet = s.fleet := rfl
@[simp] theorem State.inputs_addPend (s : State) (u l : Nat) (e : Eff) (g : Bool) (n : Option Nat) (p : Bool) : (s.addPend u l e g n p).inputs = s.inputs := rfl
@[simp] theorem State.cur_addPend (s : State) (u l : Nat) (e : Eff) (g : Bool) (n : Option Nat) (p : Bool) : (s.addPend u l e g n p).cur = s.cur := rfl
@[simp] theorem State.free_addPend (s : State) (u l : Nat) (e : Eff) (g : Bool) (n : Option Nat) (p : Bool) : (s.addPend u l e g n p).free = s.free := rfl

/-- All that an effect put on its way changes in the core of the step: one more entry at the end of its list. -/
theorem State.me_addPend (s : State) (u l : Nat) (e : Eff) (g : Bool) (n : Option Nat) (p : Bool) :
    (s.addPend u l e g n p).me = { s.me with pend := s.me.pend ++ [{ id := s.nextId, land := l, since := s.clk, tide := s.cur.shadow, unit := u, goesOn := g, need := n, phased := p, missed := false, eff := e, deps := if e.intoSp3 then s.sp3Deps u else [] }] } :=
  lget_lput_same ..

/-! ## An effect with a latency -/

@[simp] theorem State.tide_addLat (s : State) (u l : Nat) (e : Eff) : (s.addLat u l e).tide = s.tide := rfl
@[simp] theorem State.gangs_addLat (s : State) (u l : Nat) (e : Eff) : (s.addLat u l e).gangs = s.gangs := rfl
@[simp] theorem State.mem_addLat (s : State) (u l : Nat) (e : Eff) : (s.addLat u l e).mem = s.mem := rfl
@[simp] theorem State.gops_addLat (s : State) (u l : Nat) (e : Eff) : (s.addLat u l e).gops = s.gops := rfl
@[simp] theorem State.late_addLat (s : State) (u l : Nat) (e : Eff) : (s.addLat u l e).late = s.late := rfl
@[simp] theorem State.saves_addLat (s : State) (u l : Nat) (e : Eff) : (s.addLat u l e).saves = s.saves := rfl
@[simp] theorem State.apers_addLat (s : State) (u l : Nat) (e : Eff) : (s.addLat u l e).apers = s.apers := rfl
@[simp] theorem State.builders_addLat (s : State) (u l : Nat) (e : Eff) : (s.addLat u l e).builders = s.builders := rfl
@[simp] theorem State.sched_addLat (s : State) (u l : Nat) (e : Eff) : (s.addLat u l e).sched = s.sched := rfl
@[simp] theorem State.pilot_addLat (s : State) (u l : Nat) (e : Eff) : (s.addLat u l e).pilot = s.pilot := rfl
@[simp] theorem State.io_addLat (s : State) (u l : Nat) (e : Eff) : (s.addLat u l e).io = s.io := rfl
@[simp] theorem State.fleet_addLat (s : State) (u l : Nat) (e : Eff) : (s.addLat u l e).fleet = s.fleet := rfl
@[simp] theorem State.inputs_addLat (s : State) (u l : Nat) (e : Eff) : (s.addLat u l e).inputs = s.inputs := rfl
@[simp] theorem State.cur_addLat (s : State) (u l : Nat) (e : Eff) : (s.addLat u l e).cur = s.cur := rfl
@[simp] theorem State.free_addLat (s : State) (u l : Nat) (e : Eff) : (s.addLat u l e).free = s.free := rfl

/-! ## A scalar register write on its way -/

@[simp] theorem State.tide_wrReg (s : State) (d : BitVec 5) (l : Nat) (v : Word) : (s.wrReg d l v).tide = s.tide := rfl
@[simp] theorem State.gangs_wrReg (s : State) (d : BitVec 5) (l : Nat) (v : Word) : (s.wrReg d l v).gangs = s.gangs := rfl
@[simp] theorem State.mem_wrReg (s : State) (d : BitVec 5) (l : Nat) (v : Word) : (s.wrReg d l v).mem = s.mem := rfl
@[simp] theorem State.gops_wrReg (s : State) (d : BitVec 5) (l : Nat) (v : Word) : (s.wrReg d l v).gops = s.gops := rfl
@[simp] theorem State.late_wrReg (s : State) (d : BitVec 5) (l : Nat) (v : Word) : (s.wrReg d l v).late = s.late := rfl
@[simp] theorem State.saves_wrReg (s : State) (d : BitVec 5) (l : Nat) (v : Word) : (s.wrReg d l v).saves = s.saves := rfl
@[simp] theorem State.apers_wrReg (s : State) (d : BitVec 5) (l : Nat) (v : Word) : (s.wrReg d l v).apers = s.apers := rfl
@[simp] theorem State.builders_wrReg (s : State) (d : BitVec 5) (l : Nat) (v : Word) : (s.wrReg d l v).builders = s.builders := rfl
@[simp] theorem State.sched_wrReg (s : State) (d : BitVec 5) (l : Nat) (v : Word) : (s.wrReg d l v).sched = s.sched := rfl
@[simp] theorem State.pilot_wrReg (s : State) (d : BitVec 5) (l : Nat) (v : Word) : (s.wrReg d l v).pilot = s.pilot := rfl
@[simp] theorem State.io_wrReg (s : State) (d : BitVec 5) (l : Nat) (v : Word) : (s.wrReg d l v).io = s.io := rfl
@[simp] theorem State.fleet_wrReg (s : State) (d : BitVec 5) (l : Nat) (v : Word) : (s.wrReg d l v).fleet = s.fleet := rfl
@[simp] theorem State.inputs_wrReg (s : State) (d : BitVec 5) (l : Nat) (v : Word) : (s.wrReg d l v).inputs = s.inputs := rfl
@[simp] theorem State.cur_wrReg (s : State) (d : BitVec 5) (l : Nat) (v : Word) : (s.wrReg d l v).cur = s.cur := rfl
@[simp] theorem State.free_wrReg (s : State) (d : BitVec 5) (l : Nat) (v : Word) : (s.wrReg d l v).free = s.free := rfl

/-! ## An issued instruction counted -/

@[simp] theorem State.tide_count0 (s : State) : (s.count0).tide = s.tide := by unfold State.count0; split <;> rfl
@[simp] theorem State.gangs_count0 (s : State) : (s.count0).gangs = s.gangs := by unfold State.count0; split <;> rfl
@[simp] theorem State.mem_count0 (s : State) : (s.count0).mem = s.mem := by unfold State.count0; split <;> rfl
@[simp] theorem State.gops_count0 (s : State) : (s.count0).gops = s.gops := by unfold State.count0; split <;> rfl
@[simp] theorem State.late_count0 (s : State) : (s.count0).late = s.late := by unfold State.count0; split <;> rfl
@[simp] theorem State.saves_count0 (s : State) : (s.count0).saves = s.saves := by unfold State.count0; split <;> rfl
@[simp] theorem State.apers_count0 (s : State) : (s.count0).apers = s.apers := by unfold State.count0; split <;> rfl
@[simp] theorem State.builders_count0 (s : State) : (s.count0).builders = s.builders := by unfold State.count0; split <;> rfl
@[simp] theorem State.sched_count0 (s : State) : (s.count0).sched = s.sched := by unfold State.count0; split <;> rfl
@[simp] theorem State.pilot_count0 (s : State) : (s.count0).pilot = s.pilot := by unfold State.count0; split <;> rfl
@[simp] theorem State.io_count0 (s : State) : (s.count0).io = s.io := by unfold State.count0; split <;> rfl
@[simp] theorem State.fleet_count0 (s : State) : (s.count0).fleet = s.fleet := by unfold State.count0; split <;> rfl
@[simp] theorem State.inputs_count0 (s : State) : (s.count0).inputs = s.inputs := by unfold State.count0; split <;> rfl
@[simp] theorem State.cur_count0 (s : State) : (s.count0).cur = s.cur := by unfold State.count0; split <;> rfl
@[simp] theorem State.free_count0 (s : State) : (s.count0).free = s.free := by unfold State.count0; split <;> rfl
@[simp] theorem State.nextId_count0 (s : State) : (s.count0).nextId = s.nextId := by unfold State.count0; split <;> rfl

/-! ## An instruction issued -/

@[simp] theorem State.tide_next1 (s : State) : (s.next1).tide = s.tide := by simp [State.next1]
@[simp] theorem State.gangs_next1 (s : State) : (s.next1).gangs = s.gangs := by simp [State.next1]
@[simp] theorem State.mem_next1 (s : State) : (s.next1).mem = s.mem := by simp [State.next1]
@[simp] theorem State.gops_next1 (s : State) : (s.next1).gops = s.gops := by simp [State.next1]
@[simp] theorem State.late_next1 (s : State) : (s.next1).late = s.late := by simp [State.next1]
@[simp] theorem State.saves_next1 (s : State) : (s.next1).saves = s.saves := by simp [State.next1]
@[simp] theorem State.apers_next1 (s : State) : (s.next1).apers = s.apers := by simp [State.next1]
@[simp] theorem State.builders_next1 (s : State) : (s.next1).builders = s.builders := by simp [State.next1]
@[simp] theorem State.sched_next1 (s : State) : (s.next1).sched = s.sched := by simp [State.next1]
@[simp] theorem State.pilot_next1 (s : State) : (s.next1).pilot = s.pilot := by simp [State.next1]
@[simp] theorem State.io_next1 (s : State) : (s.next1).io = s.io := by simp [State.next1]
@[simp] theorem State.fleet_next1 (s : State) : (s.next1).fleet = s.fleet := by simp [State.next1]
@[simp] theorem State.inputs_next1 (s : State) : (s.next1).inputs = s.inputs := by simp [State.next1]
@[simp] theorem State.cur_next1 (s : State) : (s.next1).cur = s.cur := by simp [State.next1]
@[simp] theorem State.free_next1 (s : State) : (s.next1).free = s.free := by simp [State.next1]
@[simp] theorem State.nextId_next1 (s : State) : (s.next1).nextId = s.nextId := by simp [State.next1]

@[simp] theorem State.ctx_count0 (s : State) : s.count0.ctx = s.ctx := by
  unfold State.count0; split
  · rfl
  · simp_all [State.ctx, State.me_modMe, Core.perfAdd]

/-- The context after an issue stands at the next word, or at a branch's destination after its slot (R38). -/
@[simp] theorem State.ctx_next1 (s : State) : s.next1.ctx = s.ctx.advance s.clk := by simp [State.next1]

/-! ## An instruction issued, its context waiting -/

@[simp] theorem State.tide_waitOn (s : State) (w : Wait) : (s.waitOn w).tide = s.tide := by simp [State.waitOn]
@[simp] theorem State.gangs_waitOn (s : State) (w : Wait) : (s.waitOn w).gangs = s.gangs := by simp [State.waitOn]
@[simp] theorem State.mem_waitOn (s : State) (w : Wait) : (s.waitOn w).mem = s.mem := by simp [State.waitOn]
@[simp] theorem State.gops_waitOn (s : State) (w : Wait) : (s.waitOn w).gops = s.gops := by simp [State.waitOn]
@[simp] theorem State.late_waitOn (s : State) (w : Wait) : (s.waitOn w).late = s.late := by simp [State.waitOn]
@[simp] theorem State.saves_waitOn (s : State) (w : Wait) : (s.waitOn w).saves = s.saves := by simp [State.waitOn]
@[simp] theorem State.apers_waitOn (s : State) (w : Wait) : (s.waitOn w).apers = s.apers := by simp [State.waitOn]
@[simp] theorem State.builders_waitOn (s : State) (w : Wait) : (s.waitOn w).builders = s.builders := by simp [State.waitOn]
@[simp] theorem State.sched_waitOn (s : State) (w : Wait) : (s.waitOn w).sched = s.sched := by simp [State.waitOn]
@[simp] theorem State.pilot_waitOn (s : State) (w : Wait) : (s.waitOn w).pilot = s.pilot := by simp [State.waitOn]
@[simp] theorem State.io_waitOn (s : State) (w : Wait) : (s.waitOn w).io = s.io := by simp [State.waitOn]
@[simp] theorem State.fleet_waitOn (s : State) (w : Wait) : (s.waitOn w).fleet = s.fleet := by simp [State.waitOn]
@[simp] theorem State.inputs_waitOn (s : State) (w : Wait) : (s.waitOn w).inputs = s.inputs := by simp [State.waitOn]
@[simp] theorem State.cur_waitOn (s : State) (w : Wait) : (s.waitOn w).cur = s.cur := by simp [State.waitOn]
@[simp] theorem State.free_waitOn (s : State) (w : Wait) : (s.waitOn w).free = s.free := by simp [State.waitOn]
@[simp] theorem State.nextId_waitOn (s : State) (w : Wait) : (s.waitOn w).nextId = s.nextId := by simp [State.waitOn]

/-! ## A branch issued -/

@[simp] theorem State.tide_branchTo (s : State) (d : BitVec 18) (m : Bool) : (s.branchTo d m).tide = s.tide := by simp [State.branchTo]
@[simp] theorem State.gangs_branchTo (s : State) (d : BitVec 18) (m : Bool) : (s.branchTo d m).gangs = s.gangs := by simp [State.branchTo]
@[simp] theorem State.mem_branchTo (s : State) (d : BitVec 18) (m : Bool) : (s.branchTo d m).mem = s.mem := by simp [State.branchTo]
@[simp] theorem State.gops_branchTo (s : State) (d : BitVec 18) (m : Bool) : (s.branchTo d m).gops = s.gops := by simp [State.branchTo]
@[simp] theorem State.late_branchTo (s : State) (d : BitVec 18) (m : Bool) : (s.branchTo d m).late = s.late := by simp [State.branchTo]
@[simp] theorem State.saves_branchTo (s : State) (d : BitVec 18) (m : Bool) : (s.branchTo d m).saves = s.saves := by simp [State.branchTo]
@[simp] theorem State.apers_branchTo (s : State) (d : BitVec 18) (m : Bool) : (s.branchTo d m).apers = s.apers := by simp [State.branchTo]
@[simp] theorem State.builders_branchTo (s : State) (d : BitVec 18) (m : Bool) : (s.branchTo d m).builders = s.builders := by simp [State.branchTo]
@[simp] theorem State.sched_branchTo (s : State) (d : BitVec 18) (m : Bool) : (s.branchTo d m).sched = s.sched := by simp [State.branchTo]
@[simp] theorem State.pilot_branchTo (s : State) (d : BitVec 18) (m : Bool) : (s.branchTo d m).pilot = s.pilot := by simp [State.branchTo]
@[simp] theorem State.io_branchTo (s : State) (d : BitVec 18) (m : Bool) : (s.branchTo d m).io = s.io := by simp [State.branchTo]
@[simp] theorem State.fleet_branchTo (s : State) (d : BitVec 18) (m : Bool) : (s.branchTo d m).fleet = s.fleet := by simp [State.branchTo]
@[simp] theorem State.inputs_branchTo (s : State) (d : BitVec 18) (m : Bool) : (s.branchTo d m).inputs = s.inputs := by simp [State.branchTo]
@[simp] theorem State.cur_branchTo (s : State) (d : BitVec 18) (m : Bool) : (s.branchTo d m).cur = s.cur := by simp [State.branchTo]
@[simp] theorem State.free_branchTo (s : State) (d : BitVec 18) (m : Bool) : (s.branchTo d m).free = s.free := by simp [State.branchTo]
@[simp] theorem State.nextId_branchTo (s : State) (d : BitVec 18) (m : Bool) : (s.branchTo d m).nextId = s.nextId := by simp [State.branchTo]

/-! ## A gang changed -/

@[simp] theorem State.cores_modGang (s : State) (b : Nat) (f : Gang → Gang) : (s.modGang b f).cores = s.cores := rfl
@[simp] theorem State.tide_modGang (s : State) (b : Nat) (f : Gang → Gang) : (s.modGang b f).tide = s.tide := rfl
@[simp] theorem State.mem_modGang (s : State) (b : Nat) (f : Gang → Gang) : (s.modGang b f).mem = s.mem := rfl
@[simp] theorem State.gops_modGang (s : State) (b : Nat) (f : Gang → Gang) : (s.modGang b f).gops = s.gops := rfl
@[simp] theorem State.late_modGang (s : State) (b : Nat) (f : Gang → Gang) : (s.modGang b f).late = s.late := rfl
@[simp] theorem State.saves_modGang (s : State) (b : Nat) (f : Gang → Gang) : (s.modGang b f).saves = s.saves := rfl
@[simp] theorem State.apers_modGang (s : State) (b : Nat) (f : Gang → Gang) : (s.modGang b f).apers = s.apers := rfl
@[simp] theorem State.builders_modGang (s : State) (b : Nat) (f : Gang → Gang) : (s.modGang b f).builders = s.builders := rfl
@[simp] theorem State.sched_modGang (s : State) (b : Nat) (f : Gang → Gang) : (s.modGang b f).sched = s.sched := rfl
@[simp] theorem State.pilot_modGang (s : State) (b : Nat) (f : Gang → Gang) : (s.modGang b f).pilot = s.pilot := rfl
@[simp] theorem State.io_modGang (s : State) (b : Nat) (f : Gang → Gang) : (s.modGang b f).io = s.io := rfl
@[simp] theorem State.fleet_modGang (s : State) (b : Nat) (f : Gang → Gang) : (s.modGang b f).fleet = s.fleet := rfl
@[simp] theorem State.inputs_modGang (s : State) (b : Nat) (f : Gang → Gang) : (s.modGang b f).inputs = s.inputs := rfl
@[simp] theorem State.cur_modGang (s : State) (b : Nat) (f : Gang → Gang) : (s.modGang b f).cur = s.cur := rfl
@[simp] theorem State.free_modGang (s : State) (b : Nat) (f : Gang → Gang) : (s.modGang b f).free = s.free := rfl
@[simp] theorem State.nextId_modGang (s : State) (b : Nat) (f : Gang → Gang) : (s.modGang b f).nextId = s.nextId := rfl

/-! ## A bind record changed -/

@[simp] theorem State.cores_modBind (s : State) (b : Nat) (f : Bind → Bind) : (s.modBind b f).cores = s.cores := rfl
@[simp] theorem State.tide_modBind (s : State) (b : Nat) (f : Bind → Bind) : (s.modBind b f).tide = s.tide := rfl
@[simp] theorem State.gangs_modBind (s : State) (b : Nat) (f : Bind → Bind) : (s.modBind b f).gangs = s.gangs := rfl
@[simp] theorem State.mem_modBind (s : State) (b : Nat) (f : Bind → Bind) : (s.modBind b f).mem = s.mem := rfl
@[simp] theorem State.gops_modBind (s : State) (b : Nat) (f : Bind → Bind) : (s.modBind b f).gops = s.gops := rfl
@[simp] theorem State.late_modBind (s : State) (b : Nat) (f : Bind → Bind) : (s.modBind b f).late = s.late := rfl
@[simp] theorem State.saves_modBind (s : State) (b : Nat) (f : Bind → Bind) : (s.modBind b f).saves = s.saves := rfl
@[simp] theorem State.apers_modBind (s : State) (b : Nat) (f : Bind → Bind) : (s.modBind b f).apers = s.apers := rfl
@[simp] theorem State.builders_modBind (s : State) (b : Nat) (f : Bind → Bind) : (s.modBind b f).builders = s.builders := rfl
@[simp] theorem State.pilot_modBind (s : State) (b : Nat) (f : Bind → Bind) : (s.modBind b f).pilot = s.pilot := rfl
@[simp] theorem State.io_modBind (s : State) (b : Nat) (f : Bind → Bind) : (s.modBind b f).io = s.io := rfl
@[simp] theorem State.fleet_modBind (s : State) (b : Nat) (f : Bind → Bind) : (s.modBind b f).fleet = s.fleet := rfl
@[simp] theorem State.inputs_modBind (s : State) (b : Nat) (f : Bind → Bind) : (s.modBind b f).inputs = s.inputs := rfl
@[simp] theorem State.cur_modBind (s : State) (b : Nat) (f : Bind → Bind) : (s.modBind b f).cur = s.cur := rfl
@[simp] theorem State.free_modBind (s : State) (b : Nat) (f : Bind → Bind) : (s.modBind b f).free = s.free := rfl
@[simp] theorem State.nextId_modBind (s : State) (b : Nat) (f : Bind → Bind) : (s.modBind b f).nextId = s.nextId := rfl

@[simp] theorem State.bind_modBind (s : State) (b : Nat) (f : Bind → Bind) : (s.modBind b f).bind b = f (s.bind b) := lget_lput_same ..
theorem State.bind_modBind_other (s : State) (a b : Nat) (f : Bind → Bind) (h : a ≠ b) : (s.modBind b f).bind a = s.bind a :=
  lget_lput_other _ _ _ _ _ h

/-! ## An output put out -/

@[simp] theorem State.cores_out (s : State) (o : Out) : (s.out o).cores = s.cores := rfl
@[simp] theorem State.tide_out (s : State) (o : Out) : (s.out o).tide = s.tide := rfl
@[simp] theorem State.gangs_out (s : State) (o : Out) : (s.out o).gangs = s.gangs := rfl
@[simp] theorem State.mem_out (s : State) (o : Out) : (s.out o).mem = s.mem := rfl
@[simp] theorem State.gops_out (s : State) (o : Out) : (s.out o).gops = s.gops := rfl
@[simp] theorem State.late_out (s : State) (o : Out) : (s.out o).late = s.late := rfl
@[simp] theorem State.saves_out (s : State) (o : Out) : (s.out o).saves = s.saves := rfl
@[simp] theorem State.apers_out (s : State) (o : Out) : (s.out o).apers = s.apers := rfl
@[simp] theorem State.builders_out (s : State) (o : Out) : (s.out o).builders = s.builders := rfl
@[simp] theorem State.sched_out (s : State) (o : Out) : (s.out o).sched = s.sched := rfl
@[simp] theorem State.pilot_out (s : State) (o : Out) : (s.out o).pilot = s.pilot := rfl
@[simp] theorem State.fleet_out (s : State) (o : Out) : (s.out o).fleet = s.fleet := rfl
@[simp] theorem State.inputs_out (s : State) (o : Out) : (s.out o).inputs = s.inputs := rfl
@[simp] theorem State.cur_out (s : State) (o : Out) : (s.out o).cur = s.cur := rfl
@[simp] theorem State.free_out (s : State) (o : Out) : (s.out o).free = s.free := rfl
@[simp] theorem State.nextId_out (s : State) (o : Out) : (s.out o).nextId = s.nextId := rfl

/-! ## A hold begins -/

@[simp] theorem State.tide_startHold (s : State) (k c : Nat) (a : Option Await) : (s.startHold k c a).tide = s.tide := by simp only [State.startHold]; split <;> simp
@[simp] theorem State.mem_startHold (s : State) (k c : Nat) (a : Option Await) : (s.startHold k c a).mem = s.mem := by simp only [State.startHold]; split <;> simp
@[simp] theorem State.gops_startHold (s : State) (k c : Nat) (a : Option Await) : (s.startHold k c a).gops = s.gops := by simp only [State.startHold]; split <;> simp
@[simp] theorem State.late_startHold (s : State) (k c : Nat) (a : Option Await) : (s.startHold k c a).late = s.late := by simp only [State.startHold]; split <;> simp
@[simp] theorem State.saves_startHold (s : State) (k c : Nat) (a : Option Await) : (s.startHold k c a).saves = s.saves := by simp only [State.startHold]; split <;> simp
@[simp] theorem State.apers_startHold (s : State) (k c : Nat) (a : Option Await) : (s.startHold k c a).apers = s.apers := by simp only [State.startHold]; split <;> simp
@[simp] theorem State.builders_startHold (s : State) (k c : Nat) (a : Option Await) : (s.startHold k c a).builders = s.builders := by simp only [State.startHold]; split <;> simp
@[simp] theorem State.sched_startHold (s : State) (k c : Nat) (a : Option Await) : (s.startHold k c a).sched = s.sched := by simp only [State.startHold]; split <;> simp
@[simp] theorem State.pilot_startHold (s : State) (k c : Nat) (a : Option Await) : (s.startHold k c a).pilot = s.pilot := by simp only [State.startHold]; split <;> simp
@[simp] theorem State.io_startHold (s : State) (k c : Nat) (a : Option Await) : (s.startHold k c a).io = s.io := by simp only [State.startHold]; split <;> simp
@[simp] theorem State.fleet_startHold (s : State) (k c : Nat) (a : Option Await) : (s.startHold k c a).fleet = s.fleet := by simp only [State.startHold]; split <;> simp
@[simp] theorem State.inputs_startHold (s : State) (k c : Nat) (a : Option Await) : (s.startHold k c a).inputs = s.inputs := by simp only [State.startHold]; split <;> simp
@[simp] theorem State.cur_startHold (s : State) (k c : Nat) (a : Option Await) : (s.startHold k c a).cur = s.cur := by simp only [State.startHold]; split <;> simp
@[simp] theorem State.free_startHold (s : State) (k c : Nat) (a : Option Await) : (s.startHold k c a).free = s.free := by simp only [State.startHold]; split <;> simp
@[simp] theorem State.nextId_startHold (s : State) (k c : Nat) (a : Option Await) : (s.startHold k c a).nextId = s.nextId := by simp only [State.startHold]; split <;> simp

/-! ## A handler escalates -/

@[simp] theorem State.tide_escalate (s : State) (k : Nat) : (s.escalate k).tide = s.tide := by simp [State.escalate]
@[simp] theorem State.gangs_escalate (s : State) (k : Nat) : (s.escalate k).gangs = s.gangs := by simp [State.escalate]
@[simp] theorem State.mem_escalate (s : State) (k : Nat) : (s.escalate k).mem = s.mem := by simp [State.escalate]
@[simp] theorem State.gops_escalate (s : State) (k : Nat) : (s.escalate k).gops = s.gops := by simp [State.escalate]
@[simp] theorem State.late_escalate (s : State) (k : Nat) : (s.escalate k).late = s.late := by simp [State.escalate]
@[simp] theorem State.saves_escalate (s : State) (k : Nat) : (s.escalate k).saves = s.saves := by simp [State.escalate]
@[simp] theorem State.apers_escalate (s : State) (k : Nat) : (s.escalate k).apers = s.apers := by simp [State.escalate]
@[simp] theorem State.builders_escalate (s : State) (k : Nat) : (s.escalate k).builders = s.builders := by simp [State.escalate]
@[simp] theorem State.sched_escalate (s : State) (k : Nat) : (s.escalate k).sched = s.sched := by simp [State.escalate]
@[simp] theorem State.pilot_escalate (s : State) (k : Nat) : (s.escalate k).pilot = s.pilot := by simp [State.escalate]
@[simp] theorem State.io_escalate (s : State) (k : Nat) : (s.escalate k).io = s.io := by simp [State.escalate]
@[simp] theorem State.fleet_escalate (s : State) (k : Nat) : (s.escalate k).fleet = s.fleet := by simp [State.escalate]
@[simp] theorem State.inputs_escalate (s : State) (k : Nat) : (s.escalate k).inputs = s.inputs := by simp [State.escalate]
@[simp] theorem State.cur_escalate (s : State) (k : Nat) : (s.escalate k).cur = s.cur := by simp [State.escalate]
@[simp] theorem State.free_escalate (s : State) (k : Nat) : (s.escalate k).free = s.free := by simp [State.escalate]
@[simp] theorem State.nextId_escalate (s : State) (k : Nat) : (s.escalate k).nextId = s.nextId := by simp [State.escalate]

/-! ## A core faults -/

@[simp] theorem State.tide_faultMain (s : State) (k : Nat) (f : FaultRec) : (s.faultMain k f).tide = s.tide := by simp [State.faultMain]
@[simp] theorem State.mem_faultMain (s : State) (k : Nat) (f : FaultRec) : (s.faultMain k f).mem = s.mem := by simp [State.faultMain]
@[simp] theorem State.gops_faultMain (s : State) (k : Nat) (f : FaultRec) : (s.faultMain k f).gops = s.gops := by simp [State.faultMain]
@[simp] theorem State.late_faultMain (s : State) (k : Nat) (f : FaultRec) : (s.faultMain k f).late = s.late := by simp [State.faultMain]
@[simp] theorem State.saves_faultMain (s : State) (k : Nat) (f : FaultRec) : (s.faultMain k f).saves = s.saves := by simp [State.faultMain]
@[simp] theorem State.apers_faultMain (s : State) (k : Nat) (f : FaultRec) : (s.faultMain k f).apers = s.apers := by simp [State.faultMain]
@[simp] theorem State.builders_faultMain (s : State) (k : Nat) (f : FaultRec) : (s.faultMain k f).builders = s.builders := by simp [State.faultMain]
@[simp] theorem State.sched_faultMain (s : State) (k : Nat) (f : FaultRec) : (s.faultMain k f).sched = s.sched := by simp [State.faultMain]
@[simp] theorem State.pilot_faultMain (s : State) (k : Nat) (f : FaultRec) : (s.faultMain k f).pilot = s.pilot := by simp [State.faultMain]
@[simp] theorem State.io_faultMain (s : State) (k : Nat) (f : FaultRec) : (s.faultMain k f).io = s.io := by simp [State.faultMain]
@[simp] theorem State.fleet_faultMain (s : State) (k : Nat) (f : FaultRec) : (s.faultMain k f).fleet = s.fleet := by simp [State.faultMain]
@[simp] theorem State.inputs_faultMain (s : State) (k : Nat) (f : FaultRec) : (s.faultMain k f).inputs = s.inputs := by simp [State.faultMain]
@[simp] theorem State.cur_faultMain (s : State) (k : Nat) (f : FaultRec) : (s.faultMain k f).cur = s.cur := by simp [State.faultMain]
@[simp] theorem State.free_faultMain (s : State) (k : Nat) (f : FaultRec) : (s.faultMain k f).free = s.free := by simp [State.faultMain]
@[simp] theorem State.nextId_faultMain (s : State) (k : Nat) (f : FaultRec) : (s.faultMain k f).nextId = s.nextId := by simp [State.faultMain]

/-! ## The step faults -/

@[simp] theorem State.tide_takeFault (s : State) (f : FaultRec) : (s.takeFault f).tide = s.tide := by unfold State.takeFault; split <;> simp
@[simp] theorem State.mem_takeFault (s : State) (f : FaultRec) : (s.takeFault f).mem = s.mem := by unfold State.takeFault; split <;> simp
@[simp] theorem State.gops_takeFault (s : State) (f : FaultRec) : (s.takeFault f).gops = s.gops := by unfold State.takeFault; split <;> simp
@[simp] theorem State.late_takeFault (s : State) (f : FaultRec) : (s.takeFault f).late = s.late := by unfold State.takeFault; split <;> simp
@[simp] theorem State.saves_takeFault (s : State) (f : FaultRec) : (s.takeFault f).saves = s.saves := by unfold State.takeFault; split <;> simp
@[simp] theorem State.apers_takeFault (s : State) (f : FaultRec) : (s.takeFault f).apers = s.apers := by unfold State.takeFault; split <;> simp
@[simp] theorem State.builders_takeFault (s : State) (f : FaultRec) : (s.takeFault f).builders = s.builders := by unfold State.takeFault; split <;> simp
@[simp] theorem State.sched_takeFault (s : State) (f : FaultRec) : (s.takeFault f).sched = s.sched := by unfold State.takeFault; split <;> simp
@[simp] theorem State.pilot_takeFault (s : State) (f : FaultRec) : (s.takeFault f).pilot = s.pilot := by unfold State.takeFault; split <;> simp
@[simp] theorem State.io_takeFault (s : State) (f : FaultRec) : (s.takeFault f).io = s.io := by unfold State.takeFault; split <;> simp
@[simp] theorem State.fleet_takeFault (s : State) (f : FaultRec) : (s.takeFault f).fleet = s.fleet := by unfold State.takeFault; split <;> simp
@[simp] theorem State.inputs_takeFault (s : State) (f : FaultRec) : (s.takeFault f).inputs = s.inputs := by unfold State.takeFault; split <;> simp
@[simp] theorem State.cur_takeFault (s : State) (f : FaultRec) : (s.takeFault f).cur = s.cur := by unfold State.takeFault; split <;> simp
@[simp] theorem State.free_takeFault (s : State) (f : FaultRec) : (s.takeFault f).free = s.free := by unfold State.takeFault; split <;> simp
@[simp] theorem State.nextId_takeFault (s : State) (f : FaultRec) : (s.takeFault f).nextId = s.nextId := by unfold State.takeFault; split <;> simp

/-! ## A shadow unit waits -/

@[simp] theorem State.tide_shadowWait (s : State) (u : Nat) : (s.shadowWait u).tide = s.tide := by simp [State.shadowWait]
@[simp] theorem State.gangs_shadowWait (s : State) (u : Nat) : (s.shadowWait u).gangs = s.gangs := by simp [State.shadowWait]
@[simp] theorem State.mem_shadowWait (s : State) (u : Nat) : (s.shadowWait u).mem = s.mem := by simp [State.shadowWait]
@[simp] theorem State.gops_shadowWait (s : State) (u : Nat) : (s.shadowWait u).gops = s.gops := by simp [State.shadowWait]
@[simp] theorem State.late_shadowWait (s : State) (u : Nat) : (s.shadowWait u).late = s.late := by simp [State.shadowWait]
@[simp] theorem State.saves_shadowWait (s : State) (u : Nat) : (s.shadowWait u).saves = s.saves := by simp [State.shadowWait]
@[simp] theorem State.apers_shadowWait (s : State) (u : Nat) : (s.shadowWait u).apers = s.apers := by simp [State.shadowWait]
@[simp] theorem State.builders_shadowWait (s : State) (u : Nat) : (s.shadowWait u).builders = s.builders := by simp [State.shadowWait]
@[simp] theorem State.sched_shadowWait (s : State) (u : Nat) : (s.shadowWait u).sched = s.sched := by simp [State.shadowWait]
@[simp] theorem State.pilot_shadowWait (s : State) (u : Nat) : (s.shadowWait u).pilot = s.pilot := by simp [State.shadowWait]
@[simp] theorem State.io_shadowWait (s : State) (u : Nat) : (s.shadowWait u).io = s.io := by simp [State.shadowWait]
@[simp] theorem State.fleet_shadowWait (s : State) (u : Nat) : (s.shadowWait u).fleet = s.fleet := by simp [State.shadowWait]
@[simp] theorem State.inputs_shadowWait (s : State) (u : Nat) : (s.shadowWait u).inputs = s.inputs := by simp [State.shadowWait]
@[simp] theorem State.cur_shadowWait (s : State) (u : Nat) : (s.shadowWait u).cur = s.cur := by simp [State.shadowWait]
@[simp] theorem State.free_shadowWait (s : State) (u : Nat) : (s.shadowWait u).free = s.free := by simp [State.shadowWait]
@[simp] theorem State.nextId_shadowWait (s : State) (u : Nat) : (s.shadowWait u).nextId = s.nextId := by simp [State.shadowWait]

/-! ## A schedule miss -/

@[simp] theorem State.tide_schedMiss (s : State) (u i : Nat) (a : Await) : (s.schedMiss u i a).tide = s.tide := by simp only [State.schedMiss]; split <;> (try split) <;> simp
@[simp] theorem State.mem_schedMiss (s : State) (u i : Nat) (a : Await) : (s.schedMiss u i a).mem = s.mem := by simp only [State.schedMiss]; split <;> (try split) <;> simp
@[simp] theorem State.gops_schedMiss (s : State) (u i : Nat) (a : Await) : (s.schedMiss u i a).gops = s.gops := by simp only [State.schedMiss]; split <;> (try split) <;> simp
@[simp] theorem State.late_schedMiss (s : State) (u i : Nat) (a : Await) : (s.schedMiss u i a).late = s.late := by simp only [State.schedMiss]; split <;> (try split) <;> simp
@[simp] theorem State.saves_schedMiss (s : State) (u i : Nat) (a : Await) : (s.schedMiss u i a).saves = s.saves := by simp only [State.schedMiss]; split <;> (try split) <;> simp
@[simp] theorem State.apers_schedMiss (s : State) (u i : Nat) (a : Await) : (s.schedMiss u i a).apers = s.apers := by simp only [State.schedMiss]; split <;> (try split) <;> simp
@[simp] theorem State.builders_schedMiss (s : State) (u i : Nat) (a : Await) : (s.schedMiss u i a).builders = s.builders := by simp only [State.schedMiss]; split <;> (try split) <;> simp
@[simp] theorem State.sched_schedMiss (s : State) (u i : Nat) (a : Await) : (s.schedMiss u i a).sched = s.sched := by simp only [State.schedMiss]; split <;> (try split) <;> simp
@[simp] theorem State.pilot_schedMiss (s : State) (u i : Nat) (a : Await) : (s.schedMiss u i a).pilot = s.pilot := by simp only [State.schedMiss]; split <;> (try split) <;> simp
@[simp] theorem State.io_schedMiss (s : State) (u i : Nat) (a : Await) : (s.schedMiss u i a).io = s.io := by simp only [State.schedMiss]; split <;> (try split) <;> simp
@[simp] theorem State.fleet_schedMiss (s : State) (u i : Nat) (a : Await) : (s.schedMiss u i a).fleet = s.fleet := by simp only [State.schedMiss]; split <;> (try split) <;> simp
@[simp] theorem State.inputs_schedMiss (s : State) (u i : Nat) (a : Await) : (s.schedMiss u i a).inputs = s.inputs := by simp only [State.schedMiss]; split <;> (try split) <;> simp
@[simp] theorem State.cur_schedMiss (s : State) (u i : Nat) (a : Await) : (s.schedMiss u i a).cur = s.cur := by simp only [State.schedMiss]; split <;> (try split) <;> simp
@[simp] theorem State.free_schedMiss (s : State) (u i : Nat) (a : Await) : (s.schedMiss u i a).free = s.free := by simp only [State.schedMiss]; split <;> (try split) <;> simp
@[simp] theorem State.nextId_schedMiss (s : State) (u i : Nat) (a : Await) : (s.schedMiss u i a).nextId = s.nextId := by simp only [State.schedMiss]; split <;> (try split) <;> simp

/-! ## A host core changed (R402) -/

@[simp] theorem State.hart_modHart (s : State) (k : Nat) (f : Hart → Hart) : (s.modHart k f).hart k = f (s.hart k) := lget_lput_same ..
theorem State.hart_modHart_other (s : State) (j k : Nat) (f : Hart → Hart) (h : j ≠ k) : (s.modHart k f).hart j = s.hart j :=
  lget_lput_other _ _ _ _ _ h
@[simp] theorem State.cores_modHart (s : State) (k : Nat) (f : Hart → Hart) : (s.modHart k f).cores = s.cores := rfl
@[simp] theorem State.tide_modHart (s : State) (k : Nat) (f : Hart → Hart) : (s.modHart k f).tide = s.tide := rfl
@[simp] theorem State.gangs_modHart (s : State) (k : Nat) (f : Hart → Hart) : (s.modHart k f).gangs = s.gangs := rfl
@[simp] theorem State.mem_modHart (s : State) (k : Nat) (f : Hart → Hart) : (s.modHart k f).mem = s.mem := rfl
@[simp] theorem State.gops_modHart (s : State) (k : Nat) (f : Hart → Hart) : (s.modHart k f).gops = s.gops := rfl
@[simp] theorem State.late_modHart (s : State) (k : Nat) (f : Hart → Hart) : (s.modHart k f).late = s.late := rfl
@[simp] theorem State.saves_modHart (s : State) (k : Nat) (f : Hart → Hart) : (s.modHart k f).saves = s.saves := rfl
@[simp] theorem State.apers_modHart (s : State) (k : Nat) (f : Hart → Hart) : (s.modHart k f).apers = s.apers := rfl
@[simp] theorem State.builders_modHart (s : State) (k : Nat) (f : Hart → Hart) : (s.modHart k f).builders = s.builders := rfl
@[simp] theorem State.sched_modHart (s : State) (k : Nat) (f : Hart → Hart) : (s.modHart k f).sched = s.sched := rfl
@[simp] theorem State.pilot_modHart (s : State) (k : Nat) (f : Hart → Hart) : (s.modHart k f).pilot = s.pilot := rfl
@[simp] theorem State.fleet_modHart (s : State) (k : Nat) (f : Hart → Hart) : (s.modHart k f).fleet = s.fleet := rfl
@[simp] theorem State.inputs_modHart (s : State) (k : Nat) (f : Hart → Hart) : (s.modHart k f).inputs = s.inputs := rfl
@[simp] theorem State.cur_modHart (s : State) (k : Nat) (f : Hart → Hart) : (s.modHart k f).cur = s.cur := rfl
@[simp] theorem State.free_modHart (s : State) (k : Nat) (f : Hart → Hart) : (s.modHart k f).free = s.free := rfl
@[simp] theorem State.nextId_modHart (s : State) (k : Nat) (f : Hart → Hart) : (s.modHart k f).nextId = s.nextId := rfl
@[simp] theorem Hart.pend_zero (h : Hart) : h.pend 0 = h := rfl

end Sys2Proof.Machine
end

