-- ==== Sys2Proof/Tests/Slice0.lean ====
section
/-!
SUPPORT. Tests of the model on fixed values: ill-formed terms that the checks refuse; the decoding of a word of every constructor; one-step
tests on small states; and, for every statement with hypotheses, states and operands that meet them. The words and results come from the
spec: from the fields that spec/opcode_table.json gives a row, from the maps R197 to R200, from the listings and worked examples of spec/.
-/

namespace Sys2Proof.Tests

open Sys2Proof Sys2Proof.Machine

set_option Elab.async false

/-! ## Ill-formed terms, each refused by the check that it breaks -/

/-- An engine word of each format with every field 0. -/
def z3 : V3 := { rep := 0, step := 0, vd := 0, va := 0, vb := 0, rm := 0, sat := false, msk := false, t := 0, x := 0 }
def zi : VI := { rep := 0, step := 0, vd := 0, va := 0, msk := false, imm := 0 }
def zm : VM := { rep := 0, step := 0, vx := 0, vi := 0, desc := 0, off := 0 }
def zx : MX := { rep := 0, step := 0, tile := 0, a := 0, b := 0, c := 0, prof := 0, rm := false, clamp := false, acc := false, arg := 0 }
def zd : DX := { rep := 0, step := 0, dst := 0, src := 0, aux := 0, cls := 0, phased := false, rel := false, arg := 0 }
def zc : CT := { rep := 0, step := 0, arg := 0, mask := 0 }

/-- Load and store widths (R179): WID 7 of a load, 4 of a store. -/
theorem test_illformed_widths :
    ([.ldSp1 7 0 0 0, .ldSp2 7 0 0 0, .ldSp3 7 0 0 0, .ldG 7 0 0 0, .ldAp 7 0 0 0, .stSp1 4 0 0 0, .stSp2 4 0 0 0, .stSp3 4 0 0 0, .stG 4 0 0 0,
      .stAp 4 0 0 0] : List Instr).all (fun i => !i.wf) = true := by decide
/-- Field 15 of DSET (R60), engine 3 and length 0 of PLAY (R34, R216). -/
theorem test_illformed_dset_play : ([.dset 0 15 0, .play 3 0 0 1, .play 0 0 0 0] : List Instr).all (fun i => !i.wf) = true := by decide
/-- The register numbers with rows of their own are no plain MTS; CHMAP numbers begin at 9 (R195, R231, R235). -/
theorem test_illformed_mts :
    ([.mts 0x00C 0, .mts 0x008 0, .mts 0x009 0, .mts 0x013 0, .mts 0x026 0, .mts 0x034 0, .mts 0x0C9 0, .mts 0x120 0, .chmap 8 0] :
      List Instr).all (fun i => !i.wf) = true := by decide
/-- Reserved step codes, a pop bit on a register source, profile 5 (R97, R188, R189). -/
theorem test_illformed_words :
    ([.vadd { z3 with step := 9 }, .vadd { z3 with va := 0x20 }, .vadd { z3 with vb := 0x3F }, .vaddi { zi with step := 15 }, .vaddi { zi with va := 0x20 },
      .vst { zm with vx := 0x20 }, .vldx { zm with vi := 0x25 }, .vld { zm with step := 9 }, .mmul { zx with prof := 5 }, .mmul { zx with step := 9 },
      .tmov { zd with step := 9 }] : List Instr).all (fun i => !i.wf) = true := by decide
/-- The control words (R200): STEP, REP, ARG and MASK where they are reserved. -/
theorem test_illformed_controls :
    ([.nop .vec { zc with step := 1 }, .engineNotify .vec { zc with rep := 1 }, .engineNotify .mtx { zc with arg := 1 }, .engineNotify .data { zc with mask := 1 },
      .engineQfence .vec { zc with rep := 1 }, .engineQfence .vec { zc with arg := 1 }, .wait .vec zc, .wait .vec { zc with arg := 1, rep := 1 },
      .wait .vec { zc with arg := 1, mask := 1 }, .nop .vec { zc with arg := 1 }, .nop .vec { zc with mask := 1 }] :
      List Instr).all (fun i => !i.wf) = true := by decide
/-- A word index past its source in LDF, and the encodings that no instruction has (R185, R190, R372). -/
theorem test_illformed_others :
    ([.rankLdf 0 0 16 0 0, .rankLdf 0 1 32 0 0, .rankLdf 0 2 4 0 0, .rankLdf 0 3 0 0 0, .reservedSequencerEncoding 0, .unassignedEngineOpcode .vec 0] :
      List Instr).all (fun i => !i.wf) = true := by decide
/-- A well-formed term beside each check. -/
theorem test_wellformed :
    ([.ldSp1 6 0 0 0, .stSp1 3 0 0 0, .dset 0 14 0, .play 2 0 0 1, .mts 0x00B 0, .chmap 9 0, .vadd { z3 with step := 8, va := 0x60 }, .mmul { zx with prof := 4 },
      .wait .vec { zc with arg := 1 }, .engineQfence .vec { zc with mask := 15 }, .rankLdf 0 2 3 0 0] : List Instr).all (fun i => i.wf) = true := by decide

/-! ## Decoding: a word of every constructor -/

theorem test_decode_alu :
    [0b000000_10101_01010_00111_00000000000,
     0b000000_10101_01010_00111_00000000001,
     0b000000_10101_01010_00111_00000000010,
     0b000000_10101_01010_00111_00000000011,
     0b000000_10101_01010_00111_00000000100,
     0b000000_10101_01010_00111_00000000101,
     0b000000_10101_01010_00111_00000000110,
     0b000000_10101_01010_00111_00000000111,
     0b000000_10101_01010_00111_00000001000,
     0b000000_10101_01010_00111_00000001001,
     0b000000_10101_01010_00111_00000001010,
     0b000000_10101_01010_00111_00000001011,
     0b000000_10101_01010_00111_00000001100,
     0b000000_10101_01010_00111_00000001101,
     0b000000_10101_01010_00111_00000001110,
     0b000000_10101_01010_00111_00000001111,
     0b000000_10101_01010_00111_00000010000,
     0b000000_10101_01010_00111_00000010001,
     0b000000_10101_01010_00111_00000010010,
     0b000000_10101_01010_00111_00000010011,
     0b000000_10101_01010_0000000000010100,
     0b000000_10101_01010_0000000000010101,
     0b000000_10101_01010_0000000000010110,
     0b000000_10101_01010_00111_00000010111,
     0b000000_10101_01010_00111_00000011000].map decodeSeq =
    [.add 21 10 7,
     .sub 21 10 7,
     .and_ 21 10 7,
     .or_ 21 10 7,
     .xor 21 10 7,
     .andn 21 10 7,
     .orn 21 10 7,
     .sll 21 10 7,
     .srl 21 10 7,
     .sra 21 10 7,
     .slt 21 10 7,
     .sltu 21 10 7,
     .min_ 21 10 7,
     .max_ 21 10 7,
     .minu 21 10 7,
     .maxu 21 10 7,
     .mul 21 10 7,
     .mulh 21 10 7,
     .mulhu 21 10 7,
     .mulhsu 21 10 7,
     .clz 21 10,
     .ctz 21 10,
     .popc 21 10,
     .rol 21 10 7,
     .ror 21 10 7] := by decide +kernel

theorem test_decode_imm :
    [0b000100_10101_01010_1000000000000001,
     0b000101_10101_01010_1000000000000001,
     0b000110_10101_01010_1000000000000001,
     0b000111_10101_01010_1000000000000001,
     0b001000_10101_01010_1000000000000001,
     0b001001_10101_01010_1000000000000001,
     0b001010_10101_01010_0000000000_010011,
     0b001011_10101_01010_0000000000_010011,
     0b001100_10101_01010_0000000000_010011,
     0b001101_10101_00000_1000000000000001,
     0b001110_10101_01010_1000000000000001,
     0b001111_10101_01010_1000000000000001].map decodeSeq =
    [.addi 21 10 0x8001,
     .andi 21 10 0x8001,
     .ori 21 10 0x8001,
     .xori 21 10 0x8001,
     .slti 21 10 0x8001,
     .sltiu 21 10 0x8001,
     .slli 21 10 19,
     .srli 21 10 19,
     .srai 21 10 19,
     .lui 21 0x8001,
     .shori 21 10 0x8001,
     .muli 21 10 0x8001] := by decide +kernel

theorem test_decode_ls :
    [0b010000_10101_01010_010_1111111111110,
     0b010001_10101_01010_010_1111111111110,
     0b010010_10101_01010_010_1111111111110,
     0b010011_10101_01010_010_1111111111110,
     0b010100_10101_01010_010_1111111111110,
     0b011000_10101_01010_010_1111111111110,
     0b011001_10101_01010_010_1111111111110,
     0b011010_10101_01010_010_1111111111110,
     0b011011_10101_01010_010_1111111111110,
     0b011100_10101_01010_010_1111111111110].map decodeSeq =
    [.ldSp1 2 21 10 0x1FFE,
     .ldSp2 2 21 10 0x1FFE,
     .ldSp3 2 21 10 0x1FFE,
     .ldG 2 21 10 0x1FFE,
     .ldAp 2 21 10 0x1FFE,
     .stSp1 2 21 10 0x1FFE,
     .stSp2 2 21 10 0x1FFE,
     .stSp3 2 21 10 0x1FFE,
     .stG 2 21 10 0x1FFE,
     .stAp 2 21 10 0x1FFE] := by decide +kernel

theorem test_decode_br :
    [0b100000_01010_00111_1111111111111101,
     0b100001_01010_00111_1111111111111101,
     0b100010_01010_00111_1111111111111101,
     0b100011_01010_00111_1111111111111101,
     0b100100_01010_00111_1111111111111101,
     0b100101_01010_00111_1111111111111101,
     0b1001100000000000_1111111111111101,
     0b1001110000000000_1111111111111101,
     0b101000_11111111111111111111110000,
     0b101001_11111111111111111111110000,
     0b101010_10101_01010_0000000000000000].map decodeSeq =
    [.beq 10 7 0xFFFD,
     .bne 10 7 0xFFFD,
     .blt 10 7 0xFFFD,
     .bge 10 7 0xFFFD,
     .bltu 10 7 0xFFFD,
     .bgeu 10 7 0xFFFD,
     .bmz 0xFFFD,
     .bmnz 0xFFFD,
     .j 0x3FFFFF0,
     .jal 0x3FFFFF0,
     .jr 21 10] := by decide +kernel

theorem test_decode_ctl :
    [0b1011000000000000_1011111011101111,
     0b11000100000000000000000000000001,
     0b11000100000_01010_0000000000000101,
     0b11000100000000000000000000001011,
     0b11000100000000000000000000001100,
     0b111101_01_01010_00111_00000000000101].map decodeSeq =
    [.trap 0xBEEF,
     .chkerr,
     .waitg 10,
     .notify,
     .halt,
     .play 1 10 7 5] := by decide +kernel

theorem test_decode_desc :
    [0b110000_01001_01010_000000000000_0110,
     0b1100000000000000000000000001_0110,
     0b1100000000000000000000000010_0110].map decodeSeq =
    [.dset 6 9 10,
     .dbind 6,
     .dunbind 6] := by decide +kernel

theorem test_decode_point :
    [0b110001_10101_01010_0000000000000000,
     0b110010_10101_0000000000000_10010001,
     0b110011_10101_00000_0000000100000101,
     0b110100_10101_000000000000000000000,
     0b110100_10101_000000000000000000001].map decodeSeq =
    [.yield 21 10,
     .gbar 21 0x91,
     .phase 21 0x105,
     .pabort 21,
     .pabortR 21] := by decide +kernel

theorem test_decode_sync :
    [0b110001_10101_01010_00111_00000000010,
     0b11000100000_01010_00111_00000000011,
     0b11000100000_01010_0000000000000100,
     0b1101010000000000000000000000_101_0].map decodeSeq =
    [.swait 21 10 7,
     .sacq 10 7,
     .srel 10,
     .qfence 5] := by decide +kernel

theorem test_decode_hnd :
    [0b11000100000000000000000000000110,
     0b11000100000000000000000000000111,
     0b11000100000000000000000000001000,
     0b11000100000000000000000000001001,
     0b11000100000_01010_0000000000001010].map decodeSeq =
    [.tret,
     .tretSkip,
     .tretRb,
     .tesc,
     .tsupply 10] := by decide +kernel

theorem test_decode_sys :
    [0b111110_10101_00000_000000010010_0000,
     0b11111000000_01010_000000110000_0001].map decodeSeq =
    [.mfs 21 18,
     .mts 0x30 10] := by decide +kernel

theorem test_decode_pilot :
    [0b0000000_00111_01010_000_10101_0001011,
     0b0000000_00111_01010_001_10101_0001011,
     0b0000001_00111_01010_001_10101_0001011,
     0b0000000_00111_01010_000_10101_0101011,
     0b0000000_00111_01010_001_10101_0101011].map decodeXquay =
    [some (.qfetch 21 10 7),
     some (.qbfx 21 10 7),
     some (.qbfxS 21 10 7),
     some (.qwait 21 10 7),
     some (.qdisp 21 10 7)] := by decide +kernel

theorem test_decode_rank :
    [0b0000000_010_0000000000000000000000,
     0b0001_101_000000_1000000000000000001,
     0b0010_101_000000_001_010001_01101_01011,
     0b0011_101_010_110_0000000000000000000,
     0b0100_101_010_110_0000000000000000000,
     0b0101_101_010_110_00000000000000_10011,
     0b0110_101_010_00000000000000000_10011,
     0b0111_101_010_00000000000000000_10011,
     0b1000_101_010_110_0000000000000000000,
     0b1001_101_010_110_0000000000000000000,
     0b1010_101_010_110_0000000000000000000,
     0b1011_101_010_110_0000000000000000000,
     0b1100000_010_0000000000000000000000,
     0b1101_101_010_110_0000000000000000000].map decodeRank =
    [some (.rankEnd 2),
     some (.rankLdi 5 0x40001),
     some (.rankLdf 5 1 17 13 11),
     some (.rankAdd 5 2 6),
     some (.rankSub 5 2 6),
     some (.rankMulsh 5 2 6 19),
     some (.rankShl 5 2 19),
     some (.rankShr 5 2 19),
     some (.rankMin 5 2 6),
     some (.rankSmax 5 2 6),
     some (.rankAnd 5 2 6),
     some (.rankOr 5 2 6),
     some (.rankStq 2),
     some (.rankSltu 5 2 6)] := by decide +kernel
def w3 : V3 := { rep := 3, step := 2, vd := 0x25, va := 3, vb := 0x64, rm := 1, sat := true, msk := false, t := 5, x := 6 }
def wi : VI := { rep := 3, step := 2, vd := 0x25, va := 0x63, msk := true, imm := 0x8001 }
def wm : VM := { rep := 3, step := 7, vx := 3, vi := 0x44, desc := 9, off := 0x803 }
def wx : MX := { rep := 3, step := 7, tile := 2, a := 1, b := 2, c := 3, prof := 3, rm := true, clamp := false, acc := true, arg := 0x205 }
def wd : DX := { rep := 3, step := 7, dst := 9, src := 2, aux := 3, cls := 2, phased := true, rel := false, arg := 0x2005 }

theorem test_decode_vec_v3 :
    [0b00000000_000011_0010_100101_0000011_1100100_01_1_0_101_110, 0b00000001_000011_0010_100101_0000011_1100100_01_1_0_101_110,
     0b00000010_000011_0010_100101_0000011_1100100_01_1_0_101_110, 0b00000011_000011_0010_100101_0000011_1100100_01_1_0_101_110,
     0b00000100_000011_0010_100101_0000011_1100100_01_1_0_101_110, 0b00000101_000011_0010_100101_0000011_1100100_01_1_0_101_110,
     0b00000110_000011_0010_100101_0000011_1100100_01_1_0_101_110, 0b00000111_000011_0010_100101_0000011_1100100_01_1_0_101_110,
     0b00001000_000011_0010_100101_0000011_1100100_01_1_0_101_110, 0b00001001_000011_0010_100101_0000011_1100100_01_1_0_101_110,
     0b00001010_000011_0010_100101_0000011_1100100_01_1_0_101_110, 0b00001011_000011_0010_100101_0000011_1100100_01_1_0_101_110,
     0b00010000_000011_0010_100101_0000011_1100100_01_1_0_101_110, 0b00010001_000011_0010_100101_0000011_1100100_01_1_0_101_110,
     0b00010010_000011_0010_100101_0000011_1100100_01_1_0_101_110, 0b00010011_000011_0010_100101_0000011_1100100_01_1_0_101_110,
     0b00010101_000011_0010_100101_0000011_1100100_01_1_0_101_110, 0b00010110_000011_0010_100101_0000011_1100100_01_1_0_101_110,
     0b00010111_000011_0010_100101_0000011_1100100_01_1_0_101_110, 0b00011011_000011_0010_100101_0000011_1100100_01_1_0_101_110,
     0b00011100_000011_0010_100101_0000011_1100100_01_1_0_101_110, 0b00011101_000011_0010_100101_0000011_1100100_01_1_0_101_110,
     0b00011110_000011_0010_100101_0000011_1100100_01_1_0_101_110, 0b00011111_000011_0010_100101_0000011_1100100_01_1_0_101_110].map (decodeEng .vec) =
    [.vadd w3, .vsub w3, .vmul w3, .vmulh w3, .vmac w3, .vadds w3, .vsubs w3, .vabs w3,
     .vneg w3, .vmin w3, .vmax w3, .vabsd w3, .vand w3, .vor w3, .vxor w3, .vnot w3,
     .vshl w3, .vshr w3, .vsra w3, .vrot w3, .vfsh w3, .vbfx w3, .vbfi w3, .vpopc w3] := by decide +kernel

theorem test_decode_vec_v3_2 :
    [0b00100000_000011_0010_100101_0000011_1100100_01_1_0_101_110, 0b00100001_000011_0010_100101_0000011_1100100_01_1_0_101_110,
     0b00100011_000011_0010_100101_0000011_1100100_01_1_0_101_110, 0b00100100_000011_0010_100101_0000011_1100100_01_1_0_101_110,
     0b00100101_000011_0010_100101_0000011_1100100_01_1_0_101_110, 0b00100110_000011_0010_100101_0000011_1100100_01_1_0_101_110,
     0b00100111_000011_0010_100101_0000011_1100100_01_1_0_101_110, 0b00110000_000011_0010_100101_0000011_1100100_01_1_0_101_110,
     0b00110001_000011_0010_100101_0000011_1100100_01_1_0_101_110, 0b00110010_000011_0010_100101_0000011_1100100_01_1_0_101_110,
     0b00110011_000011_0010_100101_0000011_1100100_01_1_0_101_110, 0b00110100_000011_0010_100101_0000011_1100100_01_1_0_101_110,
     0b00110101_000011_0010_100101_0000011_1100100_01_1_0_101_110, 0b00110110_000011_0010_100101_0000011_1100100_01_1_0_101_110,
     0b00110111_000011_0010_100101_0000011_1100100_01_1_0_101_110, 0b00111000_000011_0010_100101_0000011_1100100_01_1_0_101_110,
     0b00111001_000011_0010_100101_0000011_1100100_01_1_0_101_110, 0b00111010_000011_0010_100101_0000011_1100100_01_1_0_101_110,
     0b00111011_000011_0010_100101_0000011_1100100_01_1_0_101_110, 0b00111100_000011_0010_100101_0000011_1100100_01_1_0_101_110,
     0b01000000_000011_0010_100101_0000011_1100100_01_1_0_101_110, 0b01000001_000011_0010_100101_0000011_1100100_01_1_0_101_110,
     0b01000010_000011_0010_100101_0000011_1100100_01_1_0_101_110, 0b01000011_000011_0010_100101_0000011_1100100_01_1_0_101_110].map (decodeEng .vec) =
    [.vclz w3, .vcmp w3, .mpush w3, .minv w3, .mpop w3, .mclr w3, .vsel w3, .vfadd w3,
     .vfsub w3, .vfmul w3, .vfma w3, .vfms w3, .vfmin w3, .vfmax w3, .vfminp w3, .vfmaxp w3,
     .vfabs w3, .vfneg w3, .vfcmp w3, .vfsqrt w3, .vrcp w3, .vrsq w3, .vexp2 w3, .vlog2 w3] := by decide +kernel

theorem test_decode_vec_v3_3 :
    [0b01000100_000011_0010_100101_0000011_1100100_01_1_0_101_110, 0b01010000_000011_0010_100101_0000011_1100100_01_1_0_101_110,
     0b01010001_000011_0010_100101_0000011_1100100_01_1_0_101_110, 0b01010010_000011_0010_100101_0000011_1100100_01_1_0_101_110,
     0b01010011_000011_0010_100101_0000011_1100100_01_1_0_101_110, 0b01010100_000011_0010_100101_0000011_1100100_01_1_0_101_110,
     0b01010101_000011_0010_100101_0000011_1100100_01_1_0_101_110, 0b01010110_000011_0010_100101_0000011_1100100_01_1_0_101_110,
     0b01010111_000011_0010_100101_0000011_1100100_01_1_0_101_110, 0b01011000_000011_0010_100101_0000011_1100100_01_1_0_101_110,
     0b01100000_000011_0010_100101_0000011_1100100_01_1_0_101_110, 0b01100001_000011_0010_100101_0000011_1100100_01_1_0_101_110,
     0b01100010_000011_0010_100101_0000011_1100100_01_1_0_101_110, 0b01100011_000011_0010_100101_0000011_1100100_01_1_0_101_110,
     0b01100100_000011_0010_100101_0000011_1100100_01_1_0_101_110, 0b01100101_000011_0010_100101_0000011_1100100_01_1_0_101_110,
     0b01100110_000011_0010_100101_0000011_1100100_01_1_0_101_110, 0b10000000_000011_0010_100101_0000011_1100100_01_1_0_101_110,
     0b10000001_000011_0010_100101_0000011_1100100_01_1_0_101_110, 0b10000010_000011_0010_100101_0000011_1100100_01_1_0_101_110,
     0b10010000_000011_0010_100101_0000011_1100100_01_1_0_101_110].map (decodeEng .vec) =
    [.vcvt w3, .vradd w3, .vrmin w3, .vrmax w3, .vrfadd w3, .vrfmin w3, .vrfmax w3, .vrand w3,
     .vror w3, .vrxor w3, .vperm w3, .vbcst w3, .vslup w3, .vsldn w3, .vrev w3, .vzip w3,
     .vuzp w3, .vmov w3, .vbcs w3, .vins w3, .vdotp w3] := by decide +kernel

theorem test_decode_vec_vi :
    [0b00001100_000011_0010_100101_1100011_1_1000000000000001, 0b00010100_000011_0010_100101_1100011_1_1000000000000001,
     0b00011000_000011_0010_100101_1100011_1_1000000000000001, 0b00011001_000011_0010_100101_1100011_1_1000000000000001,
     0b00011010_000011_0010_100101_1100011_1_1000000000000001, 0b00100010_000011_0010_100101_1100011_1_1000000000000001,
     0b00101000_000011_0010_100101_1100011_1_1000000000000001, 0b00101001_000011_0010_100101_1100011_1_1000000000000001].map (decodeEng .vec) =
    [.vaddi wi, .vandi wi, .vshli wi, .vshri wi, .vsrai wi, .vcmpi wi, .vli wi, .vlih wi] := by decide +kernel

theorem test_decode_vec_vm :
    [0b01110000_000011_0111_0000011_1000100_1001_100000000011, 0b01110001_000011_0111_0000011_1000100_1001_100000000011,
     0b01110010_000011_0111_0000011_1000100_1001_100000000011, 0b01110011_000011_0111_0000011_1000100_1001_100000000011].map (decodeEng .vec) =
    [.vld wm, .vst wm, .vldx wm, .vlut wm] := by decide +kernel

theorem test_decode_mtx_mx :
    [0b00000000_000011_0111_10_0001_0010_0011_011_1_0_1_1000000101, 0b00000001_000011_0111_10_0001_0010_0011_011_1_0_1_1000000101,
     0b00000010_000011_0111_10_0001_0010_0011_011_1_0_1_1000000101, 0b00000011_000011_0111_10_0001_0010_0011_011_1_0_1_1000000101,
     0b00000100_000011_0111_10_0001_0010_0011_011_1_0_1_1000000101, 0b00000101_000011_0111_10_0001_0010_0011_011_1_0_1_1000000101,
     0b00000110_000011_0111_10_0001_0010_0011_011_1_0_1_1000000101, 0b00000111_000011_0111_10_0001_0010_0011_011_1_0_1_1000000101,
     0b00001000_000011_0111_10_0001_0010_0011_011_1_0_1_1000000101, 0b00001001_000011_0111_10_0001_0010_0011_011_1_0_1_1000000101,
     0b00001010_000011_0111_10_0001_0010_0011_011_1_0_1_1000000101].map (decodeEng .mtx) =
    [.mmul wx, .mmuls wx, .mlatx wx, .mlata wx, .mzero wx, .mload wx, .mdrain wx, .mckset wx,
     .locfix wx, .mretry wx, .wxload wx] := by decide +kernel

theorem test_decode_data_dx :
    [0b00000000_000011_0111_1001_0010_0011_10_1_0_10000000000101, 0b00000111_000011_0111_1001_0010_0011_10_1_0_10000000000101,
     0b00001110_000011_0111_1001_0010_0011_10_1_0_10000000000101, 0b00000001_000011_0111_1001_0010_0011_10_1_0_10000000000101,
     0b00001000_000011_0111_1001_0010_0011_10_1_0_10000000000101, 0b00000010_000011_0111_1001_0010_0011_10_1_0_10000000000101,
     0b00001001_000011_0111_1001_0010_0011_10_1_0_10000000000101, 0b00010000_000011_0111_1001_0010_0011_10_1_0_10000000000101,
     0b00000011_000011_0111_1001_0010_0011_10_1_0_10000000000101, 0b00001010_000011_0111_1001_0010_0011_10_1_0_10000000000101,
     0b00010001_000011_0111_1001_0010_0011_10_1_0_10000000000101, 0b00000100_000011_0111_1001_0010_0011_10_1_0_10000000000101,
     0b00001011_000011_0111_1001_0010_0011_10_1_0_10000000000101, 0b00010010_000011_0111_1001_0010_0011_10_1_0_10000000000101,
     0b00000101_000011_0111_1001_0010_0011_10_1_0_10000000000101, 0b00001100_000011_0111_1001_0010_0011_10_1_0_10000000000101,
     0b00010011_000011_0111_1001_0010_0011_10_1_0_10000000000101, 0b00000110_000011_0111_1001_0010_0011_10_1_0_10000000000101,
     0b00001101_000011_0111_1001_0010_0011_10_1_0_10000000000101].map (decodeEng .data) =
    [.tmov wd, .dcomp wd, .afence wd, .dload wd, .dexp wd, .dstore wd, .dtrans wd, .mfbuild wd,
     .dphst wd, .dfill wd, .mfread wd, .dgather wd, .datom wd, .cmfetch wd, .dscatter wd, .dataSrel wd,
     .tsupd wd, .dmcast wd, .dataSacq wd] := by decide +kernel
/-- The control words of each engine (R200). -/
theorem test_decode_controls :
    decodeEng .vec 0b11110000_000000_0000_00000000000000000000000000_0000 = .engineNotify .vec zc ∧
    decodeEng .mtx 0b11110001_000000_0000_00000000000000000000000000_1010 = .engineQfence .mtx { zc with mask := 10 } ∧
    decodeEng .data 0b11110010_000000_0000_10000000000000000000000001_0000 = .wait .data { zc with arg := 0x2000001 } ∧
    decodeEng .vec 0b11110011_000101_0000_00000000000000000000000000_0000 = .nop .vec { zc with rep := 5 } ∧
    decodeEng .vec 0x0D0000000000 = .unassignedEngineOpcode .vec 0x0D0000000000 ∧
    decodeEng .mtx 0x0B0000000000 = .unassignedEngineOpcode .mtx 0x0B0000000000 ∧
    decodeEng .data 0x0F0000000000 = .unassignedEngineOpcode .data 0x0F0000000000 := by decide +kernel

/-- The writes with rows of their own, by register number (R231, R235), and an encoding with no instruction. -/
theorem test_decode_mts_rows :
    [0b111110_00000_00101_000000001100_0001, 0b111110_00000_00101_000000110001_0001, 0b111110_00000_00101_000011001001_0001,
     0b111110_00000_00101_000000010011_0001, 0b111110_00000_00101_000000001000_0001, 0b111110_00000_00101_000000101001_0001,
     0b111110_00000_00101_000000001001_0001, 0b111110_00000_00101_000100100000_0001, 0b000011_00000_00000_0000000000000000].map decodeSeq =
    [.sfifo 5, .lslot 0 5, .chmap 9 5, .errinj 5, .promo 5, .cktol 3 5, .nprof 5, .mainpc 31 5, .reservedSequencerEncoding 0x0C000000] := by
  decide +kernel

/-- Sequencer words of the spec's listings. -/
theorem test_decode_listed_seq :
    [0x10C00014, 0x10E00028, 0x00000000, 0xF431C003, 0xC400000B, 0x1108FFFF, 0x8500FFFD, 0xF449C001, 0xC0000011, 0xC4100005, 0xC62F0000, 0xF81000B1,
     0x4274A006, 0xCD000000, 0xC9C00011, 0xF5424008, 0xF8050131, 0xF631C00B, 0xC48A5802, 0xC40A5803, 0x48AC6000, 0x48CC6100].map decodeSeq =
    [.addi 6 0 0x14, .addi 7 0 40, .add 0 0 0, .play 0 6 7 3, .notify, .addi 8 8 0xFFFF, .bne 8 0 0xFFFD, .play 0 9 7 1, .dbind 1, .waitg 16,
     .yield 17 15, .mts 0x00B 16, .ldSp1 5 19 20 6, .phase 8 0, .gbar 14 17, .play 1 8 9 8, .errinj 5, .play 2 6 7 11, .swait 4 10 11, .sacq 10 11,
     .ldSp3 3 5 12 0, .ldSp3 3 6 12 0x100] := by decide +kernel

/-- Vector words of the spec's listings. -/
theorem test_decode_listed_vec :
    [0x700000802000, 0xF31000000000, 0x210000020082, 0x080003020000, 0x270002060400, 0x250000000000, 0x710001003000, 0xF00000000000, 0x720003861000,
     0x210010020C04, 0x1C000A101C00, 0x7300060B2000, 0x090004086008, 0x1D000E185000, 0x62001B0A7001, 0x56001E3A0000].map (decodeEng .vec) =
    [.vld { zm with vx := 1, desc := 2 }, .nop .vec { zc with rep := 4 }, .vcmp { z3 with va := 1, sat := true, x := 2 }, .vneg { z3 with vd := 3, va := 1 },
     .vsel { z3 with vd := 2, va := 3, vb := 1 }, .mpop z3, .vst { zm with vx := 2, desc := 3 }, .engineNotify .vec zc,
     .vldx { zm with vx := 7, vi := 6, desc := 1 }, .vcmp { z3 with vd := 16, va := 1, vb := 3, x := 4 }, .vfsh { z3 with vd := 10, va := 8, vb := 7 },
     .vlut { zm with vx := 12, vi := 11, desc := 2 }, .vmin { z3 with vd := 4, va := 4, vb := 24, t := 1 }, .vbfx { z3 with vd := 14, va := 12, vb := 20 },
     .vslup { z3 with vd := 27, va := 5, vb := 28, x := 1 }, .vrand { z3 with vd := 30, va := 29 }] := by decide +kernel

theorem test_decode_listed_vec_repeats :
    [0x280004004020, 0x290004083F80, 0x800C29000000, 0x711DF4801000, 0x441D08014009, 0x441D1011200A, 0x311D98004000, 0x801CA9100000, 0x90000602_0801].map
      (decodeEng .vec) =
    [.vli { zi with vd := 4, imm := 0x4020 }, .vlih { zi with vd := 4, va := 4, imm := 0x3F80 }, .vmov { z3 with rep := 3, vd := 0x29 },
     .vst { zm with rep := 7, step := 7, vx := 0x69, desc := 1 }, .vcvt { z3 with rep := 7, step := 4, vd := 8, vb := 0x50, t := 1, x := 1 },
     .vcvt { z3 with rep := 7, step := 4, vd := 16, va := 8, vb := 0x48, t := 1, x := 2 }, .vfsub { z3 with rep := 7, step := 6, vd := 24, vb := 16 },
     .vmov { z3 with rep := 7, step := 2, vd := 0x29, va := 8 }, .vdotp { z3 with vd := 6, va := 1, vb := 2, x := 1 }] := by decide +kernel

/-- Matrix words of the spec's listings. -/
theorem test_decode_listed_mtx :
    [0x000011200000, 0x060010030000, 0x080010000000, 0x000007400000, 0x000008500400, 0x000005A04000, 0x000005804400, 0x0600000B0000].map (decodeEng .mtx) =
    [.mmul { zx with tile := 1, a := 1, b := 2 }, .mdrain { zx with tile := 1, c := 3 }, .locfix { zx with tile := 1 }, .mmul { zx with a := 7, b := 4 },
     .mmul { zx with a := 8, b := 5, acc := true }, .mmul { zx with a := 5, b := 10, prof := 2 }, .mmul { zx with a := 5, b := 8, prof := 2, acc := true },
     .mdrain { zx with c := 11 }] := by decide +kernel

/-- Data-engine words of the spec's listings. -/
theorem test_decode_listed_data :
    [0x0D003C002001, 0x120033400000, 0xF200000063E0, 0x10002AF00005, 0x000032800001, 0x113C03000000, 0x13003B008010, 0x010000403112, 0x020008C00010,
     0x000026000017, 0x0B002AC04010, 0x0400018C0007, 0x00001C000000].map (decodeEng .data) =
    [.dataSacq { zd with dst := 15, arg := 0x2001 }, .cmfetch { zd with dst := 12, src := 13 }, .wait .data { zc with arg := 1598 },
     .mfbuild { zd with dst := 10, src := 11, aux := 12, arg := 5 }, .tmov { zd with dst := 12, src := 10, arg := 1 }, .mfread { zd with rep := 15, src := 12 },
     .tsupd { zd with dst := 14, src := 12, phased := true, arg := 0x10 }, .dload { zd with src := 1, arg := 0x3112 }, .dstore { zd with dst := 2, src := 3, arg := 16 },
     .tmov { zd with dst := 9, src := 8, arg := 23 }, .datom { zd with dst := 10, src := 11, rel := true, arg := 0x10 },
     .dgather { zd with src := 6, aux := 3, arg := 7 }, .tmov { zd with dst := 7 }] := by decide +kernel

/-! ## One step on a small state -/

/-- Core 0 alone in a gang at gang cycle 0, about to issue; with changes to the core. -/
def one : State := State.reset.withFetchWord 32 0
def oneWith (f : Core → Core) : State := one.modCore 0 f
/-- The same with scalar registers set. -/
def oneRegs (l : List (Nat × Word)) : State :=
  oneWith fun c => { c with seq := l.foldl (fun q x => q.setReg x.1 x.2) c.seq }
/-- Whether the step goes on in a state with a property. -/
def nextIs (r : Res) (p : State → Bool) : Bool := match r with | .next t => p t | _ => false
/-- The last effect put on its way. -/
def lastEff (t : State) : Option (Nat × Eff) := t.me.pend.getLast?.map fun p => (p.land, p.eff)
/-- A scalar result on its way: when it lands, in which register of the main context, its value. -/
def sends (i : Instr) (s : State) (land r : Nat) (v : Word) : Bool := nextIs (exec i s) fun t => lastEff t = some (land, .sreg false r v)
/-- A fault taken: its cause and INFO in TREC. -/
def faults (i : Instr) (s : State) (cause info : Nat) : Bool :=
  nextIs (exec i s) fun t => t.me.trec.cause.toNat = cause && t.me.trec.info.toNat = info && t.me.run.stop.isSome && t.me.pend = s.me.pend

/-- The cause and INFO of a fault taken. -/
def faultsOn (r : Res) (cause info : Nat) : Bool :=
  nextIs r fun t => t.me.trec.cause.toNat = cause && t.me.trec.info.toNat = info && t.me.run.stop.isSome

/-- s1 and s2 of the ALU tests. -/
def ab : State := oneRegs [(1, 0xF000000000000005), (2, 0x44)]

/-- R207, by hand. -/
theorem test_alu_logic :
    ([(.add 5 1 2, 0xF000000000000049), (.sub 5 1 2, 0xEFFFFFFFFFFFFFC1), (.and_ 5 1 2, 4), (.or_ 5 1 2, 0xF000000000000045),
      (.xor 5 1 2, 0xF000000000000041), (.andn 5 1 2, 0xF000000000000001), (.orn 5 1 2, 0xFFFFFFFFFFFFFFBF), (.sll 5 1 2, 0x50),
      (.srl 5 1 2, 0x0F00000000000000), (.sra 5 1 2, 0xFF00000000000000), (.rol 5 1 2, 0x5F), (.ror 5 1 2, 0x5F00000000000000)] :
      List (Instr × Word)).all (fun x => sends x.1 ab 1 5 x.2) = true := by decide +kernel
theorem test_alu_compare :
    ([(.slt 5 1 2, 1), (.sltu 5 1 2, 0), (.min_ 5 1 2, 0xF000000000000005), (.max_ 5 1 2, 0x44), (.minu 5 1 2, 0x44), (.maxu 5 1 2, 0xF000000000000005),
      (.clz 5 2, 57), (.ctz 5 2, 2), (.popc 5 1, 6), (.clz 5 0, 64), (.ctz 5 0, 64)] :
      List (Instr × Word)).all (fun x => sends x.1 ab 1 5 x.2) = true := by decide +kernel
theorem test_alu_multiply :
    ([(.mul 5 1 2, 0xC000000000000154), (.mulh 5 1 2, 0xFFFFFFFFFFFFFFFB), (.mulhu 5 1 2, 0x3F), (.mulhsu 5 1 2, 0xFFFFFFFFFFFFFFFB)] :
      List (Instr × Word)).all (fun x => sends x.1 ab 3 5 x.2) = true := by decide +kernel
/-- R208, by hand. -/
theorem test_immediates :
    ([(.addi 5 1 0x8001, 0xEFFFFFFFFFFF8006), (.andi 5 1 0x8001, 1), (.ori 5 1 0x8001, 0xF000000000008005), (.xori 5 1 0x8001, 0xF000000000008004),
      (.slti 5 1 0x8001, 1), (.sltiu 5 2 0x8001, 1), (.slti 5 2 0x8001, 0), (.slli 5 1 19, 0x280000), (.srli 5 1 19, 0x1E0000000000),
      (.srai 5 1 19, 0xFFFFFE0000000000), (.lui 5 0x8001, 0xFFFFFFFF80010000), (.shori 5 1 0x8001, 0x58001)] :
      List (Instr × Word)).all (fun x => sends x.1 ab 1 5 x.2) = true ∧ sends (.muli 5 1 0x8001) ab 3 5 0xEFFFFFFFFFFD8005 = true := by decide +kernel
/-- R38, R213: a taken BNE to −3 words, its slot first; a target below 0 raises PERM. -/
theorem test_branch :
    nextIs (exec (.bne 1 2 0xFFFD) (oneWith fun c => { c with seq := { c.seq with pc := 0x18, regs := [0, 1] } })) (fun t =>
      t.me.seq.pc = 0x1C && t.me.seq.slot.map Slot.dest = some 0x10) = true ∧
    faults (.beq 0 0 0xFFFD) one 0x05 (2 ^ 64 - 8) = true := by decide +kernel
/-- R214: JAL links PC + 8 in s31; JR to an address that is no multiple of 4 raises ALIGN. -/
theorem test_jumps :
    nextIs (exec (.jal 3) one) (fun t => t.me.seq.slot.map Slot.dest = some 16 && decide (lastEff t = some (1, .sreg false 31 8))) = true ∧
    faults (.jr 0 1) (oneRegs [(1, 0x102)]) 0x03 0x102 = true ∧ faults (.jr 0 1) (oneRegs [(1, 0x3E000)]) 0x05 0x3E000 = true := by decide +kernel
/-- R209: a signed byte of SP1, a misaligned address, an address past SP1; a store on its way for c + 3 (R206). -/
theorem test_scratchpad :
    sends (.ldSp1 0 5 1 0xFFFF) (oneWith fun c => { c with seq := { c.seq with regs := [0, 9] }, mem := { c.mem with sp1 := [(8, 0x80)] } }) 5 5
      0xFFFFFFFFFFFFFF80 = true ∧
    faults (.ldSp1 2 5 1 0) (oneRegs [(1, 6)]) 0x03 6 = true ∧ faults (.stSp1 3 5 1 0) (oneRegs [(1, 0x300000)]) 0x05 0x300000 = true ∧
    nextIs (exec (.stSp1 1 2 1 4) (oneRegs [(1, 0x10), (2, 0xABCDEF)])) (fun t =>
      decide (lastEff t = some (3, .sp 0 [{ addr := 0x14, bytes := [0xEF, 0xCD], poison := false }]))) = true := by decide +kernel
/-- R185, R205: a reserved encoding, and TRET outside a handler, raise ILLEGAL_INSTR with the word in INFO. -/
theorem test_illegal :
    faults (.reservedSequencerEncoding 0x0C000000) one 0x01 0x0C000000 = true ∧ faults .tret one 0x01 0xC4000006 = true := by decide +kernel
/-- R227: TRAP raises 0x20 with its code. -/
theorem test_trap : faults (.trap 0xBEEF) one 0x20 0xBEEF = true := by decide +kernel
/-- R60, R219: DSET writes the low bits of a field; the write is seen two cycles later. -/
theorem test_dset : nextIs (exec (.dset 3 4 1) (oneRegs [(1, 0x1234567)])) (fun t => t.me.pend.map Pend.land = [1]) = true := by decide +kernel
/-- R34: PLAY appends one entry; R217: WAITG stands until its cycle. -/
theorem test_play_waitg :
    nextIs (exec (.play 0 1 2 3) (oneRegs [(1, 20), (2, 40)])) (fun t => (lget t.me.engs 0 Engine.zero).q.map (fun q => (q.addr, q.len, q.stamp)) = [(20, 3, 40)]) = true ∧
    nextIs (exec (.waitg 1) (oneRegs [(1, 16)])) (fun t => t.me.seq.wait = .waitg 16) = true := by decide +kernel
/-- R230, R231: MFS of GTIME and of TIDE; MTS of a number that no register has. -/
theorem test_system_registers :
    nextIs (exec (.mfs 5 0x001) { oneWith (fun c => { c with run := { c.run with g := 7 } }) with tide := 9 }) (fun t => t.me.pend.length = 1) = true ∧
    faults (.mts 0x0FF 1) one 0x01 (0xF8000001 + 0x10000 + 0xFF0) = true := by decide +kernel

/-! ## Numbers of the spec's examples -/

/-- The formats of the example under R88: 1.0 in E4M3, E5M2, FP16, BF16 and FP32, and 2^-9 in E4M3. -/
theorem test_formats :
    [decodeF 6 0x38, decodeF 7 0x3C, decodeF 8 0x3C00, decodeF 9 0x3F80, decodeF 10 0x3F800000].all (fun v => flCmp v (decodeF 10 0x3F800000) == 0) = true ∧
    (cvt 6 10 0 false 1).1 = 0x3B000000 := by decide +kernel
/-- FP32 -3.5 and 200.7 to INT8, 300.0 and 500.0 to E4M3 (the examples under R91 and R93). -/
theorem test_conversions :
    (cvt 10 2 0 false 0xC0600000).1 = 0xFC ∧ (cvt 10 2 0 false 0x4348B333).1 = 0xC9 ∧
    (cvt 10 2 0 true 0x4348B333).1 = 0x7F ∧ cvt 10 6 0 false 0x43960000 = (0x79, fNX) ∧ cvt 10 6 0 false 0x43FA0000 = (0x7F, fOF ||| fNX) ∧
    cvt 10 6 0 true 0x43FA0000 = (0x7E, fOF ||| fNX) := by decide +kernel
/-- VRCP of 3.0 (the example under R105). -/
theorem test_reciprocal : fRcp 0x40400000 = (0x3EAAAAAB, 0) := by decide +kernel
/-- The P1 sum of the example under R101. -/
theorem test_group_sum :
    (groupSum 25 0 0x40800000 ([(decodeF 6 0x01, decodeF 6 0x01), (decodeF 6 0x81, decodeF 6 0x01)] ++ List.replicate 14 (decodeF 6 0, decodeF 6 0))).1 =
      0x407FFFC0 := by decide +kernel
/-- The swizzle of the example under R59: element (5, 70) lies at 0x506 from BASE. -/
theorem test_swizzle :
    ({ Desc.zero with base := 0x10000, fmt := 2, rstride := 256, estride := 1, swz := 3 } : Desc).offset 5 70 = 0x506 := by decide +kernel
/-- Clusters (R3) and hop distances (R25). -/
theorem test_mesh : cluster 15 = 4 ∧ [14, 15, 20, 21].map cluster = [4, 4, 4, 4] ∧ hops 8 15 = 2 ∧ hops 8 14 = 1 := by decide
/-- BARRIER_RELEASE of the example under R43: arrivals 300, 341 and 322 release at 405. -/
theorem test_barrier :
    nextIs (exec .barrierRelease
        { one with
          sched := { one.sched with groups := lput one.sched.groups 17 (true, 0x4300) (false, 0) }
          cores := one.cores.mapIdx fun k (c : Core) => { c with seq := { c.seq with wait := .gbar 17 (if k = 8 then 300 else if k = 9 then 341 else 322) 5 } }
          cur := { one.cur with arg := 17 } })
      (fun t => [8, 9, 14].all fun k => (t.core k).seq.wait == .until_ 405 && (t.core k).pend.map Pend.eff == [.sreg false 5 405]) = true := by
  decide +kernel
/-- The state that a step answers. -/
def after (r : Res) : State := match r with | .next t => t | _ => State.reset
/-! ## Witnesses: states and operands that meet the hypotheses of each statement, each clause at a boundary where it has a range -/

/-- The main context and the shadow context of core 0, about to issue. -/
def inShadow (s : State) : State := { s with cur := { s.cur with shadow := true } }
/-- Core 0 with a branch's delay slot next. -/
def inSlot : State := oneWith fun c => { c with seq := { c.seq with slot := some { brPc := 0, dest := 8, mask := false } } }
def nexts (r : Res) : Bool := nextIs r fun _ => true

theorem witness_AluRegisterResults : one.canIssue anyPlace = true ∧ inSlot.canIssue anyPlace = true ∧ (inShadow one).canIssue anyPlace = true := by decide +kernel
theorem witness_AluCounts : ab.canIssue anyPlace = true ∧ (ab.rd 1).getLsbD 63 = true ∧ (ab.rd 2).getLsbD 0 = false ∧ ab.rd 0 = 0 := by decide +kernel
theorem witness_AluImmediateResults : ab.canIssue anyPlace = true := by decide +kernel
theorem witness_RegisterFormsFrame : one.canIssue anyPlace = true ∧ nexts (exec (.mulhsu 31 0 1) one) = true ∧ nexts (exec (.muli 0 1 0xFFFF) one) = true := by
  decide +kernel
theorem witness_RegisterWriteLands : ∃ p : Pend, p.eff = .sreg false 31 5 ∧ p.need = none :=
  ⟨{ id := 0, land := 0, since := 0, tide := false, unit := 0, goesOn := false, need := none, phased := false, missed := false, eff := .sreg false 31 5 }, rfl, rfl⟩
theorem witness_LatencyIsKept :
    0 = one.cur.core ∧ one.cur.shadow = false ∧ (31 : BitVec 5) ≠ 0 ∧ one.me.pend = [] ∧ one.me.run.stop = none ∧ one.me.run.g ≤ 0 := by decide +kernel
/-- Targets 0 and 0x3DFFC, the first and the last of the main context. -/
theorem witness_BranchResults :
    (oneWith fun c => { c with seq := { c.seq with pc := 8 } }).canIssue noSlot = true ∧ (8 : Int) + 4 + 4 * (0xFFFD : BitVec 16).toInt = 0 ∧
    (oneWith fun c => { c with seq := { c.seq with pc := 0x3DFF4 } }).canIssue noSlot = true ∧ (0x3DFF4 : Int) + 4 + 4 * (1 : BitVec 16).toInt = 0x3DFFC := by
  decide +kernel
theorem witness_JumpResults :
    one.canIssue noSlot = true ∧ one.ctx.pc.toNat % 4 = 0 ∧ (oneRegs [(1, 0x3DFFC)]).canIssue noSlot = true ∧ ((oneRegs [(1, 0x3DFFC)]).rd 1).toNat % 4 = 0 := by
  decide +kernel
theorem witness_BranchInSlot : inSlot.ctx.slot.isSome = true ∧ inSlot.me.badLine inSlot.ctx.pc.toNat 4 = false := by decide +kernel
/-- The targets just outside: -4 and 0x3E000; a JR to 0x3E000 and to 0x3DFFD. -/
theorem witness_TransferFaults :
    one.canIssue noSlot = true ∧ (0 : Int) + 4 + 4 * (0xFFFE : BitVec 16).toInt = -4 ∧ (0 : Int) + 4 + 4 * (0xF7FF : BitVec 26).toInt = 0x3E000 ∧
    one.rd 1 = one.rd 2 ∧ (0x3DFFD : Nat) < 0x3E000 ∧ (0x3DFFD : Nat) % 4 ≠ 0 ∧
    faults (.bne 1 0 0xFFFE) (oneRegs [(1, 1)]) 0x05 (2 ^ 64 - 4) = true ∧ faults (.j 0xF7FF) one 0x05 0x3E000 = true ∧
    faults (.jr 0 1) (oneRegs [(1, 0x3DFFD)]) 0x03 0x3DFFD = true := by decide +kernel
/-- The last eight bytes of SP1 and SP3; SP2 with USESP2. -/
theorem witness_ScratchpadLoads :
    one.canIssue anyPlace = true ∧ (6 : BitVec 3).toNat ≤ 6 ∧ (oneRegs [(1, 0x2FFFF8)]).handlerWaits 0 0x2FFFF8 8 = false ∧
    sends (.ldSp1 6 5 1 0) (oneRegs [(1, 0x2FFFFC)]) 5 5 0 = true ∧ sends (.ldSp3 3 5 1 0) (oneRegs [(1, 0x13FFFF8)]) 47 5 0 = true ∧
    sends (.ldSp2 3 5 1 0) (oneWith fun c => { c with run := { c.run with usesp2 := true }, seq := { c.seq with regs := [0, 0x7FFFF8] } }) 11 5 0 = true := by
  decide +kernel
theorem witness_ScratchpadStores :
    (3 : BitVec 3).toNat ≤ 3 ∧ nexts (exec (.stSp3 3 5 1 0) (oneRegs [(1, 0x13FFFF8)])) = true ∧
    nextIs (exec (.stSp1 3 5 1 0) (oneRegs [(1, 0x2FFFF8)])) (fun t => t.me.pend.map Pend.land = [3]) = true := by decide +kernel
theorem witness_ScratchpadFaults :
    faults (.ldSp3 3 5 1 0) (oneRegs [(1, 0x1400000)]) 0x05 0x1400000 = true ∧ faults (.ldSp2 1 5 1 0) (oneRegs [(1, 0x800001)]) 0x03 0x800001 = true := by
  decide +kernel
/-- An effect of core 0 on its way, the one that a landing concerns. -/
def flying (e : Eff) : State :=
  let p : Pend := { id := 7, land := 3, since := 0, tide := false, unit := 0, goesOn := false, need := none, phased := false, missed := false, eff := e }
  { oneWith (fun c => { c with pend := [p] }) with cur := { one.cur with arg := 7 } }
def storing : State := flying (.sp 0 [{ addr := 0x2FFFF8, bytes := leBytes 8 0x1122334455667788, poison := false }])
theorem witness_StoreLands :
    (storing.thePend.map Pend.need = some none) ∧ Memory.wf storing.me.mem.sp1 = true ∧
    nextIs (exec .spWriteLands storing) (fun t => mread t.me.mem.sp1 0x2FFFF8 = 0x88 && mread t.me.mem.sp1 0x2FFFFF = 0x11) = true := by decide +kernel
theorem witness_PiecesLand :
    Claims.lastToLand storing { id := 7, land := 3, since := 0, tide := false, unit := 0, goesOn := false, need := none, phased := false, missed := false, eff := .chkint } 0 ∧
    storing.mem.spq = [] ∧ storing.me.run.berth = some 0 ∧ (∀ a, ¬ Claims.keptArmed storing 3 a) ∧
    (let s := flying (.sp 2 [{ addr := 8, bytes := [5, 6], poison := false }, { addr := 9, bytes := [7], poison := false }])
     nextIs (exec .spWriteLands s) (fun t => let u := Claims.oneOn t 0
       u.spAhead 0 2 == [] && u.spByte 0 2 8 == 5 && u.spByte 0 2 9 == 7 && u.spByte 0 2 10 == 0) = true) := by
  refine ⟨?_, by decide +kernel, by decide +kernel, ?_, by decide +kernel⟩
  · have h : storing.me.landed = [] := by decide +kernel
    simp [Claims.lastToLand, h]
  · have h : storing.mem.syncs = [] := by decide +kernel
    simp [Claims.keptArmed, h]
theorem witness_StoresFrame : one.canIssue anyPlace = true ∧ nexts (exec (.stSp2 0 0 0 0) one) = true := by decide +kernel
/-- d4 bound to 64 KiB of HBM at virtual address 0x20000, and d5 through aperture 1. -/
def pins : List Pin := [{ va := 0x20000, len := 0x10000, tgt := 0, pa := 0x50000, page := 0 }]
def bound4 : State :=
  let d : Desc := { Desc.zero with level := 3, bound := true, base := 0x20000, rows := 1, cols := 0x100, pins := pins }
  let a : Desc := { d with level := 4, apidx := 1, base := 0 }
  { oneWith (fun c => { c with descs := lput (lput c.descs 4 d Desc.zero) 5 a Desc.zero, seq := { c.seq with regs := [0, 0x2FFF8, 0x1000000000000000 + 0xFFF8] } })
    with apers := lput one.apers 1 [0x8000000000020000, 0, 0x10000, 0] [] }
/-- The last eight bytes of the ranges, and a byte past them. -/
theorem witness_GlobalAccesses :
    bound4.canIssue anyPlace = true ∧ bound4.globalPlace false false (bound4.rd 1) 0 8 = .inr (0x2FFF8, [(0, 0x5FFF8, 8)]) ∧
    bound4.globalPlace true true (bound4.rd 2) 0 8 = .inr (0x2FFF8, [(0, 0x5FFF8, 8)]) ∧
    bound4.globalPlace false true (bound4.rd 1) 8 8 = .inl (mkFault 0 0x05 0x30000) ∧ (6 : BitVec 3).toNat ≤ 6 ∧ (3 : BitVec 3).toNat ≤ 3 := by decide +kernel
/-- Offsets -8 and 2^48 just outside, 4 misaligned; a BTC aperture. -/
theorem witness_ApertureChecks :
    one.canIssue anyPlace = true ∧ faults (.ldAp 3 5 1 0) (oneRegs [(1, 0x0001000000000000)]) 0x05 0x0001000000000000 = true ∧
    faults (.ldAp 3 5 1 0x1FF8) (oneRegs [(1, 0)]) 0x05 (2 ^ 64 - 8) = true ∧ faults (.ldAp 3 5 1 0) (oneRegs [(1, 4)]) 0x03 4 = true ∧
    faults (.ldAp 3 5 1 8) (oneRegs [(1, 0xFFFFFFFFFFF8)]) 0x05 (2 ^ 48) = true ∧
    faults (.ldAp 3 5 1 0) { oneRegs [(1, 0xF000000000000000)] with apers := lput one.apers 15 [0xA000000000000000, 0, 0, 0] [] } 0x06 15 = true := by
  decide +kernel

/-- R211: aperture 1 of 0x10000 bytes at 0x20000, valid or not, read-only or not. -/
def apertured (valid ro : Bool) : State :=
  { bound4 with apers := lput bound4.apers 1 [(if valid then 0x8000000000000000 else 0) ||| (if ro then 0x4000000000000000 else 0) ||| 0x20000, 0, 0x10000, 0] [] }
theorem witness_ApertureChecks_store :
    (let s (x : Word) (v ro : Bool) : State := (apertured v ro).modMe fun c => { c with seq := { c.seq with regs := lput c.seq.regs 1 (0x1000000000000000 + x) 0 } }
     faults (.ldAp 3 5 1 0) (s 0 false false) 0x05 0 = true ∧ faults (.stAp 3 5 1 0) (s 8 true true) 0x05 8 = true ∧
     faults (.stAp 3 5 1 0) (s 0x10000 true false) 0x05 0x10000 = true ∧
     ((s 8 true false).globalPlace true true ((s 8 true false).rd 1) 0 8) = .inr (0x20008, [(0, 0x50008, 8)])) := by decide +kernel
theorem witness_GlobalPlaces :
    (∃ d ∈ bound4.me.descs, d.bound = true ∧ d.level = 3 ∧ d.ro = false ∧ d.xlate 0x2FFF8 8 ≠ none) ∧
    (∀ d ∈ bound4.me.descs, d.bound = true ∧ d.level = 3 → d.xlate 0x30000 8 = none) ∧ (0x2FFFC : Nat) % 8 ≠ 0 := by decide +kernel
/-- R231: QID, BERTH and the like of a core; a tile with HOVF; the saved PC. -/
theorem witness_RegisterValues :
    (let s := oneWith fun c => { c with
       modes := { c.modes with rcnt := 2, phase := 7, chkint := true }
       mtx := { c.mtx with ckmin := 2, ckmode := 1, tiles := lput c.mtx.tiles 2 { Tile.zero with hovf := true } Tile.zero }
       trec := { c.trec with cause := 5, ds := true, pc := 0x3FFFC }, hnd := { c.hnd with mains := [(5, 99)], mainPc := 8 } }
     s.sysRead 0x007 = some 0x0000220100000007 ∧ s.sysRead 0x011 = some 0xA0004000 ∧ s.sysRead 0x040 = some 0x050080000003FFFC ∧
     s.sysRead 0x105 = some 99 ∧ s.sysRead 0x106 = some (s.me.seq.reg 6) ∧ s.sysRead 0x120 = some 8 ∧ s.me.hnd.mains.find? (·.1 = 6) = none) := by decide +kernel
theorem witness_RegisterFields :
    (let s := flying (.sys 0x030 0xFFFFFFFFFFFFFFC5)
     (s.thePend.map fun p => (p.eff, p.need)) = some (.sys 0x030 0xFFFFFFFFFFFFFFC5, none) ∧ s.cur.core < s.cores.length ∧
     (s.thePend.map fun p => (s.landQuiet p).me.params.lsel) = some 5) ∧
    (one.me.sysWrite 0x120 0x40008).hnd.mainPc = 8 ∧ ((one.me.sysWrite 0x11F 3).hnd.mains.find? (·.1 = 31)) = some (31, 3) ∧
    (one.me.sysWrite 0x0C9 0xFFFFFFFFFFFFFFFF == one.me) = !chmapOk 0xFFFFFFFFFFFFFFFF := by decide +kernel
theorem witness_SystemRegisterReads :
    one.canIssue anyPlace = true ∧ (one.sysRead 0x001).isSome = true ∧ one.sysRead 0x0FF = none ∧ mainReg 0x101 = true ∧ one.cur.shadow = false ∧
    detReg 0 = true ∧ mainReg 0 = false ∧ detReg 0x001 = false ∧
    faults (.mfs 5 0) (oneWith fun c => { c with modes := { c.modes with detEn := true } }) 0x0B 0 = true ∧
    (inShadow one).canIssue anyPlace = true ∧ ((inShadow one).sysRead 0x120).isSome = true := by decide +kernel
theorem witness_SystemRegisterWrites :
    one.canIssue anyPlace = true ∧ (one.sysRead 0x004).isSome = true ∧ (inShadow one).cur.shadow = true ∧ (one.lslotWord 3).getLsbD 62 = false ∧
    ({ one with builders := one.builders.map fun (b : Builder) => { b with slots := [[0, 0, 0, 0x4000000000000000]] } } : State).lslotWord 3 = 0x4000000000000000 ∧
    9 ≤ (31 : BitVec 5).toNat ∧ (one.chan 31).q = [] ∧ (one.chan 31).used = 0 ∧ chmapOk (one.rd 1) = true ∧ (one.chan 7).heldAt one.clk < 32 := by decide +kernel
theorem witness_ParametersClamp :
    Core.reset.params.def_.toNat ≤ 4 ∧ ((Core.reset.sysWrite 0x029 0).mtx.cktol.getD 3 0).toNat = 8 ∧ ((Core.reset.sysWrite 0x029 63).mtx.cktol.getD 3 0).toNat = 40 := by
  decide +kernel
/-- Core 0 alone in group 9; a live mask with bit 51 and one with bit 52. -/
def grouped : State := { oneRegs [(1, 2 ^ 51), (2, 2 ^ 52)] with sched := { one.sched with groups := lput one.sched.groups 9 (true, 1) (false, 0) } }
theorem witness_WaitsBegin :
    grouped.canIssue mainOnly = true ∧ (grouped.group 9).1 = true ∧ (grouped.group 9).2.getLsbD grouped.cur.core = true ∧
    ((grouped.gangOf grouped.cur.core).map Gang.members) = some [0] ∧ coresOf (grouped.group 9).2 = [0] ∧ (grouped.group 8).1 = false ∧
    (grouped.rd 1).toNat < 2 ^ 52 ∧ 2 ^ 52 ≤ (grouped.rd 2).toNat := by decide +kernel
theorem witness_WaitState : one.ctx.slot = none := by decide +kernel
/-- Core 0 in a wait. -/
def waiting (w : Wait) : State := oneWith fun c => { c with seq := { c.seq with wait := w } }
theorem witness_WaitsEnd : (waiting (.waitg 16)).me.seq.wait = .waitg 16 ∧ (waiting (.play 2)).me.seq.wait = .play 2 := by decide +kernel
/-- The example under R43, every member arrived. -/
def arrived : State :=
  { one with
    sched := { one.sched with groups := lput one.sched.groups 255 (true, 0x4300) (false, 0) }
    cores := one.cores.mapIdx fun k (c : Core) => { c with seq := { c.seq with wait := .gbar 255 (if k = 8 then 300 else if k = 9 then 341 else 322) 31 } }
    cur := { one.cur with arg := 255 } }
theorem witness_BarrierReleases : arrived.barrierArrivals arrived.cur.arg = some [300, 341, 322] ∧ nexts (exec .barrierRelease arrived) = true := by decide +kernel
/-- 31 entries and 32 in the data queue. -/
def queued (n : Nat) : State :=
  oneWith fun c => { c with engs := lput c.engs 2 { Engine.zero with q := List.replicate n { addr := 0, len := 1, stamp := 0, played := 0 } } Engine.zero
                            seq := { c.seq with regs := [0, 0x3DFFA] } }
theorem witness_PlayAppends :
    (queued 31).canIssue anyPlace = true ∧ engOf 2 = some .data ∧ (1 : BitVec 14) ≠ 0 ∧ ((queued 31).rd 1).toNat % 2 = 0 ∧ ((queued 31).rd 1).toNat < 0x40000 ∧
    ((queued 31).rd 1).toNat + 6 * (1 : BitVec 14).toNat ≤ 0x3E000 ∧ ((queued 31).eng .data).q.length < 32 ∧ ((queued 31).eng .data).ended = false ∧
    (inShadow (queued 31)).canIssue anyPlace = true ∧ ((inShadow (queued 31)).eng .data).q.length < 4 := by decide +kernel
theorem witness_PlayFull :
    (queued 32).canIssue anyPlace = true ∧ (queued 32).cur.shadow = false ∧ engOf 2 = some .data ∧ ((queued 32).rd 1).toNat % 2 = 0 ∧
    ((queued 32).rd 1).toNat + 6 * (1 : BitVec 14).toNat ≤ 0x3E000 ∧ 32 ≤ ((queued 32).eng .data).q.length ∧ ((queued 32).eng .data).ended = false := by decide +kernel
/-- s1 at address x, and a data queue that has issued its NOTIFY. -/
def playAt (x : Nat) (ended : Bool) : State :=
  oneWith fun c => { c with engs := lput c.engs 2 { Engine.zero with ended := ended } Engine.zero, seq := { c.seq with regs := [0, BitVec.ofNat 64 x] } }
theorem witness_PlayFaults :
    (playAt 0x3DFFA true).canIssue anyPlace = true ∧ (playAt 0x3DFFA true).cur.shadow = false ∧ engOf 2 = some .data ∧
    ((playAt 0x3DFFA true).eng .data).ended = true ∧ ((playAt 0x3DFFA true).rd 1).toNat + 6 * (1 : BitVec 14).toNat ≤ 0x3E000 ∧
    faults (.play 2 1 0 1) (playAt 0x3DFFA true) 0x01 (encodeNat (.play 2 1 0 1)) = true ∧
    faults (.play 3 1 0 1) (playAt 0 false) 0x01 (encodeNat (.play 3 1 0 1)) = true ∧
    faults (.play 2 1 0 0) (playAt 1 false) 0x01 (encodeNat (.play 2 1 0 0)) = true ∧
    faults (.play 2 1 0 1) (playAt 0x3FFFF false) 0x03 0x3FFFF = true ∧ faults (.play 2 1 0 1) (playAt 0x3DFFC false) 0x05 0x3DFFC = true ∧
    nextIs (exec (.play 2 1 0 1) (inShadow (playAt 0x3DFFC false))) (fun t => t.me.run.stop == (inShadow (playAt 0x3DFFC false)).me.run.stop) = true := by
  decide +kernel
theorem witness_EndsAndTraps :
    one.canIssue mainOnly = true ∧ one.canIssue mainSlot = true ∧ inSlot.canIssue mainSlot = true ∧ one.me.modes.chkint = false ∧
    (oneWith fun c => { c with modes := { c.modes with chkint := true } }).canIssue mainSlot = true ∧ one.canIssue anyPlace = true ∧ nexts (exec .halt one) = true := by
  decide +kernel
/-- d4 of `bound4` is bound, d0 not; values 4 and 5 of LEVEL meet at the edge of its range. -/
theorem witness_DescriptorSets :
    one.canIssue anyPlace = true ∧ (one.desc 0).bound = false ∧ (bound4.desc 4).bound = true ∧ (one.desc 0).shw = false ∧
    nextIs (exec (.dset 0 0 1) (oneRegs [(1, 4)])) (fun t => t.me.pend.length = 1) = true ∧ faults (.dset 0 0 1) (oneRegs [(1, 5)]) 0x01 0xC0010000 = true ∧
    nextIs (exec (.dset 0 1 1) (oneRegs [(1, 11)])) (fun t => t.me.pend.length = 1) = true ∧ faults (.dset 0 1 1) (oneRegs [(1, 12)]) 0x01 0xC0210000 = true := by
  decide +kernel
theorem witness_BindingBegins :
    bound4.canIssue mainOnly = true ∧ (bound4.desc 0).level = 0 ∧ (bound4.desc 4).level = 3 ∧ (bound4.desc 5).level = 4 ∧ bound4.aperValid 1 = true ∧
    bound4.descFault 0 0 4 { bound4.desc 4 with bound := true } false = none ∧ bound4.viewFault 0 4 (bound4.desc 4) false = none ∧
    bound4.canIssue mainSlot = true ∧ (bound4.desc 0).bound = false ∧ (bound4.desc 4).bound = true := by decide +kernel
theorem witness_BindingEnds :
    (waiting (.dbind 15 6000 9 pins none)).gops = [] ∧ (waiting (.dbind 15 6000 9 pins none)).me.seq.wait = .dbind 15 6000 9 pins none ∧
    (waiting (.dbind 15 6000 9 pins (some (4, 1, 0x20000)))).me.seq.wait = .dbind 15 6000 9 pins (some (4, 1, 0x20000)) ∧
    (let o : GOp := { id := 9, core := 0, unit := 0, kind := .walk, deps := [], due := 0, done := false, data := [], armed := false, lane := false, names := [] }
     let s := { waiting (.dbind 15 6000 9 pins none) with gops := [o], cur := { one.cur with arg := 9 } }
     (s.gops.find? fun o => o.id = s.cur.arg && o.kind = .walk) = some o ∧ (s.core o.core).seq.wait = .dbind 15 6000 9 pins none) := by decide +kernel
def unpin : Unpin := { pins := pins, deps := [] }
theorem witness_PagesUnpin : (oneWith fun c => { c with unpins := [unpin] }).me.unpins.find? (oneWith fun c => { c with unpins := [unpin] }).me.unpinDue = some unpin := by
  decide +kernel
/-- The sync object at SP3 offset 0x13FFFC0, the last, and a misaligned one. -/
def synced : State := oneRegs [(1, 0x40000000013FFFC0), (2, 0x4000000000000020), (3, 0x8000000000000000)]
theorem witness_SyncBegins :
    synced.canIssue anyPlace = true ∧ synced.canIssue mainOnly = true ∧ synced.syncPlace (synced.rd 1) = .inr (3, 0x13FFFC0) ∧
    synced.syncPlace (synced.rd 2) = .inl (mkFault 0 0x03 0x4000000000000020) := by decide +kernel
theorem witness_SyncAddresses :
    2 ≤ (synced.rd 3).toNat / 2 ^ 62 ∧ (synced.rd 2).toNat / 2 ^ 62 < 2 ∧ (synced.rd 2).toNat % 64 ≠ 0 ∧ (synced.rd 1).toNat / 2 ^ 48 % 2 ^ 14 = 0 ∧
    (synced.rd 1).toNat / 2 ^ 62 = 1 ∧ (synced.rd 1).toNat % 2 ^ 48 < 0x1400000 ∧ synced.badBinding 3 0x13FFFC0 = false := by decide +kernel
/-- One operation in global order, ready at its home. -/
def op (k : GKind) : GOp := { id := 7, core := 0, unit := 0, kind := k, deps := [], due := 0, done := false, data := [], armed := false, lane := false, names := [] }
def homed (o : GOp) : State := { one with gops := [o], cur := { one.cur with arg := 7 } }
def aPiece : Piece := { addr := 0x7FFF8, bytes := leBytes 8 5, poison := false }
theorem witness_HomesPerform :
    ([.write [(0, aPiece)], .read [(0, 0x7FFF8, 8)], .srel 0 0x1000, .wait 0 0x1000 1, .atomic 0 0x1000 0 8 1 0 false] : List GKind).all (fun k =>
      decide ((homed (op k)).theOp = some (op k)) && (homed (op k)).opReady (op k)) = true := by decide +kernel
theorem witness_GlobalWriteBytes :
    (homed (op (.write [(0, aPiece)]))).opReady (op (.write [(0, aPiece)])) = true ∧ Memory.wf (homed (op (.write [(0, aPiece)]))).mem.hbm = true ∧
    (homed (op (.write [(0, aPiece)]))).armedAt 0 aPiece.addr aPiece.bytes.length = [] ∧
    nextIs (exec .globalWritePerformed (homed (op (.write [(0, aPiece)])))) (fun t => t.gByte 0 0x7FFF8 = 5) = true := by decide +kernel
theorem witness_ReleaseAddsOne :
    (homed (op (.srel 0 0x1000))).opReady (op (.srel 0 0x1000)) = true ∧ Memory.wf (homed (op (.srel 0 0x1000))).mem.hbm = true ∧
    (homed (op (.srel 0 0x1000))).armedAt 0 0x1000 8 = [] ∧
    nextIs (exec .homeUpdate (homed (op (.srel 0 0x1000)))) (fun t => t.gNat 0 0x1000 8 = 1) = true := by decide +kernel
/-- R83, by hand: the values of each atomic on 0xFFFFFFFF and 2. -/
theorem witness_AtomicValues :
    (0xFFFFFFFF : Nat) < 2 ^ (8 * 4) ∧ (2 ^ 64 - 1 : Nat) < 2 ^ (8 * 8) ∧
    [0, 2, 3, 4, 5, 6, 7, 8, 9, 10].map (fun o => atomicNew o 4 0xFFFFFFFF 2 0) = [1, 0xFFFFFFFF, 2, 2, 0xFFFFFFFF, 2, 0xFFFFFFFF, 0xFFFFFFFD, 2, 0xFFFFFFFF] := by
  decide +kernel
/-- SWAIT on register 31, answered with VERSION 5. -/
def answered : State :=
  let o : GOp := { op (.wait 0 0x1000 5) with done := true, data := [{ addr := 0x1000, bytes := leBytes 8 5, poison := false }] }
  { waiting (.sync 7 (some 31)) with gops := [o], cur := { one.cur with arg := 7 } }
theorem witness_WaitAnswered :
    (answered.theOp.map fun o => (o.done, o.unit, o.id)) = some (true, 0, 7) ∧ (answered.core 0).seq.wait = .sync 7 (some 31) ∧
    nextIs (exec .sacqComplete answered) (fun t => t.me.seq.reg 31 = 5) = true := by decide +kernel

/-- The timetable's handler at 0x100 for codes 0x01 and TRAP, and the fault of each clause. -/
theorem witness_FaultEntry :
    one.cur.shadow = false ∧ (mkFault 0 0x01 5).unit = 0 ∧ one.me.params.hentry = 0 ∧
    (let s := oneWith fun c => { c with params := { c.params with hentry := 0x100, hmask := 0x10001 } }
     s.me.params.hentry ≠ 0 ∧ s.me.params.hmask.getLsbD 0 = true ∧ s.me.params.hmask.getLsbD 0x10 = true ∧ s.me.params.hmask.getLsbD 1 = false) := by decide +kernel
theorem witness_FaultFrame : one.cur.shadow = false := by decide +kernel
/-- Core 0 in a handler, of the timetable or of the Pilot firmware, at tide cycle 10. -/
def handling (pilot posted : Bool) : State :=
  { oneWith (fun c => { c with hnd := { Handler.idle with active := true, pilot := pilot, posted := posted, entry := 5 } })
    with cur := { one.cur with shadow := true }, tide := 10 }
theorem witness_FaultInHandler :
    (handling false false).cur.shadow = true ∧ (handling false false).me.hnd.pilot = false ∧ (handling true false).me.hnd.pilot = true := by decide +kernel
theorem witness_PoisonedLine :
    (oneWith fun c => { c with mem := { c.mem with scorePoi := [0] } }).me.badLine 0 4 = true ∧
    (oneWith fun c => { c with mem := { c.mem with scorePoi := [0] } }).ctx.pc.toNat = 0 := by decide +kernel
theorem witness_WrongPlace :
    (inShadow one).me.badLine (inShadow one).ctx.pc.toNat 4 = false ∧ (inShadow one).cur.shadow = true ∧ one.me.badLine one.ctx.pc.toNat 4 = false ∧
    one.cur.shadow = false ∧ inSlot.me.badLine inSlot.ctx.pc.toNat 4 = false ∧ inSlot.ctx.slot.isSome = true := by decide +kernel
theorem witness_HandlerEntry :
    (oneWith fun c => { c with hnd := { Handler.idle with entry := 1 } }).me.hnd.active = false ∧
    (oneWith fun c => { c with hnd := { Handler.idle with entry := 1 } }).me.hnd.entry ≠ 0 ∧
    (oneWith fun c => { c with hnd := { Handler.idle with entry := 1 } }).me.hnd.posted = false := by decide +kernel
theorem witness_HandlerReturns :
    (handling false false).canIssue shadowOnly = true ∧ (handling false false).lanesDone 0 = true ∧ (handling false false).me.seq.slot = none ∧
    (handling false false).me.hnd.supply = none ∧
    (let s := (handling false false).modMe fun c => { c with lanes := lput c.lanes 1 { Engine.zero with q := [{ addr := 0, len := 1, stamp := 0, played := 0 }] } Engine.zero }
     s.canIssue shadowOnly = true ∧ s.lanesDone 0 = false) ∧
    (let h : HoldRec := { srcs := [], waves := [], rb := false, rbCount := false }
     let s := { handling false false with gangs := (handling false false).gangs.map fun (g : Gang) => { g with hold := some h } }
     s.me.run.berth = some 0 ∧ (s.gang 0).map Gang.hold = some (some h)) := by decide +kernel
theorem witness_StagedRegisters : (31 : Nat) < 32 ∧ ([(31, (7 : Word))].find? (·.1 = 31)).map (·.2) = some 7 := by decide +kernel
/-- 63 posts and 64; DET_READ in TREC. -/
def posting (n : Nat) : State := { handling true false with pilot := { one.pilot with posts := List.replicate n (0, []) } }
theorem witness_HandlerEscalates :
    (handling false false).canIssue shadowOnly = true ∧ (handling false false).me.hnd.pilot = false ∧ (posting 63).canIssue shadowOnly = true ∧
    (posting 63).me.hnd.pilot = true ∧ (posting 63).pilot.posts.length < 64 ∧ 64 ≤ (posting 64).pilot.posts.length ∧
    (handling false false).me.trec.cause ≠ 0x0B ∧
    (let s := (handling false false).modMe fun c => { c with trec := { c.trec with cause := 0x0B } }
     s.canIssue shadowOnly = true ∧ s.me.trec.cause = 0x0B ∧ s.me.hnd.ds = false ∧ s.me.hnd.supply = none) := by decide +kernel
theorem witness_FaultPostAnswers :
    (handling true false).me.hnd.posted = false ∧ (handling true true).me.hnd.posted = true ∧ (handling true true).me.run.berth = some 0 ∧
    ((handling true true).gang 0).isSome = true ∧ (handling true true).me.trec.cause ≠ 0x08 ∧
    (let s := (handling true true).modMe fun c => { c with trec := { c.trec with cause := 0x08 }, tfrec := { c.tfrec with rb := true } }
     s.me.hnd.posted = true ∧ s.me.run.berth = some 0 ∧ s.me.trec.cause = 0x08 ∧ s.me.tfrec.rb = true) := by decide +kernel
/-- On the last cycle before the deadline, and on it. -/
theorem witness_HandlerDeadlines :
    (handling false false).me.hnd.entry ≠ 0 ∧ (handling false false).me.hnd.posted = false ∧ (handling false false).me.hnd.fatal = false ∧
    (handling false false).me.hnd.entry + 4194304 ≤ ({ handling false false with tide := 4194309 } : State).tide ∧
    (handling true false).me.run.berth = some 0 ∧ (handling true false).me.hnd.entry + 4194304 ≤ ({ handling true false with tide := 4194309 } : State).tide := by
  decide +kernel

/-- Core 0 with a vector word to issue, at repeat k, v1 and v2 holding numbers; the word steps every register to 31. -/
def vecAt (k : Nat) : State :=
  (State.reset.withFetchWord 48 0).modCore 0 fun c =>
    { c with engs := lmod c.engs 0 Engine.zero fun e => { e with rep := k }
             vec := { c.vec with v := lput (lput c.vec.v 1 ((List.range 64).map fun l => BitVec.ofNat 32 (0x80000000 + l)) []) 2 (List.replicate 64 3) [] } }
def w2 : V3 := { z3 with rep := 1, step := 6, vd := 30, va := 30, vb := 30 }
def w1 : V3 := { z3 with rep := 1, step := 4, vd := 30, va := 30 }
/-- A form's hypotheses at repeats 0 and 1. -/
def formOk (f : VForm) (w : V3) : Bool :=
  [0, 1].all fun k => (vecAt k).wordLegal .vec (v3Legal f w) && (vecAt k).vecOk false (v3Srcs w f k) (v3Dest w f k)
def intForm (sat vb red : Bool) : VForm := { ty := 1, rm := false, sat := sat, msk := true, x := 0, va := true, vb := vb, vd := if red then 2 else 1 }
theorem witness_IntegerWords :
    formOk (intForm false true false) w2 = true ∧ formOk (intForm true true false) { w2 with sat := true, t := 5 } = true ∧
    formOk (intForm true true true) w2 = true ∧ formOk (intForm true false false) w1 = true := by decide +kernel
/-- The results of a vector word issued now, lane 1 and lane 2. -/
def lanes (i : Instr) (s : State) : Option (Nat × Lane × Lane) :=
  match exec i s with
  | .next t => t.me.pend.findSome? fun p => match p.eff with
    | .vreg _ _ v => some (p.land, lget v 1 0, lget v 2 0)
    | _ => none
  | _ => none
/-- R244, by hand: v1 holds 0x80000001 and 0x80000002, v2 holds 3. -/
theorem test_vector_integers :
    lanes (.vadd { z3 with vd := 5, va := 1, vb := 2 }) (vecAt 0) = some (2, 0x80000004, 0x80000005) ∧
    lanes (.vsubs { z3 with vd := 5, va := 1, vb := 2 }) (vecAt 0) = some (2, 0x80000000, 0x80000000) ∧
    lanes (.vmul { z3 with vd := 5, va := 1, vb := 2 }) (vecAt 0) = some (3, 0x80000003, 0x80000006) ∧
    lanes (.vmin { z3 with vd := 5, va := 1, vb := 2, t := 1 }) (vecAt 0) = some (2, 3, 3) ∧
    lanes (.vmin { z3 with vd := 5, va := 1, vb := 2 }) (vecAt 0) = some (2, 0x80000001, 0x80000002) := by decide +kernel
theorem test_vector_bits :
    lanes (.vshl { z3 with vd := 5, va := 1, vb := 2 }) (vecAt 0) = some (1, 8, 0x10) ∧
    lanes (.vsra { z3 with vd := 5, va := 1, vb := 2 }) (vecAt 0) = some (1, 0xF0000000, 0xF0000000) ∧
    lanes (.vpopc { z3 with vd := 5, va := 1 }) (vecAt 0) = some (1, 2, 2) ∧ lanes (.vclz { z3 with vd := 5, va := 2 }) (vecAt 0) = some (1, 30, 30) ∧
    lanes (.vbfx { z3 with vd := 5, va := 1, vb := 2 }) (vecAt 0) = some (1, 0, 0) ∧
    lanes (.vlih { zi with vd := 5, va := 2, imm := 0x3F80 }) (vecAt 0) = some (1, 0x3F800003, 0x3F800003) := by decide +kernel
def bitForm (x : Nat) (vb red : Bool) : VForm := { ty := 0, rm := false, sat := false, msk := true, x := x, va := true, vb := vb, vd := if red then 2 else 1 }
theorem witness_BitWords :
    formOk (bitForm 0 true false) w2 = true ∧ formOk (bitForm 0 false false) w1 = true ∧ formOk (bitForm 1 true true) { w2 with x := 1 } = true ∧
    formOk (bitForm 1 true false) { w2 with x := 1 } = true ∧ formOk (bitForm 0 true true) w2 = true := by decide +kernel
def wi2 : VI := { zi with rep := 1, step := 6, vd := 30, va := 30, imm := 63 }
def viOk (w : VI) (va extra : Bool) : Bool :=
  [0, 1].all fun k => (vecAt k).wordLegal .vec (viLegal w va true && extra) &&
    (vecAt k).vecOk false (if va then [{ f := w.va, idx := 30 + k }] else []) (some (false, 30 + k))
theorem witness_ImmediateWords :
    viOk wi2 true (decide (wi2.imm.toNat < 64)) = true ∧ viOk wi2 true true = true ∧ viOk { wi2 with va := 0, step := 1 } false true = true := by decide +kernel
def fltForm (rounds vb red : Bool) : VForm := { ty := 2, rm := rounds, sat := rounds, msk := true, x := 0, va := true, vb := vb, vd := if red then 2 else 1 }
/-- Values by hand from R87, R88: where a format ends, a tie, a zero of each sign, an infinity. -/
theorem witness_Rounding :
    (0 : Nat) < 4 ∧ (65519 : Nat) ≠ 0 ∧ roundF 8 0 false false 65519 0 = (0x7BFF, fNX) ∧ roundF 8 0 false false 65520 0 = (0x7C00, fOF ||| fNX) ∧
    roundF 8 3 false true 65520 0 = (0xFBFF, fNX) ∧ roundF 8 2 false true 65520 0 = (0xFC00, fOF ||| fNX) ∧
    roundF 6 0 false false 464 0 = (0x7E, fNX) ∧ roundF 6 0 false false 465 0 = (0x7F, fOF ||| fNX) ∧ roundF 6 0 true false 465 0 = (0x7E, fOF ||| fNX) := by decide +kernel
theorem witness_FormatValues :
    0x7BFF < 2 ^ (1 + 5 + 10) ∧ decodeF 8 0x7C00 = .inf false ∧ decodeF 8 0x7E00 = .nan ∧ decodeF 6 0x7F = .nan ∧ decodeF 6 0x7E ≠ .nan ∧ decodeF 8 1 ≠ .nan := by
  decide +kernel
theorem witness_Minima :
    (0x8000 : Nat) < 2 ^ fWidth 8 ∧ fpMinMax 8 false false 0x8000 0 = 0x8000 ∧ fpMinMax 8 true true 0x8000 0 = 0 ∧
    fpMinMax 8 false false 0x7E01 0x3C00 = 0x3C00 ∧ fpMinMax 8 false true 0x7E01 0x3C00 = 0x7E00 ∧ fpMinMax 8 true false 0x7E01 0x7E02 = 0x7E00 := by decide +kernel
theorem witness_TableFunctions :
    (decodeF 10 0x40000000 = .fin false (2 ^ 23) (-22)) ∧ fRcp 0x40000000 = (0x3F000000, 0) ∧ fRsq 0x40800000 = (0x3F000000, 0) ∧ fExp2 0x3F800000 = (0x40000000, 0) ∧
    fLog2 0x3F800000 = (0, 0) ∧ fLog2 0x40000000 = (0x3F800000, 0) := by decide +kernel
/-- 127.5 in FP16 is 0x57F8, 127 is 0x57F0; −129 as a signed byte. -/
theorem witness_ElementConversions :
    cvt 8 2 0 true 0x57F8 = (127, fIV ||| fNX) ∧ cvt 8 2 0 false 0x57F8 = (128, fIV ||| fNX) ∧ cvt 8 2 0 true 0x57F0 = (127, 0) ∧ cvt 8 2 2 true 0x57F8 = (127, fNX) ∧
    cvt 8 2 0 true 0x7E00 = (0, fIV) ∧ cvt 8 2 0 true 0xFC00 = (128, fIV) ∧ cvt 3 2 0 true 0xFF7F = (0x80, fSA) ∧ cvt 3 2 0 false 0xFF7F = (0x7F, 0) ∧ cvt 3 8 0 false 1 = (0x3C00, 0) := by
  decide +kernel
theorem witness_ConvertedLanes :
    (63 : Nat) < 64 ∧ lget (cvtLanes 4 2 0 false (List.replicate 64 0xFFFFFF80)) 63 (0, 0) = (0xFFFFFF80, 0) ∧
    lget (cvtLanes 4 1 0 false (List.replicate 64 0x180)) 0 (0, 0) = (0x80, 0) := by decide +kernel
theorem witness_FloatingWords :
    formOk (fltForm true true false) { w2 with t := 2, rm := 3, sat := true } = true ∧ formOk (fltForm true true true) w2 = true ∧
    formOk (fltForm true false false) w1 = true ∧ formOk (fltForm false true false) w2 = true ∧ formOk (fltForm false false false) w1 = true := by decide +kernel
theorem witness_TableWords : formOk (bitForm 0 false false) { w1 with msk := true } = true := by decide +kernel
theorem witness_Conversions :
    (let form : VForm := { ty := 3, rm := true, sat := true, msk := true, x := 7, va := true, vb := false, vd := 1 }
     let w : V3 := { z3 with vd := 31, va := 31, vb := 80, t := 1, x := 2 }
     (vecAt 0).wordLegal .vec (v3Legal form { w with vb := 0 } && w.vb.toNat % 8 = 0 && w.vb.toNat / 8 ≤ 10 && w.t.toNat * 8 + w.x.toNat ≤ 10) = true ∧
     (vecAt 0).vecOk false (v3Srcs w form 0) (v3Dest w form 0) = true) := by decide +kernel
theorem witness_Compares :
    (let form (sat : Bool) : VForm := { ty := 0, rm := false, sat := true, msk := !sat, x := 7, va := true, vb := true, vd := if sat then 0 else 1 }
     formOk (form false) { w2 with x := 7 } = true ∧ (vecAt 0).me.maskDepth < 16 ∧
     (let w : V3 := { z3 with sat := true, va := 31, vb := 31, x := 7 }
      (vecAt 0).wordLegal .vec (v3Legal (form true) w && !w.msk) = true ∧ (vecAt 0).vecOk false (v3Srcs w (form true) 0) none = true)) ∧
    (let v : VI := { zi with vd := 31, va := 31, imm := 0x7FFF }
     v.imm.getLsbD 15 = false ∧ (vecAt 0).wordLegal .vec (viLegal v true true) = true ∧ (vecAt 0).vecOk false [{ f := v.va, idx := 31 }] (some (false, 31)) = true) ∧
    (let v : VI := { zi with va := 31, imm := 0xFFFF }
     v.imm.getLsbD 15 = true ∧ (vecAt 0).wordLegal .vec (viLegal v true false && !v.msk) = true ∧ (vecAt 0).vecOk false [{ f := v.va, idx := 31 }] none = true) := by
  decide +kernel
/-- The spec's example: vcmp.lt of v1 with v0 pushes the lanes where v1 is negative. -/
theorem test_compare_push :
    nextIs (exec (.vcmp { z3 with sat := true, va := 1, x := 2 }) (vecAt 0)) (fun t => decide (lastEff t = some (2, .mask (.push (BitVec.allOnes 64))))) = true := by
  decide +kernel
/-- Mask stacks of depth 0, 1, 15 and 16. -/
def masked (n : Nat) : State := (vecAt 0).modCore 0 fun c => { c with vec := { c.vec with masks := List.replicate n 1 } }
theorem witness_MaskWords :
    ([(0, true, { z3 with va := 31 }), (0, false, z3), (7, false, { z3 with x := 7 })] : List (Nat × Bool × V3)).all (fun r =>
      (vecAt 0).wordLegal .vec (v3Legal (maskForm r.1 r.2.1) r.2.2 && r.2.2.rep = 0 && r.2.2.step = 0) &&
      (masked 15).vecOk false (v3Srcs r.2.2 (maskForm r.1 r.2.1) 0) none && !(vecAt 0).wordBad .vec) = true ∧
    (masked 15).me.maskDepth = 15 ∧ (masked 16).me.maskDepth = 16 ∧ (masked 0).me.maskDepth = 0 := by decide +kernel
theorem witness_Reductions :
    formOk { ty := 0, rm := false, sat := false, msk := false, x := 0, va := true, vb := true, vd := 1 } w2 = true ∧
    ([(1, false, true, { w1 with sat := true, t := 1 }), (1, false, false, w1), (0, false, false, w1), (0, true, false, { w1 with rm := 3 })] :
      List (Nat × Bool × Bool × V3)).all (fun r =>
        formOk { ty := r.1, rm := r.2.1, sat := r.2.2.1, msk := true, x := 0, va := true, vb := false, vd := 1 } r.2.2.2) = true := by decide +kernel
theorem witness_Permutes :
    ([(0, 0, true, w2), (3, 7, true, { w2 with t := 7, x := 7 }), (0, 0, false, w1), (0, 1, true, { w2 with x := 1 })] : List (Nat × Nat × Bool × V3)).all (fun r =>
      formOk { ty := r.1, rm := false, sat := false, msk := true, x := r.2.1, va := true, vb := r.2.2.1, vd := 1 } r.2.2.2) = true ∧
    (let f : VForm := { ty := 0, rm := false, sat := false, msk := true, x := 0, va := true, vb := false, vd := 1, six := false }
     let w : V3 := { z3 with vd := 31, va := 31, vb := 63 }
     (vecAt 0).wordLegal .vec (v3Legal f { w with vb := 0 } && !w.vb.getLsbD 6) = true ∧ (vecAt 0).vecOk false (v3Srcs w f 0) (v3Dest w f 0) = true) ∧
    (let f : VForm := { ty := 0, rm := false, sat := false, msk := true, x := 1, va := true, vb := false, vd := 1 }
     let w : V3 := { z3 with vd := 31, va := 0x67, x := 1 }
     let s := (vecAt 0).modCore 0 fun c => { c with chans := lput c.chans 7 { Chan.empty with q := [{ v := [5, 6], phase := 0, land := 0, landed := true, src := 0, drain := none }] } Chan.empty }
     s.wordLegal .vec (v3Legal f w && srcChan w.va && srcIdx w.va = 7) = true ∧ s.vecOk false (v3Srcs w f 0) (v3Dest w f 0) = true) ∧
    (let f : VForm := { ty := 3, rm := false, sat := false, msk := false, x := 7, va := true, vb := false, vd := 2, six := false }
     let w : V3 := { z3 with vd := 31, va := 31, t := 7, x := 7 }
     (vecAt 0).wordLegal .vec (v3Legal f w) = true ∧ (vecAt 0).vecOk false (v3Srcs w f 0) (v3Dest w f 0) = true) := by decide +kernel
theorem witness_DotProducts :
    (let form : VForm := { ty := 3, rm := true, sat := false, msk := false, x := 4, va := true, vb := true, vd := 2 }
     let w : V3 := { z3 with vd := 31, va := 31, vb := 31, x := 4 }
     (vecAt 0).wordLegal .vec (dotLegal (vecAt 0).me.params.allow w) = true ∧ (vecAt 0).vecOk false (v3Srcs w form 0) (v3Dest w form 0) = true) ∧
    (let s := (vecAt 0).modCore 0 fun c => { c with params := { c.params with allow := 0x1E } }
     s.wordBad .vec = false ∧ (s.eng .vec).rep = 0 ∧ s.me.params.allow.getLsbD 0 = false) := by decide +kernel
/-- d1 names 4 rows of 64 INT32 in SP1; row 3, the last. -/
def viewed (k : Nat) : State :=
  (vecAt k).modCore 0 fun c => { c with descs := lput c.descs 1 { Desc.zero with fmt := 4, rows := 4, cols := 64, rstride := 256, estride := 4 } Desc.zero }
theorem witness_VectorMemoryFaults :
    (let w : VM := { zm with vx := 31, desc := 1, off := 4 }
     let s := viewed 0
     s.wordBad .vec = false ∧ s.wordLegal .vec (vmLoadLegal w false) = true ∧ s.descFault 0 1 1 (lget (s.latch .vec [1]) 0 Desc.zero) false = none ∧
     faultsOn (exec (.vld w) s) 0x05 1 = true ∧ faultsOn (exec (.vlut { w with off := 0 }) (s.modMe fun c => { c with descs := c.descs.map fun d => { d with level := 1 } })) 0x05 1 = true ∧
     nextIs (exec (.vst w) (s.modMe fun c => { c with descs := c.descs.map fun d => { d with fmt := 5 } })) (fun t => t.me.trec.cause.toNat == 2) = true) := by decide +kernel
theorem witness_ElementBytes : (viewed 0).me.descs.any (fun d => d.bits != 4) = true := by decide +kernel
theorem witness_VectorMemory :
    (let s := viewed 0
     let d := lget (s.latch .vec [1]) 0 Desc.zero
     let s' := s.keepLatch .vec (s.latch .vec [1])
     d.fmt ≠ 5 ∧ d.level.toNat < 3 ∧ 3 < d.rows.toNat ∧ s.wordBad .vec = false ∧ s.descFault 0 1 1 d false = none ∧ s.readMiss d = [] ∧
     s.descFault 0 1 1 d true = none ∧ (d.level = 0 && d.cols.toNat ≤ 4096) = true ∧
     s.wordLegal .vec (vmLoadLegal { zm with vx := 31, desc := 1, off := 3 } false) = true ∧
     s.wordLegal .vec (vmLoadLegal { zm with vx := 31, vi := 31, desc := 1, off := 3 } true) = true ∧ s'.vecOk false [] (some (false, 31)) = true ∧
     s'.vecOk false [{ f := 31, idx := 31 }] (some (false, 31)) = true ∧ s.wordLegal .vec (vmStoreLegal { zm with vx := 31, desc := 1, off := 3 }) = true ∧
     s'.vecOk false [{ f := 31, idx := 31 }] none = true) := by decide +kernel
theorem witness_VectorWordFrame :
    srcChan w2.va = false ∧ srcChan w2.vb = false ∧ dstChan w2.vd = false ∧ (vecAt 0).wordBad .vec = false ∧
    (vecAt 0).wordLegal .vec (v3Legal { ty := 1, rm := false, sat := false, msk := true, x := 0, va := true, vb := true, vd := 1 } w2) = true ∧
    nexts (exec (.vabsd w2) (vecAt 0)) = true := by decide +kernel
theorem witness_VectorResultLands : (31 : Nat) < one.me.vec.v.length ∧ ((flying (.vreg 31 5 [1, 2, 3])).thePend.map Pend.need) = some none := by decide +kernel

/-- Core 0 with engine u at the only word of its passage, at repeat k. -/
def engAt (u : Eng) (k : Nat) : State :=
  let e : Engine := { Engine.zero with q := [{ addr := 0, len := 1, stamp := 0, played := 0 }], started := true, played := true, rep := k }
  { oneWith (fun c => { c with engs := lput c.engs (engIdx u) e Engine.zero, seq := { c.seq with ended := true } }) with cur := { one.cur with unit := u } }
theorem witness_PassageStarts :
    (let e : Engine := { Engine.zero with q := [{ addr := 0, len := 1, stamp := 3, played := 0 }], played := true }
     let s := (engAt .mtx 0).modMe fun c => { c with engs := lput c.engs 1 e Engine.zero, run := { c.run with g := 4 } }
     s.startDue s.cur.unit = true ∧ s.cur.shadow = false ∧ ((s.eng .mtx).q.map QEntry.stamp) = [3] ∧ 3 < s.clk ∧
     (s.modMe fun c => { c with engs := lput c.engs 1 { e with q := [{ addr := 0, len := 1, stamp := 4, played := 0 }] } Engine.zero }).startDue .mtx = true) := by
  decide +kernel
theorem witness_ControlWords :
    [Eng.vec, Eng.mtx, Eng.data].all (fun u =>
      let s := engAt u 0
      !s.wordBad u && s.wordLegal u ((63 : BitVec 6).toNat ≤ 63 && (0 : BitVec 4) = 0) && (s.eng u).q.length == 1 && (s.eng u).widx + 1 == 1 && !s.cur.shadow &&
        nexts (exec (.nop u { zc with rep := 63 }) s) && nexts (exec (.wait u { zc with arg := 0x3FFFFFF }) s) && nexts (exec (.engineQfence u { zc with mask := 15 }) s)) = true ∧
    (let s := { engAt .vec 0 with cur := { one.cur with shadow := true } }
     s.wordBad .vec = false ∧ s.wordLegal .vec true = true ∧ s.cur.shadow = true) := by decide +kernel
theorem witness_RepeatsAdvance :
    ((engAt .vec 62).eng .vec).rep + 1 < 64 ∧ 64 ≤ ((engAt .vec 63).eng .vec).rep + 1 ∧ ((engAt .vec 63).eng .vec).q.length = 1 ∧
    (1 : Nat) ≤ ((engAt .vec 63).eng .vec).widx + 1 := by decide +kernel
theorem witness_WordsRefused :
    (engAt .data 0).wordBad .data = false ∧ ((engAt .data 0).eng .data).rep = 0 ∧
    ((engAt .data 0).modMe fun c => { c with mem := { c.mem with scorePoi := [0] } }).wordBad .data = true := by decide +kernel

/-- A view of SP1 with elements packed row by row. -/
def view (base : BitVec 48) (fmt : BitVec 4) (rows cols bytes : Nat) : Desc :=
  { Desc.zero with base := base, fmt := fmt, rows := BitVec.ofNat 16 rows, cols := BitVec.ofNat 16 cols, rstride := BitVec.ofNat 32 (cols * bytes), estride := 1 }
/-- Operands of each product: d1 and d2 for MMUL, d3 and d4 for MLATA, d5 to d7 for MMULS with n = 1, d8 and d9 with bank 0 for MLATX; tile 3 of shape 4 × 4. -/
def mtxState (k : Nat) : State :=
  (engAt .mtx k).modMe fun c =>
    { c with
      descs := [Desc.zero, view 0 2 4 16 1, view 0x100 2 16 4 1, view 0x200 6 4 16 1, view 0x300 6 4 16 1, view 0x400 2 4 4 1, view 0x500 2 512 4 1,
                view 0x1000 11 4 4 1, view 0x2000 9 4 4 2, view 0x2100 9 8 4 2, view 0x2200 10 4 4 4, view 0x2300 4 4 4 4, view 0x3000 9 4 4 2]
      mtx := { c.mtx with banks := [{ r := 4, e := 4, w := List.replicate 4 (List.replicate 4 0) }, Bank.empty]
                          tiles := lput c.mtx.tiles 3 { Tile.zero with shape := some (4, 4), kind := 1, elems := List.replicate 4 (List.replicate 4 7)
                                                                       hist := [histOf 4 zx 0 0 0 []] } Tile.zero } }
def mmulW : MX := { zx with tile := 3, a := 1, b := 2 }
/-- The row of MMUL. -/
def mmulRow (acc : Bool) : Claims.ProductRow :=
  let w : MX := { mmulW with acc := acc }
  { i := .mmul w, legal := mxLegal (prodForm false (w.prof != 0) 1) w && w.prof.toNat ≤ 2, ns := [1, 2]
    fmts := fun ds => profFmts 0 (lget ds 0 Desc.zero).fmt (lget ds 1 Desc.zero).fmt, hist := histOf 0 w 0 0 0
    own := fun _ ds => (lget ds 0 Desc.zero).cols = (lget ds 1 Desc.zero).rows }
/-- MMUL is ready, started and added to tile 3. -/
theorem witness_ProductWords_start : Claims.ProductReady (mtxState 0) { mmulW with acc := false } (mmulRow false) :=
  ⟨by decide +kernel, by decide +kernel, by decide +kernel, by decide +kernel, by unfold mmulRow Claims.ProductRow.descs; decide +kernel, by decide +kernel⟩
theorem witness_ProductWords :
    mmulRow true ∈ Claims.productRows { mmulW with acc := true } ∧ Claims.ProductReady (mtxState 0) { mmulW with acc := true } (mmulRow true) ∧
    Claims.TileFits (mtxState 0) { mmulW with acc := true } (mmulRow true) :=
  ⟨.head _, ⟨by decide +kernel, by decide +kernel, by decide +kernel, by decide +kernel, by unfold mmulRow Claims.ProductRow.descs; decide +kernel, by decide +kernel⟩,
    by unfold Claims.TileFits; decide +kernel⟩
/-- The other product words take their effect too, and a product with ACC on the tile that does not fit faults. -/
theorem witness_ProductWords_others :
    ([.mlata { zx with a := 3, b := 4, prof := 1 }, .mmuls { zx with a := 5, b := 6, c := 7 }, .mlatx { zx with a := 8, b := 9, prof := 4 }] : List Instr).all (fun i =>
      nextIs (exec i (mtxState 0)) fun t => t.me.run.stop.isNone) = true := by decide +kernel
/-- A profile that NPROF refuses, a product with ACC on a tile that does not fit, a reserved metadata byte. -/
def noP0 : State := (mtxState 0).modMe fun c => { c with params := { c.params with allow := 0x1E } }
def badMetaByte : State := (mtxState 0).modMe fun c => { c with mem := { c.mem with sp1 := [(0x1000, 128)] } }
theorem witness_ProductFaults :
    noP0.wordBad .mtx = false ∧ (noP0.eng .mtx).rep = 0 ∧ noP0.me.params.allow.getLsbD mmulW.prof.toNat = false ∧
    faultsOn (exec (.mmul { mmulW with tile := 2, acc := true }) (mtxState 0)) 0x05 0x402 = true := by decide +kernel
theorem witness_ProductFaults_meta : faultsOn (exec (.mmuls { zx with a := 5, b := 6, c := 7 }) badMetaByte) 0x09 128 = true := by decide +kernel
theorem witness_IntegerProducts : ({ (mtxState 0).matOps 0 (histOf 0 mmulW 0 0 0 ((mtxState 0).latch .mtx [1, 2])) with prof := 0 } : MatOps).prof = 0 := rfl
theorem witness_TilesAccumulate :
    3 < ((mtxState 0).me.tile 3).elems.length ∧ 3 < (lget ((mtxState 0).me.tile 3).elems 3 []).length ∧ ((mtxState 0).me.tile 3).hist.length < 16 ∧
    16 ≤ (List.replicate 16 (histOf 4 zx 0 0 0 [])).length := by decide +kernel
theorem witness_MatrixLoads :
    (mtxState 0).wordBad .mtx = false ∧ (mtxState 0).wordLegal .mtx (mxLegal (plainForm false 1024 true true) { zx with tile := 3, arg := 1023 }) = true ∧
    (mtxState 0).wordLegal .mtx (mxLegal (plainForm true 1 false true) { zx with tile := 3, a := 11 }) = true ∧
    (mtxState 0).wordLegal .mtx (mxLegal (plainForm true 2 false false) { zx with a := 12, arg := 1 }) = true ∧
    (mtxState 0).wordLegal .mtx (mxLegal (plainForm false 3 false false) { zx with arg := 2 }) = true ∧
    [10, 11, 12].all (fun n => let d := (mtxState 0).desc n
      d.level == 0 && (mtxState 0).descFault 0 2 n d false == none && (mtxState 0).readMiss d == [] && dim4 d.rows.toNat && dim4 d.cols.toNat) = true ∧
    ((mtxState 0).desc 11).fmt = 4 ∧ ((mtxState 0).desc 10).fmt = 10 ∧ ((mtxState 0).desc 12).fmt = 9 := by decide +kernel
theorem witness_LoadedTiles : (3 : Nat) < (lget [[1, 2, 3, 4]] 0 []).length ∧ (view 0 4 1 4 4).fmt = 4 := by decide +kernel
/-- An error armed for tile 3, at its last element and outside its shape. -/
def injecting (row : BitVec 8) : State :=
  (flying (.errinj 3)).modMe fun c => { c with mtx := { (mtxState 0).me.mtx with eiArm := true, eiTile := 3, eiRow := row, eiCol := 3, eiBit := 31 } }
theorem witness_ErrorsInjected :
    ((injecting 3).thePend.map Pend.eff) = some (.errinj 3) ∧ (injecting 3).me.mtx.eiArm = true ∧ (injecting 3).me.mtx.eiTile.toNat = 3 ∧
    ((injecting 3).me.tile 3).shape = some (4, 4) ∧ (injecting 3).me.mtx.eiRow.toNat < 4 ∧ ¬ (injecting 4).me.mtx.eiRow.toNat < 4 ∧
    (flying (.errinj 3)).me.mtx.eiArm = false ∧
    nextIs (exec .errinjApply (injecting 3)) (fun t => t.me.mtx.flags = 8 && lget (lget (t.me.tile 3).elems 3 []) 3 0 = 0x80000007) = true := by decide +kernel
def drainW : MX := { zx with tile := 3, c := 11 }
theorem witness_DrainWords :
    (mtxState 0).wordBad .mtx = false ∧ (mtxState 0).wordLegal .mtx (drainLegal drainW) = true ∧ ((mtxState 0).me.tile 3).shape = some (4, 4) ∧
    drRsc drainW = false ∧ drCsc drainW = false ∧ drCh drainW = false ∧
    (let c := lget ((mtxState 0).latch .mtx [0, 0, 11]) 2 Desc.zero
     c.level = 0 ∧ (mtxState 0).descFault 0 2 11 c true = none ∧ c.fmt.toNat ≤ 10 ∧ c.fmt ≠ 5 ∧ 4 ≤ c.rows.toNat ∧ 4 ≤ c.cols.toNat) := by decide +kernel
theorem witness_DrainOfNoTile : (mtxState 0).wordLegal .mtx (drainLegal { drainW with tile := 2 }) = true ∧ ((mtxState 0).me.tile 2).shape = none := by decide +kernel
theorem witness_DrainedValues : (0 : Nat) < (List.replicate 1 ([] : List Nat)).length ∧ (1 : Nat) < (65 + 63) / 64 ∧ (63 : Nat) < 64 ∧ ¬ (64 * 1 + 63 < 65) := by decide
/-- A channel drain with one of its two entries to go, into c0 with n entries; its verdict on its way. -/
def dr (paused : Bool) (mode : Nat) : Drain :=
  { id := 9, word := drainW, descs := [], tile := 3, issue := 0, mode := mode, q := 1, tr := 2, chan := some 0, rows := List.replicate 2 (List.replicate 64 0), done := 1,
    pause := 0, paused := paused, span := (0, 1), open_ := true, taint := false, lane := false, pos := (0, 0, 0) }
def draining (n : Nat) (paused : Bool) (mode : Nat) : State :=
  (flying .verdict).modMe fun c => { c with
    mtx := { (mtxState 0).me.mtx with drain := some (dr paused mode) }
    pend := c.pend.map fun p => { p with unit := 2 }
    chans := lput c.chans 0 { Chan.empty with q := List.replicate n { v := [], phase := 0, land := 0, landed := true, src := 0, drain := none } } Chan.empty }
theorem witness_DrainEntries :
    (draining 15 false 0).me.mtx.drain = some (dr false 0) ∧ (dr false 0).chan = some 0 ∧ (dr false 0).done < (dr false 0).q * (dr false 0).tr ∧
    ¬ chanDepth 0 ≤ ((draining 15 false 0).chan 0).heldAt (draining 15 false 0).clk ∧ chanDepth 0 ≤ ((draining 16 false 0).chan 0).heldAt (draining 16 false 0).clk ∧
    (dr true 0).paused = true ∧ (draining 16 false 0).me.modes.trapMode = false ∧ (dr false 0).lane = false ∧
    ((draining 16 false 0).me.pend.map fun p => (p.unit, p.tide, p.eff)) = [(2, false, .verdict)] := by decide +kernel
theorem witness_Verdicts :
    [0, 1, 2].all (fun m => (draining 0 false m).me.mtx.drain == some (dr false m) && ((draining 0 false m).thePend.map Pend.eff) == some .verdict) = true ∧
    (draining 0 false 0).me.mismatch ((draining 0 false 0).me.tile 3) ≠ ([], []) ∧ (draining 0 false 0).me.mismatch Tile.zero = ([], []) ∧
    (draining 0 false 0).cur.shadow = false := by decide +kernel
theorem witness_IntegerLines : (1 : Nat) ≠ 2 ∧ lineBad 1 0 0 [1, 2, 3] (6, 0) = false ∧ lineBad 1 0 0 [1, 2, 3] (7, 0) = true := by decide +kernel
/-- A handler lane that recovers tile 3, TFREC with one row and one column. -/
def recovering (ckr : BitVec 4) : State :=
  let e : Engine := { Engine.zero with q := [{ addr := 0, len := 1, stamp := 0, played := 0 }], started := true, played := true }
  let s := (mtxState 0).modMe fun c => { c with
    lanes := lput c.lanes 1 e Engine.zero
    tfrec := { c.tfrec with valid := true, tile := 3, nrow := 1, ncol := 1, ckr := ckr, rows := BitVec.ofNat 128 (2 ^ 3), cols := BitVec.ofNat 128 (2 ^ 3) } }
  { s with cur := { s.cur with shadow := true } }
theorem witness_RecoveryWords :
    (recovering 1).wordBad .mtx = false ∧ ((recovering 1).eng .mtx).rep = 0 ∧ mxLegal (plainForm false 1 false true) { zx with tile := 3 } = true ∧
    (recovering 1).cur.shadow = true ∧ (recovering 1).me.tfrec.valid = true ∧ (recovering 1).me.tfrec.tile = 3 ∧ ((recovering 1).me.tile 3).hovf = false ∧
    (recovering 1).me.tfrec.nrow = 1 ∧ (recovering 1).me.tfrec.ncol = 1 ∧ (recovering 1).me.tfrec.ckr ≠ 2 ∧ (recovering 2).me.tfrec.ckr = 2 ∧
    (mtxState 0).cur.shadow = false := by decide +kernel
/-- The tile replayed from a history that begins with 0s, after a drain of it into c0 whose entry stands there. -/
def retrying (mode : Bool) : State :=
  (recovering 1).modMe fun c => { c with
    mtx := { c.mtx with faultDrain := if mode then some { dr false 0 with word := { drainW with arg := 0 } } else none }
    chans := lput c.chans 0 { Chan.empty with q := [{ v := [], phase := 0, land := 0, landed := true, src := 9, drain := some (9, 0) }] } Chan.empty }
theorem witness_RetryEnds :
    3 < (recovering 1).me.mtx.tiles.length ∧ (recovering 1).cur.core < (recovering 1).cores.length ∧ ((retrying true).me.mtx.faultDrain.map fun d => d.chan) = some (some 0) ∧
    0 < (retrying true).me.chans.length ∧ (retrying false).me.mtx.faultDrain = none ∧ ((retrying false).me.tile 3).hist.length = 1 ∧
    ((retrying false).mretryEnd 3).me.tfrec.ckr ≠ (retrying false).me.tfrec.ckr ∧ Memory.wf (retrying true).me.mem.sp1 = true := by decide +kernel
theorem witness_RecoveryEnds :
    (127 : Nat) < 128 ∧ (recovering 1).me.tfrec.rows = BitVec.ofNat 128 (2 ^ 3) ∧ (recovering 1).me.tfrec.cols = BitVec.ofNat 128 (2 ^ 3) ∧
    ((flying (.fixEnd true 3)).thePend.map Pend.eff) = some (.fixEnd true 3) := by decide +kernel

/-- Descriptors for the data engine: 1 and 2 views of SP1; 3 a view of HBM; 4 a BTC view of the same range; 5 eight indices; 6 a table and 7 rows;
8 a coded row and 9 a side row; 10 a square view; 11 one 8-byte object in SP3 with 12 and 13 its operand and result; 14 a short BYTE row;
15 an HBM view of 64 bytes as a linear BYTE row. -/
def dataState (k : Nat) : State :=
  let g : Desc := { view 0x20000 2 4 64 1 with level := 3, bound := true, pins := pins }
  let s := (engAt .data k).modMe fun c =>
    { c with
      descs := [Desc.zero, view 0x1000 2 4 64 1, { view 0x2000 2 4 64 1 with fill := 0x55 }, g,
                { view 0 2 4 64 1 with level := 4, bound := true, apidx := 1, pins := pins, rstride := 0, estride := 0 },
                view 0x3000 4 1 8 4, view 0x4000 2 8 4 1, view 0x5000 2 8 4 1, view 0x6000 11 1 64 1, view 0x7000 11 1 16 1, view 0x8000 2 64 4 1,
                { view 0x1000 11 1 64 1 with level := 2 }, view 0x9000 11 2 32 1, view 0x9100 11 2 16 1, view 0xA000 11 1 63 1,
                { view 0x20000 11 1 64 1 with level := 3, bound := true, pins := pins }]
      mem := { c.mem with sp1 := [(0x3000, 3), (0x301C, 8)] } }
  { s with apers := lput s.apers 1 [0xA400000000020000, 0x0010001000000000, 0x10000, 0] [] }
/-- The same with an entry of c8 that has landed: ACT a, tile (0, 0). -/
def withEntry (a : Nat) (s : State) : State := s.modMe fun c =>
  { c with chans := lput c.chans 8 { Chan.empty with q := [{ v := [BitVec.ofNat 32 (a * 2 ^ 30), 0, 0, 0], phase := 0, land := 0, landed := true, src := 3, drain := none }] } Chan.empty
           params := { c.params with ts := 128, xu := 1 } }
def moveW : DX := { zd with dst := 1, src := 2 }
def loadW (far : BitVec 4) : DX := { zd with dst := 1, src := far, cls := 3 }
def storeW (ph : Bool) : DX := { zd with dst := 3, src := 1, phased := ph }

/-- A block word is ready outside manifest mode when these checks hold, and in it when those do. -/
theorem block_ready (s : State) (w : DX) (load cls : Bool) (ph : Nat) (lv : Nat → Bool) (near : Desc) (fn : Nat) (far : Desc) (b : Blk)
    (h : (s.wordBad .data = false ∧ s.wordLegal .data (blkLegal w cls ph) = true ∧ s.cur.shadow = false) ∧
      near = lget (Claims.dataDescs s [Claims.nearField w load, Claims.farField w load, w.aux]) 0 Desc.zero ∧
      firstFault ((Claims.blockState s w load).blkFaults w load lv (Claims.nearField w load).toNat (Claims.farField w load).toNat near
        (lget (Claims.dataDescs s [Claims.nearField w load, Claims.farField w load, w.aux]) 1 Desc.zero)
        (lget (Claims.dataDescs s [Claims.nearField w load, Claims.farField w load, w.aux]) 2 Desc.zero)) = none ∧ b.nearIn near = true ∧
      far = lget (Claims.dataDescs s [Claims.nearField w load, Claims.farField w load, w.aux]) 1 Desc.zero ∧ fn = (Claims.farField w load).toNat ∧
      if argMf w then
        (Claims.blockState s w load).entryLanded 8 0 = true ∧ headAct (entryHead ((Claims.blockState s w load).entry 8 0)) ≠ 3 ∧ argBsel w = false ∧
        b = manifestBlk w near (brRows (argBr w) near) s.me.params.ts.toNat s.me.params.xu.toNat (entryHead ((Claims.blockState s w load).entry 8 0))
      else b.farIn far = true ∧ b = plainBlk near w.step.toNat (brRows (argBr w) near) (s.eng .data).rep) :
    Claims.BlockReady s w load cls ph lv near fn far b := by
  obtain ⟨⟨h1, h2, h3⟩, h4, h5, h6, h7, h8, h9⟩ := h
  refine ⟨⟨h1, h2, fun h => by simp [h3] at h⟩, h4, h5, h6, fun hm => ?_, fun hm => ?_⟩
  · rw [hm] at h9
    exact ⟨h7, h8, h9⟩
  · rw [hm] at h9
    obtain ⟨a, b, c, d⟩ := h9
    simp only [c, Bool.false_and, Bool.false_eq_true, if_false]
    exact ⟨a, b, h7, h8, d⟩
theorem witness_RepeatsIssue : (dataState 0).me.ports.vec = [] ∧ [({ lat := 0, eff := .atomRet none, need := none, phased := false, chunks := [] } : DWrite)].length = 1 := by
  decide +kernel
/-- A TMOV of 8 bytes from 0x2000 that has issued, and SP1 with another byte there. -/
def moving (b : Byte) : State :=
  let s := (dataState 0).modMe fun c =>
    { c with descs := [Desc.zero, view 0x1000 2 1 8 1, view 0x2000 2 1 8 1]
             mem := { c.mem with score := mwriteL c.mem.score 0 [0, 0, 0x80, 0x04, 0, 0], sp1 := [(0x2000, 1)] } }
  match exec (.tmov moveW) s with
  | .next t => t.modMe fun c => { c with mem := { c.mem with sp1 := [(0x2000, b)] } }
  | _ => s
theorem witness_SourcesReread :
    ((moving 5).me.dread.map fun r => (decide (r.end_ ≤ (moving 5).me.run.g), (moving 5).bytesSeen 0 r.places == r.seen,
      r.seen.length == r.places.length && r.reads.length == r.places.length, r.places.any fun x => !x.2.2.2)) = some (false, false, true, true) ∧
    ((moving 1).me.dread.map fun r => (moving 1).bytesSeen 0 r.places == r.seen) = some true := by decide +kernel
/-- R298: read with the new byte, the word writes it. -/
theorem test_reread :
    ((moving 5).me.dread.bind fun r =>
      match exec (.tmov moveW) ((moving 5).asIssued 0 false r ((moving 5).bytesSeen 0 r.places)) with
      | .next t => some (t.nextId == r.ids.2, ((moving 5).takeAnew t 0 r).me.pend.map fun p => match p.eff with | .sp _ ps => ps.map (·.bytes) | _ => [])
      | _ => none) = some (true, [[[5, 0, 0, 0, 0, 0, 0, 0]]]) := by decide +kernel
theorem witness_BlockOrigins : argTn { zd with arg := 0x3800 } = true ∧ argTf { zd with arg := 0x3400 } = true ∧ argShf { zd with arg := 0x3400 } = true ∧ argTf zd = false := by
  decide
/-- The block of all of d1, outside manifest mode; the one of the last row, by step code 7. -/
theorem witness_TileMoves :
    Claims.BlockReady (dataState 0) moveW true false 0 lvSp ((dataState 0).desc 1) 2 ((dataState 0).desc 2) (plainBlk ((dataState 0).desc 1) 0 4 0) ∧
    (Claims.blockState (dataState 0) moveW true).readMiss ((dataState 0).desc 2) = [] :=
  ⟨block_ready _ _ _ _ _ _ _ _ _ _ (by decide +kernel), by decide +kernel⟩
theorem witness_TileMoves_step :
    nextIs (exec (.tmov { moveW with rep := 3, step := 7, arg := 1 }) (dataState 3)) (fun t => t.me.run.stop.isNone && t.me.pend.length == 1) = true ∧
    faultsOn (exec (.tmov { moveW with rep := 4, step := 7, arg := 1 }) (dataState 4)) 0x05 1 = true := by decide +kernel
/-- The same in manifest mode. -/
def tileW : DX := { moveW with arg := 0x3800 }
theorem witness_TileMoves_manifest :
    Claims.BlockReady (withEntry 0 (dataState 0)) tileW true false 0 lvSp ((dataState 0).desc 1) 2 ((dataState 0).desc 2)
      (manifestBlk tileW ((dataState 0).desc 1) 4 128 1 0) :=
  block_ready _ _ _ _ _ _ _ _ _ _ (by decide +kernel)
/-- All of d1 from HBM, and from a BTC view of the same range; a block of three rows there breaks R66. -/
theorem witness_GlobalLoads :
    Claims.BlockReady (dataState 0) (loadW 3) true true 0 lvG ((dataState 0).desc 1) 3 ((dataState 0).desc 3) (plainBlk ((dataState 0).desc 1) 0 4 0) ∧
    (Claims.blockState (dataState 0) (loadW 3) true).isBtc ((dataState 0).desc 3) = false ∧
    ((dataState 0).desc 3).pinSpans [(0x20000, 256)] = .inr [(0, 0x50000, 256)] ∧ nexts (exec (.dload (loadW 3)) (dataState 0)) = true :=
  ⟨block_ready _ _ _ _ _ _ _ _ _ _ (by decide +kernel), by decide +kernel⟩
theorem witness_CodedLoads :
    Claims.BlockReady (dataState 0) (loadW 4) true true 0 lvG ((dataState 0).desc 1) 4 ((dataState 0).desc 4) (plainBlk ((dataState 0).desc 1) 0 4 0) ∧
    (Claims.blockState (dataState 0) (loadW 4) true).isBtc ((dataState 0).desc 4) = true ∧
    (plainBlk ((dataState 0).desc 1) 0 4 0).btcOk ((dataState 0).desc 4) = true ∧ (plainBlk ((dataState 0).desc 1) 0 3 0).btcOk ((dataState 0).desc 4) = false ∧
    (∃ rs, ((dataState 0).desc 4).pinSpans ((Claims.blockState (dataState 0) (loadW 4) true).btcReadPlan ((dataState 0).desc 1) ((dataState 0).desc 4)
      (plainBlk ((dataState 0).desc 1) 0 4 0)).1 = .inr rs) :=
  ⟨block_ready _ _ _ _ _ _ _ _ _ _ (by decide +kernel), by decide +kernel, by decide +kernel, by decide +kernel, _, rfl⟩
theorem witness_GlobalStores :
    Claims.BlockReady (dataState 0) (storeW false) false true 0 lvG ((dataState 0).desc 1) 3 ((dataState 0).desc 3) (plainBlk ((dataState 0).desc 1) 0 4 0) ∧
    (Claims.blockState (dataState 0) (storeW false) false).isBtc ((dataState 0).desc 3) = false ∧
    (Claims.blockState (dataState 0) (storeW false) false).readMiss ((dataState 0).desc 1) = [] ∧
    nextIs (exec (.dstore (storeW false)) (dataState 0)) (fun t => t.me.run.stop.isNone) = true :=
  ⟨block_ready _ _ _ _ _ _ _ _ _ _ (by decide +kernel), by decide +kernel⟩
/-- A held store that fits, the last one that does, and the first that does not. -/
def heldUp (n : Nat) (s : State) : State := s.modMe fun c => { c with mem := { c.mem with held := [{ ps := [], names := [], size := n }] } }
theorem witness_GlobalStores_held :
    Claims.BlockReady (dataState 0) (storeW true) false true 1 lvG ((dataState 0).desc 1) 3 ((dataState 0).desc 3) (plainBlk ((dataState 0).desc 1) 0 4 0) ∧
    nextIs (exec (.dphst (storeW true)) (heldUp (262144 - 272) (dataState 0))) (fun t => t.me.mem.held.map (·.size) == [262144 - 272, 272]) = true ∧
    faultsOn (exec (.dphst (storeW true)) (heldUp (262144 - 256) (dataState 0))) 0x05 0x500 = true :=
  ⟨block_ready _ _ _ _ _ _ _ _ _ _ (by decide +kernel), by decide +kernel⟩
/-- Without an entry, with one of ACT 3, and PHASED where it may not be. -/
theorem witness_BlockWordsElse :
    (dataState 0).wordBad .data = false ∧ argMf tileW = true ∧ Claims.DataReady (dataState 0) tileW (blkLegal tileW false 0) ∧
    firstFault ((Claims.blockState (dataState 0) tileW true).blkFaults tileW true lvSp 1 2 ((dataState 0).desc 1) ((dataState 0).desc 2) ((dataState 0).desc 0)) ≠ none ∧
    firstFault ((Claims.blockState (withEntry 3 (dataState 0)) tileW true).blkFaults tileW true lvSp 1 2 ((dataState 0).desc 1) ((dataState 0).desc 2) ((dataState 0).desc 0)) = none ∧
    (Claims.blockState (withEntry 3 (dataState 0)) tileW true).entryLanded 8 0 = true ∧
    headAct (entryHead ((Claims.blockState (withEntry 3 (dataState 0)) tileW true).entry 8 0)) = 3 ∧
    nextIs (exec (.tmov tileW) (withEntry 3 (dataState 0))) (fun t => t.me.pend == [] && (t.chan 8).q == []) = true ∧
    ((dataState 0).eng .data).rep = 0 ∧ (storeW true).phased = true ∧ (storeW false).phased = false := by
  refine ⟨by decide +kernel, by decide, ⟨by decide +kernel, by decide +kernel, by decide +kernel⟩, ?_⟩
  decide +kernel
/-- Eight indices, 3 first and 8, out of range, last: rows of d7 from table d6 in SP1 or from d3 in HBM, and back. -/
def gatherW : DX := { zd with dst := 7, src := 6, aux := 5, arg := 7 }
def gatherGW : DX := { zd with dst := 7, src := 3, aux := 5, cls := 3, arg := 7 }
def scatterW : DX := { zd with dst := 6, src := 7, aux := 5, arg := 7 }
def scatterGW (ph : Bool) : DX := { zd with dst := 3, src := 7, aux := 5, cls := 1, phased := ph, arg := 3 }
def gwide : Desc := { ((dataState 0).desc 3) with cols := 4 }
/-- A gather or scatter is ready when these checks hold. -/
theorem gather_ready (s : State) (w : DX) (gather : Bool) (t d x : Desc)
    (h : (s.wordBad .data = false ∧ s.wordLegal .data (gatherLegal w (if gather then 0 else 2)) = true ∧ s.cur.shadow = false) ∧
      Claims.dataDescs s (Claims.gatherFields w gather) = [t, d, x] ∧ (lvSp t.level.toNat = true → w.cls = 0 ∧ w.phased = false) ∧
      (Claims.gatherState s w gather).opFault (if gather then w.src else w.dst).toNat t (fun _ => true) (!gather) false = none ∧
      (Claims.gatherState s w gather).opFault (if gather then w.dst else w.src).toNat d lvSp gather false = none ∧
      (Claims.gatherState s w gather).opFault w.aux.toNat x (fun l => l = 0) false false = none ∧
      (x.fmt = 4 ∧ t.fmt = d.fmt ∧ d.cols.toNat ≤ t.cols.toNat ∧ (Claims.gatherState s w gather).isBtc t = false) ∧
      ((w.rep.toNat + 1) * (w.arg.toNat % 64 + 1) ≤ d.rows.toNat ∧ (w.rep.toNat + 1) * (w.arg.toNat % 64 + 1) ≤ x.cols.toNat) ∧
      (Claims.gatherState s w gather).readMiss x = [] ∧ (Claims.gatherState s w gather).readMiss (if gather then t else d) = []) :
    Claims.GatherReady s w gather t d x := by
  obtain ⟨⟨h1, h2, h3⟩, h4, h5, h6, h7, h8, h9, h10, h11⟩ := h
  exact ⟨⟨h1, h2, fun h => by simp [h3] at h⟩, h4, h5, h6, h7, h8, h9, h10, h11⟩
theorem witness_GatherRows :
    rowPairs ((dataState 0).desc 6) ((dataState 0).indices ((dataState 0).desc 5) 8 0) 8 0 =
      [(0, 3), (1, 0), (2, 0), (3, 0), (4, 0), (5, 0), (6, 0)] ∧ rowsOut ((dataState 0).desc 6) ((dataState 0).indices ((dataState 0).desc 5) 8 0) 8 0 = [7] := by
  decide +kernel
theorem witness_Gathers :
    Claims.GatherReady (dataState 0) gatherW true ((dataState 0).desc 6) ((dataState 0).desc 7) ((dataState 0).desc 5) ∧
    (dataState 0).me.params.strict = false ∧ lvSp ((dataState 0).desc 6).level.toNat = true :=
  ⟨gather_ready _ _ _ _ _ _ (by decide +kernel), by decide +kernel⟩
theorem witness_Gathers_global :
    Claims.GatherReady (dataState 0) gatherGW true ((dataState 0).desc 3) ((dataState 0).desc 7) ((dataState 0).desc 5) ∧
    (dataState 0).me.params.strict = false ∧ lvSp ((dataState 0).desc 3).level.toNat = false ∧ nexts (exec (.dgather gatherGW) (dataState 0)) = true :=
  ⟨gather_ready _ _ _ _ _ _ (by decide +kernel), by decide +kernel⟩
theorem witness_Scatters :
    Claims.GatherReady (dataState 0) scatterW false ((dataState 0).desc 6) ((dataState 0).desc 7) ((dataState 0).desc 5) ∧
    lvSp ((dataState 0).desc 6).level.toNat = true :=
  ⟨gather_ready _ _ _ _ _ _ (by decide +kernel), by decide +kernel⟩
/-- A field of the gather's descriptor n changed. -/
def gatherBad (n : Nat) (f : Desc → Desc) : State := (dataState 0).modMe fun c => { c with descs := lmod c.descs n Desc.zero f }
/-- One condition of each kind fails: the indices' format, the table's, its columns, the rows and the number of indices; the checks before them pass. -/
theorem witness_GatherFaults :
    (let pre (n : Nat) (f : Desc → Desc) : Bool :=
       let s := gatherBad n f
       let u := Claims.gatherState s gatherW true
       let ds := Claims.dataDescs s (Claims.gatherFields gatherW true)
       !s.wordBad .data && s.wordLegal .data (gatherLegal gatherW 0) && !s.cur.shadow && ds.length == 3 &&
       (u.opFault 6 (lget ds 0 Desc.zero) (fun _ => true) false false).isNone && (u.opFault 7 (lget ds 1 Desc.zero) lvSp true false).isNone &&
       (u.opFault 5 (lget ds 2 Desc.zero) (fun l => l = 0) false false).isNone
     let raises (n : Nat) (f : Desc → Desc) (info : Nat) : Bool := pre n f && faultsOn (exec (.dgather gatherW) (gatherBad n f)) 0x05 info
     raises 5 (fun d => { d with fmt := 2 }) 5 && raises 6 (fun d => { d with fmt := 4 }) 6 && raises 6 (fun d => { d with cols := 3 }) 6 &&
     raises 7 (fun d => { d with rows := 7 }) 7 && raises 5 (fun d => { d with cols := 7 }) 5) = true := by decide +kernel
theorem witness_Scatters_global :
    Claims.GatherReady (dataState 0) (scatterGW true) false ((dataState 0).desc 3) ((dataState 0).desc 7) ((dataState 0).desc 5) ∧
    lvSp ((dataState 0).desc 3).level.toNat = false ∧ nextIs (exec (.dscatter (scatterGW false)) (dataState 0)) (fun t => t.me.run.stop.isNone) = true ∧
    nextIs (exec (.dscatter (scatterGW true)) (dataState 0)) (fun t => t.me.mem.held.length == 4) = true ∧
    faultsOn (exec (.dscatter (scatterGW true)) (heldUp 262144 (dataState 0))) 0x05 0x500 = true :=
  ⟨gather_ready _ _ _ _ _ _ (by decide +kernel), by decide +kernel⟩
def strictly (s : State) : State := s.modMe fun c => { c with params := { c.params with strict := true } }
theorem witness_OutOfRange :
    Claims.GatherReady (strictly (dataState 0)) gatherW true ((dataState 0).desc 6) ((dataState 0).desc 7) ((dataState 0).desc 5) ∧
    (strictly (dataState 0)).me.params.strict = true ∧
    (((Claims.gatherRead (strictly (dataState 0)) gatherW true ((dataState 0).desc 6) ((dataState 0).desc 7) ((dataState 0).desc 5)).indices
      ((dataState 0).desc 5) 8 0).find? fun y => ((dataState 0).desc 6).rows.toNat ≤ y) = some 8 ∧
    faultsOn (exec (.dgather gatherW) (strictly (dataState 0))) 0x10 8 = true :=
  ⟨gather_ready _ _ _ _ _ _ (by decide +kernel), by decide +kernel⟩

/-- The eleven conditions of an operand, as each word of the data engine puts them. -/
def ready (s : State) (w : DX) (legal : Bool) : Bool := !s.wordBad .data && s.wordLegal .data legal && (!s.cur.shadow || !w.phased)
/-- An operand that its checks pass. -/
def okOp (s : State) (n : BitVec 4) (lv : Nat → Bool) (write lin : Bool) : Bool := s.opFault n.toNat (s.desc n.toNat) lv write lin == none && s.readMiss (s.desc n.toNat) == []
/-- A step that goes on. -/
def goesOn (i : Instr) (s : State) : Bool := nextIs (exec i s) fun t => t.me.run.stop.isNone && (t.eng .data).next > s.clk

def mcastW : DX := { zd with dst := 1, src := 2, arg := 0x1004 }
/-- Core 0 in a gang with core 5 in its mesh row, core 6 in its column. -/
def inGang : State := { dataState 0 with gangs := (dataState 0).gangs.map fun (g : Gang) => { g with members := [0, 5, 6] } }
theorem witness_Multicasts :
    ready inGang mcastW (dxLegal { dst := true, src := true, aux := false, cls := false, ph := 0, rel := false, rep := true, steps := [0, 7, 8], arg := true } mcastW) = true ∧
    okOp inGang 1 (fun l => l = 0) true false = true ∧ okOp inGang 2 (fun l => l = 0) false false = true ∧ (inGang.desc 1).fmt = (inGang.desc 2).fmt ∧
    (plainBlk (inGang.desc 1) 0 4 0).nearIn (inGang.desc 1) = true ∧ (plainBlk (inGang.desc 1) 0 4 0).farIn (inGang.desc 2) = true ∧
    inGang.mcastTo false = [5] ∧ inGang.mcastTo true = [6] ∧ goesOn (.dmcast mcastW) inGang = true := by decide +kernel
theorem witness_MulticastCopies : (inGang.core 5).ports.vec = [] ∧ (inGang.gangOf 0).map Gang.members = some [0, 5, 6] := by decide +kernel
/-- Four rows of 64 INT8 elements with BUDGET 0: sixteen blocks of 4 bytes. -/
def compW : DX := { zd with dst := 8, src := 1, aux := 9, arg := 4 }
def expW : DX := { zd with dst := 1, src := 8 }
theorem witness_CoderWords :
    ready (dataState 0) compW (dxLegal { dst := true, src := true, aux := true, cls := false, ph := 0, rel := false, rep := true, steps := [0], arg := true } compW) = true ∧
    ready (dataState 0) expW (dxLegal { dst := true, src := true, aux := false, cls := false, ph := 0, rel := false, rep := true, steps := [0], arg := true } expW) = true ∧
    ((dataState 0).desc 1).fmt = 2 ∧ ((dataState 0).desc 1).cols.toNat % 4 = 0 ∧ 4 * 0 + 4 ≤ ((dataState 0).desc 1).rows.toNat ∧
    ((dataState 0).desc 1).cols.toNat / 4 * (4 * (0 + 1)) ≤ ((dataState 0).desc 8).cols.toNat ∧ ((dataState 0).desc 1).cols.toNat / 4 ≤ ((dataState 0).desc 9).cols.toNat ∧
    [(8, true), (8, false), (9, true)].all (fun x => okOp (dataState 0) x.1 lvSp x.2 true) = true ∧
    [true, false].all (okOp (dataState 0) 1 lvSp · false) = true ∧ ((dataState 0).desc 8).fmt = 11 ∧
    goesOn (.dcomp compW) (dataState 0) = true ∧ goesOn (.dexp expW) (dataState 0) = true ∧
    nexts (exec (.dcomp { compW with src := 8 }) (dataState 0)) = true := by decide +kernel
def transW : DX := { zd with dst := 10, src := 1 }
theorem witness_LayoutWords :
    ready (dataState 0) transW (dxLegal (layoutForm transW true) transW) = true ∧ okOp (dataState 0) 10 lvSp true false = true ∧ okOp (dataState 0) 1 lvSp false false = true ∧
    ((dataState 0).desc 10).fmt = ((dataState 0).desc 1).fmt ∧ ((dataState 0).desc 1).bits = 8 ∧ ((dataState 0).desc 1).cols.toNat ≤ ((dataState 0).desc 10).rows.toNat ∧
    ((dataState 0).desc 1).rows.toNat ≤ ((dataState 0).desc 10).cols.toNat ∧ goesOn (.dtrans transW) (dataState 0) = true ∧
    (let w : DX := { zd with dst := 2, rep := 3, step := 7, arg := 1 }
     ready (dataState 3) w (dxLegal (layoutForm w false) w) = true ∧ okOp (dataState 3) 2 lvSp true false = true ∧ 3 + 1 ≤ ((dataState 3).desc 2).rows.toNat ∧
     goesOn (.dfill w) (dataState 3) = true) := by decide +kernel
/-- A release-marked add of 8 bytes and a CAS of 16 in SP3, an add in HBM. -/
def atomW (t : BitVec 4) (arg : BitVec 14) (rel : Bool) : DX := { zd with dst := t, src := 12, aux := 13, cls := 1, rel := rel, arg := arg }
theorem witness_AtomicWords :
    [(atomW 11 0x50 true), (atomW 11 0x6A false), (atomW 3 0x50 false)].all (fun w =>
      ready (dataState 0) w (dxLegal { dst := true, src := true, aux := true, cls := true, ph := 0, rel := true, rep := true, steps := [0, 7], arg := w.arg.toNat < 128 &&
        w.arg.toNat % 16 ≤ 10 && atomSize w ≤ 16 && atomSizeOk (w.arg.toNat % 16) (atomSize w) } w) &&
      okOp (dataState 0) w.dst (fun l => 2 ≤ l && l ≤ 4) true false && okOp (dataState 0) w.src (fun l => l = 0) false false &&
      okOp (dataState 0) w.aux (fun l => l = 0) true false && !(dataState 0).isBtc ((dataState 0).desc w.dst.toNat) && goesOn (.datom w) (dataState 0)) = true ∧
    (dataState 0).atomPlace (atomW 11 0x50 true) ((dataState 0).desc 11) 0 = .inr (3, 0x1000) ∧
    (dataState 0).atomPlace (atomW 3 0x50 false) ((dataState 0).desc 3) 0 = .inr (0, 0x50000) := by decide +kernel
theorem witness_AtomicPlaces :
    (dataState 0).atomPlace (atomW 11 0x50 true) { ((dataState 0).desc 11) with base := 0x1004 } 0 = .inl (mkFault 3 0x03 0x1004) ∧
    (dataState 0).atomPlace (atomW 11 0x50 true) { ((dataState 0).desc 11) with base := 0x1008 } 0 = .inl (mkFault 3 0x05 0x1008) ∧
    (dataState 0).atomPlace (atomW 11 0x50 false) { ((dataState 0).desc 11) with base := 0x13FFFF8 } 0 = .inr (3, 0x13FFFF8) := by decide +kernel
theorem witness_DataSync :
    (let w : DX := { zd with dst := 11, cls := 1 }
     ready (dataState 0) w (dxLegal { dst := true, src := false, aux := false, cls := true, ph := 0, rel := false, rep := false, steps := [0], arg := true } w) = true ∧
     okOp (dataState 0) 11 lvSync false false = true ∧ (dataState 0).syncAt ((dataState 0).desc 11) = .inr (3, 0x1000) ∧ nexts (exec (.dataSrel w) (dataState 0)) = true) ∧
    ([{ zd with dst := 11, cls := 1, arg := 0x3FFF }, { zd with dst := 11, src := 12, cls := 1 }] : List DX).all (fun w =>
      ready (dataState 0) w (dxLegal { dst := true, src := !w.arg.getLsbD 13, aux := false, cls := true, ph := 0, rel := false, rep := false, steps := [0], arg := true } w) &&
      okOp (dataState 0) 12 (fun l => l = 0) false false && nexts (exec (.dataSacq w) (dataState 0))) = true ∧
    ready (dataState 0) zd (dxLegal { dst := false, src := false, aux := false, cls := false, ph := 0, rel := false, rep := false, steps := [0], arg := true } zd) = true ∧
    nexts (exec (.afence zd) (dataState 0)) = true := by decide +kernel
/-- A layer of two tiles, THLD 100 and GAIN 1; a change map of one cell that moves by mv quarters of an element; the two records; the directory entry. -/
def slot2 : List Word := [0x0000006400010000, 0x04000000, 0x0008000400000000, 0x8000000000000000]
def map1 (mv e : Byte) : List Byte := [1, 0, 0, 0, 1, 0, 1, 0, 0, 0, 8] ++ List.replicate 21 0 ++ [mv, 0, 0, 0, e, 0, 0, 0]
def rec1 (lfrm : Byte) : List Byte := [0, 0, 0, 0, 0, 0, 1, 0, 0, 0, 0, 0, lfrm, 0, 0, 0]
def dir1 (res : Byte) : List Byte := [0, 0, 2] ++ List.replicate 60 0 ++ [res]
def call (mv e lfrm : Byte) : Call := { l := layerOf slot2, dir := dir1 0, map := map1 mv e, cells := [], mem := rec1 lfrm ++ rec1 lfrm, bad := [] }
theorem witness_TileDecisions :
    ([(call 0 100 0, 0, 2, 0), (call 0 101 0, 0, 0, 0), (call 4 0 0, 0, 1, 0), (call 4 0 0, 1, 0, 3), (call 0 0 1, 0, 0, 1)] : List (Call × Nat × Nat × Nat)).all
      (fun (c, ti, act, cause) => (c.decide ti).act = act && (c.decide ti).cause = cause) = true ∧ ((call 4 0 0).decide 0).dx = 1 ∧
    ((call 0 0 0).rec_ 0).valid = true ∧ ({ call 0 0 0 with l := { layerOf slot2 with rfsh := 1 } } : Call).decide 0 = compute 2 := by decide +kernel
theorem witness_ManifestForm : 4 ≤ (call 0 0 0).map.length ∧ (call 0 0 0).l.nt = 2 ∧ (call 4 0 0).runs.map List.length = [1, 1, 0] := by decide +kernel
theorem witness_FeedEntries : ((call 4 0 0).feed 2).length = 2 ∧ lget ((call 4 0 0).feed 2) 1 [] = [0xC0000000, 0, 0, 0] := by decide +kernel

/-- Core 0's data queue at an MFBUILD of that layer: the map at d14, the output at d8, the directory at d15. -/
def buildW (arg : BitVec 14) : DX := { zd with dst := 8, src := 15, aux := 14, cls := 1, arg := arg }
def withSlot (sl : List Word) (s : State) : State := { s with builders := lput s.builders 0 { slots := [sl], calls := [], busy := none } { slots := [], calls := [], busy := none } }
def atMap (m : List Byte) (s : State) : State := s.modMe fun c => { c with mem := { c.mem with sp1 := mwriteL [] 0xA000 m } }
def mapState : State := withSlot slot2 (atMap (map1 0 0) (dataState 0))
/-- n entries of c8, reserved. -/
def crowd (n : Nat) (s : State) : State :=
  s.modMe fun c => { c with chans := lput c.chans 8 { Chan.empty with q := List.replicate n { v := [], phase := 0, land := 0, landed := true, src := 3, drain := none } } Chan.empty }
theorem witness_ManifestCalls :
    [0x40, 0x1FC0, 0].all (fun (a : BitVec 14) =>
      ready mapState (buildW a) (dxLegal { dst := true, src := true, aux := true, cls := true, ph := 0, rel := false, rep := false, steps := [0]
                                           arg := a.toNat < 2 ^ 13 } (buildW a))) = true ∧
    okOp mapState 8 lvNear true true = true ∧ okOp mapState 15 (fun x => x = 3) false false = true ∧ okOp mapState 14 lvNear false true = true ∧
    (layerOf slot2).ok = true ∧ (mapState.desc 15).pinSpans [(mapState.gAddr (mapState.desc 15) 0 0, 64)] = .inr [(0, 0x50000, 64)] ∧
    nextIs (exec (.mfbuild (buildW 0x40)) (crowd 63 mapState)) (fun t => t.me.builds.length == 1) = true ∧
    nextIs (exec (.mfbuild (buildW 0x1FC0)) (crowd 1 mapState)) (fun t => (t.me.run.stop.map fun x => x.await) == some (some (.feed 64))) = true ∧
    faultsOn (exec (.mfbuild (buildW 1)) mapState) 0x05 0x801 = true ∧
    faultsOn (exec (.mfbuild (buildW 0)) (atMap [] mapState)) 0x05 14 = true ∧
    faultsOn (exec (.mfbuild (buildW 0)) (withSlot [0, 0x04000000, 0x0010000400000000, 0x8000000000000000] mapState)) 0x05 8 = true := by decide +kernel
/-- The MFBUILD issued with FEED 1, its next issue cycle come; then its directory entry answered. -/
def building : State := (after (exec (.mfbuild (buildW 0x40)) mapState)).modMe fun c => { c with run := { c.run with g := 1000000 } }
def dirAnswered (e : List Byte) : State := { building with gops := building.gops.map fun (o : GOp) => { o with done := true, data := [{ addr := 0, bytes := e, poison := false }] } }
def called : State := after (exec .mfbuildDirectoryCheck (dirAnswered (dir1 0)))
theorem witness_DirectoryChecks :
    (building.openBuild.map fun b => (b.dirVa, building.gops.any fun o => o.id = b.read && !o.done)) = some (0x20000, true) ∧
    (building.eng .data).next ≤ building.clk ∧ building.cur.shadow = false ∧ building.me.modes.trapMode = false ∧ dirBad (dir1 1) = true ∧ dirBad (dir1 0) = false ∧
    (dirAnswered (dir1 0)).layerRuns (layerOf slot2) (dir1 0) = some [(0, 0x50000, 32)] ∧ (called.builder 0).calls.length = 1 ∧
    nextIs (exec .mfbuildDirectoryCheck (dirAnswered (dir1 1))) (fun t => t.me.trec.cause.toNat == 5 && t.me.trec.info.toNat == 15) = true := by decide +kernel
/-- The call served, then its records read. -/
def served : State := after (exec .builderService { called with cur := { called.cur with arg := 0 } })
def landing (done : Bool) : State :=
  { served with cur := { served.cur with arg := lget (served.me.builds.map Build.id) 0 0 }
                gops := served.gops.map fun (o : GOp) => { o with done := done, data := [{ addr := 0, bytes := rec1 0 ++ rec1 0, poison := false }] } }
theorem witness_BuildersServe :
    called.builderBusy 0 = false ∧ (called.buildOf (lget (called.builder 0).calls 0 (0, 0, 0)).2).isSome = true ∧ (called.core 0).ports.vec = [] ∧ served.builderBusy 0 = true ∧
    (called.core 0).pend.any (fun p => p.id == (lget (called.builder 0).calls 0 (0, 0, 0)).2.2) = true := by decide +kernel
theorem witness_ManifestLandings :
    ((landing true).thePend.map fun p => (p.eff, (landing true).needMet p, ((landing true).buildOf (0, p.id)).isSome)) = some (.manifest 0 0x6000 48, true, true) ∧
    ((landing false).thePend.map fun p => (landing false).needMet p) = some false ∧ ((landing true).builder 0).busy.isSome = true ∧
    nextIs (exec .manifestLands (landing true)) (fun t => (t.chan 8).q.length == 1 && (t.builder 0).busy.isNone && mread t.me.mem.sp1 0x600A == 2) = true := by
  decide +kernel
/-- A manifest header of n COMPUTE entries at d8, which holds three. -/
def manifestAt (n : Byte) : State := (dataState 0).modMe fun c => { c with mem := { c.mem with sp1 := mwriteL [] 0x6000 [1, 0, 0, 0, 0, 0, n] } }
def readW (i : BitVec 14) : DX := { zd with src := 8, arg := i }
theorem witness_ManifestReads :
    ready (manifestAt 4) (readW 3) (dxLegal { dst := true, src := true, aux := false, cls := false, ph := 0, rel := false, rep := true, steps := [0], arg := true } (readW 3)) = true ∧
    okOp (manifestAt 4) 8 lvNear false true = true ∧ ((manifestAt 4).desc 8).len = 64 ∧
    runIndex (manifestCounts ((manifestAt 4).linBytes ((manifestAt 4).desc 8) 0 16)) 0 3 = some 3 ∧ faultsOn (exec (.mfread (readW 3)) (manifestAt 4)) 0x05 8 = true ∧
    (manifestAt 4).pushMiss 8 = false ∧ (crowd 64 (manifestAt 4)).pushMiss 8 = true ∧
    nextIs (exec (.mfread (readW 2)) (manifestAt 4)) (fun t => t.me.run.stop.isNone && (t.chan 8).q.length == 1) = true ∧
    nextIs (exec (.mfread (readW 4)) (manifestAt 4)) (fun t => t.me.run.stop.isNone && (t.chan 8).q.map ChEntry.v == [[0xC0000000, 0, 0, 0]]) = true := by decide +kernel
def fetchW : DX := { zd with dst := 8, src := 15, cls := 1 }
theorem witness_MapFetches :
    ready (dataState 0) fetchW (dxLegal { dst := true, src := true, aux := false, cls := true, ph := 0, rel := false, rep := false, steps := [0], arg := true } fetchW) = true ∧
    okOp (dataState 0) 8 lvNear true true = true ∧ okOp (dataState 0) 15 lvG false true = true ∧
    ((dataState 0).desc 15).pinSpans [((dataState 0).gAddr ((dataState 0).desc 15) 0 0, 64)] = .inr [(0, 0x50000, 64)] ∧ nexts (exec (.cmfetch fetchW) (dataState 0)) = true := by
  decide +kernel
def updateW (arg : BitVec 14) : DX := { zd with dst := 15, src := 8, cls := 1, phased := true, arg := arg }
theorem witness_StateUpdates :
    ready (manifestAt 3) (updateW 3) (dxLegal { dst := true, src := true, aux := false, cls := true, ph := 1, rel := false, rep := false, steps := [0], arg := true } (updateW 3)) = true ∧
    okOp (manifestAt 3) 15 (fun l => l = 3) true true = true ∧ okOp (manifestAt 3) 8 lvNear false true = true ∧
    nextIs (exec (.tsupd (updateW 3)) (heldUp (0x40000 - 96) (manifestAt 3))) (fun t => t.me.mem.held.length == 4) = true ∧
    faultsOn (exec (.tsupd (updateW 3)) (heldUp (0x40000 - 80) (manifestAt 3))) 0x05 0x500 = true ∧
    faultsOn (exec (.tsupd (updateW 2)) (manifestAt 3)) 0x05 8 = true ∧
    (entryLanes ((call 4 0 0).entry 0 ((call 4 0 0).decide 0))).length = 4 ∧ ((call 4 0 0).entry 0 ((call 4 0 0).decide 0)).length = 16 := by decide +kernel
/-- Cores 0 and 1 in the gang of berth 0 at gang cycle g, both changed by f; and the same with a hold. -/
def duo (g : Nat) (f : Core → Core) : State :=
  let put (hop : Nat) (c : Core) : Core := { f c with run := { (f c).run with berth := some 0, started := true, g := g, hop := hop } }
  let s := (one.modCore 1 fun c => { c with descs := (one.core 0).descs, seq := (one.core 0).seq, vec := (one.core 0).vec, mtx := (one.core 0).mtx, snap := (one.core 0).snap })
  { (s.modCore 0 (put 0)).modCore 1 (put 1) with
      gangs := one.gangs.map fun (x : Gang) => { x with members := [0, 1], started := true }, tide := g + 10, cur := { one.cur with arg := 0 } }
def duoGang (s : State) : Gang := lget s.gangs 0 (lget one.gangs 0 { berth := 0, members := [], origin := 0, t0 := 0, started := false, hold := none, y := none, asked := false, nsave := 0, yielded := false, forced := false, clamped := false, saveReq := false, saveAt := 0, startedAt := 0, sp3lo := 0, sp3len := 0, digest := [] })
theorem witness_duo : (duo 5 id).gang (duo 5 id).cur.arg = some (duoGang (duo 5 id)) ∧ (duoGang (duo 5 id)).members.Nodup ∧ (duoGang (duo 5 id)).berth = 0 ∧
    (duo 5 id).gangOf 1 = some (duoGang (duo 5 id)) := by decide +kernel
def modDuo (f : Gang → Gang) (s : State) : State := { s with gangs := s.gangs.map f }
def nextOr (f : State → Option α) (r : Res) : Option α := match r with | .next t => f t | _ => none
theorem witness_GangStarts :
    (let s := modDuo (fun g => { g with started := false }) (duo 0 fun c => { c with snap := none })
     (s.gang s.cur.arg).map Gang.started = some false ∧ s.me.snap = none ∧
     nextIs (exec .gangStart s) (fun t => t.me.snap.isSome && t.me.run.started && (t.gang 0).map Gang.started == some true) = true) ∧
    ((duo 0 id).gang (duo 0 id).cur.arg).map Gang.started = some true := by decide +kernel
/-- Member 1 reached by a wave, running with a delay slot due, running without, and standing. -/
theorem witness_HoldWaves :
    (let s := { duo 5 (fun c => { c with seq := { c.seq with slot := some { brPc := 0, dest := 8, mask := 0 }, next := 5 } }) with cur := { one.cur with core := 1 } }
     (s.gangOf s.cur.core).isSome = true ∧ s.me.run.stop = none ∧ s.me.seq.slot.isSome = true ∧ s.me.seq.wait = .none ∧
     nextIs (exec .holdWave s) (fun t => (t.me.run.stop.map fun x => x.slotDue) == some true) = true) ∧
    (let s := { duo 5 id with cur := { one.cur with core := 1 } }
     nextIs (exec .holdWave s) (fun t => (t.me.run.stop.map fun x => x.slotDue) == some false) = true) := by decide +kernel
/-- Both members stopped since gang cycle 5 by a source on core 0, whose condition ended 40 cycles later. -/
def held (rb : Bool) (ended : Option Nat) : State :=
  modDuo (fun g => { g with hold := some { srcs := [{ core := 0, stopN := 15, stopA := 15, cause := 1, ended := ended }], waves := [], rb := rb, rbCount := rb } })
    (duo 5 fun c => { c with run := { c.run with stop := some { slotDue := false, source := false, await := none, until_ := none }, held := 40 } })
def holdOf (s : State) : HoldRec := match (duoGang s).hold with | some h => h | none => { srcs := [], waves := [], rb := false, rbCount := false }
/-- An error has met a member that was stopped while its release wave was on its way. -/
theorem witness_ReleaseWaves_error :
    (let s := (duo 5 id).modCore 0 fun c => { c with run := { c.run with stop := some { slotDue := false, source := false, await := none, until_ := some 0 }, errDue := true } }
     (s.me.run.stop.map fun x => x.until_) = some (some 0) ∧ s.me.run.errDue = true ∧ s.me.run.berth = some 0 ∧ s.gang 0 = some (duoGang s) ∧
     nextIs (exec .releaseWave s) (fun t => t.me.run.stop.isSome && !t.me.run.errDue && ((t.gang 0).map fun g => g.hold.map fun h => h.rb) == some (some true)) = true) := by
  decide +kernel
theorem witness_Releases :
    (held false (some 55)).gang 0 = some (duoGang (held false (some 55))) ∧ (duoGang (held false (some 55))).hold = some (holdOf (held false (some 55))) ∧
    (held false (some 55)).holdOver (duoGang (held false (some 55))) (holdOf (held false (some 55))) = true ∧ (duoGang (held false (some 55))).saveReq = false ∧
    (∀ x ∈ (holdOf (held false (some 55))).srcs, 15 ≤ x.stopA ∧ x.ended = some 55) ∧ (∀ k ∈ [0, 1], ((held false (some 55)).core k).run.held ≤ 55 + 256 - 15) ∧
    (held false none).holdOver (duoGang (held false none)) (holdOf (held false none)) = false := by decide +kernel
theorem witness_RollbackRefused :
    (let s := (held true (some 55)).modCore 1 fun c => { c with modes := { c.modes with noretry := true } }
     s.gang s.cur.arg = some (duoGang s) ∧ (duoGang s).hold = some (holdOf s) ∧ s.holdOver (duoGang s) (holdOf s) = true ∧ (duoGang s).saveReq = false ∧
     (holdOf s).rb = true ∧ (∃ k ∈ (duoGang s).members, (s.core k).modes.noretry = true) ∧
     nextIs (exec .release s) (fun t => (t.bind 0).state == 3 && (t.bind 0).reason == 3 && (t.gang 0).isNone) = true) := by decide +kernel
def releasing (n : Option Nat) : State :=
  oneWith fun c => { c with run := { c.run with stop := some { slotDue := false, source := false, await := none, until_ := n } } }
theorem witness_ReleaseWaves :
    ((releasing (some 0)).me.run.stop.map fun x => x.until_) = some (some 0) ∧ 0 ≤ (releasing (some 0)).tide ∧ (releasing (some 0)).tide < (releasing (some 0)).tide + 1 ∧
    ((releasing none).me.run.stop.map fun x => x.until_) = some none ∧ nextIs (exec .releaseWave (releasing (some 0))) (fun t => t.me.run.stop.isNone) = true := by decide +kernel
/-- Both members' units have ended; core 1 has fired at 7 or not. -/
def ending (f : Option Nat) : State := (duo 5 fun c => { c with seq := { c.seq with ended := true } }).modCore 1 fun c => { c with run := { c.run with fired := f } }
theorem witness_Completion :
    (ending none).gangOf (ending none).cur.core = some (duoGang (ending none)) ∧ (ending none).combinerDue 0 = true ∧ (duo 5 id).combinerDue 0 = false ∧
    ((duoGang (ending (some 7))).members.mapM fun m => (if m = 0 then some 5 else ((ending (some 7)).core m).run.fired).map fun f => f + 2 * ((ending (some 7)).core m).run.hop) =
      some [5, 9] ∧
    nextIs (exec .combinerFires (ending (some 7))) (fun t => (t.bind 0).state == 3 && (t.bind 0).end_ == 0 && (t.gang 0).isNone) = true ∧
    nextIs (exec .combinerFires (ending none)) (fun t => t.me.run.fired == some 5 && (t.gang 0).isSome) = true := by decide +kernel
theorem witness_RecordFormat :
    (let r : Record := { token := 2 ^ 32 - 1, frameno := 2 ^ 32 - 1, seq := 2 ^ 32 - 1, status := 255, reason := 255, flags := 255, gcycles := 2 ^ 64 - 1, phases := 2 ^ 32 - 1
                         nsave := 2 ^ 16 - 1, group := 255 }
     (r.bytes true).length = 32 ∧ bnat (r.bytes true) 16 8 = 2 ^ 64 - 1) := by decide +kernel
def limited (n : BitVec 48) : State := (duo 5 id).modBind 0 fun b => { b with runlim := n }
theorem witness_RunLimits :
    (limited 5).gang (limited 5).cur.arg = some (duoGang (limited 5)) ∧ ((limited 5).bind 0).runlim.toNat ≠ 0 ∧ ((limited 5).bind 0).runlim.toNat ≤ ((limited 5).core 0).run.g ∧
    ((limited 5).core 0).run.g < ((limited 6).bind 0).runlim.toNat ∧ ((limited 0).bind 0).runlim.toNat = 0 ∧
    nextIs (exec .runLimitExpiry (limited 5)) (fun t => (t.bind 0).reason == 6 && (t.gang 0).isNone) = true := by decide +kernel
/-- Both members at a phase point that they reached at 0 and 36: G = 100. -/
def meeting (k0 k1 : Nat) (f : Core → Core) : State :=
  ((duo 100 f).modCore 0 fun c => { c with seq := { c.seq with wait := .phase k0 0xFFFF 0 31 } }).modCore 1 fun c => { c with seq := { c.seq with wait := .phase k1 1 36 0 } }
theorem witness_Commits :
    (meeting 0 0 id).gang 0 = some (duoGang (meeting 0 0 id)) ∧ (duoGang (meeting 0 0 id)).members.Nodup ∧
    (meeting 0 0 id).pointArrivals (duoGang (meeting 0 0 id)) = some [(0, 0xFFFF, 0, 31), (0, 1, 36, 0)] ∧ (meeting 0 0 id).allAt (duoGang (meeting 0 0 id)) 100 = true ∧
    ({ meeting 0 0 id with cores := (duo 99 id).cores } : State).allAt (duoGang (meeting 0 0 id)) 100 = false ∧
    (∀ k ∈ [0, 1], ((meeting 0 0 id).core k).modes.chkint = false) ∧
    nextIs (exec .phasePointRelease (meeting 0 0 id)) (fun t => t.me.modes.phase == (meeting 0 0 id).me.modes.phase + 1 && t.me.seq.reg 31 == 100) = true := by decide +kernel
theorem witness_Cancels :
    (meeting 0 1 id).pointArrivals (duoGang (meeting 0 1 id)) = some [(0, 0xFFFF, 0, 31), (1, 1, 36, 0)] ∧ (meeting 0 1 id).allAt (duoGang (meeting 0 1 id)) 100 = true ∧
    nextIs (exec .phasePointRelease (meeting 0 1 id)) (fun t => t.me.modes.phase == (meeting 0 1 id).me.modes.phase && t.me.modes.cancel) = true := by decide +kernel
/-- The entry snapshot that the start of the gang takes. -/
def entrySnap : Option Snapshot := nextOr (fun t => t.me.snap) (exec .gangStart (modDuo (fun g => { g with started := false }) (duo 0 fun c => { c with snap := none })))
/-- PABORT.R or poison with room for a retry, on the last retry, with a phase that cannot be retried. -/
def again (k1 : Nat) (chk no : Bool) (rcnt : BitVec 4) : State :=
  meeting 0 k1 fun c => { c with snap := entrySnap, modes := { c.modes with chkint := chk, noretry := no, rcnt := rcnt, retrymax := 1 } }
theorem witness_Refusals :
    ([(again 2 false false 0, false, false, true), (again 2 false true 0, true, false, false), (again 2 false false 1, true, false, false),
      (again 0 true false 0, false, true, true), (again 0 true false 1, false, true, false)] : List (State × Bool × Bool × Bool)).all (fun (s, ends, bad, retry) =>
      s.gang s.cur.arg == some (duoGang s) && (s.pointArrivals (duoGang s)).isSome && s.allAt (duoGang s) 100 && (s.me.snap.isSome) &&
      nextIs (exec .phasePointRelease s) (fun t => (t.gang 0).isNone == ends && (t.me.modes.refuse == bad) && (t.me.modes.rcnt == 1 && t.me.seq.next == 164) == retry)) = true ∧
    ¬ (again 2 false false 0).me.modes.retrymax.toNat < (again 2 false false 0).me.modes.rcnt.toNat + 1 ∧
    (again 2 false false 1).me.modes.retrymax.toNat < (again 2 false false 1).me.modes.rcnt.toNat + 1 := by decide +kernel
/-- YIELDREQ visible from gang cycle 5 on. -/
def asked (f : Core → Core) (g : Nat) : State := modDuo (fun x => { x with y := some 5 }) (duo g f)
theorem witness_YieldRequests :
    (asked id 5).gangOf (asked id 5).cur.core = some (duoGang (asked id 5)) ∧ (duoGang (asked id 5)).y = some 5 ∧ 5 ≤ (asked id 5).me.run.g ∧ (asked id 4).me.run.g < 5 ∧
    nextIs (exec .yieldreq (asked id 5)) (fun t => t.me.modes.yieldreq) = true := by decide +kernel
def late (g : Nat) : State := asked (fun c => { c with modes := { c.modes with pdl := 20 } }) g
theorem witness_SavesFallDue :
    (late 25).gang (late 25).cur.arg = some (duoGang (late 25)) ∧ (duoGang (late 25)).y = some 5 ∧ 5 + ((late 25).core 0).modes.pdl.toNat ≤ ((late 25).core 0).run.g ∧
    (duoGang (late 25)).saveReq = false ∧ ¬ 5 + ((late 24).core 0).modes.pdl.toNat ≤ ((late 24).core 0).run.g ∧ ((late 25).core 0).run.stop = none ∧
    ((late 25).core 0).run.berth = some 0 ∧ nextIs (exec .pdlExpiry (late 25)) (fun t => t.me.run.stop.isSome && (t.gang 0).map Gang.saveReq == some true) = true ∧
    ((held false none).core 0).run.stop ≠ none := by decide +kernel
/-- Both members at a YIELD that they reached at 0 and 36, the origin's request at y. -/
def yielding (y : Option Nat) (f : Core → Core) : State :=
  modDuo (fun x => { x with y := y })
    (((duo 100 f).modCore 0 fun c => { c with seq := { c.seq with wait := .yield 0x100000001 0 31 } }).modCore 1 fun c => { c with seq := { c.seq with wait := .yield 0 36 0 } })
def dirty (c : Core) : Core := { c with mem := { c.mem with held := [{ ps := [], names := [], size := 16 }] } }
theorem witness_YieldsGoOn :
    (yielding none id).gang (yielding none id).cur.arg = some (duoGang (yielding none id)) ∧
    (yielding none id).yieldArrivals (duoGang (yielding none id)) = some [(0x100000001, 0, 31), (0, 36, 0)] ∧ (yielding none id).allAt (duoGang (yielding none id)) 100 = true ∧
    (yielding (some 36) dirty).atBoundary 0 100 = false ∧
    nextIs (exec .yieldRelease (yielding (some 37) id)) (fun t => t.saves.length == 0 && !t.me.modes.ybad && t.me.seq.reg 31 == 100) = true ∧
    nextIs (exec .yieldRelease (yielding (some 36) dirty)) (fun t => t.saves.length == 0 && t.me.modes.ybad && t.me.seq.reg 31 == 100) = true := by decide +kernel
theorem witness_CooperativeSaves :
    (yielding (some 36) id).yieldArrivals (duoGang (yielding (some 36) id)) = some [(0x100000001, 0, 31), (0, 36, 0)] ∧
    (yielding (some 36) id).allAt (duoGang (yielding (some 36) id)) 100 = true ∧ (∀ k ∈ [0, 1], (yielding (some 36) id).atBoundary k 100 = true) ∧
    nextIs (exec .yieldRelease (yielding (some 36) id)) (fun t => t.saves.length == 1 && t.sched.saving.length == 1 && (t.gang 0).isNone) = true := by decide +kernel
/-- A forced save requested and the hold over; requested with a wave still on its way. -/
def forcing (w : List (Nat × Nat)) : State :=
  modDuo (fun x => { x with saveReq := true, hold := some { srcs := [{ core := 0, stopN := 15, stopA := 15, cause := 2, ended := none }], waves := w, rb := false, rbCount := false } })
    (duo 5 fun c => { c with run := { c.run with stop := some { slotDue := false, source := false, await := none, until_ := none }, held := 40 } })
theorem witness_ForcedSaves :
    (forcing []).gang (forcing []).cur.arg = some (duoGang (forcing [])) ∧ (forcing []).saveReady (duoGang (forcing [])) = true ∧
    (forcing [(1, 20)]).saveReady (duoGang (forcing [(1, 20)])) = false ∧
    nextIs (exec .forcedSave (forcing [])) (fun t => t.saves.length == 1 && t.sched.saving.length == 1 && (t.gang 0).isNone) = true := by decide +kernel
/-- A save of berth 7 that began at tide cycle 3, over at `due`. -/
def savingUntil (due : Nat) : State :=
  { one with sched := { one.sched with saving := [{ berth := 7, from_ := 3, due := due, savepa := 0 }] }, cur := { one.cur with arg := 7 }, tide := 20 }
theorem witness_SavesEnd :
    (savingUntil 20).gang (savingUntil 20).cur.arg = none ∧ ((savingUntil 20).sched.saving.find? fun w => w.berth = 7 && w.due ≤ 20).isSome = true ∧
    (∀ w ∈ (savingUntil 21).sched.saving, (savingUntil 21).tide < w.due) ∧
    nextIs (exec .forcedSave (savingUntil 20)) (fun t => (t.bind 7).state == 3 && (t.bind 7).end_ == 2 && (t.bind 7).savecyc == 17) = true := by decide +kernel

theorem witness_ChannelLandings :
    [.chan 3, .mesh 3, .credit 3].all (fun (e : Eff) => ((flying e).thePend.map fun p => (p.need, p.eff)) == some (none, e)) = true ∧
    nextIs (exec .creditReturn ((flying (.credit 3)).modMe fun c => { c with chans := lput c.chans 3 { Chan.empty with used := 1 } Chan.empty })) (fun t => (t.chan 3).used == 0) = true := by
  decide +kernel
theorem witness_CopiesLand :
    (let q : Piece := { addr := 0x2FFFFC, bytes := [1, 2, 3, 4], poison := false }
     ((flying (.mcast [q])).thePend.map fun p => (p.need, p.eff)) = some (none, .mcast [q]) ∧ Memory.wf (flying (.mcast [q])).me.mem.sp1 = true ∧
     nextIs (exec .dmcastArrival (flying (.mcast [q]))) (fun t => mread t.me.mem.sp1 0x2FFFFF == 4) = true) := by decide +kernel
/-- An atomic's old value, awaited, with its home's answer or without it. -/
def returning (a : Option (Nat × Nat)) (done poison : Bool) : State :=
  let s := (flying (.atomRet a)).modMe fun c => { c with pend := c.pend.map fun (p : Pend) => { p with need := some 9 } }
  { s with gops := [{ id := 9, core := 0, unit := 3, kind := .read [], deps := [], due := 0, done := done, data := [{ addr := 0, bytes := [0x11, 0x22, 0x33, 0x44], poison := poison }]
                      armed := false, lane := false, names := [] }] }
theorem witness_OldValuesLand :
    ((returning (some (0x2FFFFC, 4)) true true).thePend.map fun p => ((returning (some (0x2FFFFC, 4)) true true).needMet p, p.eff)) = some (true, .atomRet (some (0x2FFFFC, 4))) ∧
    ((returning none false false).thePend.map fun p => ((returning none false false).needMet p, p.eff)) = some (false, .atomRet none) ∧
    nextIs (exec .atomicReturn (returning (some (0x2FFFFC, 4)) true true)) (fun t => mread t.me.mem.sp1 0x2FFFFF == 0x44 && t.me.modes.chkint) = true := by decide +kernel
/-- A load of the main or the shadow sequencer out of budget, with MISSCNT n. -/
def overdue (sh : Bool) (n : BitVec 16) (trap : Bool) : State :=
  let s := (flying (.ldReg sh 31 8)).modMe fun c => { c with modes := { c.modes with misscnt := n, trapMode := trap } }
  { s with cur := { s.cur with arg := 7 } }
theorem witness_LoadBudgets :
    [false, true].all (fun tr => ((overdue false 0xFFFE tr).me.pend.find? fun q => q.id = (overdue false 0xFFFE tr).cur.arg).map Pend.eff == some (.ldReg false 31 8) &&
      nextIs (exec .seqLoadBudgetExpiry (overdue false 0xFFFE tr)) (fun t => t.me.modes.misscnt == 0xFFFF && t.me.run.stop.isSome && (t.me.trec.info == 0x21F) == tr)) = true ∧
    (overdue false 0xFFFE true).cur.shadow = false ∧ (overdue false 0xFFFE true).me.modes.misscnt = BitVec.ofNat 16 0xFFFE ∧
    ((overdue true 0 false).me.pend.map Pend.eff) = [.ldReg true 31 8] := by decide +kernel

/-- Queue 0 in RUN with a word at the front: its ring at 0x2000, its completion ring at 0x3000, one table that maps device virtual addresses to HBM. -/
def queueWith (bs : List Byte) (f : Queue → Queue) : State :=
  let q : Queue := { Queue.reset with ring := { Queue.reset.ring with state := 1, rlog2 := 4, rbase := 0x2000, tail := 1, crlog2 := 4, crbase := 0x3000, qxroot := 1 } }
  { one with mem := { one.mem with hbm := mwriteL (mwriteL [] 0x1000 [0x0F]) 0x2000 bs }
             sched := { one.sched with queues := lput one.sched.queues 0 (f q) Queue.reset }, cur := { one.cur with arg := 0, who := .pilot } }
/-- The 64 bytes of a word: its first ones, then zeros. -/
def word64 (bs : List Byte) : List Byte := bs ++ List.replicate (64 - bs.length) 0
def noRoot (q : Queue) : Queue := { q with ring := { q.ring with qxroot := 2 } }
def noSlot_ (q : Queue) : Queue := { q with ring := { q.ring with crbase := 0x2000000000 } }
theorem witness_Doorbells :
    (queueWith [] id).sched.queues.length = 256 ∧ Claims.MayWrite ((queueWith [] id).queue 0) .pilot ∧ Claims.MayWrite ((queueWith [] id).queue 0) .host ∧
    2 ^ ((queueWith [] id).queue 0).ring.rlog2.toNat < ((17 : BitVec 17) - ((queueWith [] id).queue 0).ring.head).toNat ∧
    ((16 : BitVec 17) - ((queueWith [] id).queue 0).ring.head).toNat ≤ 2 ^ ((queueWith [] id).queue 0).ring.rlog2.toNat ∧
    nextIs (exec (.tail .host 0 17) (queueWith [] id)) (fun t => (t.queue 0).ring.tailerr && (t.queue 0).ring.tail == 1) = true ∧
    nextIs (exec (.tail .external 0 16) (queueWith [] id)) (fun t => t == queueWith [] id) = true :=
  ⟨by decide +kernel, .inl rfl, .inr (.inl ⟨rfl, by decide +kernel⟩), by decide +kernel⟩
def faulted (q : Queue) : Queue := { q with ring := { q.ring with state := 2 } }
theorem witness_QueueStates :
    Claims.MayWrite ((queueWith [] id).queue (queueWith [] id).cur.arg) (queueWith [] id).cur.who ∧
    ({ queueWith [] id with cur := { one.cur with who := .external } } : State).cur.who = .external ∧ ((queueWith [] id).queue 0).ring.state ≠ 2 ∧
    ((queueWith [] faulted).queue 0).ring.state = 2 ∧ nextIs (exec .queueRunSkip (queueWith [] faulted)) (fun t => (t.queue 0).ring.head == 1) = true :=
  ⟨.inl rfl, by decide +kernel⟩
/-- The last word of a buffer of 3 words, and the one before. -/
def inside (i : BitVec 16) (q : Queue) : Queue :=
  { q with pol := { q.pol with iidx := lput q.pol.iidx 0 i 0, istart := lput q.pol.istart 0 0x2000 0 }, run := { q.run with counts := lput q.run.counts 0 3 0 } }
theorem witness_PacketsTaken :
    ((queueWith [] id).queue 0).depth = 0 ∧ (inside 1 ((queueWith [] id).queue 0)).depth = 1 ∧
    (lget (inside 1 ((queueWith [] id).queue 0)).pol.iidx 0 0 + 1).toNat ≠ lget (inside 1 ((queueWith [] id).queue 0)).run.counts 0 0 ∧
    (lget (inside 2 ((queueWith [] id).queue 0)).pol.iidx 0 0 + 1).toNat = lget (inside 2 ((queueWith [] id).queue 0)).run.counts 0 0 := by decide +kernel
/-- Each type at the front; one that does not translate; a completion slot that does not; a malformed word. -/
theorem witness_Fetches :
    [0, 1, 2, 3, 4].all (fun (t : Byte) => (queueWith (word64 [t]) id).canFetch 0 && (queueWith (word64 [t]) id).packetType 0 == t.toNat) = true ∧
    (queueWith [] fun q => { q with ring := { q.ring with state := 0 } }).canFetch 0 = false ∧
    (queueWith [] noRoot).canFetch 0 = true ∧ (queueWith [] noRoot).packetType 0 = 1 ∧ (queueWith [] noRoot).packet ((queueWith [] noRoot).queue 0) = .inl 0x2000 ∧
    (queueWith (word64 [5]) id).packetType 0 = 1 ∧ packetBad (word64 [5]) = true ∧
    (queueWith (word64 [5]) noSlot_).slotPlace ((queueWith (word64 [5]) noSlot_).queue 0) = .inl 0x2000000000 ∧
    nextIs (exec .frame (queueWith [] noRoot)) (fun t => (t.queue 0).ring.state == 2 && (t.queue 0).pol.fcode == 0x0F) = true := by decide +kernel
/-- A word with a place for its record. -/
theorem packet_ready (bs : List Byte) (f : Queue → Queue)
    (h : (queueWith bs f).canFetch 0 = true ∧ (queueWith bs f).packet ((queueWith bs f).queue 0) = .inr bs ∧
      (queueWith bs f).slotPlace ((queueWith bs f).queue 0) = .inr (0, 0x3000) ∧ packetBad bs = false) : Claims.PacketReady (queueWith bs f) bs (0, 0x3000) := h
theorem witness_NopPackets : Claims.PacketReady (queueWith (word64 [0]) id) (word64 [0]) (0, 0x3000) ∧ bnat (word64 [0]) 0 1 = 0 :=
  ⟨packet_ready _ _ (by decide +kernel), by decide +kernel⟩
/-- FRAMEs with 0 and with 16 arguments; arguments that do not translate. -/
def frame16 (va : Byte) : List Byte := word64 ([1] ++ List.replicate 16 0 ++ [16] ++ List.replicate 7 0 ++ [0x10, 0, 0, va])
theorem witness_Frames :
    Claims.PacketReady (queueWith (frame16 0) id) (frame16 0) (0, 0x3000) ∧ bnat (frame16 0) 0 1 = 1 ∧
    (queueWith (frame16 0) id).frameArgs ((queueWith (frame16 0) id).queue 0) (frame16 0) = .inr (0xF :: List.replicate 15 0) ∧
    Claims.PacketReady (queueWith (frame16 0x20) id) (frame16 0x20) (0, 0x3000) ∧
    (queueWith (frame16 0x20) id).frameArgs ((queueWith (frame16 0x20) id).queue 0) (frame16 0x20) = .inl 0x2000001000 :=
  ⟨packet_ready _ _ (by decide +kernel), by decide +kernel, by decide +kernel, packet_ready _ _ (by decide +kernel), by decide +kernel⟩
/-- A buffer at 0x4000 of 2 words, at no open level, at four, and open already. -/
def indirect2 : List Byte := word64 [2, 0, 0, 0, 0, 0, 0, 0, 0, 0x40, 0, 0, 0, 0, 0, 0, 2]
def nested (a0 : BitVec 48) (n : Nat) (q : Queue) : Queue :=
  { q with pol := { q.pol with istart := (List.range 4).map fun i => if i = 0 then a0 else if i < n then 0x5000 else 0 }
           run := { q.run with counts := (List.range 4).map fun i => if i < n then 2 else 0 } }
def nestedAt (a0 : BitVec 48) (n : Nat) : State :=
  let s := queueWith indirect2 (nested a0 n)
  { s with mem := { s.mem with hbm := mwriteL (mwriteL (mwriteL s.mem.hbm 0x5000 indirect2) a0.toNat indirect2) 0x1000 [0x0F] } }
theorem witness_Indirects :
    Claims.PacketReady (queueWith indirect2 id) indirect2 (0, 0x3000) ∧ bnat indirect2 0 1 = 2 ∧ ((queueWith indirect2 id).queue 0).depth = 0 ∧
    Claims.PacketReady (nestedAt 0x5000 4) indirect2 (0, 0x3000) ∧ ((nestedAt 0x5000 4).queue 0).depth = 4 ∧
    Claims.PacketReady (nestedAt 0x4000 1) indirect2 (0, 0x3000) ∧ ((nestedAt 0x4000 1).queue 0).depth = 1 ∧
    (lget ((nestedAt 0x4000 1).queue 0).pol.istart 0 0).toNat = bnat indirect2 8 8 :=
  ⟨packet_ready _ _ (by decide +kernel), by decide +kernel, by decide +kernel, by unfold Claims.PacketReady; decide +kernel, by decide +kernel,
    by unfold Claims.PacketReady; decide +kernel, by decide +kernel, by decide +kernel⟩
/-- A WAITV for 5 on the object at 0 of SP3, or of a device virtual address. -/
def waitv5 (va hi : Byte) : List Byte := word64 ([3, 0, 0, 0, 0, 0, 0, 0] ++ [0, 0, 0, 0, va, 0, 0, hi] ++ [5])
theorem witness_Waitvs :
    Claims.PacketReady (queueWith (waitv5 0 0x40) id) (waitv5 0 0x40) (0, 0x3000) ∧ bnat (waitv5 0 0x40) 0 1 = 3 ∧ bnat (waitv5 0 0x40) 8 8 / 2 ^ 62 = 1 ∧
    Claims.PacketReady (queueWith (waitv5 0x20 0) id) (waitv5 0x20 0) (0, 0x3000) ∧ bnat (waitv5 0x20 0) 8 8 / 2 ^ 62 = 0 ∧
    (queueWith (waitv5 0x20 0) id).translate ((queueWith (waitv5 0x20 0) id).queue 0).root true false (bnat (waitv5 0x20 0) 8 8) = .inl (0x04, 1) ∧
    (let s := queueWith [] fun q => { q with run := { q.run with waitv := some (3, 0, 5) } }
     (s.queue 0).run.waitv = some (3, 0, 5) ∧ s.gNat 3 0 8 < (5 : Word).toNat ∧ (0 : Word).toNat ≤ s.gNat 3 0 8) :=
  ⟨packet_ready _ _ (by decide +kernel), by decide +kernel, by decide +kernel, packet_ready _ _ (by decide +kernel), by decide +kernel, by decide +kernel, by decide +kernel⟩
def owing (q : Queue) : Queue := { q with run := { q.run with resv := [{ idx := 5, tgt := 0, pa := 0x30A0, wrote := false, isFrame := true, irq := false }] } }
theorem witness_Marks :
    Claims.PacketReady (queueWith (word64 [4]) id) (word64 [4]) (0, 0x3000) ∧ bnat (word64 [4]) 0 1 = 4 ∧ ((queueWith (word64 [4]) id).queue 0).run.resv = [] ∧
    Claims.PacketReady (queueWith (word64 [4]) owing) (word64 [4]) (0, 0x3000) ∧ ((queueWith (word64 [4]) owing).queue 0).run.resv.any (fun r => r.isFrame && !r.wrote) = true :=
  ⟨packet_ready _ _ (by decide +kernel), by decide +kernel, by decide +kernel, packet_ready _ _ (by decide +kernel), by decide +kernel⟩
theorem witness_RecordsLand :
    (((queueWith [] owing).queue 0).run.resv.find? (fun x => x.idx = 5)).map Resv.tgt = some 0 ∧ Memory.wf (queueWith [] owing).mem.hbm = true ∧
    (queueWith [] owing).armedAt 0 0x30A0 32 = [] ∧ ((queueWith [] owing).queue 0).run.resv.length = 1 ∧
    (queueWith [] owing).mem.syncs = [] ∧
    (((queueWith [] owing).putRecord 0 5 true (plainRecord 7 0 0)).queue 0).run.resv = [] ∧
    ((queueWith [] owing).putRecord 0 5 true (plainRecord 7 0 0)).gByte 0 0x30A0 = 7 := by decide +kernel
theorem witness_Coalescing :
    ((queueWith [] id).queue 0).run.unrep = 0 ∧
    (let s := queueWith [] fun q => { q with run := { q.run with unrep := 1 }, pol := { q.pol with irqen := true } }
     (s.queue 0).run.unrep ≠ 0 ∧ (s.queue 0).pol.irqen = true ∧ (s.queue 0).pol.owner = false ∧ nextIs (exec .coaltExpiry s) (fun t => t.io.outs == s.io.outs ++ [.irq false 0]) = true) := by decide +kernel
/-- A FRAME of queue 0, being ranked; with its rank. -/
def frame0 : Frame := { queue := 0, bytes := frame16 0, args := [], slot := 0 }
def ranking (r : Option (BitVec 32)) : State := (queueWith [] id).modRank fun e => { e with cur := some frame0, result := r }
/-- n entries of the PIFO of one rank. -/
def pifoOf (n : Nat) (s : State) : State := { s with sched := { s.sched with pifo := List.replicate n { rank := 5, frame := frame0, arr := 0 } } }
/-- One FRAME in the PIFO, whose record goes to 0x3000. -/
def purging : State :=
  pifoOf 1 (queueWith [] fun q => { q with run := { q.run with resv := [{ idx := 0, tgt := 0, pa := 0x3000, wrote := false, isFrame := true, irq := false }] } })
theorem witness_PurgedRecords :
    Claims.MayWrite (purging.queue purging.cur.arg) purging.cur.who ∧ purging.fleet.recovery = false ∧ purging.sched.pifo.map PifoEntry.frame = [frame0] ∧
    (purging.queue 0).run.waitv = none ∧ (purging.queue 0).run.marks = [] ∧ Memory.wf purging.mem.hbm = true ∧ purging.armedAt 0 0x3000 32 = [] ∧
    (∀ i, i < 32 → ¬ Claims.keptArmed purging 0 (0x3000 + i)) ∧
    nextIs (exec .queueOff purging) (fun t => t.sched.pifo == [] && (t.queue 0).ring.state == 0 && (t.gRead 0 0x3000 32 != purging.gRead 0 0x3000 32)) = true := by
  have h : purging.mem.syncs = [] := by decide +kernel
  exact ⟨.inl rfl, by decide +kernel, by decide +kernel, by decide +kernel, by decide +kernel, by decide +kernel, by decide +kernel,
    by simp [Claims.keptArmed, h], by decide +kernel⟩
theorem witness_RankLoadsAndEnds :
    (ranking none).sched.rank.cur = some frame0 ∧ nextIs (exec (.rankLdf 7 0 4 31 0) (ranking none)) (fun t => t.rq 7 == 0) = true ∧
    nextIs (exec (.rankEnd 1) (ranking none)) (fun t => t.sched.rank.result.isSome) = true := by decide +kernel
theorem witness_RanksInsert :
    (ranking (some 5)).sched.rank.cur = some frame0 ∧ (ranking (some 5)).sched.rank.result = some 5 ∧ (ranking none).sched.rank.result = none ∧
    (pifoOf 1023 (ranking (some 5))).sched.pifo.length < Config.pifoDepth ∧ Config.pifoDepth ≤ (pifoOf 1024 (ranking (some 5))).sched.pifo.length ∧
    precedes 0x40000000 0 = false ∧ precedes 4 5 = true ∧ precedes 0x3FFFFFFF 0 = true ∧
    nextIs (exec .rank (pifoOf 1 (ranking (some 4)))) (fun t => t.sched.pifo.map PifoEntry.rank == [4, 5] && t.sched.rank.cur.isNone) = true := by decide +kernel
theorem witness_RankPrograms :
    (one.sched.rank.staged.map decodeRank).all (fun i => i == some (.rankEnd 0)) = true ∧
    ((one.modRank fun r => { r with staged := lput r.staged 3 0xFFFFFFFF 0 }).sched.rank.staged.map decodeRank).any (fun i => i == none) = true := by decide +kernel
/-- Cores 2 and 3 in group 5, and in three more; berth 7 uses group 5 or not. -/
def tabled (st : BitVec 2) : State :=
  { one with sched := { one.sched with
      groups := (List.range 256).map fun n => (5 ≤ n && n ≤ 8, 0xC), berths := lput one.sched.berths 7 { Bind.zero with state := st, group := 5 } Bind.zero } }
theorem witness_GroupWrites :
    (∃ b ∈ (tabled 1).sched.berths, (b.state = 1 ∨ b.state = 2) ∧ b.group.toNat = 5) ∧ (∀ b ∈ (tabled 3).sched.berths, ¬ ((b.state = 1 ∨ b.state = 2) ∧ b.group.toNat = 5)) ∧
    nextIs (exec (.groupTableWrite .pilot 5 0x8000000000000010) (tabled 3)) (fun t => t.group 5 == (true, 0x10) && !t.sched.gterr) = true ∧
    nextIs (exec (.groupTableWrite .pilot 255 0x8000000000000004) (tabled 3)) (fun t => t.sched.gterr && t.group 255 == (false, 0xC)) = true ∧
    nextIs (exec (.groupTableWrite .pilot 5 0x8000000000000004) (tabled 3)) (fun t => !t.sched.gterr) = true ∧ one.fleet.recovery = false := by decide +kernel

/-- Berth 7 ARMED for group 5 of cores 2 and 3, with MEMBERS n; an image at 0x6000 of that many members and no sections. -/
def armed (n : BitVec 5) (f : State → State) (b : Bind → Bind) : State :=
  let s := f { tabled 1 with mem := { one.mem with hbm := [(0x6006, BitVec.ofNat 8 n.toNat), (0x600C, 64)] }, cur := { one.cur with arg := 7 } }
  s.modBind 7 fun _ => b { Bind.zero with state := 1, group := 5, members := n, imgpa := 0x6000 }
theorem witness_DispatchRefuses :
    ([(armed 3 id id, 11), (armed 2 (fun s => { s with sched := { s.sched with failed := 8 } }) id, 12),
      (armed 2 (fun s => s.modBind 9 fun b => { b with state := 2, group := 6 }) id, 13), (armed 2 id fun b => { b with restore := true, savepa := 9 }, 14)] :
      List (State × Nat)).all (fun (s, n) => (s.bind s.cur.arg).state == 1 && s.armReason 7 == n &&
      nextIs (exec .armed s) (fun t => (t.bind 7).state == 3 && (t.bind 7).end_ == 3 && (t.bind 7).reason.toNat == n)) = true ∧
    ((armed 2 id id).modBind 7 fun b => { b with state := 2 }).cur.arg = 7 := by decide +kernel
theorem witness_DispatchLaunches :
    ((armed 2 id id).bind (armed 2 id id).cur.arg).state = 1 ∧ (armed 2 id id).armReason 7 = 0 ∧ ((armed 2 id id).bind 7).restore = false ∧
    (imgLoads ((armed 2 id id).imageOf 7) ((armed 2 id id).bind 7).args).map List.length = some (coresOf ((armed 2 id id).group 5).2).length ∧
    nextIs (exec .armed (armed 2 id id)) (fun t => (t.bind 7).state == 2 && (t.gangs.getLast?.map fun g => g.members) == some [2, 3] && (t.core 3).run.member == 1) = true := by
  decide +kernel
/-- What the forced save of `forcing` leaves, to be restored on cores 2 and 3. -/
def saved : List Saved := (after (exec .forcedSave (forcing []))).saves
def restoring : State :=
  armed 2 (fun s => { s with
      saves := saved.map fun x => { x with num := 6 }
      mem := { s.mem with hbm := s.mem.hbm ++ [(0x9000, 1), (0x9005, BitVec.ofNat 8 Config.siliconRev), (0xA000, 6), (0x40A000, 6)] } })
    fun b => { b with restore := true, savepa := 9 }
theorem witness_DispatchRestores :
    (restoring.bind restoring.cur.arg).state = 1 ∧ restoring.armReason 7 = 0 ∧ (restoring.bind 7).restore = true ∧
    (restoring.saveFor ((restoring.bind 7).savepa.toNat * 4096) (restoring.imageOf 7)).map Saved.rb = some none ∧
    (let s := { restoring with saves := [] }
     s.armReason 7 = 0 ∧ (s.bind 7).restore = true ∧ s.saveFor ((s.bind 7).savepa.toNat * 4096) (s.imageOf 7) = none) ∧
    nextIs (exec .armed restoring) (fun t => (t.bind 7).state == 2 && (t.core 3).run.g == 5 && (t.core 3).run.stop.isSome) = true := by decide +kernel
/-- The gang of berth 0 RUNNING; with a request to yield made; with no such gang. -/
theorem witness_Triggers :
    ((duo 5 id).bind (duo 5 id).cur.arg).state = 2 ∧ (duo 5 id).gang 0 = some (duoGang (duo 5 id)) ∧ (duoGang (duo 5 id)).y = none ∧ (duoGang (asked id 5)).y ≠ none ∧
    ((armed 2 id id).bind 7).state ≠ 2 ∧ nextIs (exec .abort (duo 5 id)) (fun t => (t.bind 0).reason == 5 && (t.gang 0).isNone) = true := by decide +kernel
def pilotHeld (e : Option Nat) : State :=
  modDuo (fun g => { g with hold := some { srcs := [{ core := 0, stopN := 15, stopA := 15, cause := 3, ended := e }], waves := [], rb := false, rbCount := false } }) (held false none)
/-- The slice of berth 0's gang not over: the request waits. -/
theorem witness_Triggers_slice :
    (let s := duo 5 id
     s.sliceOver (duoGang s) = false ∧ nextIs (exec .bindYieldreq s) (fun t => (t.gang 0).map (fun g => (g.yieldAsked, g.y)) == some (true, none)) = true) ∧
    (let s : State := { duo 3000000 id with tide := 3000010 }
     s.sliceOver (duoGang s) = true ∧ nextIs (exec .bindYieldreq s) (fun t => (t.gang 0).map (fun g => (g.yieldAsked, g.y.isSome)) == some (false, true)) = true) := by
  decide +kernel
theorem witness_PilotHolds_wave :
    (let s := (duo 5 id).modCore 0 fun c => { c with run := { c.run with stop := some { slotDue := false, source := false, await := none, until_ := some 99 } } }
     (s.core 0).run.stop.map (fun x => x.until_) = some (some 99) ∧ (duoGang s).hold = none ∧
     nextIs (exec .hold s) (fun t => (t.gang 0).map (fun g => (g.holdAsked, g.hold.isNone)) == some (true, true)) = true) := by decide +kernel
theorem witness_PilotHolds :
    ((duo 5 id).core (duoGang (duo 5 id)).origin).run.berth = some 0 ∧ ((duo 5 id).core 0).run.stop = none ∧
    nextIs (exec .hold (duo 5 id)) (fun t => t.me.run.stop.isSome && ((t.gang 0).map fun g => g.hold.isSome) == some true) = true ∧
    ((pilotHeld none).gang 0).map (fun g => (g.hold.map fun h => h.srcs.map fun x => (x.cause, x.ended))) = some (some [(3, none)]) ∧
    ((pilotHeld (some 20)).gang 0).map (fun g => (g.hold.map fun h => h.srcs.map fun x => (x.cause, x.ended))) = some (some [(3, some 20)]) ∧
    ((pilotHeld none).core 0).run.stop.isSome = true ∧ ((pilotHeld none).core 0).run.stop.map (fun x => x.until_) = some none ∧
    nextIs (exec .hold (pilotHeld (some 20))) (fun t => ((t.gang 0).map fun g => (g.hold.map fun h => h.srcs.length)) == some (some 2)) = true := by decide +kernel

theorem witness_ApertureWrites :
    nextIs (exec (.aper 15 0 0x6000000000000000) one) (fun t => t == one) = true ∧ nextIs (exec (.aper 15 0 0x8400000000001000) one) (fun t => t != one) = true ∧
    nextIs (exec (.aper 0 3 0x6600000000000000) one) (fun t => t.cores == one.cores) = true := by decide +kernel
theorem witness_RegisterWrites :
    one.fleet.recovery = false ∧ (0x10004 : Nat) % 4 = 0 ∧ (0x10002 : Nat) % 4 ≠ 0 ∧ Claims.MayWrite (one.queue 255) .host ∧
    nextIs (exec (.registerWrite .host 0x10000 7) one) (fun t => t == one) = true ∧ nextIs (exec (.registerWrite .host 0x5005C 7) one) (fun t => t == one) = true ∧
    nextIs (exec (.registerWrite .pilot 0x10018 7) one) (fun t => lget t.sched.slice 3 0 == 7) = true ∧
    (let s := one.modPcore 3 fun c => { c with sigpend := 0x1000002 }
     s.readReg .pilot 0x50058 = 0x1000000 ∧ s.readReg .host 0x50058 = 0) ∧
    nextIs (exec (.registerWrite .pilot (coreReg 23 0x007) 0xF0000000000) one) (fun t => (t.core 23).modes.retrymax == 15) = true ∧
    nextIs (exec (.registerWrite .timetable (coreReg 23 0x007) 0xF0000000000) one) (fun t => (t.core 23).modes.retrymax == 2) = true ∧
    nextIs (exec (.registerWrite .host (coreReg 23 0x00B) 1) one) (fun t => t == one) = true :=
  ⟨by decide +kernel, by decide, by decide, .inr (.inl ⟨rfl, by decide +kernel⟩), by decide +kernel, by decide +kernel, by decide +kernel, by decide +kernel, by decide +kernel⟩
/-- Mailbox m with a request, DOORBELL, BUSY, and written over. -/
def boxed (m : Nat) (req : List Byte) (door busy clash : Bool) : State :=
  let x : Mailbox := { req := req, resp := [], door := door, busy := busy, done := false, clash := clash, owner := 8 ≤ m, vec := 3 }
  { one with pilot := { one.pilot with mbox := lput one.pilot.mbox m x x }, cur := { one.cur with arg := m, who := if 8 ≤ m then .external else .host } }
theorem witness_MailboxDoorbells :
    [0, 15].all (fun m => let s := boxed m [] false false false
      s.cur.who == (if (s.mbox s.cur.arg).owner then .external else .host) && !(s.mbox m).door &&
      nextIs (exec .doorbell s) fun t => (t.mbox m).door && (t.pcore 3).sigpend.getLsbD (m + 1)) = true ∧ ((boxed 0 [] true false false).mbox 0).door = true := by decide +kernel
theorem witness_CrossTimestamps : one.cur.who = .pilot ∨ one.cur.who = .host ∨ one.cur.who = .external ∨ one.cur.who = .timetable := by decide +kernel
theorem witness_DecoderRegisters : (15 : Nat) < 16 ∧ nextIs (exec (.decoderRun 15 true) one) (fun t => (t.dec 15).run && !(t.dec 14).run) = true := by decide +kernel
/-- A request of OPC c with an argument byte and words. -/
def asks (c : Byte) (args : List Byte) (clash : Bool) : State := boxed 2 (word64 ([c, 0, 7, 0, 0, 0, 0, 0] ++ args)) false true clash
theorem request_at (s : State) (opc : Nat)
    (h : (s.mbox s.cur.arg).busy = true ∧ s.cur.arg ∉ s.pilot.fw.serving ∧ s.fleet.test.mbox ≠ some s.cur.arg ∧ bnat (s.mbox s.cur.arg).req 0 2 = opc ∧
      (s.mbox s.cur.arg).clash = false) : Claims.RequestAt s opc := h
theorem witness_CommandsServed :
    [1, 2, 3, 4, 5, 6, 7, 8, 9].all (fun (c : Byte) => let s := asks c [] true
      (s.mbox 2).busy && !s.pilot.fw.serving.contains 2 && s.fleet.test.mbox == none && bnat (s.mbox 2).req 0 2 == c.toNat && (s.mbox 2).clash && (s.mbox 2).req.length == 64) = true ∧
    nextIs (exec .groupSet (asks 1 [] true)) (fun t => bnat (t.mbox 2).resp 2 2 == 3) = true ∧ nextIs (exec .groupSet (asks 2 [] true)) (fun t => t == asks 2 [] true) = true := by
  decide +kernel
/-- A self-test of a level under way; the log with one entry that is wholly written at a tide cycle, and a request for it at cycle 20. -/
def testing (n : Nat) : State := { asks 8 [2] false with fleet := { one.fleet with test := { level := n, mbox := if n = 0 then none else some 1, lamp := 1 } } }
def logged (ready : Nat) : State :=
  let e : RasEntry := { seq := 1, tide := 3, cls := 1, sev := 0, core := 0, berth := 0, code := 0, addr := 0, data := [], read := false, ready := ready }
  { asks 9 [1] false with fleet := { one.fleet with ras := [e] }, tide := 20 }
/-- Each command on good and on bad arguments: the status answered. -/
theorem witness_CommandsAct :
    (∀ c : Fin 9, Claims.RequestAt (asks (BitVec.ofNat 8 (c.val + 1)) [] false) (c.val + 1)) ∧
    ([(asks 1 [255] false, .groupSet, 0), (asks 1 [0, 1] false, .groupSet, 2), (asks 2 [15] false, .aperSet, 0), (asks 2 [16] false, .aperSet, 2),
      (asks 3 [5, 63, 1] false, .layerSet, 0), (asks 3 [5, 64] false, .layerSet, 2), (asks 4 [31, 3] false, .berthCtl, 0), (asks 4 [32] false, .berthCtl, 2),
      (asks 5 [7] false, .grantSet, 0), (asks 5 [8] false, .grantSet, 2), (asks 6 [7] false, .peerwinSet, 0), (asks 6 [8] false, .peerwinSet, 2),
      (asks 7 [75] false, .powerCap, 0), (asks 7 [201] false, .powerCap, 2), (asks 8 [3] false, .selfTest, 2), (asks 9 [] false, .rasRead, 2),
      (testing 2, .selfTest, 3)] :
      List (State × Instr × Nat)).all (fun (s, i, n) => nextIs (exec i s) fun t => bnat (t.mbox 2).resp 2 2 == n && t.pilot.fw.serving.contains 2) = true ∧
    nextIs (exec .selfTest (asks 8 [2] false)) (fun t => t.fleet.test.level == 2 && t.fleet.test.mbox == some 2 && t.fleet.test.todo.length == 24) = true ∧
    (logged 20).fleet.ras.any (fun e => e.seq == 1 && e.ready ≤ 20) = true ∧ ((logged 21).fleet.ras.find? fun e => e.seq = 1 && e.ready ≤ 20) = none ∧
    nextIs (exec .rasRead (logged 20)) (fun t => bnat (t.mbox 2).resp 2 2 == 0 && t.fleet.ras.all RasEntry.read) = true :=
  ⟨fun c => request_at _ _ (by revert c; decide +kernel), by decide +kernel, by decide +kernel, by decide +kernel, by decide +kernel, by decide +kernel⟩
theorem witness_CommandsEnd :
    ((asks 1 [] false).mbox (asks 1 [] false).cur.arg).busy = true ∧ ((boxed 2 [] false false false).mbox 2).busy = false ∧ ((asks 1 [] false).mbox 2).owner = false ∧
    ((asks 1 [] false).mbox 2).req.length = 64 ∧
    nextIs (exec .done (asks 1 [] false)) (fun t => (t.mbox 2).done && !(t.mbox 2).busy && bnat (t.mbox 2).resp 2 2 == 1) = true ∧
    nextIs (exec .done (asks 1 [] true)) (fun t => bnat (t.mbox 2).resp 2 2 == 3) = true := by decide +kernel
/-- Pilot core 0 with x6 and x7 set. -/
def pilotWith (a b : Word) (s : State) : State := { s.modPcore 0 (fun c => { c with x := lput (lput c.x 6 a 0) 7 b 0 }) with cur := { one.cur with arg := 0 } }
def px67 (a b : Word) : State := pilotWith a b one
/-- LEN 64 at POS 63, LEN 65, another bit. -/
theorem witness_BitFields :
    ((px67 0x8000000000000000 0x403F).px 7).toNat / 256 % 128 = 64 ∧ ((px67 0 0x4100).px 7).toNat / 256 % 128 = 65 ∧ (px67 0 0x403F).px 7 &&& ~~~(0x7F3F : Word) = 0 ∧
    (px67 0 0x40).px 7 &&& ~~~(0x7F3F : Word) ≠ 0 ∧
    nextIs (exec (.qbfxS 5 6 7) (px67 0xF0 0x0404)) (fun t => t.px 5 == -1) = true ∧ nextIs (exec (.qbfx 5 6 7) (px67 0xF0 0x0404)) (fun t => t.px 5 == 15) = true := by
  decide +kernel
def sramTop : Word := BitVec.ofNat 64 (Config.sramBase + Config.sramSize - 256)
/-- Each source, empty and not. -/
theorem witness_QueueFetches :
    Config.sramBase % 256 = 0 ∧ sramTop.toNat + 256 ≤ Config.sramBase + Config.sramSize ∧ (px67 0 sramTop).sched.popHead = none ∧
    (pilotWith 0 sramTop (pifoOf 1 one)).sched.popHead.isSome = true ∧ ((px67 1 sramTop).mbox 0).door = false ∧
    ((pilotWith 16 sramTop (boxed 15 [] true false false)).mbox 15).door = true ∧ (px67 17 sramTop).pilot.posts = [] ∧
    (pilotWith 17 sramTop (posting 1)).pilot.posts = [(0, [])] ∧ ((px67 18 0).px 6).toNat = 18 ∧ ¬ (sramTop + 1).toNat % 256 = 0 ∧
    nextIs (exec (.qfetch 5 6 7) (pilotWith 0 sramTop (pifoOf 1 one))) (fun t => (t.px 5).getLsbD 63 && t.sched.pifo.isEmpty) = true ∧
    nextIs (exec (.qfetch 5 6 7) (pilotWith 16 sramTop (boxed 15 [] true false false))) (fun t => (t.mbox 15).busy && t.px 5 == 0x800000000000000F) = true := by decide +kernel
/-- A wait for signal 1, in force; rung, or over. -/
def qwaiting (sig : Word) : State := (px67 2 0).modPcore 0 fun c => { c with wait := some { rd := 5, mask := 2, limit := 1000 }, sigpend := sig }
theorem witness_SignalWaits :
    (px67 0 0).px 6 = 0 ∧ ((px67 0 0).px 7).toNat = 0 ∧ (px67 2 0).sigpend 0 &&& (px67 2 0).px 6 = 0 ∧
    ((px67 2 0).modPcore 0 fun c => { c with sigpend := 2 }).sigpend 0 &&& 2 ≠ 0 ∧ (px67 0 1).px 6 = 0 ∧ ((px67 0 1).px 7).toNat ≠ 0 ∧
    ((qwaiting 0).pcore 0).wait = some { rd := 5, mask := 2, limit := 1000 } ∧ (qwaiting 2).sigpend 0 &&& 2 ≠ 0 ∧ (qwaiting 0).sigpend 0 &&& 2 = 0 ∧
    (qwaiting 0).tide < 1000 ∧ ((px67 2 0).pcore 0).wait = none ∧ nextIs (exec .qwaitComplete (qwaiting 2)) (fun t => t.px 5 == 2 && (t.pcore 0).wait.isNone) = true := by decide +kernel
/-- A record staged in the SRAM for the last berth, ARMED and otherwise zeros; one with a field that must be 0. -/
def armedWord : List Byte := [0, 0, 0, 0, 0, 0, 0, 0x40]
def staging (w : List Byte) : State := { px67 31 sramTop with pilot := { (px67 31 sramTop).pilot with sram := mwriteL [] sramTop.toNat w } }
theorem witness_Dispatches :
    sramTop.toNat % 64 = 0 ∧ ((staging armedWord).px 6).toNat < 32 ∧ ((staging armedWord).bind 31).state = 0 ∧ (staging armedWord).stagedBad sramTop.toNat = false ∧
    (staging (List.replicate 8 0xFF)).stagedBad sramTop.toNat = true ∧ ((px67 0 sramTop).bind 0).state ≠ 0 ∧ (32 : Nat) ≤ ((px67 32 0).px 6).toNat ∧
    nextIs (exec (.qdisp 5 6 7) (staging armedWord)) (fun t => (t.bind 31).state == 1 && t.px 5 == 0) = true := by decide +kernel

/-- Pilot core 0 at the last word of its SRAM, which holds w; at an address where nothing lies. -/
def baseWord (w : Nat) : State :=
  let s := (px67 0 0x8000000000).modPcore 0 fun c => { c with pc := word (Config.sramBase + Config.sramSize - 4) }
  { s with pilot := { s.pilot with sram := mwriteL [] (Config.sramBase + Config.sramSize - 4) (leBytes 4 w) } }
theorem witness_PilotBase :
    (baseWord 0x0000700B).rvFetch 0 = some 0x0000700B ∧ (0x0000700B : BitVec 32).extractLsb' 0 7 = 0b0001011 ∧ decodeXquay 0x0000700B = none ∧
    (((baseWord 0x0000700B).rvStep 0).pcore 0).mcause = 2 ∧ ((px67 0 0).modPcore 0 fun c => { c with pc := 0x8000000000 }).rvFetch 0 = none ∧
    (px67 0 0x8000000000).pilotHome 0x8000000000 8 = none ∧ (((baseWord 0x0003B283).rvStep 0).pcore 0).mcause = 5 ∧
    (((baseWord 0x0053B023).rvStep 0).pcore 0).mtval = 0x8000000000 ∧
    (let s := pilotWith 0 (word (Config.sramBase + Config.sramSize - 4)) (baseWord 0x0003A283)
     (s.pcore 0).reg 7 = word (Config.sramBase + Config.sramSize - 4) ∧ ((s.rvStep 0).pcore 0).reg 5 = 0x0003A283) := by decide +kernel

/-- The last 8 bytes of the host's region; of a grant; the byte after. -/
def granting (w : Bool) : State := { one with io := { one.io with grants := lput one.io.grants 7 { valid := true, w := w, base := 1, limit := 1 } Grant.zero } }
theorem witness_HostAccesses :
    one.io.hostBase ≤ 0x17FFFFFFF8 ∧ 0x17FFFFFFF8 + 8 ≤ one.io.hostBase + one.io.hostLen ∧ 0x17FFFFFFF8 + 8 ≤ Config.hbmSize ∧
    (∃ g ∈ (granting false).io.grants, g.valid = true ∧ g.w = false ∧ g.base.toNat * 4096 ≤ 0x1FF8 ∧ 0x1FF8 + 8 ≤ (g.limit.toNat + 1) * 4096) ∧
    (granting false).hostMay false 0x1FF8 8 = true ∧ (granting false).hostMay true 0x1FF8 8 = false ∧ (granting true).hostMay false 0x1FFC 8 = false ∧
    Memory.wf one.mem.hbm = true ∧ one.armedAt 0 0x1FF8 8 = [] ∧ (0x3FFFFF8 : Nat) % 8 = 0 ∧
    nextIs (exec (.hostAccess 0 true 0x1FF8 0 (leBytes 8 5)) (granting true)) (fun t => t.gByte 0 0x1FF8 == 5) = true ∧
    nextIs (exec (.hostAccess 0 true 0x1FF8 0 (leBytes 8 5)) (granting false)) (fun t => t.io.outs.getLast? == some (.accessFault 0 7)) = true := by decide +kernel
theorem witness_HostAtomics :
    0x1FF8 + 8 ≤ Config.hbmSize ∧ (granting true).hostMay true 0x1FF8 8 = true ∧ Memory.wf (granting true).mem.hbm = true ∧ (granting true).armedAt 0 0x1FF8 8 = [] ∧
    (granting false).hostMay true 0x1FF8 8 = false ∧ (granting false).hostMay false 0x1FF8 8 = true ∧ one.hostMay false 0x1FF8 8 = false ∧
    (granting true).fleet.recovery = false ∧ (granting true).mem.syncs = [] ∧ (granting true).hostMay true 0x1FFC 4 = true ∧ 0x1FFC % 4 = 0 ∧ 0x1FF4 % 8 ≠ 0 ∧
    (granting true).mem.resv = [] ∧ ((granting true).reserve 3 0 0x1FF8 8).mem.resv = [(3, 0, 0x1FF8, 8)] ∧
    nextIs (exec (.hostAmoRelease 0 ⟨0x1FF8, 8⟩ ⟨.add, 3⟩) (granting true)) (fun t => t.gNat 0 0x1FF8 8 == 3) = true ∧
    nextIs (exec (.hostAmoRelease 0 ⟨0x1FFC, 4⟩ ⟨.min, 0xFFFFFFFF⟩) (granting true)) (fun t => t.gNat 0 0x1FFC 4 == 0xFFFFFFFF) = true ∧
    nextIs (exec (.hostAmoRelease 3 ⟨0x1FF8, 8⟩ ⟨.sc, 9⟩) ((granting true).reserve 3 0 0x1FF8 8)) (fun t => t.gNat 0 0x1FF8 8 == 9 && t.mem.resv == []) = true ∧
    nextIs (exec (.hostAmoRelease 3 ⟨0x1FF8, 8⟩ ⟨.sc, 9⟩) (granting true)) (fun t => t.gNat 0 0x1FF8 8 == 0 && t.io.outs.getLast? == some (.data (leBytes 8 1) false)) = true ∧
    nextIs (exec (.hostLrAcquire 3 ⟨0x1FFC, 4⟩) (granting true)) (fun t => t.mem.resv == [(3, 0, 0x1FFC, 4)]) = true ∧
    nextIs (exec (.hostLrAcquire 3 ⟨0x1FF4, 8⟩) (granting true)) (fun t => t.io.outs.getLast? == some (.accessFault 3 4)) = true := by decide +kernel
/-- Inbound window 0 as at reset admits all; window 1 alone with requester 5 and one page. -/
def windowed : State := { one with io := { one.io with peers := [PeerWin.zero, { PeerWin.zero with valid := true, w := true, rid := 5, base := 1, count := 1 }] } }
/-- Window 1 alone on BAR4, and a wait armed on the object at SP3 0x1040 for VERSION 9. -/
def released : State :=
  { one with
      io := { one.io with peers := [{ PeerWin.zero with valid := true, rd := true, w := true, space := true, rid := 5, base := 1, count := 1 }] }
      gops := [{ op (.wait 3 0x1040 9) with armed := true }] }
theorem witness_PeerRequests :
    (∃ p ∈ released.io.peers, p.valid = true ∧ p.space = true ∧ p.w = true ∧ p.rd = true ∧ p.rid = 5 ∧ p.base.toNat * 4096 ≤ 0x1040 ∧ 0x1048 ≤ (p.base.toNat + p.count.toNat) * 4096) ∧
    released.fleet.recovery = false ∧ (0x1048 : Nat) ≤ Config.sp3Size ∧ released.armedAt 3 0x1080 8 = [] ∧ (released.inboundHome 4 true 5 0x1040 8).isSome = true ∧
    released.gPoison 3 0x1040 8 = false ∧ released.mem.syncs = [] ∧
    nextIs (exec (.inboundWrite 5 4 0x1040 (leBytes 8 9) false) released) (fun t => t.gNat 3 0x1040 8 == 9 && t.gops.any fun o => o.id = 7 && o.done) = true ∧
    nextIs (exec (.inboundWrite 5 4 0x1040 (leBytes 8 8) false) released) (fun t => t.gops.all fun o => !o.done) = true ∧
    nextIs (exec (.inboundAtomicop 5 4 0x1040 .fetchAdd 8 9 0) released) (fun t => t.gops.any fun o => o.id = 7 && o.done) = true ∧
    nextIs (exec (.inboundRead 6 4 0x1040 8) released) (fun t => t.io.outs.getLast? == some .unsupported && (t.fleet.ras.getLast?.map fun e => e.addr) == some 0x2000001040) = true := by
  decide +kernel
/-- Hart 7 runs at 0x1400000000, in the host cores' own region, an instruction there; x6 holds its last 8 bytes' address or another. -/
def harted (w : Nat) (x6 : Word) : State :=
  ({ one with mem := { one.mem with hbm := mwriteL [] 0x1400000000 (leBytes 4 w) } }).modHart 7 fun h =>
    { h with pc := 0x1400000000, running := true, x := lput h.x 6 x6 0 }
/-- RISC-V manuals, by hand: ld x5, 0(x6); sd x6, 0(x6); add x5, x6, x6; sh1add x5, x6, x6; a word of custom-0. -/
theorem witness_HostCores :
    (harted 0x00033283 0x17FFFFFFF8).hartFetch 7 = .inr 0x00033283 ∧ ((harted 0x00033283 0x17FFFFFFF8).hart 7).interrupt = none ∧
    ((harted 0x00033283 0x2010000000).hartStep 7).hart 7 = { (((harted 0x00033283 0x2010000000).hart 7).trap false 5 0x2010000000) with next := one.tide + 1 } ∧
    (((harted 0x00033283 0x1400000000).hartStep 7).hart 7).reg 5 = 0x33283 ∧ ((harted 0x00633023 0x17FFFFFFF8).hartStep 7).gNat 0 0x17FFFFFFF8 8 = 0x17FFFFFFF8 ∧
    (((harted 0x006302B3 0x1400000000).hartStep 7).hart 7).reg 5 = 0x2800000000 ∧ (((harted 0x206322B3 3).hartStep 7).hart 7).reg 5 = 9 ∧
    (((harted 0x0000000B 0).hartStep 7).hart 7).mcause = 2 ∧ (((harted 0x0000000B 0).hartStep 7).hart 7).mepc = 0x1400000000 ∧
    ((harted 0 0).hartMove).isSome = true ∧ ((harted 0 0).hartMove.map fun t => (t.hart 7).mcause) = some 2 ∧
    ((harted 0x00033283 0).hostHome false 0x17FFFFFFF8 8) = some (0, 0x17FFFFFFF8) := by decide +kernel
theorem witness_InboundRequests :
    (∃ p ∈ windowed.io.peers, p.valid = true ∧ p.space = false ∧ p.w = true ∧ p.rid = 5 ∧ p.base.toNat * 4096 ≤ 0x1FF8 ∧ 0x1FF8 + 8 ≤ (p.base.toNat + p.count.toNat) * 4096) ∧
    (∀ p ∈ windowed.io.peers, p.rd = false) ∧ Memory.wf windowed.mem.hbm = true ∧ windowed.armedAt 0 0x1FF8 8 = [] ∧ windowed.gPoison 0 0x1FF8 8 = false ∧
    nextIs (exec (.inboundWrite 5 2 0x1FF8 (leBytes 8 9) false) windowed) (fun t => t.gByte 0 0x1FF8 == 9) = true ∧
    nextIs (exec (.inboundWrite 6 2 0x1FF8 (leBytes 8 9) false) windowed) (fun t => t.gByte 0 0x1FF8 == 0 && t.io.outs.getLast? == some .dropped) = true ∧
    nextIs (exec (.inboundAtomicop 5 2 0x1FF8 .cas 8 7 0) windowed) (fun t => t.gByte 0 0x1FF8 == 7) = true ∧
    nextIs (exec (.inboundAtomicop 5 2 0x1FFC .cas 8 7 0) windowed) (fun t => t.io.outs.getLast? == some .unsupported) = true := by decide +kernel
/-- Port 1 with link, receive ring 3 and transmit ring 0 of one descriptor each, at 0x5000, for the buffer at 0x6000. -/
def linked (rx tx : Nat) : State :=
  let r (p : Nat) : EthRing := { base := 0x5000, size := 16, prod := p, cons := 0 }
  let p : EthPort := { up := true, rx := lput (one.port 1).rx 3 (r rx) EthRing.zero, tx := lput (one.port 1).tx 0 (r tx) EthRing.zero }
  { one with io := { one.io with eth := lput one.io.eth 1 p p }, mem := { one.mem with hbm := [(0x5001, 0x60), (0x5006, 3), (0x6002, 7)] } }
theorem witness_EthernetFrames :
    ((linked 1 1).port 1).up = true ∧ (lget ((linked 1 1).port 1).rx 3 EthRing.zero).nextDesc = some 0x5000 ∧ (lget ((linked 1 1).port 1).tx 0 EthRing.zero).nextDesc = some 0x5000 ∧
    (lget ((linked 0 0).port 1).rx 3 EthRing.zero).cons = (lget ((linked 0 0).port 1).rx 3 EthRing.zero).prod ∧ (one.port 1).up = false ∧
    Memory.wf (linked 1 1).mem.hbm = true ∧ (linked 1 1).gNat 0 0x5000 6 = 0x6000 ∧
    nextIs (exec (.ethernetReceive 1 3 [1, 2]) (linked 1 1)) (fun t => t.gByte 0 0x6001 == 2 && t.gNat 0 0x5006 2 == 2) = true ∧
    nextIs (exec (.ethernetTransmit 1 0) (linked 1 1)) (fun t => t.io.outs.getLast? == some (.frame 1 [0, 0, 7])) = true := by decide +kernel

/-- Decoder engine 15 with a command at the head of its ring at 0x5000 for context 255. -/
def decoding (cmd : List Byte) (held emit : Nat) (blocked : Bool) : State :=
  let cb : List Byte := [0, 15, 0, 0, 16, 0, 16, 0] ++ List.replicate 16 0 ++ [2, 0]
  let x : DecCtx := { bytes := cb ++ List.replicate 38 0, out := 0, held := List.replicate held (0, 0), emit := emit }
  { one with
      mem := { one.mem with hbm := mwriteL [] 0x5000 cmd }
      io := { one.io with dec := lput one.io.dec 15 { ringbase := 0x5000, tail := 1, head := 0, run := true, err := false, blocked := blocked, due := 0 } (one.dec 0)
                          ctx := lput one.io.ctx 255 x x }
      cur := { one.cur with arg := 15 } }
theorem witness_DecoderCommands :
    ([1, 2, 3] : List Byte).all (fun c => ((decoding [c, 0, 255] 1 0 false).decNext 15).map (fun x => (x.opc, x.ok, x.ctx)) == some (c.toNat, true, 255)) = true ∧
    ((decoding [1, 1, 255] 1 0 false).decNext 15).map (fun x => (x.opc, x.ok)) = some (1, false) ∧ ((decoding [4, 0, 255] 1 0 false).decNext 15).map (·.opc) = some 4 ∧
    (decoding [1, 0, 255] 1 0 true).decNext 15 = none ∧ (decoding [1, 0, 255] 1 1 true).decWaits 15 = some 255 ∧ ((decoding [1, 0, 255] 1 1 true).dctx 255).emit ≤ 1 ∧
    (let c := decoding [1, 0, 255, 0, 1, 0, 0, 0, 0, 0, 0, 0, 0x30] 1 0 false
     (c.decNext 15).map (fun x => (x.ok, c.decodable x)) = some (true, false) ∧ nextIs (exec .decode c) (fun t => (t.dec 15).err && (t.dctx 255).held.length == 1) = true) ∧
    nextIs (exec .decoderReset (decoding [3, 0, 255] 1 0 false)) (fun t => (t.dec 15).head == 1 && (t.dctx 255).held == []) = true := by decide +kernel
/-- Its frame of 16 × 16 samples goes to slot 0 at 0x7000: the picture to 0x8000, the map to 0x9000, the record to 0xA000; SOBJ at 0xB000. -/
def emitting : State :=
  let d := decoding [1, 0, 255] 1 1 true
  let cb : List Byte := [0, 15, 0, 0, 16, 0, 16, 0] ++ List.replicate 8 0 ++ leBytes 8 0x7000 ++ [2, 0] ++ List.replicate 6 0 ++ leBytes 8 0xB000 ++ List.replicate 24 0
  { d with
      mem := { d.mem with hbm := mwriteL d.mem.hbm 0x7000 (leBytes 8 0x8000 ++ leBytes 8 0x9000 ++ leBytes 8 0xA000) }
      io := { d.io with ctx := lmod d.io.ctx 255 (d.dctx 255) fun x => { x with bytes := cb, held := [(5, 6)] } } }
theorem witness_FramesEmitted :
    emitting.decWaits 15 = some 255 ∧ (emitting.dctx 255).emit = 1 ∧ (emitting.dctx 255).held = [(5, 6)] ∧ (emitting.dctx 255).slotAddr = 0x7000 ∧
    (emitting.dctx 255).fld 32 8 = 0xB000 ∧ (emitting.dctx 255).picSize 10 = 768 ∧ Memory.wf emitting.mem.hbm = true ∧ emitting.gops = [] ∧ emitting.mem.syncs = [] ∧
    bnat (emitting.gRead 0 0x7000 32) 0 8 = 0x8000 ∧ bnat (emitting.gRead 0 0x7000 32) 8 8 = 0x9000 ∧ bnat (emitting.gRead 0 0x7000 32) 16 8 = 0xA000 := by
  decide +kernel
/-- A cell with its vectors, in a frame of one cell that is no key frame; a concealed one; an intra-coded one that makes the frame a scene cut. -/
def cellOf (i h : Bool) : DecCell := { intra := i, skip := false, hidden := h, l0 := some (false, 1, 1), l1 := some (true, -3, 40000), resid := 70000 }
theorem witness_ChangeMaps :
    (let c : DecCtx := { bytes := [0, 0, 0, 0, 16, 0, 16, 0], out := 0, held := [], emit := 0 }
     let m (x : DecCell) : List Byte := changeMap c 7 8 false false [x]
     (m (cellOf false false)).drop 32 = [0xFD, 0xFF, 0xFF, 0x7F, 0xFF, 0xFF, 0, 0] ∧ bnat (m (cellOf false false)) 8 2 = 0 ∧
     (m (cellOf false true)).drop 32 = [0, 0, 0, 0, 0xFF, 0xFF, 13, 0] ∧ bnat (m (cellOf true false)) 8 2 = 2 ∧
     bnat (changeMap c 7 10 true false [cellOf false false]) 8 2 = 1) ∧
    (let c : DecCtx := { bytes := [2, 0, 0, 0, 16, 0, 16, 0], out := 0, held := [], emit := 0 }
     (changeMap c 7 8 false false [cellOf false false]).drop 32 = [0xFE, 0xFF, 0x20, 0x4E, 0xFF, 0xFF, 0, 0]) := by decide +kernel

theorem witness_BootStates :
    (let b : BootState := { bootState [] with pref := 1, tries := (255, 255), healthy := (true, false) }
     Memory.wf [] = true ∧ b.seq = (bootState []).seq ∧ b.seq + 1 < 2 ^ 32 ∧ b.pref < 2 ∧ b.tries.1 < 256 ∧ b.tries.2 < 256 ∧
     bootState (writeBoot [] b) = { b with seq := b.seq + 1 }) ∧
    (let f := writeBoot (writeBoot [] (bootState [])) (bootState (writeBoot [] (bootState [])))
     (bootCopy f 0).isSome = true ∧ (bootCopy f 1).isSome = true ∧ (bootCopy f 0).map BootState.seq ≠ (bootCopy f 1).map BootState.seq) := by decide +kernel
/-- A part that has booted, and one that has not and finds no image. -/
def unbooted : State := { one with fleet := { one.fleet with booted := false } }
theorem witness_Boots :
    one.fleet.booted = true ∧ unbooted.fleet.booted = false ∧ unbooted.fleet.verifies 0 = false ∧ unbooted.fleet.verifies 1 = false ∧ (bootState unbooted.fleet.flash).pref < 2 ∧
    nextIs (exec .powerOn unbooted) (fun t => t.fleet.recovery && t.fleet.test.lamp == 4) = true := by decide +kernel
/-- An image that verifies does so under the root key, and these are constants without a value here: with a key for which a signature holds, slot 0 or 1 fits. -/
def imaged (n : Nat) : Fleet := { unbooted.fleet with flash := mwriteL [] (slotBase n) (leBytes 4 0x4B525954) }
theorem witness_Boots_image :
    [0, 1].all (fun n => let f := imaged n
      mnat f.flash (slotBase n) 4 == 0x4B525954 && mnat f.flash (slotBase n + 8) 4 == 0 && decide (f.ctr0 ≤ imgSvn f.flash n) && decide ((bootState f.flash).triesOf n < 3) &&
      decide (imgHeadLen f.flash n + 48 + 16224 ≤ 0x1000000)) = true := by decide +kernel
def updated (v : Bool) : State := { one with fleet := { one.fleet with booted := true, verified := v } }
theorem witness_Updates :
    (updated true).fleet.booted = true ∧ (updated true).fleet.recovery = false ∧ (updated true).fleet.verified = true ∧ (updated false).fleet.verified = false ∧
    unbooted.fleet.booted = false ∧ nextIs (exec .healthy (updated false)) (fun t => (bootState t.fleet.flash).healthyOf 0) = true ∧
    (let u : Update := { capsule := true, bytes := [1, 2], due := 5 }
     let s := { updated true with tide := 20, fleet := { (updated true).fleet with update := some u } }
     nextIs (exec (.pldmUpdate false [9]) s) (fun t => t == s) = true ∧ s.tide = 20 ∧
     (s.updateMove.map fun t => (mread t.fleet.flash 0x100001, t.fleet.verified, t.fleet.update.isNone)) = some (2, true, true)) ∧
    (updated true).fleet.update = none ∧ (updated true).fleet.slot = 0 ∧
    nextIs (exec .activation (updated true)) (fun t => (bootState t.fleet.flash).pref == 1 && !t.fleet.booted) = true := by decide +kernel
theorem witness_Attests :
    one.fleet.answer = none ∧ (List.replicate 32 (0 : Byte)).length = 32 ∧
    (let s (due : Nat) : State := { one with tide := 5, fleet := { one.fleet with answer := some (due, [7]) } }
     nextIs (exec (.challenge []) (s 9)) (fun t => t.io.outs.getLast? == some (.response [3, 0])) = true ∧ (s 6).answerMove = none ∧ (s 5).updateMove = none ∧
     ((s 5).fwMove.map fun t => (t.fleet.answer, t.io.outs.getLast?)) = some (none, some (.response [7]))) := by decide +kernel
/-- A test for mailbox 2; with a level, the cores yet to be tested, and the request written over or not. -/
def testFor (n : Nat) (todo : List Nat) (clash : Bool) : State :=
  { asks 8 [2] clash with fleet := { one.fleet with test := { level := n, mbox := some 2, lamp := 1, todo := todo } } }
/-- The flash that `one` holds has no image that verifies, so that the lamp is red whatever has failed. -/
theorem witness_SelfTests :
    (testing 2).fleet.test.level ≠ 0 ∧ (testing 0).fleet.test.level = 0 ∧ (testing 0).fleet.update = none ∧ (testing 0).fleet.recovery = false ∧
    (testFor 2 [] false).fleet.test.mbox = some 2 ∧ ((testFor 2 [] false).mbox 2).req.length = 64 ∧ (testFor 2 [] false).fleet.flashBad 2 = true ∧
    (testFor 1 [0, 23] false).fleet.test.on = [] ∧ ((testFor 1 [0, 23] false).testMove.map fun t => (t.fleet.test.on, (t.core 23).mtx.eiEn)) = some ([23], true) ∧
    nextIs (exec .testButtonLong (testing 0)) (fun t => t.fleet.test.level == 2 && !t.pilot.fw.taking) = true ∧
    nextIs (exec (.selfTestVerdict 7 false) (testFor 2 [] false)) (fun t => t.fleet.test.lamp == 3 && t.sched.failed == 7 && bnat (t.mbox 2).resp 8 1 == 3) = true ∧
    nextIs (exec (.selfTestVerdict 15 false) (testFor 2 [] true)) (fun t => bnat (t.mbox 2).resp 2 2 == 3) = true := by decide +kernel
/-- At a die temperature, a power and a clock. -/
def heated (die power : Int) (clock : Nat) : State := { one with fleet := { one.fleet with sensors := [die, 0, 0, power, 0, 0, 0, 0], clock := clock } }
theorem witness_SensorsAndHeat :
    (heated 104 0 1900).fleet.dieTemp < 105 ∧ 105 ≤ (heated 105 0 401).fleet.dieTemp ∧ 400 < (heated 105 0 401).fleet.clock ∧ (heated 105 0 400).fleet.clock ≤ 400 ∧
    nextIs (exec (.sensorRefresh 105 85 20 90) (heated 0 0 1900)) (fun t => t.fleet.sensors.take 4 == [105, 85, 20, 90] && t.io.outs.contains (.sensor 0 105 2) &&
      t.io.outs.contains (.sensor 1 85 1)) = true ∧
    (heated 114 0 400).fleet.dieTemp < 115 ∧ 115 ≤ (heated 115 0 400).fleet.dieTemp ∧ nextIs (exec .thermalShutdown (heated 115 0 400)) (fun t => !t.fleet.dieOn && t.gangs == []) = true := by
  decide +kernel
theorem witness_PowerCaps :
    (heated 0 201 1901).fleet.cap < (heated 0 201 1901).fleet.power ∧ 1900 < (heated 0 201 1901).fleet.clock ∧ (heated 0 201 1900).fleet.clock ≤ 1900 ∧
    (heated 0 200 1500).fleet.power ≤ (heated 0 200 1500).fleet.cap ∧ nextIs (exec .powerCapControl (heated 0 200 1500)) (fun t => t.fleet.heldBy == []) = true ∧
    (heated 0 201 800).fleet.clock < 1900 ∧
    nextIs (exec .powerCapControl (heated 105 201 800)) (fun t => t.fleet.clock == 800) = true := by decide +kernel
/-- An error in logic, one that data carries in a phase without one and in a phase with one, and one in a memory. -/
def borne (b : Bool) : State := duo 5 fun c => { c with run := { c.run with dborne := b } }
/-- The same error at a member that the gang's hold has stopped. -/
def borneHeld : State := (borne false).modCore 1 fun c => { c with run := { c.run with stop := some { slotDue := false, source := true, await := none, until_ := none, stall := false } } }
theorem witness_Errors_stopped :
    (borneHeld.core 1).run.berth = some 0 ∧ borneHeld.gang 0 = some (duoGang (borne false)) ∧ (borneHeld.core 1).run.dborne = false ∧ (borneHeld.core 1).run.stop.isSome = true ∧
    (duoGang (borne false)).hold.isNone = true ∧
    nextIs (exec (.uncorrectableError { cls := .dataBorne, core := 1, lvl := 0, addr := 0 }) borneHeld) (fun t => (t.core 1).run.errDue && (t.core 1).run.dborne) = true := by
  decide +kernel
theorem witness_Errors :
    ((borne false).core 1).run.berth = some 0 ∧ (borne false).gang 0 = some (duoGang (borne false)) ∧ ((borne true).core 1).run.dborne = true ∧ ((borne false).core 1).run.dborne = false ∧
    ((borne false).core 1).run.stop = none ∧
    nextIs (exec (.uncorrectableError { cls := .dataBorne, core := 1, lvl := 0, addr := 0 }) (borne false)) (fun t => (t.core 1).run.dborne && (t.core 1).run.stop.isSome) = true ∧
    nextIs (exec (.uncorrectableError { cls := .dataBorne, core := 1, lvl := 0, addr := 0 }) (borne true)) (fun t => (t.bind 0).reason == 2 && (t.gang 0).isNone) = true ∧
    nextIs (exec (.uncorrectableError { cls := .logic, core := 23, lvl := 0, addr := 0 }) one) (fun t => t.sched.failed.getLsbD 23) = true ∧
    nextIs (exec (.uncorrectableError { cls := .memory, core := 0, lvl := 2, addr := 127 }) one) (fun t => t.mem.sp3Poi == [1]) = true := by decide +kernel

/-- A word that the main sequencer of core 0 runs, one of each other space, an input that is due. -/
theorem witness_StepRunsDecoded :
    tableSpace 32 0x00652001 = 0 ∧ (State.reset.withFetchWord 32 0x00652001).turn.isSome = true ∧ ((State.reset.withFetchWord 48 0).engTurn 0 false .vec).isSome = true ∧
    ((State.reset.loadRank 0x10000000).rankTurn.map fun x => x.2) = some (.rankLdi 0 0) ∧
    ((State.reset.withFetchWord 32 0x0073128B).turn.map fun x => x.2) = some (.qbfx 5 6 7) ∧
    State.reset.turn.isSome = true ∧ State.reset.fwMove.isSome = false := by decide +kernel
theorem witness_RoundTrips :
    Instr.wf (.addi 31 31 0xFFFF) = true ∧ encode (.addi 31 31 0xFFFF) = some (32, 0x13FFFFFF) ∧ Instr.wf (.reservedSequencerEncoding 0x04000000) = false ∧
    (decodeEng .vec 0).wf = true ∧ Claims.isXquay (.qwait 31 31 31) = true ∧ Claims.isRank (.rankLdi 7 0x7FFFF) = true ∧ Instr.wf (.rankLdi 7 0x7FFFF) = true ∧
    (decodeRank 0).isSome = true ∧ (decodeXquay 0x0073128B).isSome = true := by decide +kernel
theorem witness_EveryMeaningAnswers : nexts (step State.reset) = true := by decide +kernel
theorem witness_ReadAfterWrite : Memory.wf [(5, 7)] = true ∧ mwriteL [(5, 7)] 5 [0, 9] = [(6, 9)] := by decide +kernel
theorem witness_MemoryStaysCanonical : State.reset.memOk ∧ nexts (step State.reset) = true := by
  refine ⟨⟨?_, ?_, ?_, ?_, ?_⟩, by decide +kernel⟩ <;> (try simp only [Core.memOk, Saved.memOk, Mem.memOk]) <;> decide +kernel

end Sys2Proof.Tests
end

namespace Sys2Proof.Machine

/-! ## Sparse memory read back (R7, log 1) -/

/-- An address below every listed one reads 0. -/
theorem mread_of_lt {m : Memory} {a : Nat} (h : ∀ c ∈ m, a < c.1) : mread m a = 0 := by
  induction m with
  | nil => rfl
  | cons c r ih =>
    rw [List.forall_mem_cons] at h
    rw [mread, if_neg (by have := h.1; omega)]
    exact ih h.2

/-- A read after a write of one byte. -/
theorem mread_mwrite {m : Memory} (h : m.wf = true) (a x : Nat) (b : Byte) : mread (mwrite m a b) x = if x = a then b else mread m x := by
  obtain ⟨hp, -⟩ := (wf_iff m).1 h
  clear h
  induction m with
  | nil =>
    by_cases hb : b = 0#8
    · simp [mwrite, mread, hb]
    · simp [mwrite, mread, hb, eq_comm (a := a)]
  | cons c r ih =>
    obtain ⟨k, y⟩ := c
    obtain ⟨hk, hr⟩ := List.pairwise_cons.1 hp
    have hlow : ∀ z, z ≤ k → mread r z = 0 := fun z hz => mread_of_lt fun c hc => lt_of_le_of_lt hz (hk c hc)
    rcases Nat.lt_trichotomy a k with hak | rfl | hka
    · by_cases hb : b = 0#8
      · by_cases hx : x = a
        · subst hx; simp [mwrite, mread, hak, hb, hlow x hak.le, hak.ne']
        · simp [mwrite, hak, hb, hx]
      · simp [mwrite, mread, hak, hb, eq_comm (a := a)]
    · by_cases hb : b = 0#8
      · by_cases hx : x = a
        · subst hx; simp [mwrite, hb, hlow x le_rfl]
        · simp [mwrite, mread, hb, hx, Ne.symm hx]
      · by_cases hx : a = x <;> simp [mwrite, mread, hb, hx, eq_comm (a := x)]
    · have ih := ih hr
      by_cases hx : k = x
      · subst hx; simp [mwrite, mread, hka.ne', hka.not_gt, hka.ne]
      · simp [mwrite, mread, hka.ne', hka.not_gt, hx, ih]

/-- A read after a write of a run of bytes. -/
theorem mread_mwriteL {m : Memory} (h : m.wf = true) (a x : Nat) (bs : List Byte) :
    mread (mwriteL m a bs) x = if a ≤ x ∧ x < a + bs.length then lget bs (x - a) 0 else mread m x := by
  induction bs generalizing m a with
  | nil => rw [if_neg (by simp)]; rfl
  | cons b r ih =>
    rw [mwriteL, ih (mwrite_wf h), mread_mwrite h, List.length_cons]
    rcases Nat.lt_trichotomy x a with hx | rfl | hx
    · rw [if_neg (by omega), if_neg (by omega), if_neg (by omega)]
    · rw [if_neg (by omega), if_pos rfl, if_pos (by omega), Nat.sub_self]; rfl
    · obtain ⟨d, rfl⟩ : ∃ d, x = a + 1 + d := ⟨x - (a + 1), by omega⟩
      have hd : a + 1 + d - a = d + 1 := by omega
      rw [if_neg (show a + 1 + d ≠ a by omega), hd, Nat.add_sub_cancel_left]
      exact if_congr (by omega) rfl rfl

/-- Canonical memories with equal contents are equal. -/
theorem eq_of_mread_eq {m m' : Memory} (h : m.wf = true) (h' : m'.wf = true) (he : ∀ x, mread m x = mread m' x) : m = m' := by
  rw [wf_iff] at h h'
  induction m generalizing m' with
  | nil =>
    cases m' with
    | nil => rfl
    | cons c r =>
      obtain ⟨k, b⟩ := c
      have := he k
      simp only [mread, if_pos] at this
      exact absurd this.symm (h'.2 (k, b) (List.mem_cons_self ..))
  | cons c r ih =>
    obtain ⟨k, b⟩ := c
    obtain ⟨hp, hn⟩ := h
    obtain ⟨hk, hr⟩ := List.pairwise_cons.1 hp
    have hb : b ≠ 0 := hn (k, b) (List.mem_cons_self ..)
    cases m' with
    | nil =>
      have := he k
      simp only [mread, if_pos] at this
      exact absurd this hb
    | cons c' r' =>
      obtain ⟨k', b'⟩ := c'
      obtain ⟨hp', hn'⟩ := h'
      obtain ⟨hk', hr'⟩ := List.pairwise_cons.1 hp'
      have hb' : b' ≠ 0 := hn' (k', b') (List.mem_cons_self ..)
      have hkk : k = k' := by
        rcases Nat.lt_trichotomy k k' with hlt | heq | hlt
        · have h0 : mread ((k', b') :: r') k = 0 := mread_of_lt (List.forall_mem_cons.2 ⟨hlt, fun c hc => hlt.trans (hk' c hc)⟩)
          exact absurd ((he k).trans h0) (by simpa [mread] using hb)
        · exact heq
        · have h0 : mread ((k, b) :: r) k' = 0 := mread_of_lt (List.forall_mem_cons.2 ⟨hlt, fun c hc => hlt.trans (hk c hc)⟩)
          exact absurd ((he k').symm.trans h0) (by simpa [mread] using hb')
      subst hkk
      have hbb : b = b' := by simpa [mread] using he k
      have htail : ∀ x, mread r x = mread r' x := by
        intro x
        by_cases hx : k = x
        · subst hx; rw [mread_of_lt hk, mread_of_lt hk']
        · simpa [mread, hx] using he x
      rw [hbb, ih ⟨hr, fun c hc => hn c (List.mem_cons_of_mem _ hc)⟩ ⟨hr', fun c hc => hn' c (List.mem_cons_of_mem _ hc)⟩ htail]

/-! ## Little-endian numbers (R7) -/

@[simp] theorem length_leBytes (n v : Nat) : (leBytes n v).length = n := by
  induction n generalizing v with
  | zero => rfl
  | succ n ih => simp [leBytes, ih]

@[simp] theorem leNat_leBytes (n v : Nat) : leNat (leBytes n v) = v % 2 ^ (8 * n) := by
  induction n generalizing v with
  | zero => simp [leBytes, leNat, Nat.mod_one]
  | succ n ih =>
    rw [leBytes, leNat, ih, BitVec.toNat_ofNat, Nat.mod_eq_of_lt (Nat.mod_lt _ (by decide)), show 8 * (n + 1) = 8 + 8 * n by ring, pow_add,
      Nat.mod_mul]
    norm_num

/-- Element i of a list, read by index with a default. -/
theorem lget_eq_getD {α : Type} (l : List α) (i : Nat) (d : α) : lget l i d = l.getD i d := by
  induction l generalizing i with
  | nil => exact lget_nil i d
  | cons x r ih => cases i with
    | zero => rfl
    | succ n => exact ih n

/-- What a write puts into canonical memory is read back whole. -/
theorem mreadN_mwriteL {m : Memory} (h : m.wf = true) (a : Nat) (bs : List Byte) : mreadN (mwriteL m a bs) a bs.length = bs := by
  refine List.ext_getElem (by simp [mreadN]) fun i _ hi => ?_
  simp [mreadN, mread_mwriteL h, hi, lget_eq_getD]

/-- Settles O8: a read meets the last write of its byte, and equal contents of canonical memories are equal data. -/
theorem readAfterWrite : Obligations.ReadAfterWrite := by
  intro m a bs h
  refine ⟨mwriteL_wf h, fun i hi => ?_, fun x hx => ?_, fun m' h' he => eq_of_mread_eq h h' he, fun n v => ?_⟩
  · rw [mread_mwriteL h, if_pos (by omega), Nat.add_sub_cancel_left]
  · rw [mread_mwriteL h, if_neg (by omega)]
  · have hr := mreadN_mwriteL h a (leBytes n v)
    rw [length_leBytes] at hr
    rw [mnat, hr, leNat_leBytes]

end Sys2Proof.Machine

namespace Sys2Proof.Machine

/-! ## The state after reset -/

/-- An element of a list of equal elements. -/
theorem lget_replicate {α : Type} {n i : Nat} (x d : α) (h : i < n) : lget (List.replicate n x) i d = x := by
  induction n generalizing i with
  | zero => omega
  | succ n ih => cases i with
    | zero => rfl
    | succ i => exact ih (by omega)

/-- Every core of the part is at its reset value. -/
theorem core_reset {k : Nat} (h : k < 24) : State.reset.core k = Core.reset := lget_replicate _ _ h

/-- Every bind record is free. -/
theorem bind_reset {b : Nat} (h : b < 32) : State.reset.bind b = Bind.zero := lget_replicate _ _ h

/-- Mailboxes 0 to 7 are the host cores', 8 to 15 the external host's, and none is in use (R421). -/
theorem mbox_reset {m : Nat} (h : m < 16) :
    State.reset.mbox m = { req := [], resp := [], door := false, busy := false, done := false, clash := false, owner := decide (8 ≤ m), vec := 0 } := by
  interval_cases m <;> rfl

/-- Settles O1: every list of the reset state holds equal entries, which carry the values that the spec gives. -/
theorem resetState : Obligations.ResetState := by
  refine ⟨fun k hk => ?core, fun k hk => ?slices, rfl, rfl, rfl, rfl, rfl, rfl, fun b hb => ?berths, fun q hq => ?queues, fun g hg => ?groups,
    fun m hm => ?mailboxes, rfl, rfl, rfl, rfl, rfl, rfl⟩
  case core => simp only [core_reset hk]; and_intros <;> rfl
  case slices => exact ⟨lget_replicate _ _ hk, lget_replicate _ _ hk, lget_replicate _ _ hk⟩
  case berths => rw [bind_reset hb]; rfl
  case queues => rw [List.eq_of_mem_replicate hq]; and_intros <;> rfl
  case groups => rw [List.eq_of_mem_replicate hg]
  case mailboxes => rw [mbox_reset hm]; and_intros <;> rfl

end Sys2Proof.Machine

namespace Sys2Proof.Machine

/-! ## Where a sequencer instruction issues -/

/-- From a clean line, an instruction issues wherever its own place lets it. -/
theorem canIssue_of_anyPlace {s : State} {p : Place} (h : s.canIssue anyPlace = true) (hp : s.placed p = true) : s.canIssue p = true := by
  simp only [State.canIssue, Bool.and_eq_true] at h ⊢
  exact ⟨h.1, hp⟩

/-- A place in a context, delay slots included. -/
theorem placed_of_shadow {s : State} {p : Place} (hs : s.cur.shadow = true) (hp : p.shadow = true) (hl : p.slot = true) : s.placed p = true := by
  simp [State.placed, hs, hp, hl]
theorem placed_of_main {s : State} {p : Place} (hs : s.cur.shadow = false) (hp : p.main = true) (hl : p.slot = true) : s.placed p = true := by
  simp [State.placed, hs, hp, hl]

/-! ## MTS at issue (R116, R141, R195, R230, R235) -/

/-- A register with a row of MTS of its own, or none at all, has no plain MTS word; MAINS and MAINPC are among the former. -/
theorem mainReg_of_mtsWf {n : Nat} (h : mtsWf n = true) : mainReg n = false := by
  simp only [mtsWf, Bool.not_eq_true', Bool.or_eq_false_iff] at h
  exact h.2

/-- An MTS in place is a write in flight that is seen from c + 2 on. -/
theorem mtsRun_issue {i : Instr} {p : Place} {a : BitVec 5} {n : Nat} {s : State} (h : s.canIssue p = true) :
    mtsRun i p a n s = .next ((s.addLat 0 2 (.sys n (s.rd a))).next1) := seqRun_issue h

/-- A plain MTS of a register that there is. -/
theorem execMts_issue {n : BitVec 12} {a : BitVec 5} {s : State} {v : Word} (h : s.canIssue anyPlace = true) (hw : mtsWf n.toNat = true)
    (hr : s.sysRead n.toNat = some v) : execMts n a s = .next ((s.addLat 0 2 (.sys n.toNat (s.rd a))).next1) := by
  rw [execMts, seqRun_issue h, hr]
  simp [mainReg_of_mtsWf hw]

/-- A plain MTS of a number without a register. -/
theorem execMts_illegal {n : BitVec 12} {a : BitVec 5} {s : State} (h : s.canIssue anyPlace = true) (hr : s.sysRead n.toNat = none) :
    execMts n a s = .next (s.illegal (.mts n a)) := by rw [execMts, seqRun_issue h, hr]

/-- LSLOT of an unlocked and of a locked slot (R116). -/
theorem execLslot_issue {k : BitVec 2} {a : BitVec 5} {s : State} (h : s.canIssue anyPlace = true) (hl : (s.lslotWord 3).getLsbD 62 = false) :
    execLslot k a s = .next ((s.addLat 0 2 (.sys (slotName s.me.params.lsel.toNat k.toNat) (s.rd a))).next1) := by
  rw [execLslot, seqRun_issue h]; simp only [hl, Bool.false_eq_true, if_false]
theorem execLslot_locked {k : BitVec 2} {a : BitVec 5} {s : State} (h : s.canIssue anyPlace = true) (hl : (s.lslotWord 3).getLsbD 62 = true) :
    execLslot k a s = .next (s.takeFault (mkFault 0 0x05 (0x800 + s.me.params.lsel.toNat))) := by
  rw [execLslot, seqRun_issue h]; simp only [hl, if_true]

/-- CHMAP of a mesh channel that is idle takes a value that passes the tests and ignores another (R195). -/
theorem execChmap_idle {k a : BitVec 5} {s : State} (h : s.canIssue anyPlace = true) (hk : 9 ≤ k.toNat) (hq : (s.chan k.toNat).q = [])
    (hu : (s.chan k.toNat).used = 0) : execChmap k a s =
      .next (if chmapOk (s.rd a) then (s.addLat 0 2 (.sys (0x0C0 + k.toNat) (s.rd a &&& chmapMask))).next1 else s.next1) := by
  rw [execChmap, seqRun_issue h]; simp [Nat.not_lt.2 hk, hq, hu]

/-- CHMAP of any other channel is illegal (R195). -/
theorem execChmap_illegal {k a : BitVec 5} {s : State} (h : s.canIssue anyPlace = true)
    (hk : k.toNat < 9 ∨ (s.chan k.toNat).q ≠ [] ∨ (s.chan k.toNat).used ≠ 0) : execChmap k a s = .next (s.illegal (.chmap k a)) := by
  rw [execChmap, seqRun_issue h]
  by_cases h9 : k.toNat < 9
  · simp [h9]
  · have hbusy : (!(s.chan k.toNat).q.isEmpty || (s.chan k.toNat).used != 0) = true := by
      simpa [List.isEmpty_iff] using hk.resolve_left h9
    simp only [if_neg h9, if_pos hbusy]

/-- SFIFO pushes into c7 while it has room, and misses else (R193, R235). -/
theorem execSfifo_main {a : BitVec 5} {s : State} (h : s.canIssue anyPlace = true) (hs : s.cur.shadow = false) : execSfifo a s =
    .next (if 32 ≤ (s.chan 7).heldAt s.clk then s.schedMiss 0 0x107 (.room 7)
      else (s.pushLocal 0 7 (s.clk + 1) [(s.rd a).setWidth 32, (s.rd a).extractLsb' 32 32] none).next1) :=
  seqRun_issue (canIssue_of_anyPlace h (placed_of_main hs rfl rfl))

theorem systemRegisterWrites : Claims.SystemRegisterWrites := by
  intro s a k n j h
  refine ⟨fun hw => ⟨fun v hv => execMts_issue h hw hv, fun hv => execMts_illegal h hv⟩, mtsRun_issue h, mtsRun_issue h, mtsRun_issue h,
    mtsRun_issue h, fun hs => mtsRun_issue (canIssue_of_anyPlace h (placed_of_shadow hs rfl rfl)), execLslot_issue h, execLslot_locked h,
    fun hk hq hu hv => ?passes, fun hk hq hu hv => ?ignored, execChmap_illegal h, fun hs hr => ?room, fun hs hr => ?full⟩
  case passes => exact (execChmap_idle h hk hq hu).trans (by rw [if_pos hv]; rfl)
  case ignored => exact (execChmap_idle h hk hq hu).trans (by rw [if_neg (by simp [hv])])
  case room => exact (execSfifo_main h hs).trans (by rw [if_neg (Nat.not_le.2 hr)])
  case full => exact (execSfifo_main h hs).trans (by rw [if_pos hr])

/-! ## What a write of a system register changes in its core (R11, R12, R230, R231) -/

section SysWrite
variable (c : Core) (v : Word)

theorem sysWrite_promo : c.sysWrite 0x008 v = { c with params := c.params.setPromo v } := rfl
theorem sysWrite_gather : c.sysWrite 0x00B v =
    { c with params := { c.params with xu := v.extractLsb' 48 16, ts := v.extractLsb' 40 8, strict := wbit v 0 } } := rfl
theorem sysWrite_errinj : c.sysWrite 0x013 v = { c with mtx := c.mtx.setErrinj v } := rfl
theorem sysWrite_nprof : c.sysWrite 0x009 v = { c with params := c.params.setNprof v } := rfl
theorem sysWrite_vstat : c.sysWrite 0x010 v = { c with vec := { c.vec with flags := c.vec.flags &&& ~~~(v.setWidth 7) } } := rfl
theorem sysWrite_mstat : c.sysWrite 0x011 v = { c with mtx := { c.mtx with flags := c.mtx.flags &&& ~~~(v.setWidth 5) } } := rfl
theorem sysWrite_mainpc : c.sysWrite 0x120 v =
    { c with hnd := { c.hnd with mainPc := v.setWidth 18, ds := false, mains := (32, v) :: c.hnd.mains.filter fun x => x.1 != 32 }
             trec := { c.trec with ds := false } } := rfl

variable {k : Nat}

theorem sysWrite_cktol (hk : k < 4) :
    c.sysWrite (0x026 + k) v = { c with mtx := { c.mtx with cktol := lput c.mtx.cktol k (clampTol v) 0 } } := by
  interval_cases k <;> rfl
theorem sysWrite_perf (hk : k < 8) : c.sysWrite (0x060 + k) v = { c with perf := lput c.perf k v 0 } := by interval_cases k <;> rfl
theorem sysWrite_chmap (h9 : 9 ≤ k) (hk : k < 32) : c.sysWrite (0x0C0 + k) v =
    if chmapOk v then { c with chmap := lput c.chmap (k - 9) (v &&& chmapMask) 0, chans := lput c.chans k Chan.empty Chan.empty } else c := by
  interval_cases k <;> rfl
theorem sysWrite_mains (h1 : 1 ≤ k) (hk : k < 32) : c.sysWrite (0x100 + k) v =
    { c with hnd := { c.hnd with mains := (k, v) :: c.hnd.mains.filter fun x => x.1 != k } } := by
  interval_cases k <;> rfl

/-- Registers that are read-only, or the Pilot firmware's alone, ignore a write. -/
theorem sysWrite_ignored {n : Nat} (hn : n ≤ 3 ∨ n = 5 ∨ n = 0x00A ∨ (0x040 ≤ n ∧ n ≤ 0x043) ∨ (0x049 ≤ n ∧ n ≤ 0x04C) ∨ (0x080 ≤ n ∧ n ≤ 0x0BF)) :
    c.sysWrite n v = c := by
  simp (disch := omega) only [Core.sysWrite, Bool.and_eq_true, decide_eq_true_eq, if_neg]

end SysWrite

/-- A software-cleared flag register after a write: every bit written 1 clears. -/
theorem getLsbD_and_not_setWidth {w : Nat} (f : BitVec w) (v : Word) (i : Fin w) :
    (f &&& ~~~(v.setWidth w)).getLsbD i = (f.getLsbD i && !v.getLsbD i) := by
  simp [i.isLt]

theorem writeOneToClear : Claims.WriteOneToClear :=
  fun _ _ => ⟨rfl, rfl, rfl, rfl, rfl, fun i => by rw [sysWrite_vstat]; exact getLsbD_and_not_setWidth _ _ i,
    fun i => by rw [sysWrite_mstat]; exact getLsbD_and_not_setWidth _ _ i⟩

/-- A field of a word as the number that its bits stand for. -/
theorem extractLsb'_eq_ofNat (v : Word) (lo n : Nat) : v.extractLsb' lo n = BitVec.ofNat n (v.toNat / 2 ^ lo) := by
  rw [← Nat.shiftRight_eq_div_pow]; rfl

/-! ## The write's landing, and the fields that it sets -/

/-- Register writes land in the core of the step, and leave its other effects in flight. -/
theorem me_landQuiet_sys {s : State} {p : Pend} {n : Nat} {v : Word} (he : p.eff = .sys n v) (hn : n < 0x1000) (hp : p.need = none) :
    (s.landQuiet p).me = ({ s.me with pend := s.me.pend.filter fun q => q.id != p.id } : Core).sysWrite n v := by
  have hq : s.landQuiet p = (s.modMe fun c => { c with pend := c.pend.filter fun q => q.id != p.id }).modCore s.cur.core fun c => c.sysWrite n v := by
    simp [State.landQuiet, he, State.endPend, hp, State.landSys, Nat.not_le.2 hn]
  rw [hq]
  exact (State.core_modCore ..).trans (congrArg (fun c : Core => c.sysWrite n v) (State.me_modMe ..))

/-- Entries of another number do not bear on the first of a number. -/
theorem find?_filter_fst {l : List (Nat × Word)} {q r : Nat} (h : q ≠ r) :
    (l.filter fun x => x.1 != r).find? (·.1 = q) = l.find? (·.1 = q) := by
  rw [List.find?_filter]
  refine congrArg (l.find? ·) (funext fun x => ?_)
  by_cases hx : x.1 = q <;> simp [hx, h]

theorem registerFields : Claims.RegisterFields := by
  refine ⟨fun s p n v he hn hp _ => me_landQuiet_sys he hn hp, fun c v => ⟨?gather, rfl, ?errinj, rfl, fun k hk => ?perf, fun k h9 hk hv => ?chmap,
    fun k h9 hk hv => ?refused, fun r h1 hr => ?mains, ?mainpc, fun n _ hn => sysWrite_ignored c v hn⟩⟩
  case gather => simp only [sysWrite_gather, extractLsb'_eq_ofNat, wbit]
  case errinj => simp only [sysWrite_errinj, Mtx.setErrinj, extractLsb'_eq_ofNat, wbit, BitVec.ofNat_toNat]
  case perf =>
    rw [sysWrite_perf c v hk]
    exact ⟨lget_lput_same .., fun j hj => lget_lput_other _ _ _ _ _ hj, rfl⟩
  case chmap =>
    rw [sysWrite_chmap c v h9 hk, if_pos hv]
    exact ⟨lget_lput_same .., fun j hj => lget_lput_other _ _ _ _ _ hj, fun j hj => lget_lput_other _ _ _ _ _ hj⟩
  case refused => rw [sysWrite_chmap c v h9 hk, if_neg (by simp [hv])]
  case mains =>
    rw [sysWrite_mains c v h1 hr]
    exact ⟨by simp, fun q hq => by simp [Ne.symm hq, find?_filter_fst hq], rfl⟩
  case mainpc => rw [sysWrite_mainpc]; exact ⟨rfl, rfl, rfl⟩

/-! ## Clamped parameters (R100, R105, R285) -/

/-- An interval of 0 or above its bound is stored as the bound, and says so. -/
theorem clampN_eq (v bound : Nat) : clampN v bound = (if v = 0 ∨ bound < v then bound else v, decide (v = 0 ∨ bound < v)) := by
  by_cases h : v = 0 ∨ bound < v <;> simp [clampN, h]

/-- A field of n bits that a number fits holds it. -/
theorem toNat_ofNat_of_lt {n v : Nat} (h : v < 2 ^ n) : (BitVec.ofNat n v).toNat = v := by rw [BitVec.toNat_ofNat, Nat.mod_eq_of_lt h]

/-- PROMO's fields after a write of intervals x and y (R100). -/
theorem setPromo_fields (p : Params) (v : Word) {x y : Nat} (hx : x = v.toNat / 2 ^ 16 % 2 ^ 12) (hy : y = v.toNat % 2 ^ 12) :
    (p.setPromo v).n8.toNat = (if x = 0 ∨ 512 < x then 512 else x) ∧ (p.setPromo v).n4.toNat = (if y = 0 ∨ 2048 < y then 2048 else y) ∧
    (p.setPromo v).cfgclamp = (p.cfgclamp && !v.getLsbD 32 || decide (x = 0 ∨ 512 < x) || decide (y = 0 ∨ 2048 < y)) := by
  have hn8 : (v.extractLsb' 16 12).toNat = x := by rw [extractLsb'_eq_ofNat, BitVec.toNat_ofNat, hx]
  have hn4 : (v.extractLsb' 0 12).toNat = y := by rw [extractLsb'_eq_ofNat, BitVec.toNat_ofNat, hy, pow_zero, Nat.div_one]
  simp only [Params.setPromo, hn8, hn4, clampN_eq]
  exact ⟨toNat_ofNat_of_lt (by split_ifs <;> omega), toNat_ofNat_of_lt (by split_ifs <;> omega), rfl⟩

/-- A tolerance exponent is stored within 8 to 40 (R285). -/
theorem toNat_clampTol (v : Word) :
    (clampTol v).toNat = if v.toNat % 64 < 8 then 8 else if 40 < v.toNat % 64 then 40 else v.toNat % 64 :=
  toNat_ofNat_of_lt (by split_ifs <;> omega)

theorem parametersClamp : Claims.ParametersClamp := by
  refine fun c v => ⟨?promo, fun hd => ?reserved, fun hd => ?nprof, fun k hk => ?cktol⟩
  case promo =>
    rw [sysWrite_promo]
    obtain ⟨h8, h4, hc⟩ := setPromo_fields c.params v rfl rfl
    refine ⟨h8, h4, fun h => ?_, fun h => ?_, rfl, ?_⟩
    · rw [hc]
      simpa only [Bool.or_eq_true, decide_eq_true_eq, or_assoc] using .inr h
    · obtain ⟨hx, hy⟩ := not_or.1 (mt or_assoc.1 h)
      rw [hc, decide_eq_false hx, decide_eq_false hy, Bool.or_false, Bool.or_false]
    · simp only [Core.promo, at_, bit, ite_mul, one_mul, zero_mul]
  case reserved => rw [sysWrite_nprof, Params.setNprof, if_pos hd]
  case nprof =>
    rw [sysWrite_nprof, Params.setNprof, if_neg (by omega), extractLsb'_eq_ofNat, BitVec.ofNat_toNat]
  case cktol =>
    rw [sysWrite_cktol c v hk]
    exact ⟨rfl, by rw [lget_lput_same]; exact toNat_clampTol v, fun j hj => lget_lput_other _ _ _ _ _ hj⟩

/-- Settles O20: each row of MTS as it issues, and every register as the write lands. -/
theorem systemWrites : Obligations.SystemWrites := ⟨systemRegisterWrites, writeOneToClear, parametersClamp, registerFields⟩

end Sys2Proof.Machine

namespace Sys2Proof.Machine

/-! ## What the homes' own work leaves (R75 to R83) -/

/-- What every step of a fold keeps, the fold keeps. -/
theorem foldl_keeps {σ α β : Type} (p : σ → β) {f : σ → α → σ} (h : ∀ s x, p (f s x) = p s) (l : List α) (s : σ) : p (l.foldl f s) = p s := by
  induction l generalizing s with
  | nil => rfl
  | cons x r ih => exact (ih (f s x)).trans (h s x)

/-- A state without what its homes work on: the memories, the operations in flight at homes, and the counter of free values. -/
def State.besidesHomes (s : State) : State := { s with mem := State.reset.mem, gops := [], free := 0 }

@[simp] theorem besidesHomes_setOp (s : State) (o : GOp) : (s.setOp o).besidesHomes = s.besidesHomes := rfl
@[simp] theorem besidesHomes_dropOp (s : State) (id : Nat) : (s.dropOp id).besidesHomes = s.besidesHomes := rfl
@[simp] theorem besidesHomes_showBerth (s : State) (b : Nat) : (s.showBerth b).besidesHomes = s.besidesHomes := rfl
@[simp] theorem besidesHomes_putSp3 (s : State) (ps qs : List Piece) : (s.putSp3 ps qs).besidesHomes = s.besidesHomes := rfl

@[simp] theorem besidesHomes_gWrite (s : State) (t : Nat) (ps : List Piece) : (s.gWrite t ps).besidesHomes = s.besidesHomes := by
  simp only [State.gWrite]; split_ifs <;> rfl

@[simp] theorem besidesHomes_noteArmed (s : State) (t x : Nat) : (s.noteArmed t x).besidesHomes = s.besidesHomes := by
  simp only [State.noteArmed]; split_ifs <;> rfl

@[simp] theorem besidesHomes_serveSync (s : State) (t x : Nat) : (s.serveSync t x).besidesHomes = s.besidesHomes := by
  simp only [State.serveSync, besidesHomes_noteArmed]; split_ifs <;> rfl

@[simp] theorem besidesHomes_wakeWaits (s : State) (t a n : Nat) : (s.wakeWaits t a n).besidesHomes = s.besidesHomes := by
  simp only [State.wakeWaits]
  split_ifs
  · rfl
  · exact foldl_keeps State.besidesHomes (fun s x => besidesHomes_noteArmed s t x) ..

@[simp] theorem besidesHomes_writeHome (s : State) (ps : List (Nat × Piece)) : (s.writeHome ps).besidesHomes = s.besidesHomes := by
  unfold State.writeHome
  refine (foldl_keeps State.besidesHomes (fun s x => besidesHomes_wakeWaits s _ _ _) ..).trans (foldl_keeps State.besidesHomes (fun s t => ?_) ..)
  split
  · rfl
  · exact besidesHomes_gWrite ..

@[simp] theorem besidesHomes_performOp (s : State) (o : GOp) : (s.performOp o).besidesHomes = s.besidesHomes := by
  unfold State.performOp
  split
  case h_4 => split_ifs <;> exact besidesHomes_serveSync ..
  case h_5 => dsimp only; split_ifs <;> simp
  all_goals simp

@[simp] theorem besidesHomes_dropOps (s : State) (drop : GOp → Bool) : (s.dropOps drop).besidesHomes = s.besidesHomes := by
  unfold State.dropOps
  exact foldl_keeps State.besidesHomes (fun s (x : Nat × Nat) => besidesHomes_noteArmed s x.1 x.2) ..

/-- A field that the homes do not work on, after an update that keeps all of these. -/
theorem cores_of_besidesHomes {s t : State} (h : t.besidesHomes = s.besidesHomes) : t.cores = s.cores :=
  (congrArg State.cores h : t.besidesHomes.cores = s.besidesHomes.cores)
theorem pilot_of_besidesHomes {s t : State} (h : t.besidesHomes = s.besidesHomes) : t.pilot = s.pilot :=
  (congrArg State.pilot h : t.besidesHomes.pilot = s.besidesHomes.pilot)

/-! ## What a completion record leaves (R381, R383) -/

/-- A state without what a completion record changes: its home's memory, the queue contexts, and what has been sent out. -/
def State.besidesRecords (s : State) : State :=
  { s.besidesHomes with io := Io.reset, sched := { s.sched with queues := [] } }

theorem besidesRecords_of_besidesHomes {s t : State} (h : t.besidesHomes = s.besidesHomes) : t.besidesRecords = s.besidesRecords :=
  (congrArg State.besidesRecords h : t.besidesHomes.besidesRecords = s.besidesHomes.besidesRecords)

@[simp] theorem besidesRecords_modQueue (s : State) (n : Nat) (f : Queue → Queue) : (s.modQueue n f).besidesRecords = s.besidesRecords := rfl

@[simp] theorem besidesRecords_irq (s : State) (x : Bool) (v : Nat) : (s.irq x v).besidesRecords = s.besidesRecords := by
  unfold State.irq; split_ifs <;> rfl

@[simp] theorem besidesRecords_raiseIrq (s : State) (n : Nat) : (s.raiseIrq n).besidesRecords = s.besidesRecords :=
  besidesRecords_irq ..

@[simp] theorem besidesRecords_countIrq (s : State) (n : Nat) (u : Bool) : (s.countIrq n u).besidesRecords = s.besidesRecords := by
  simp only [State.countIrq]; split_ifs <;> simp

@[simp] theorem besidesRecords_writeHome (s : State) (ps : List (Nat × Piece)) : (s.writeHome ps).besidesRecords = s.besidesRecords :=
  besidesRecords_of_besidesHomes (besidesHomes_writeHome s ps)

@[simp] theorem besidesRecords_putRecord (s : State) (n i : Nat) (ph : Bool) (r : Record) :
    (s.putRecord n i ph r).besidesRecords = s.besidesRecords := by
  unfold State.putRecord; split <;> simp

@[simp] theorem besidesRecords_writeRecordAs (s : State) (n i : Nat) (ph : Bool) (r : Record) :
    (s.writeRecordAs n i ph r).besidesRecords = s.besidesRecords :=
  (foldl_keeps State.besidesRecords (fun s m => besidesRecords_putRecord s n _ _ _) ..).trans (by simp)

@[simp] theorem besidesRecords_writeBindRecord (s : State) (b : Bind) (r : Record) : (s.writeBindRecord b r).besidesRecords = s.besidesRecords := by
  unfold State.writeBindRecord; split <;> simp

@[simp] theorem besidesRecords_freeSlotOf (s : State) (b : Bind) : (s.freeSlotOf b).besidesRecords = s.besidesRecords := rfl

theorem cores_of_besidesRecords {s t : State} (h : t.besidesRecords = s.besidesRecords) : t.cores = s.cores :=
  (congrArg State.cores h : t.besidesRecords.cores = s.besidesRecords.cores)
theorem gangs_of_besidesRecords {s t : State} (h : t.besidesRecords = s.besidesRecords) : t.gangs = s.gangs :=
  (congrArg State.gangs h : t.besidesRecords.gangs = s.besidesRecords.gangs)
theorem pilot_of_besidesRecords {s t : State} (h : t.besidesRecords = s.besidesRecords) : t.pilot = s.pilot :=
  (congrArg State.pilot h : t.besidesRecords.pilot = s.besidesRecords.pilot)

/-! ## The end of a gang (R71, R157) -/

/-- Members that leave keep every other core; every core among them has left. -/
theorem core_foldl_leave (l : List Nat) (s : State) (k : Nat) :
    ((l.foldl (fun s k => s.modCore k Core.leave) s).core k = s.core k ∧ k ∉ l) ∨
      ∃ c : Core, (l.foldl (fun s k => s.modCore k Core.leave) s).core k = c.leave := by
  induction l generalizing s with
  | nil => exact .inl ⟨rfl, by simp⟩
  | cons j r ih =>
    rcases ih (s.modCore j Core.leave) with ⟨hc, hk⟩ | h
    · by_cases hj : k = j
      · subst hj; exact .inr ⟨s.core k, hc.trans (State.core_modCore ..)⟩
      · exact .inl ⟨hc.trans (State.core_modCore_other _ _ _ _ hj), by simp [hj, hk]⟩
    · exact .inr h

/-- A gang that ends frees its berth, and each member has left it. -/
theorem cores_freeGang (s : State) (g : Gang) : (s.freeGang g).cores = (g.members.foldl (fun s k => s.modCore k Core.leave) s).cores :=
  cores_of_besidesHomes (t := State.showBerth _ g.berth) (by simp)
theorem gang_freeGang (s : State) (g : Gang) : (s.freeGang g).gang g.berth = none := by
  simp [State.freeGang, State.gang]

theorem core_freeGang {s : State} {g : Gang} {k : Nat} (h : k ∈ g.members) : ∃ c : Core, (s.freeGang g).core k = c.leave := by
  have hc : (s.freeGang g).core k = (g.members.foldl (fun s k => s.modCore k Core.leave) s).core k := by
    simp only [State.core, cores_freeGang]
  rw [hc]
  exact (core_foldl_leave g.members s k).resolve_left fun hk => hk.2 h

theorem pilot_freeGang (s : State) (g : Gang) : (s.freeGang g).pilot = s.pilot :=
  (pilot_of_besidesHomes (t := State.showBerth _ g.berth) (s := g.members.foldl (fun s k => s.modCore k Core.leave) s) (by simp)).trans
    (foldl_keeps State.pilot (fun s k => State.pilot_modCore s k _) ..)

/-- What a gang has issued lands in the memories; the Pilot complex stands. -/
theorem pilot_landSp (s : State) (k lvl land id q : Nat) (deps : List Nat) (ps : List Piece) : (s.landSp k lvl land id q deps ps).pilot = s.pilot := by
  unfold State.landSp; split_ifs <;> rfl
theorem pilot_performOp (s : State) (o : GOp) : (s.performOp o).pilot = s.pilot := pilot_of_besidesHomes (besidesHomes_performOp s o)
theorem pilot_landIssued (s : State) (k : Nat) : (s.landIssued k).pilot = s.pilot := by
  refine foldl_keeps State.pilot (fun s p => ?_) ..
  dsimp only
  split <;> split <;> simp only [pilot_landSp, pilot_performOp]
theorem pilot_flushGang (s : State) (g : Gang) : (s.flushGang g).pilot = s.pilot :=
  (foldl_keeps State.pilot (fun s o => pilot_performOp s o) ..).trans (foldl_keeps State.pilot (fun s k => pilot_landIssued s k) ..)

/-- What remains of an abort when the gang's berth is free again: its record, its bind record and an entry of the RAS log (R157). -/
theorem abortGang_of_gang {s : State} {berth reason : Nat} {g : Gang} (h : s.gang berth = some g) :
    ∃ x : State, x.besidesRecords = ((s.flushGang g).freeGang g).besidesRecords ∧ ∃ fl,
      s.abortGang berth reason = (x.endBind berth reason fl 1).ras 5 0xFF berth reason 0 := by
  simp only [State.abortGang, h]
  exact ⟨_, by simp, _, rfl⟩

/-- An abort leaves the mailboxes. -/
theorem mbox_abortGang (s : State) (berth reason : Nat) : (s.abortGang berth reason).pilot.mbox = s.pilot.mbox := by
  rcases hg : s.gang berth with _ | g
  · simp only [State.abortGang, hg]
  · obtain ⟨x, hx, fl, h⟩ := abortGang_of_gang (reason := reason) hg
    have hp : x.pilot = s.pilot := (pilot_of_besidesRecords hx).trans ((pilot_freeGang _ g).trans (pilot_flushGang s g))
    rw [h, ← hp]
    rfl

/-- An abort ends the gang of its berth. -/
theorem aborted_abortGang {s : State} {berth : Nat} {g : Gang} (reason : Nat) (hg : s.gang berth = some g) :
    Claims.Aborted g reason (s.abortGang berth reason) := by
  obtain rfl : g.berth = berth := by simpa using List.find?_some hg
  obtain ⟨x, hx, fl, h⟩ := abortGang_of_gang (reason := reason) hg
  have hgangs : (s.abortGang g.berth reason).gangs = ((s.flushGang g).freeGang g).gangs := by rw [h, ← gangs_of_besidesRecords hx]; rfl
  have hcores : (s.abortGang g.berth reason).cores = ((s.flushGang g).freeGang g).cores := by rw [h, ← cores_of_besidesRecords hx]; rfl
  have hbind : (s.abortGang g.berth reason).bind g.berth =
      { x.bind g.berth with state := 3, reason := BitVec.ofNat 8 reason, cflags := BitVec.ofNat 8 fl, end_ := 1 } := by
    rw [h]; exact State.bind_modBind ..
  refine ⟨?_, by rw [hbind], by rw [hbind], by rw [hbind], fun k hk => ?_⟩
  · rw [State.gang, hgangs]; exact gang_freeGang _ g
  · obtain ⟨c, hc⟩ := core_freeGang (s := s.flushGang g) hk
    have : (s.abortGang g.berth reason).core k = c.leave := by rw [State.core, hcores]; exact hc
    rw [this]
    refine ⟨rfl, rfl, rfl, rfl, fun d hd => ?_, rfl⟩
    obtain ⟨e, -, rfl⟩ := List.mem_map.1 hd
    rfl

end Sys2Proof.Machine

namespace Sys2Proof.Machine

/-! ## Apertures (R64) -/

/-- A word of an aperture after a write of one. -/
theorem aperWord_writeAper_same {s : State} {n k : Nat} {v : Word} (h : aperBad k v = false) :
    (s.writeAper n k v).aperWord n k = v &&& aperMask k := by
  simp [State.writeAper, h, State.aperWord]
theorem aperWord_writeAper_other {s : State} {n k m j : Nat} {v : Word} (h : m ≠ n ∨ j ≠ k) :
    (s.writeAper n k v).aperWord m j = s.aperWord m j := by
  unfold State.writeAper
  split_ifs
  · rfl
  · by_cases hm : m = n
    · subst hm
      simp only [State.aperWord, lget_lmod_same]
      exact lget_lput_other _ _ _ _ _ (h.resolve_left (not_not.2 rfl))
    · simp only [State.aperWord, lget_lmod_other _ _ _ _ _ hm]

/-- A write of an aperture changes the aperture table alone. -/
theorem writeAper_rest (s : State) (n k : Nat) (v : Word) : s.writeAper n k v = { s with apers := (s.writeAper n k v).apers } := by
  unfold State.writeAper; split_ifs <;> rfl

/-- Memory does not lie in the aperture table. -/
theorem sameMemory_apers (s : State) (l : List (List Word)) : SameMemory s { s with apers := l } :=
  ⟨fun _ _ h => by simp [State.gByte, h], fun _ => rfl, rfl, fun _ _ => rfl, fun _ _ => rfl⟩

/-- A reserved KIND or BFMT (R64). -/
theorem aperBad_iff (k : Nat) (v : Word) : aperBad k v = true ↔ k = 0 ∧ (v.extractLsb' 61 2 = 3 ∨ v.extractLsb' 57 2 = 3) := by
  simp [aperBad]

theorem apertureWrites : Claims.ApertureWrites := by
  intro s n k v bad
  have hbad : bad ↔ aperBad k.toNat v = true := by
    rw [aperBad_iff, show k.toNat = 0 ↔ k = 0 from (BitVec.toNat_inj (y := 0)).trans Iff.rfl]
  refine ⟨fun h => ?_, fun h => ⟨s.writeAper n.toNat k.toNat v, rfl, ?_, fun m j hj => aperWord_writeAper_other hj, ?_, ?_⟩⟩
  · show ok _ = _
    rw [State.writeAper, if_pos (hbad.1 h)]; rfl
  · exact aperWord_writeAper_same (Bool.eq_false_iff.2 fun hb => h (hbad.2 hb))
  · rw [writeAper_rest]
  · rw [writeAper_rest]; exact sameMemory_apers ..

/-! ## The device register space (R390, R391) -/

section Regs
variable {s : State} {who : Party} {off : Nat} {v : Word}

/-- A write in the space, and of a core's system register, which an offset beyond the space names (log 96). -/
theorem exec_registerWrite (h : off < 0x4000000) : exec (.registerWrite who off v) s = .next (s.writeReg who off v) := by
  show execRegisterWrite .. = _
  rw [execRegisterWrite, if_neg (by simp only [coreReg]; omega), ok]
theorem exec_registerWrite_core {k n : Nat} (h : n < 0x1000) :
    exec (.registerWrite who (coreReg k n) v) s = .next (s.writeCoreReg who k n v) := by
  show execRegisterWrite .. = _
  rw [execRegisterWrite, if_pos (by simp only [coreReg]; omega), ok]
  congr 2 <;> simp only [coreReg] <;> omega

/-- A part in recovery takes no write (R425). -/
theorem writeReg_recovery (h : s.fleet.recovery = true) : s.writeReg who off v = s := by rw [State.writeReg, if_pos h]

/-- An offset at which an access of a register may be made (R12, R384). -/
def Aligned (off : Nat) : Prop := off % 8 = 0 ∨ (0x10080 ≤ off ∧ off < 0x100C0 ∧ off % 4 = 0)

/-- The test that a write of an offset makes (log 22). -/
theorem misaligned_iff (off : Nat) :
    (off % 8 != 0 && !(decide (0x10080 ≤ off) && decide (off < 0x100C0) && decide (off % 4 = 0))) = true ↔ ¬ Aligned off := by
  simp only [Aligned, Bool.and_eq_true, bne_iff_ne, Bool.not_eq_true', Bool.and_eq_false_iff, decide_eq_false_iff_not]
  omega

theorem writeReg_misaligned (h : ¬ Aligned off) : s.writeReg who off v = s := by
  rw [State.writeReg, if_pos ((misaligned_iff off).2 h), ite_self]

/-- A write that the space takes goes to the block at its offset. -/
theorem writeReg_sched (hr : s.fleet.recovery = false) (ha : Aligned off) (h : 0x10000 ≤ off ∧ off < 0x20000) :
    s.writeReg who off v = s.writeSchedBlock who (off - 0x10000) v := by
  rw [State.writeReg, if_neg (by simp [hr]), if_neg (mt (misaligned_iff off).1 (not_not.2 ha))]
  simp (disch := omega) only [Bool.and_eq_true, decide_eq_true_eq, if_neg, if_pos]
theorem writeReg_window (hr : s.fleet.recovery = false) (ha : Aligned off) (h : 0x30000 ≤ off ∧ off < 0x31000) :
    s.writeReg who off v = if who = .pilot then s.writeWindow (off - 0x30000) v else s := by
  rw [State.writeReg, if_neg (by simp [hr]), if_neg (mt (misaligned_iff off).1 (not_not.2 ha))]
  simp (disch := omega) only [Bool.and_eq_true, decide_eq_true_eq, if_neg, if_pos]
theorem writeReg_coreBlock (hr : s.fleet.recovery = false) (ha : Aligned off) (h : 0x40000 ≤ off ∧ off < 0x41800) : s.writeReg who off v =
    if who = .pilot ∧ off % 256 = 8 then s.writeFresp ((off - 0x40000) / 256) (v.toNat % 8) else s := by
  rw [State.writeReg, if_neg (by simp [hr]), if_neg (mt (misaligned_iff off).1 (not_not.2 ha))]
  simp (disch := omega) only [Bool.and_eq_true, decide_eq_true_eq, if_neg, if_pos]
theorem writeReg_pilotControl (hr : s.fleet.recovery = false) (ha : Aligned off) (h : 0x50000 ≤ off ∧ off < 0x50060) : s.writeReg who off v =
    if 0x50040 ≤ off ∧ who = .pilot then s.writeSigset ((off - 0x50040) / 8) v else s := by
  rw [State.writeReg, if_neg (by simp [hr]), if_neg (mt (misaligned_iff off).1 (not_not.2 ha))]
  by_cases hs : 0x50040 ≤ off
  · simp (disch := omega) only [Bool.and_eq_true, decide_eq_true_eq, if_neg, if_pos, hs, true_and]
  · simp (disch := omega) only [Bool.and_eq_true, decide_eq_true_eq, if_neg, if_false, hs, false_and]

/-- Nobody but the Pilot firmware writes the scheduler's registers, the windows, the core control blocks and Pilot control (R362, R391). -/
theorem writeReg_of_not_pilot (hw : who ≠ .pilot) (h : (0x10000 ≤ off ∧ off < 0x14000) ∨ (0x30000 ≤ off ∧ off < 0x31000) ∨
    (0x40000 ≤ off ∧ off < 0x41800) ∨ (0x50000 ≤ off ∧ off < 0x50060)) : s.writeReg who off v = s := by
  by_cases ha : Aligned off
  case neg => exact writeReg_misaligned ha
  by_cases hr : s.fleet.recovery = true
  case pos => exact writeReg_recovery hr
  rw [Bool.not_eq_true] at hr
  rcases h with h | h | h | h
  · rw [writeReg_sched hr ha (by omega), State.writeSchedBlock, if_neg (by simp; omega), if_pos (by simpa using hw)]
  · rw [writeReg_window hr ha h, if_neg hw]
  · rw [writeReg_coreBlock hr ha h, if_neg fun hp => hw hp.1]
  · rw [writeReg_pilotControl hr ha h, if_neg fun hp => hw hp.2]

end Regs

/-! ## The scheduler block (R362, R377, R384, R385) -/

/-- A bit of a set to which some members have been added. -/
theorem getLsbD_foldl_or {p : Nat → Bool} {c : Nat} (hc : c < 4) (l : List Nat) (m : BitVec 4) :
    (l.foldl (fun m d => if p d then m ||| BitVec.ofNat 4 (2 ^ d) else m) m).getLsbD c = (m.getLsbD c || (l.contains c && p c)) := by
  induction l generalizing m with
  | nil => simp
  | cons d r ih =>
    have hbit : (BitVec.ofNat 4 (2 ^ d)).getLsbD c = decide (c = d) := by
      simp only [BitVec.getLsbD_ofNat, Nat.testBit_two_pow, hc, decide_true, Bool.true_and, eq_comm]
    have hstep : (if p d then m ||| BitVec.ofNat 4 (2 ^ d) else m).getLsbD c = (m.getLsbD c || (decide (c = d) && p d)) := by
      cases p d <;> simp only [if_true, Bool.false_eq_true, if_false, BitVec.getLsbD_or, hbit, Bool.and_true, Bool.and_false, Bool.or_false]
    rw [List.foldl_cons, ih, hstep]
    by_cases hd : c = d
    · subst hd; cases p c <;> simp
    · simp [hd]

/-- SLICECLAMP after a look at the slices: set for a class whose slice is too short (R385). -/
theorem clamp_noteClamp {x : Sched} {c : Nat} (hc : c < 4) (h : x.shortSlice c = true) : x.noteClamp.clamp.getLsbD c = true := by
  rw [Sched.noteClamp, getLsbD_foldl_or hc, h]
  simp [hc]

/-- What the Pilot firmware writes in the scheduler block (R362). -/
theorem writeReg_schedBlock {s : State} {o : Nat} {v : Word} (hr : s.fleet.recovery = false) (ha : Aligned (0x10000 + o)) (h : o < 0x100) :
    s.writeReg .pilot (0x10000 + o) v = s.writeSched o v := by
  rw [writeReg_sched hr ha (by omega), Nat.add_sub_cancel_left, State.writeSchedBlock, if_neg (by simp; omega), if_neg (by decide), if_pos h]

theorem writeSched_slice {s : State} {c : Nat} {v : Word} (hc : c < 4) : s.writeSched (8 * c) v =
    s.modSched fun x => ({ x.noteClamp with slice := lput x.slice c (v.setWidth 32) 0 } : Sched).noteClamp := by
  rw [State.writeSched, if_pos (by omega), Nat.mul_div_cancel_left _ (by decide)]; rfl
theorem writeSched_rankprog {s : State} {j : Nat} {v : Word} (hj : j < 16) : s.writeSched (0x80 + 4 * j) v =
    s.modRank fun r => { r with staged := lput r.staged j (v.setWidth 32) 0 } := by
  have hi : (0x80 + 4 * j - 0x80) / 4 = j := by omega
  simp (disch := omega) only [State.writeSched, Bool.and_eq_true, decide_eq_true_eq, if_neg, if_pos, hi]

/-- SLICE after its write, and SLICECLAMP when it is too short (R384, R385). -/
theorem slice_writeSched {s : State} {c : Nat} {v : Word} (hc : c < 4) : lget (s.writeSched (8 * c) v).sched.slice c 0 = v.setWidth 32 ∧
    (v.toNat % 2 ^ 32 < 2 * s.sched.savecost.toNat → (s.writeSched (8 * c) v).sched.clamp.getLsbD c = true) := by
  rw [writeSched_slice hc]
  refine ⟨lget_lput_same .., fun h => clamp_noteClamp hc ?_⟩
  simp only [Sched.shortSlice, lget_lput_same, decide_eq_true_eq, BitVec.toNat_setWidth]
  exact h

/-- A group's entry is written as GROUP_TABLE_WRITE writes it (R377). -/
theorem writeReg_group {s : State} {n : Nat} {v : Word} (hr : s.fleet.recovery = false) (hn : n < 256) :
    s.writeReg .pilot (0x10100 + 8 * n) v = s.writeGroup n v := by
  have hi : (0x10100 + 8 * n - 0x10000 - 0x100) / 8 = n := by omega
  rw [writeReg_sched hr (.inl (by omega)) (by omega), State.writeSchedBlock, if_neg (by simp; omega), if_neg (by decide), if_neg (by omega),
    if_pos (by omega), hi]
theorem exec_groupTableWrite {s : State} {n : Nat} {v : Word} (hn : n < 256) :
    exec (.groupTableWrite .pilot n v) s = .next (s.writeGroup n v) := by
  show execGroupTableWrite .. = _
  rw [execGroupTableWrite, if_pos (by simpa using hn), ok]

/-- Who may write a queue's context (R362). -/
theorem mayWrite_iff (q : Queue) (who : Party) : q.mayWrite who = true ↔ Claims.MayWrite q who := by
  cases who <;> simp [Queue.mayWrite, Claims.MayWrite]

/-- Word 5 of a queue's context: its policy (R363). -/
theorem writeReg_policy {s : State} {who : Party} {n : Nat} {v : Word} (hr : s.fleet.recovery = false) (hn : n < 256)
    (hw : Claims.MayWrite (s.queue n) who) : s.writeReg who (0x14000 + 128 * n + 40) v = s.modQueue n fun q => q.writeFields 5 v := by
  have hi : (0x14000 + 128 * n + 40 - 0x10000 - 0x4000) / 128 = n := by omega
  have hk : (0x14000 + 128 * n + 40 - 0x10000) % 128 / 8 = 5 := by omega
  rw [writeReg_sched hr (.inl (by omega)) (by omega), State.writeSchedBlock, if_pos (by simp; omega), hi, hk, State.writeQueue,
    if_neg (by simp [(mayWrite_iff _ _).2 hw])]
  rfl

/-! ## Pilot control (R397) -/

/-- SIGSET reads, to the Pilot firmware, the signals that it can set (R397). -/
theorem readReg_sigset {s : State} {who : Party} {k : Nat} (hr : s.fleet.recovery = false) (hk : k < 4) :
    s.readReg who (0x50040 + 8 * k) = if who = .pilot then s.sigpend k &&& 0xFF000000 else 0 := by
  have hi : (0x50040 + 8 * k - 0x50040) / 8 = k := by omega
  simp (disch := omega) only [State.readReg, hr, Bool.false_eq_true, Bool.and_eq_true, decide_eq_true_eq, if_neg, if_pos, if_false, hi]

/-- SIGSET sets them (R397). -/
theorem writeReg_sigset {s : State} {k : Nat} {v : Word} (hr : s.fleet.recovery = false) (hk : k < 4) :
    s.writeReg .pilot (0x50040 + 8 * k) v = s.writeSigset k v := by
  have hi : (0x50040 + 8 * k - 0x50040) / 8 = k := by omega
  rw [writeReg_pilotControl hr (.inl (by omega)) (by omega), if_pos ⟨by omega, rfl⟩, hi]

/-! ## System registers of a core, written from outside (R11, R392; log 96) -/

section CoreReg
variable {s : State} {k n : Nat} {v : Word}

theorem writeCoreReg_outside {who : Party} (h : who = .host ∨ who = .external) : s.writeCoreReg who k n v = s := by
  rcases h with rfl | rfl <;> simp [State.writeCoreReg]
theorem writeCoreReg_timetable (hk : k < 24) (hn : ¬ (0x031 ≤ n ∧ n < 0x035)) :
    s.writeCoreReg .timetable k n v = if 0x080 ≤ n ∧ n < 0x0C0 then s else s.modCore k fun c => c.sysWrite n v := by
  simp [State.writeCoreReg, Nat.not_le.2 hk, hn]
theorem writeCoreReg_pilot (hk : k < 24) (hn : n < 0x031) : s.writeCoreReg .pilot k n v = s.modCore k fun c => c.prwWrite n v := by
  simp [State.writeCoreReg, Nat.not_le.2 hk, Nat.not_le.2 hn, show ¬ 0x080 ≤ n by omega]

/-- The Pilot firmware's write of a core's register, whose number lies below those of the layer slots. -/
theorem exec_prwWrite (hk : k < 24) (hn : n < 0x031) :
    ∃ t, exec (.registerWrite .pilot (coreReg k n) v) s = .next t ∧ t.core k = (s.core k).prwWrite n v :=
  ⟨_, exec_registerWrite_core (by omega), by rw [writeCoreReg_pilot hk hn]; exact State.core_modCore ..⟩

end CoreReg

theorem registerWrites : Claims.RegisterWrites := by
  intro s who off v
  refine ⟨fun hr h => ?recovery, fun ha h => ?misaligned, fun k n hk hn => ⟨fun hw => ?outside, fun hs => ?timetable, ?pdl, ?retrymax, ?ckmin, ?errinj⟩,
    fun hr k hk => readReg_sigset hr hk, fun hw h => ?others,
    fun hr => ⟨fun c hc => ?slice, ?savecost, ?vnow, ?classen, ?failed, fun j hj => ?rankprog, fun n hn => ?group, fun n hn hw => ?policy, ?window,
      fun k hk => ?sigset⟩⟩
  case recovery => rw [exec_registerWrite h, writeReg_recovery hr]
  case misaligned => rw [exec_registerWrite h, writeReg_misaligned (by unfold Aligned; omega)]
  case outside => rw [exec_registerWrite_core hn, writeCoreReg_outside hw]
  case timetable => rw [exec_registerWrite_core hn, writeCoreReg_timetable hk hs]
  case pdl => obtain ⟨t, ht, hc⟩ := exec_prwWrite (n := 0x006) hk (by decide); exact ⟨t, ht, by rw [hc]; rfl⟩
  case retrymax => obtain ⟨t, ht, hc⟩ := exec_prwWrite (n := 0x007) hk (by decide); exact ⟨t, ht, by rw [hc]; rfl⟩
  case ckmin => obtain ⟨t, ht, hc⟩ := exec_prwWrite (n := 0x011) hk (by decide); exact ⟨t, ht, by rw [hc]; rfl⟩
  case errinj => obtain ⟨t, ht, hc⟩ := exec_prwWrite (n := 0x013) hk (by decide); exact ⟨t, ht, by rw [hc]; rfl⟩
  case others => rw [exec_registerWrite (by omega), writeReg_of_not_pilot hw h]
  case slice =>
    refine ⟨_, exec_registerWrite (by omega), ?_⟩
    rw [writeReg_schedBlock hr (.inl (by omega)) (by omega)]
    exact slice_writeSched hc
  case savecost => exact ⟨_, exec_registerWrite (by decide), by rw [writeReg_schedBlock (o := 0x48) hr (.inl rfl) (by decide)]; rfl⟩
  case vnow => exact ⟨_, exec_registerWrite (by decide), by rw [writeReg_schedBlock (o := 0x58) hr (.inl rfl) (by decide)]; rfl⟩
  case classen => exact ⟨_, exec_registerWrite (by decide), by rw [writeReg_schedBlock (o := 0x60) hr (.inl rfl) (by decide)]; rfl⟩
  case failed => exact ⟨_, exec_registerWrite (by decide), by rw [writeReg_schedBlock (o := 0xC0) hr (.inl rfl) (by decide)]; rfl⟩
  case rankprog =>
    refine ⟨_, exec_registerWrite (by omega), ?_⟩
    rw [show 0x10080 + 4 * j = 0x10000 + (0x80 + 4 * j) by omega, writeReg_schedBlock hr (.inr (by omega)) (by omega), writeSched_rankprog hj]
    exact ⟨lget_lput_same .., rfl⟩
  case group => rw [exec_registerWrite (by omega), writeReg_group hr hn, exec_groupTableWrite hn]
  case policy =>
    refine ⟨_, exec_registerWrite (by omega), ?_⟩
    rw [writeReg_policy hr hn hw]
    simp only [State.queue, State.modQueue, lget_lmod_same]
    exact ⟨rfl, rfl, rfl, rfl⟩
  case window => exact ⟨_, exec_registerWrite (by decide), by rw [writeReg_window hr (.inl rfl) (by decide)]; rfl⟩
  case sigset =>
    refine ⟨_, exec_registerWrite (by omega), ?_⟩
    rw [writeReg_sigset hr hk]
    simp only [State.pcore, State.writeSigset, State.modPcore, lget_lmod_same]

/-! ## XTSCAP and the decoder engines (R412, R413, R425) -/

theorem crossTimestamps : Claims.CrossTimestamps := by
  refine fun s => ⟨fun hr hw => ⟨s.capture, ?_, rfl, ?_, rfl, rfl⟩, fun h => ?_⟩
  · show execXtscap s = _
    rw [execXtscap, if_pos (by simpa [ethOwner, hr] using hw), ok]
  · show word _ = word _
    rw [at_, Nat.mul_comm]
  · show execXtscap s = _
    rw [execXtscap, if_neg, ok]
    rcases h with h | h | h <;> simp [ethOwner, h]

/-- A decoder engine after it, or another, has been changed. -/
@[simp] theorem dec_modDec (s : State) (e : Nat) (f : DecEng → DecEng) : (s.modDec e f).dec e = f (s.dec e) := lget_lmod_same ..
theorem dec_modDec_other {s : State} {d e : Nat} {f : DecEng → DecEng} (h : d ≠ e) : (s.modDec e f).dec d = s.dec d := lget_lmod_other _ _ _ _ _ h
/-- RUN written, and the engine's next look at its ring (R413). -/
theorem dec_decRun (s : State) (e : Nat) (run : Bool) :
    (s.decRun e run).dec e = { s.dec e with run := run, due := s.tide + Config.freeNat s.free } := dec_modDec ..

theorem decoderRegisters : Claims.DecoderRegisters := by
  intro s e v run
  constructor
  · intro h
    have hc : ¬ (decide (e < 16) && !s.fleet.recovery) = true := by
      rcases h with h | h <;> simp [h]
    exact ⟨(if_neg hc : execDecoderTail e v s = _), (if_neg hc : execDecoderRun e run s = _)⟩
  · intro he hr
    have hc : (decide (e < 16) && !s.fleet.recovery) = true := by simp [he, hr]
    refine ⟨⟨_, (if_pos hc : execDecoderTail e v s = _), dec_modDec .., fun d hd => dec_modDec_other hd⟩,
      ⟨_, (if_pos hc : execDecoderRun e run s = _), ?_, ?_, ?_, fun d hd => dec_modDec_other hd⟩⟩
    all_goals rw [dec_decRun]

end Sys2Proof.Machine

namespace Sys2Proof.Machine

/-! ## Mailboxes (R400) -/

/-- A list padded with an element of its own choice. -/
theorem lget_lput_pad_same {α : Type} (l : List α) (i : Nat) (v d d' : α) : lget (lput l i v d') i d = v := by
  induction l generalizing i with
  | nil => induction i with
    | zero => rfl
    | succ n ih => exact ih
  | cons x r ih => cases i with
    | zero => rfl
    | succ n => exact ih n

theorem lget_lput_pad_other {α : Type} {l : List α} {i j : Nat} {v d d' : α} (h : j ≠ i) (hd : l.length < i → d' = d) :
    lget (lput l i v d') j d = lget l j d := by
  induction l generalizing i j with
  | nil => cases i with
    | zero => cases j with
      | zero => exact absurd rfl h
      | succ j => rfl
    | succ i => rw [hd (Nat.succ_pos i)]; exact lget_lput_other _ _ _ _ _ h
  | cons x r ih => cases i with
    | zero => cases j with
      | zero => exact absurd rfl h
      | succ j => rfl
    | succ i => cases j with
      | zero => rfl
      | succ j => exact ih (by omega) fun hl => hd (Nat.succ_lt_succ hl)

/-- A mailbox after it, or another one of the 16, has been changed. -/
@[simp] theorem mbox_modMbox (s : State) (m : Nat) (f : Mailbox → Mailbox) : (s.modMbox m f).mbox m = f (s.mbox m) := lget_lput_pad_same ..
theorem mbox_modMbox_other {s : State} {m n : Nat} {f : Mailbox → Mailbox} (h : n ≠ m) (hm : m < 16) : (s.modMbox m f).mbox n = s.mbox n := by
  refine lget_lput_pad_other h fun hl => ?_
  rw [State.mbox, lget_eq_getD]
  exact List.getD_eq_default _ _ (by omega)

/-- The mailboxes are those of the Pilot complex. -/
theorem mbox_congr {s t : State} (h : t.pilot.mbox = s.pilot.mbox) (m : Nat) : t.mbox m = s.mbox m := by rw [State.mbox, State.mbox, h]
@[simp] theorem mbox_signal (s : State) (m bit : Nat) : (s.signal bit).mbox m = s.mbox m := rfl

theorem mailboxDoorbells : Claims.MailboxDoorbells := by
  intro s m mine
  have hmine : mine ↔ (decide (m < 16) && !s.fleet.recovery && decide (s.cur.who = (s.mbox m).party)) = true := by
    simp only [Bool.and_eq_true, decide_eq_true_eq, Bool.not_eq_true', and_assoc]
    exact and_left_comm
  have hexec : exec .doorbell s = .next (if mine then s.ring m else s) := by
    show execDoorbell s = _
    by_cases h : mine
    · rw [execDoorbell, if_pos (hmine.1 h), if_pos h, ok]
    · rw [execDoorbell, if_neg (mt hmine.2 h), if_neg h, ok]
  refine ⟨fun h => ?_, fun h hd => ⟨s.ring m, by rw [hexec, if_pos h], ?_⟩⟩
  · rw [hexec]
    by_cases hm : mine
    · rw [if_pos hm, State.ring, if_pos (h.resolve_left (not_not.2 hm))]
    · rw [if_neg hm]
  · rw [State.ring, if_neg (by simp [hd])]
    simp only [mbox_signal]
    exact ⟨mbox_modMbox .., fun n hn _ => mbox_modMbox_other hn h.2.1, rfl⟩

/-! ## Responses (R401) -/

section Response
variable {req : List Byte} {st : Nat} {data : List Byte} (h : 4 ≤ req.length)
include h

theorem length_tag : ((req.drop 2).take 2).length = 2 := by rw [List.length_take, List.length_drop]; omega

/-- A response: TAG, STATUS, RES0, and 56 bytes of data. -/
theorem response_eq (st : Nat) (data : List Byte) :
    response req st data = (req.drop 2).take 2 ++ (leBytes 2 st ++ (leBytes 4 0 ++ (data ++ List.replicate 64 0).take 56)) := by
  simp only [response, List.append_assoc]
  rw [List.take_append, List.take_append, List.take_append, length_tag h, length_leBytes, length_leBytes,
    List.take_of_length_le (by rw [length_tag h]; decide), List.take_of_length_le (l := leBytes 2 st) (by simp),
    List.take_of_length_le (l := leBytes 4 0) (by simp)]

theorem length_response : (response req st data).length = 64 := by
  simp [response_eq h st data, length_tag h]
theorem response_tag : bnat (response req st data) 0 2 = bnat req 2 2 := by
  rw [response_eq h st data, bnat, List.drop_zero, List.take_left' (length_tag h)]; rfl
theorem response_status (hst : st < 65536) : bnat (response req st data) 2 2 = st := by
  rw [response_eq h st data, bnat, List.drop_left' (length_tag h), List.take_left' (length_leBytes 2 st), leNat_leBytes]
  exact Nat.mod_eq_of_lt hst
theorem response_res0 : bnat (response req st data) 4 4 = 0 := by
  rw [response_eq h st data, bnat, ← List.append_assoc, List.drop_left' (by simp [length_tag h]), List.take_left' (length_leBytes 4 0)]; rfl
theorem drop_response (hd : data.length = 56) : (response req st data).drop 8 = data := by
  rw [response_eq h st data, ← List.append_assoc, ← List.append_assoc, List.drop_left' (by simp [length_tag h]), List.take_left' hd]

end Response

/-- A mailbox whose response has been written. -/
theorem mbox_respond (s : State) (m st : Nat) (data : List Byte) :
    (s.respond m st data).mbox m = { s.mbox m with resp := response (s.mbox m).req st data } := lget_lput_pad_same ..

/-- What `respond` writes is an answer to the request that it finds. -/
theorem answered_respond {s x : State} {st : Nat} {data : List Byte} (hst : st < 65536) (hl : (s.mbox s.cur.arg).req.length = 64)
    (hx : (x.mbox s.cur.arg).req = (s.mbox s.cur.arg).req) : Claims.Answered s (x.respond s.cur.arg st data) st := by
  have h4 : 4 ≤ (s.mbox s.cur.arg).req.length := by omega
  unfold Claims.Answered
  simp only [mbox_respond, hx]
  exact ⟨length_response h4, response_tag h4, response_status h4 hst, response_res0 h4, List.mem_append_right _ (List.mem_singleton_self _), trivial⟩

/-! ## How a command is served (R400, R401) -/

/-- The mailbox of the step holds a request that is being served. -/
theorem serving_iff (s : State) (m : Nat) :
    s.serving m = true ↔ (s.mbox m).busy = true ∧ m ∉ s.pilot.fw.serving ∧ s.fleet.test.mbox ≠ some m := by
  simp [State.serving, and_assoc]

/-- R400, R401: what an arm that serves OPC `opc` answers when there is no such request, and when it was written over. -/
def Serves (s : State) (opc : Nat) (r : Res) : Prop :=
  let m := s.cur.arg
  ((s.mbox m).busy = false ∨ m ∈ s.pilot.fw.serving ∨ s.fleet.test.mbox = some m ∨ bnat (s.mbox m).req 0 2 ≠ opc → r = .next s) ∧
  ((s.mbox m).busy = true → m ∉ s.pilot.fw.serving → s.fleet.test.mbox ≠ some m → bnat (s.mbox m).req 0 2 = opc → (s.mbox m).clash = true →
    (s.mbox m).req.length = 64 → ∃ t, r = .next t ∧ Claims.Answered s t 3 ∧ t.sched = s.sched ∧ t.io = s.io ∧ t.cores = s.cores)

/-- The request is one that the arm serves. -/
theorem serves_guard {s : State} {opc : Nat} (hb : (s.mbox s.cur.arg).busy = true) (hs : s.cur.arg ∉ s.pilot.fw.serving)
    (ht : s.fleet.test.mbox ≠ some s.cur.arg) (ho : bnat (s.mbox s.cur.arg).req 0 2 = opc) :
    ¬ (!s.serving s.cur.arg || s.opcOf s.cur.arg != opc) = true := by
  simp [(serving_iff s _).2 ⟨hb, hs, ht⟩, State.opcOf, ho]

/-- An arm that leaves a mailbox without its request, and answers status 3 to one that was written over, serves its OPC. -/
theorem serves_of {s : State} {opc : Nat} {r r' : Res}
    (h : r = if !s.serving s.cur.arg || s.opcOf s.cur.arg != opc then ok s else if (s.mbox s.cur.arg).clash then ok (s.respond s.cur.arg 3 []) else r') :
    Serves s opc r := by
  refine ⟨fun hn => ?_, fun hb hs ht ho hc hl => ⟨s.respond s.cur.arg 3 [], ?_, answered_respond (by decide) hl rfl, rfl, rfl, rfl⟩⟩
  · rw [h, if_pos, ok]
    simp only [Bool.or_eq_true, Bool.not_eq_true', ← Bool.not_eq_true (s.serving _), serving_iff, bne_iff_ne, State.opcOf]
    rcases hn with hn | hn | hn | hn <;> simp [hn]
  · rw [h, if_neg (serves_guard hb hs ht ho), if_pos hc, ok]

theorem mboxRun_serves (s : State) (opc : Nat) (act : List Byte → State → Nat × List Byte × State) : Serves s opc (mboxRun opc act s) :=
  serves_of rfl

theorem mboxWrite_serves (s : State) (opc : Nat) (good : List Byte → State → Bool) (act : List Byte → State → State) :
    Serves s opc (mboxWrite opc good act s) := mboxRun_serves ..

/-- SELF_TEST answers status 3 while one runs, too (R432). -/
theorem execSelfTest_serves (s : State) : Serves s 8 (execSelfTest s) := by
  refine serves_of (r' := if s.testBusy then ok (s.respond s.cur.arg 3 []) else
    if bnat (s.mbox s.cur.arg).req 8 1 = 0 || 2 < bnat (s.mbox s.cur.arg).req 8 1 then ok (s.respond s.cur.arg 2 [])
    else ok (s.startTest (bnat (s.mbox s.cur.arg).req 8 1) (some s.cur.arg))) ?_
  by_cases hc : (s.mbox s.cur.arg).clash = true
  · simp only [execSelfTest, hc, Bool.true_or, if_true]
  · simp only [execSelfTest, hc, Bool.false_or, Bool.false_eq_true, if_false]

theorem commandsServed : Claims.CommandsServed := by
  intro s opc i h
  simp only [List.mem_cons, List.not_mem_nil, or_false, Prod.mk.injEq] at h
  rcases h with ⟨rfl, rfl⟩ | ⟨rfl, rfl⟩ | ⟨rfl, rfl⟩ | ⟨rfl, rfl⟩ | ⟨rfl, rfl⟩ | ⟨rfl, rfl⟩ | ⟨rfl, rfl⟩ | ⟨rfl, rfl⟩ | ⟨rfl, rfl⟩
  · show Serves s 1 (execGroupSet s); rw [execGroupSet]; exact mboxWrite_serves ..
  · show Serves s 2 (execAperSet s); rw [execAperSet]; exact mboxWrite_serves ..
  · show Serves s 3 (execLayerSet s); rw [execLayerSet]; exact mboxWrite_serves ..
  · show Serves s 4 (execBerthCtl s); rw [execBerthCtl]; exact mboxWrite_serves ..
  · show Serves s 5 (execGrantSet s); rw [execGrantSet]; exact mboxWrite_serves ..
  · show Serves s 6 (execPeerwinSet s); rw [execPeerwinSet]; exact mboxWrite_serves ..
  · show Serves s 7 (execPowerCap s); rw [execPowerCap]; exact mboxWrite_serves ..
  · exact execSelfTest_serves s
  · show Serves s 9 (execRasRead s); rw [execRasRead]; exact mboxRun_serves ..

end Sys2Proof.Machine

namespace Sys2Proof.Machine

/-! ## A command's arguments taken or refused (R401) -/

/-- The request of the step's mailbox. -/
def State.request (s : State) : List Byte := (s.mbox s.cur.arg).req

/-- An answer with status 2, bad argument, that changes nothing but the mailbox. -/
def Refuses (s : State) (r : Res) : Prop :=
  ∃ t, r = .next t ∧ Claims.Answered s t 2 ∧ t.sched = s.sched ∧ t.io = s.io ∧ t.apers = s.apers ∧ t.builders = s.builders ∧ t.gangs = s.gangs ∧
    t.fleet = s.fleet

section Run
variable {s : State} {opc : Nat} (hl : s.request.length = 64) (h : Claims.RequestAt s opc)
include h

theorem mboxRun_act (act : List Byte → State → Nat × List Byte × State) : mboxRun opc act s =
    .next ((act s.request s).2.2.respond s.cur.arg (act s.request s).1 (act s.request s).2.1) := by
  obtain ⟨hb, hs, ht, ho, hc⟩ := h
  rw [mboxRun, if_neg (serves_guard hb hs ht ho), if_neg (by simp [hc])]
  rfl

theorem mboxWrite_good {good : List Byte → State → Bool} {act : List Byte → State → State} (hg : good s.request s = true) :
    mboxWrite opc good act s = .next ((act s.request s).respond s.cur.arg 0 []) := by
  rw [mboxWrite, mboxRun_act h]; simp only [hg, if_true]

include hl

theorem mboxRun_refuses {act : List Byte → State → Nat × List Byte × State} (ha : act s.request s = (2, [], s)) : Refuses s (mboxRun opc act s) :=
  ⟨s.respond s.cur.arg 2 [], by rw [mboxRun_act h, ha], answered_respond (by decide) hl rfl, rfl, rfl, rfl, rfl, rfl, rfl⟩

theorem mboxWrite_refuses {good : List Byte → State → Bool} {act : List Byte → State → State} (hg : good s.request s = false) :
    Refuses s (mboxWrite opc good act s) :=
  mboxRun_refuses hl h (by simp only [hg, Bool.false_eq_true, if_false])

end Run

/-! ## A response written -/

@[simp] theorem sched_respond (s : State) (m st : Nat) (d : List Byte) : (s.respond m st d).sched = s.sched := rfl
@[simp] theorem cores_respond (s : State) (m st : Nat) (d : List Byte) : (s.respond m st d).cores = s.cores := rfl
@[simp] theorem gangs_respond (s : State) (m st : Nat) (d : List Byte) : (s.respond m st d).gangs = s.gangs := rfl
@[simp] theorem io_respond (s : State) (m st : Nat) (d : List Byte) : (s.respond m st d).io = s.io := rfl
@[simp] theorem fleet_respond (s : State) (m st : Nat) (d : List Byte) : (s.respond m st d).fleet = s.fleet := rfl
@[simp] theorem apers_respond (s : State) (m st : Nat) (d : List Byte) : (s.respond m st d).apers = s.apers := rfl
@[simp] theorem builders_respond (s : State) (m st : Nat) (d : List Byte) : (s.respond m st d).builders = s.builders := rfl
theorem aborted_respond {s : State} {g : Gang} {reason m st : Nat} {d : List Byte} (h : Claims.Aborted g reason s) :
    Claims.Aborted g reason (s.respond m st d) := h

/-- A command that leaves the Pilot complex answers status 0 beside its effect. -/
theorem answered_of_pilot {s x : State} (hl : s.request.length = 64) (hp : x.pilot.mbox = s.pilot.mbox) :
    Claims.Answered s (x.respond s.cur.arg 0 []) 0 := answered_respond (by decide) hl (by rw [mbox_congr hp])

/-! ## What the commands write -/

/-- A group's entry that no record names and that puts no core in a fifth takes its value (R377). -/
theorem writeGroup_good {s : State} {g : Nat} {v : Word} (hu : s.groupInUse g = false)
    (hf : s.fifthGroup g (v.getLsbD 63) (v.setWidth 24) = false) :
    s.writeGroup g v = s.modSched fun x => { x with groups := lput x.groups g (v.getLsbD 63, v.setWidth 24) (false, 0) } := by
  simp only [State.writeGroup, hu, hf, Bool.or_self, Bool.false_eq_true, if_false]

/-- Words of an aperture after a run of writes. -/
theorem aperWord_foldl {n : Nat} {v : Nat → Word} (hv : ∀ k, aperBad k (v k) = false) (l : List Nat) (s : State) (k : Nat) :
    (l.foldl (fun s k => s.writeAper n k (v k)) s).aperWord n k = if k ∈ l then v k &&& aperMask k else s.aperWord n k := by
  induction l generalizing s with
  | nil => simp
  | cons j r ih =>
    rw [List.foldl_cons, ih]
    by_cases hr : k ∈ r
    · simp [hr]
    · by_cases hj : k = j
      · subst hj; simp [hr, aperWord_writeAper_same (hv k)]
      · simp [hr, hj, aperWord_writeAper_other (.inr hj)]

theorem pilot_foldl_writeAper (n : Nat) (v : Nat → Word) (l : List Nat) (s : State) :
    (l.foldl (fun s k => s.writeAper n k (v k)) s).pilot = s.pilot :=
  foldl_keeps State.pilot (fun s k => by rw [writeAper_rest]) l s

/-- Word k of slot n of a cluster's builder (R115). -/
def State.slotWord (s : State) (cl n k : Nat) : Word := lget (lget (s.builder cl).slots n []) k 0

/-- The bits of word k of a slot that a write by the Pilot firmware sets: the timetable's, and LOCK (R115, R116). -/
def pilotSlot (k : Nat) (v : Word) : Word := (v &&& slotMask k) ||| (v &&& (if k = 3 then 0x4000000000000000 else 0))

theorem slotWord_slotWrite_same (s : State) (cl n k : Nat) (v : Word) : (s.slotWrite cl n k v true).slotWord cl n k = pilotSlot k v := by
  simp only [State.slotWord, State.builder, State.slotWrite, lget_lmod_same]; rfl
theorem slotWord_slotWrite_other {s : State} {cl n j k : Nat} {v : Word} (h : j ≠ k) :
    (s.slotWrite cl n k v true).slotWord cl n j = s.slotWord cl n j := by
  simp only [State.slotWord, State.builder, State.slotWrite, lget_lmod_same, lget_lmod_other _ _ _ _ _ h]
theorem builder_slotWrite_other {s : State} {cl c n k : Nat} {v : Word} {p : Bool} (h : c ≠ cl) : (s.slotWrite cl n k v p).builder c = s.builder c := by
  simp only [State.builder, State.slotWrite, lget_lmod_other _ _ _ _ _ h]

/-- Words of a slot after a run of writes. -/
theorem slotWord_foldl {cl n : Nat} {v : Nat → Word} (l : List Nat) (s : State) (k : Nat) :
    (l.foldl (fun s k => s.slotWrite cl n k (v k) true) s).slotWord cl n k = if k ∈ l then pilotSlot k (v k) else s.slotWord cl n k := by
  induction l generalizing s with
  | nil => simp
  | cons j r ih =>
    rw [List.foldl_cons, ih]
    by_cases hr : k ∈ r
    · simp [hr]
    · by_cases hj : k = j
      · subst hj; simp [hr, slotWord_slotWrite_same]
      · simp [hr, hj, slotWord_slotWrite_other hj]

section SlotWrites
variable (cl n : Nat) (v : Nat → Word) (l : List Nat) (s : State)

theorem pilot_foldl_slotWrite : (l.foldl (fun s k => s.slotWrite cl n k (v k) true) s).pilot = s.pilot :=
  foldl_keeps State.pilot (fun _ _ => by rfl) l s
theorem sched_foldl_slotWrite : (l.foldl (fun s k => s.slotWrite cl n k (v k) true) s).sched = s.sched :=
  foldl_keeps State.sched (fun _ _ => by rfl) l s
theorem cores_foldl_slotWrite : (l.foldl (fun s k => s.slotWrite cl n k (v k) true) s).cores = s.cores :=
  foldl_keeps State.cores (fun _ _ => by rfl) l s
theorem builder_foldl_slotWrite {c : Nat} (h : c ≠ cl) : (l.foldl (fun s k => s.slotWrite cl n k (v k) true) s).builder c = s.builder c :=
  foldl_keeps (fun s : State => s.builder c) (fun _ _ => builder_slotWrite_other h) l s

end SlotWrites

theorem pilotSlot_of_lt {k : Nat} (hk : k < 3) (v : Word) : pilotSlot k v = v &&& slotMask k := by simp [pilotSlot, hk.ne]

/-- Word 3 with LOCK as a command gives it (R401). -/
theorem pilotSlot_lock (v : Word) (b : Bool) :
    pilotSlot 3 ((v &&& 0xBFFFFFFFFFFFFFFF) ||| (if b then 0x4000000000000000 else 0)) =
      (v &&& 0x8000000000000000) ||| (if b then 0x4000000000000000 else 0) := by
  have hm : slotMask 3 = 0x8000000000000000 := rfl
  cases b <;> simp [pilotSlot, hm, BitVec.and_or_distrib_right, BitVec.and_assoc]

/-- The word that LAYER_SET writes (R401): its argument, with LOCK in word 3 as the command gives it. -/
def layerWord (req : List Byte) (k : Nat) : Word :=
  if k = 3 then (argWord req k &&& 0xBFFFFFFFFFFFFFFF) ||| (if bnat req 10 1 = 1 then 0x4000000000000000 else 0) else argWord req k

/-- Windows after a write of one (R405, R408). -/
theorem grant_writeGrant (s : State) (n k : Nat) (v : Word) :
    lget (s.writeGrant n k v).io.grants n Grant.zero = (lget s.io.grants n Grant.zero).set k v := by
  simp only [State.writeGrant, lget_lmod_same]
theorem grant_writeGrant_other {s : State} {m n k : Nat} {v : Word} (h : m ≠ n) :
    lget (s.writeGrant n k v).io.grants m Grant.zero = lget s.io.grants m Grant.zero := by
  simp only [State.writeGrant, lget_lmod_other _ _ _ _ _ h]
theorem peer_writePeer (s : State) (n k : Nat) (v : Word) :
    lget (s.writePeer n k v).io.peers n PeerWin.zero = (lget s.io.peers n PeerWin.zero).set k v := by
  simp only [State.writePeer, lget_lmod_same]
theorem peer_writePeer_other {s : State} {m n k : Nat} {v : Word} (h : m ≠ n) :
    lget (s.writePeer n k v).io.peers m PeerWin.zero = lget s.io.peers m PeerWin.zero := by
  simp only [State.writePeer, lget_lmod_other _ _ _ _ _ h]

/-- An entry of the RAS log has 64 bytes (R428). -/
theorem length_rasBytes (e : RasEntry) : e.bytes.length = 64 := by
  simp [RasEntry.bytes]

/-- The entry of an index counts as read (R428). -/
def State.markRead (s : State) (i : Nat) : State :=
  { s with fleet := { s.fleet with ras := s.fleet.ras.map fun (x : RasEntry) => if x.seq = i then { x with read := true } else x } }

theorem read_markRead {s : State} {i : Nat} {x : RasEntry} (hx : x ∈ (s.markRead i).fleet.ras) (h : x.seq = i) : x.read = true := by
  obtain ⟨y, -, rfl⟩ := List.mem_map.1 hx
  by_cases hy : y.seq = i
  · simp only [hy, if_true]
  · simp only [hy, if_false] at h

/-! ## Triggers (R378) -/

/-- The triggers of a bind record leave the mailboxes. -/
theorem mbox_triggerOn {act : State → Gang → State} (h : ∀ s g, (act s g).pilot.mbox = s.pilot.mbox) (s : State) :
    (triggerOn act s).pilot.mbox = s.pilot.mbox := by
  unfold triggerOn
  split_ifs
  · rfl
  · split
    · exact h ..
    · rfl

theorem mbox_trigYieldreq (s : State) : s.trigYieldreq.pilot.mbox = s.pilot.mbox :=
  mbox_triggerOn (fun s g => by split_ifs <;> rfl) s
theorem mbox_trigHold (s : State) : s.trigHold.pilot.mbox = s.pilot.mbox :=
  mbox_triggerOn (fun s g => by
    dsimp only
    split
    · simp
    · split_ifs
      · simp
      · split <;> simp
    · split <;> simp) s
theorem mbox_trigRelease (s : State) : s.trigRelease.pilot.mbox = s.pilot.mbox := by
  unfold State.trigRelease; exact mbox_triggerOn (fun _ _ => by rfl) s
theorem mbox_trigAbort (s : State) : s.trigAbort.pilot.mbox = s.pilot.mbox := mbox_triggerOn (fun s g => mbox_abortGang s g.berth 5) s

theorem mbox_writeTriggers (s : State) (v : Word) : (s.writeTriggers v).pilot.mbox = s.pilot.mbox := by
  simp only [State.writeTriggers]
  split_ifs <;> simp only [mbox_trigAbort, mbox_trigRelease, mbox_trigHold, mbox_trigYieldreq]

/-- Word 8 of a bind record is its triggers, which act on its berth. -/
theorem writeBind_triggers (s : State) (berth : Nat) (v : Word) : s.writeBind berth 8 v =
    { ({ s with cur := { s.cur with arg := berth } } : State).writeTriggers v with cur := s.cur } := rfl

theorem mbox_writeBind_triggers (s : State) (berth : Nat) (v : Word) : (s.writeBind berth 8 v).pilot.mbox = s.pilot.mbox := by
  rw [writeBind_triggers]; exact mbox_writeTriggers _ v

/-- The ABORT trigger on a running gang. -/
theorem aborted_writeBind {s : State} {berth : Nat} {g : Gang} (hs : (s.bind berth).state = 2) (hg : s.gang berth = some g) :
    Claims.Aborted g 5 (s.writeBind berth 8 8) := by
  have hb : g.berth = berth := by simpa using List.find?_some hg
  let x : State := { s with cur := { s.cur with arg := berth } }
  have ht : x.writeTriggers 8 = x.abortGang berth 5 := by
    have hx : x.trigAbort = x.abortGang g.berth 5 := by
      have hs' : (x.bind x.cur.arg).state = 2 := hs
      have hg' : x.gang x.cur.arg = some g := hg
      simp only [State.trigAbort, triggerOn, hs', hg', bne_self_eq_false, Bool.false_eq_true, if_false]
    rw [← hb, ← hx]; rfl
  rw [writeBind_triggers, ht]
  exact aborted_abortGang (s := x) 5 hg

end Sys2Proof.Machine

namespace Sys2Proof.Machine

/-! ## Each command (R401) -/

section Commands
variable {s : State} (hl : s.request.length = 64)
include hl

theorem groupSet_acts (h : Claims.RequestAt s 1) :
    let a := bnat s.request 8 1
    let v := argWord s.request 0
    (bnat s.request 9 7 ≠ 0 → Refuses s (execGroupSet s)) ∧
    (bnat s.request 9 7 = 0 → s.groupInUse a = false → s.fifthGroup a (v.getLsbD 63) (v.setWidth 24) = false →
      ∃ t, execGroupSet s = .next t ∧ Claims.Answered s t 0 ∧ t.group a = (v.getLsbD 63, v.setWidth 24)) := by
  refine ⟨fun h9 => mboxWrite_refuses hl h (by simp [h9]), fun h9 hu hf => ⟨_, mboxWrite_good h (by simp only [h9, hu, hf]; rfl), ?_, ?_⟩⟩
  · exact answered_of_pilot hl (by rw [writeGroup_good hu hf]; rfl)
  · rw [writeGroup_good hu hf]; exact lget_lput_same ..

theorem aperSet_acts (h : Claims.RequestAt s 2) :
    let a := bnat s.request 8 1
    let good : Prop := a < 16 ∧ bnat s.request 9 7 = 0 ∧ (argWord s.request 0).extractLsb' 61 2 ≠ 3 ∧ (argWord s.request 0).extractLsb' 57 2 ≠ 3
    (¬ good → Refuses s (execAperSet s)) ∧
    (good → ∃ t, execAperSet s = .next t ∧ Claims.Answered s t 0 ∧
      ∀ k, k < 4 → lget (lget t.apers a []) k 0 = argWord s.request k &&& aperMask k) := by
  intro a good
  have hgood : (decide (a < 16) && decide (bnat s.request 9 7 = 0) && !aperBad 0 (argWord s.request 0)) = true ↔ good := by
    simp [good, ← Bool.not_eq_true (aperBad _ _), aperBad_iff, and_assoc]
  refine ⟨fun hn => mboxWrite_refuses hl h (Bool.eq_false_iff.2 (mt hgood.1 hn)), fun hg => ⟨_, mboxWrite_good h (hgood.2 hg), ?_, fun k hk => ?_⟩⟩
  · exact answered_of_pilot hl (by rw [pilot_foldl_writeAper])
  · have hbad : ∀ k, aperBad k (argWord s.request k) = false := fun k => by
      rw [← Bool.not_eq_true, aperBad_iff]
      rintro ⟨rfl, hb⟩
      exact hb.elim hg.2.2.1 hg.2.2.2
    rw [apers_respond]
    exact (aperWord_foldl hbad (List.range 4) s k).trans (if_pos (List.mem_range.2 hk))

theorem layerSet_acts (h : Claims.RequestAt s 3) :
    let a := bnat s.request 8 1
    let good : Prop := a < 6 ∧ bnat s.request 9 1 < 64 ∧ bnat s.request 10 1 < 2 ∧ bnat s.request 11 5 = 0
    (¬ good → Refuses s (execLayerSet s)) ∧
    (good → ∃ t, execLayerSet s = .next t ∧ Claims.Answered s t 0 ∧ t.sched = s.sched ∧ t.cores = s.cores ∧
      (∀ c, c ≠ a → t.builder c = s.builder c) ∧
      (∀ k, k < 3 → t.slotWord a (bnat s.request 9 1) k = argWord s.request k &&& slotMask k) ∧
      t.slotWord a (bnat s.request 9 1) 3 =
        (argWord s.request 3 &&& 0x8000000000000000) ||| (if bnat s.request 10 1 = 1 then 0x4000000000000000 else 0)) := by
  intro a good
  have hgood : (decide (a < 6) && decide (bnat s.request 9 1 < 64) && decide (bnat s.request 10 1 < 2) && decide (bnat s.request 11 5 = 0)) = true ↔
      good := by simp [good, and_assoc]
  refine ⟨fun hn => mboxWrite_refuses hl h (Bool.eq_false_iff.2 (mt hgood.1 hn)), fun hg => ?_⟩
  have hx : execLayerSet s = .next (((List.range 4).foldl (fun t k => t.slotWrite a (bnat s.request 9 1) k (layerWord s.request k) true) s).respond
      s.cur.arg 0 []) := mboxWrite_good h (hgood.2 hg)
  refine ⟨_, hx, answered_of_pilot hl (by rw [pilot_foldl_slotWrite]), ?_, ?_, fun c hc => ?_, fun k hk => ?_, ?_⟩
  · rw [sched_respond, sched_foldl_slotWrite]
  · rw [cores_respond, cores_foldl_slotWrite]
  · rw [State.builder, builders_respond]; exact builder_foldl_slotWrite _ _ _ _ _ hc
  · rw [State.slotWord, State.builder, builders_respond]
    refine (slotWord_foldl (List.range 4) s k).trans ?_
    rw [if_pos (List.mem_range.2 (by omega)), layerWord, if_neg hk.ne, pilotSlot_of_lt hk]
  · rw [State.slotWord, State.builder, builders_respond]
    refine (slotWord_foldl (List.range 4) s 3).trans ?_
    rw [if_pos (by decide), layerWord, if_pos rfl]
    simpa using pilotSlot_lock (argWord s.request 3) (bnat s.request 10 1 = 1)

theorem berthCtl_acts (h : Claims.RequestAt s 4) :
    let a := bnat s.request 8 1
    let good : Prop := a < 32 ∧ bnat s.request 9 1 < 4
    (¬ good → Refuses s (execBerthCtl s)) ∧
    (∀ j, good → bnat s.request 9 1 = j → ∃ t, execBerthCtl s = .next t ∧ Claims.Answered s t 0 ∧
      t.gangs = (s.writeBind a 8 (word (lget [2, 4, 8, 1] j 0))).gangs) ∧
    (∀ g, good → bnat s.request 9 1 = 2 → (s.bind a).state = 2 → s.gang a = some g →
      ∃ t, execBerthCtl s = .next t ∧ Claims.Answered s t 0 ∧ Claims.Aborted g 5 t) := by
  intro a good
  have hgood : (decide (a < 32) && decide (bnat s.request 9 1 < 4)) = true ↔ good := by simp [good]
  have hx (hg : good) : execBerthCtl s = .next ((s.writeBind a 8 (lget [2, 4, 8, 1] (bnat s.request 9 1) 0)).respond s.cur.arg 0 []) :=
    mboxWrite_good h (hgood.2 hg)
  have hans : Claims.Answered s ((s.writeBind a 8 (lget [2, 4, 8, 1] (bnat s.request 9 1) 0)).respond s.cur.arg 0 []) 0 :=
    answered_of_pilot hl (mbox_writeBind_triggers ..)
  refine ⟨fun hn => mboxWrite_refuses hl h (Bool.eq_false_iff.2 (mt hgood.1 hn)), fun j hg hj => ⟨_, hx hg, hans, ?_⟩,
    fun g hg hj hs hgang => ⟨_, hx hg, hans, ?_⟩⟩
  · have hv : (lget [2, 4, 8, 1] j 0 : Word) = word (lget [2, 4, 8, 1] j 0) := by
      have hj4 : j < 4 := hj ▸ hg.2
      interval_cases j <;> rfl
    rw [gangs_respond, hj, hv]
  · rw [hj, show (lget [2, 4, 8, 1] 2 0 : Word) = 8 from rfl]
    exact aborted_respond (aborted_writeBind hs hgang)

theorem grantSet_acts (h : Claims.RequestAt s 5) :
    let a := bnat s.request 8 1
    let v := argWord s.request
    (8 ≤ a ∨ bnat s.request 9 7 ≠ 0 → Refuses s (execGrantSet s)) ∧
    (a < 8 → bnat s.request 9 7 = 0 → ∃ t, execGrantSet s = .next t ∧ Claims.Answered s t 0 ∧
      lget t.io.grants a Grant.zero =
        { valid := (v 0).getLsbD 63, w := (v 0).getLsbD 62, base := (v 0).extractLsb' 12 36, limit := (v 1).extractLsb' 12 36 } ∧
      ∀ n, n ≠ a → lget t.io.grants n Grant.zero = lget s.io.grants n Grant.zero) := by
  intro a v
  refine ⟨fun hn => mboxWrite_refuses hl h ?_, fun ha h9 => ⟨_, mboxWrite_good h (by simpa using ⟨ha, h9⟩), answered_of_pilot hl rfl, ?_, fun n hn => ?_⟩⟩
  · simpa [imp_iff_not_or] using hn
  · rw [io_respond, grant_writeGrant, grant_writeGrant]; rfl
  · rw [io_respond, grant_writeGrant_other hn, grant_writeGrant_other hn]

theorem peerwinSet_acts (h : Claims.RequestAt s 6) :
    let a := bnat s.request 8 1
    let v := argWord s.request
    (8 ≤ a ∨ bnat s.request 9 7 ≠ 0 → Refuses s (execPeerwinSet s)) ∧
    (a < 8 → bnat s.request 9 7 = 0 → ∃ t, execPeerwinSet s = .next t ∧ Claims.Answered s t 0 ∧
      lget t.io.peers a PeerWin.zero = { valid := (v 0).getLsbD 63, rd := (v 0).getLsbD 62, w := (v 0).getLsbD 61, anyrid := (v 0).getLsbD 60
                                         space := (v 0).getLsbD 59, rid := (v 0).setWidth 16, base := (v 1).extractLsb' 32 32, count := (v 1).setWidth 32 } ∧
      ∀ n, n ≠ a → lget t.io.peers n PeerWin.zero = lget s.io.peers n PeerWin.zero) := by
  intro a v
  refine ⟨fun hn => mboxWrite_refuses hl h ?_, fun ha h9 => ⟨_, mboxWrite_good h (by simpa using ⟨ha, h9⟩), answered_of_pilot hl rfl, ?_, fun n hn => ?_⟩⟩
  · simpa [imp_iff_not_or] using hn
  · rw [io_respond, peer_writePeer, peer_writePeer]; rfl
  · rw [io_respond, peer_writePeer_other hn, peer_writePeer_other hn]

theorem powerCap_acts (h : Claims.RequestAt s 7) :
    let w := bnat s.request 8 2
    (w < 75 ∨ 200 < w → Refuses s (execPowerCap s)) ∧
    (75 ≤ w → w ≤ 200 → ∃ t, execPowerCap s = .next t ∧ Claims.Answered s t 0 ∧ t.fleet = { s.fleet with cap := w, fresh := max 1 s.fleet.fresh }) := by
  refine ⟨fun hn => mboxWrite_refuses hl h ?_, fun h1 h2 => ⟨_, mboxWrite_good h (by simp [h1, h2]), answered_of_pilot hl rfl, rfl⟩⟩
  rw [Bool.and_eq_false_iff, decide_eq_false_iff_not, decide_eq_false_iff_not]
  omega

theorem selfTest_acts (h : Claims.RequestAt s 8) :
    let a := bnat s.request 8 1
    let busy : Prop := s.fleet.test.level ≠ 0 ∨ s.fleet.update ≠ none ∨ s.fleet.recovery = true
    (busy → ∃ t, execSelfTest s = .next t ∧ Claims.Answered s t 3 ∧ t.fleet = s.fleet) ∧
    (¬ busy → a = 0 ∨ 2 < a → Refuses s (execSelfTest s)) ∧
    (¬ busy → a = 1 ∨ a = 2 → ∃ t, execSelfTest s = .next t ∧ t.fleet.test.level = a ∧ t.fleet.test.mbox = some s.cur.arg ∧ t.fleet.test.lamp = 1 ∧
      (∀ k, k ∈ t.fleet.test.todo ↔ k < 24 ∧ s.sched.failed.getLsbD k = false) ∧ t.fleet.test.decs = List.range 16 ∧
      (t.mbox s.cur.arg) = s.mbox s.cur.arg ∧ (a = 2 → t.pilot.fw.taking = false)) := by
  intro a busy
  obtain ⟨hb, hs, ht, ho, hc⟩ := h
  have hbusy : s.testBusy = true ↔ busy := by
    simp [busy, State.testBusy, or_assoc, Option.isSome_iff_ne_none]
  have hx : execSelfTest s = if busy then .next (s.respond s.cur.arg 3 []) else
      if a = 0 ∨ 2 < a then .next (s.respond s.cur.arg 2 []) else .next (s.startTest a (some s.cur.arg)) := by
    simp only [execSelfTest]
    rw [if_neg (serves_guard hb hs ht ho)]
    simp only [hc, Bool.false_or, Bool.or_eq_true, decide_eq_true_eq, hbusy]
    rfl
  refine ⟨fun hy => ⟨_, hx.trans (if_pos hy), answered_respond (by decide) hl rfl, rfl⟩, fun hn ha => ?_, fun hn ha => ?_⟩
  · exact ⟨_, (hx.trans (if_neg hn)).trans (if_pos ha), answered_respond (by decide) hl rfl, rfl, rfl, rfl, rfl, rfl, rfl⟩
  · refine ⟨_, (hx.trans (if_neg hn)).trans (if_neg (by omega)), rfl, rfl, rfl, fun k => ?_, rfl, mbox_congr ?_ _, fun h2 => ?_⟩
    · simp [State.startTest]
    · simp only [State.startTest]; split_ifs <;> rfl
    · simp only [State.startTest, if_pos h2]

/-- The entry of an index that is wholly written is returned, and counts as read (R428, R429). -/
theorem rasRead_acts (h : Claims.RequestAt s 9) :
    let i := bnat s.request 8 4
    ((∀ e ∈ s.fleet.ras, e.seq = i → s.tide < e.ready) → Refuses s (execRasRead s)) ∧
    (∀ e, (s.fleet.ras.find? fun e => e.seq = i && e.ready ≤ s.tide) = some e → ∃ t, execRasRead s = .next t ∧ Claims.Answered s t 0 ∧
      (t.mbox s.cur.arg).resp.drop 8 = e.bytes.take 56 ∧ (∀ x ∈ t.fleet.ras, x.seq = i → x.read = true) ∧
      t.fleet.ras.length = s.fleet.ras.length) := by
  intro i
  refine ⟨fun hn => mboxRun_refuses hl h ?_, fun e he => ?_⟩
  · have hf : (s.fleet.ras.find? fun e => e.seq = i && e.ready ≤ s.tide) = none := by
      rw [List.find?_eq_none]
      intro e he
      have := hn e he
      simp only [Bool.and_eq_true, decide_eq_true_eq]
      omega
    simp only [i, hf]
  · have hx : execRasRead s = .next ((s.markRead i).respond s.cur.arg 0 (e.bytes.take 56)) := by
      rw [execRasRead, mboxRun_act h]
      simp only [i] at he
      simp only [he]
      rfl
    have hd : (e.bytes.take 56).length = 56 := by rw [List.length_take, length_rasBytes]; rfl
    refine ⟨_, hx, answered_respond (by decide) hl rfl, ?_, fun x hm hi => read_markRead hm hi, ?_⟩
    · rw [mbox_respond]; exact drop_response (req := s.request) (by omega) hd
    · rw [fleet_respond]; exact List.length_map ..

end Commands

theorem commandsAct : Claims.CommandsAct := fun _ hl =>
  ⟨groupSet_acts hl, aperSet_acts hl, layerSet_acts hl, berthCtl_acts hl, grantSet_acts hl, peerwinSet_acts hl, powerCap_acts hl,
    selfTest_acts hl, rasRead_acts hl⟩

/-! ## DONE (R383, R400) -/

/-- What an interrupt sent leaves of the Pilot complex. -/
theorem pilot_irq (s : State) (x : Bool) (v : Nat) : (s.irq x v).pilot = s.pilot := by unfold State.irq; split_ifs <;> rfl

/-- The mailbox that is completed, its response as it then stands. -/
theorem mbox_mboxDone (s : State) (m : Nat) : (s.mboxDone m).mbox m = { s.mbox m with busy := false, done := true } := by
  rw [State.mboxDone, mbox_congr (congrArg Pilot.mbox (pilot_irq ..)), mbox_modMbox]

/-- The interrupt of a host core's mailbox (R383). -/
theorem outs_mboxDone {s : State} {m : Nat} (h : (s.mbox m).owner = false) :
    (s.mboxDone m).io.outs = s.io.outs ++ [.irq false (s.mbox m).vec.toNat] := by
  simp only [State.mboxDone, h]; rfl

/-- The response that DONE finds or makes: a request written over is answered with status 3, one that no command has served with status 1. -/
def State.settleResponse (s : State) (m : Nat) : State :=
  if s.pilot.fw.serving.contains m && !(s.mbox m).clash then s
  else s.modMbox m fun x => { x with resp := response x.req (if x.clash then 3 else 1) [] }

/-- The mailbox is no longer among those whose response is written. -/
def State.served (s : State) (m : Nat) : State :=
  { s with pilot := { s.pilot with fw := { s.pilot.fw with serving := s.pilot.fw.serving.filter (· != m) } } }

theorem settleResponse_served {s : State} {m : Nat} (h : m ∈ s.pilot.fw.serving) (hc : (s.mbox m).clash = false) : s.settleResponse m = s := by
  rw [State.settleResponse, if_pos (by simp [h, hc])]
theorem settleResponse_unserved {s : State} {m : Nat} (h : m ∉ s.pilot.fw.serving ∨ (s.mbox m).clash = true) :
    s.settleResponse m = s.modMbox m fun x => { x with resp := response x.req (if x.clash then 3 else 1) [] } := by
  rw [State.settleResponse, if_neg (by rcases h with h | h <;> simp [h])]

/-- Only the response is settled. -/
theorem mbox_settleResponse (s : State) (m : Nat) :
    (s.settleResponse m).mbox m = { s.mbox m with resp := ((s.settleResponse m).mbox m).resp } := by
  unfold State.settleResponse
  split_ifs
  · rfl
  · rw [mbox_modMbox]
theorem io_settleResponse (s : State) (m : Nat) : (s.settleResponse m).io = s.io := by unfold State.settleResponse; split_ifs <;> rfl

/-- DONE of a mailbox that is free, and of one that is busy. -/
theorem execDone_idle {s : State} (h : (s.mbox s.cur.arg).busy = false) : execDone s = .next s := by
  rw [execDone, if_pos (by simp [h])]; rfl
theorem execDone_busy {s : State} (h : (s.mbox s.cur.arg).busy = true) :
    execDone s = .next (((s.settleResponse s.cur.arg).served s.cur.arg).mboxDone s.cur.arg) := by
  rw [execDone, if_neg (by simp [h])]; rfl

/-- The mailbox after DONE. -/
theorem mbox_done (s : State) (m : Nat) : (((s.settleResponse m).served m).mboxDone m).mbox m =
    { s.mbox m with busy := false, done := true, resp := ((s.settleResponse m).mbox m).resp } := by
  rw [mbox_mboxDone, show ((s.settleResponse m).served m).mbox m = (s.settleResponse m).mbox m from rfl, mbox_settleResponse]

/-- The interrupt of DONE goes to the mailbox's owner (R383). -/
theorem outs_done {s : State} {m : Nat} (h : (s.mbox m).owner = false) :
    (((s.settleResponse m).served m).mboxDone m).io.outs = s.io.outs ++ [.irq false (s.mbox m).vec.toNat] := by
  have hm : ((s.settleResponse m).served m).mbox m = { s.mbox m with resp := ((s.settleResponse m).mbox m).resp } := mbox_settleResponse s m
  rw [outs_mboxDone (by rw [hm]; exact h), hm, ← io_settleResponse s m]
  rfl

theorem commandsEnd : Claims.CommandsEnd := by
  refine fun s => ⟨execDone_idle, fun hb => ⟨_, execDone_busy hb, ?_, ?_, ?_, ?_, fun hs hc => ?_, fun h hl => ?_, fun ho => ?_⟩⟩
  · rw [mbox_done]
  · rw [mbox_done]
  · rw [mbox_done]
  · rw [State.mboxDone, pilot_irq]
    show s.cur.arg ∉ List.filter (· != s.cur.arg) _
    simp
  · rw [mbox_done, settleResponse_served hs hc]
  · rw [mbox_done, settleResponse_unserved h, mbox_modMbox]
    exact ⟨response_tag (by omega), response_status (by omega) (by split_ifs <;> decide)⟩
  · exact outs_done ho

/-- Settles O56: the register space block by block, then the mailboxes and each of their commands. -/
theorem deviceRegisters : Obligations.DeviceRegisters :=
  ⟨apertureWrites, registerWrites, mailboxDoorbells, crossTimestamps, decoderRegisters, commandsServed, commandsAct, commandsEnd⟩

end Sys2Proof.Machine

namespace Sys2Proof.Machine

/-! ## What holds bytes -/

/-- The memories of the part, and the SP1 of every core: all that `SameMemory` looks at. -/
def State.bytes (s : State) : Mem × (Nat → Memory) := (s.mem, fun k => (s.core k).mem.sp1)

theorem sameMemory_of_bytes {s t : State} (h : t.bytes = s.bytes) : SameMemory s t := by
  have hm : t.mem = s.mem := congrArg Prod.fst h
  have hc (k : Nat) : (t.core k).mem.sp1 = (s.core k).mem.sp1 := congrFun (congrArg Prod.snd h) k
  refine ⟨fun tgt a ht => ?_, fun a => by rw [hm], by rw [hm], fun k a => by rw [hc], fun u a => by rw [hm]⟩
  simp only [State.gByte, ht, if_false, hm]

/-- A core changed, but for its SP1. -/
@[simp] theorem bytes_modCore {s : State} {k : Nat} {f : Core → Core} (h : (f (s.core k)).mem.sp1 = (s.core k).mem.sp1) :
    (s.modCore k f).bytes = s.bytes := by
  refine Prod.ext rfl (funext fun j => ?_)
  by_cases hj : j = k
  · subst hj; exact (congrArg (fun c : Core => c.mem.sp1) (State.core_modCore ..)).trans h
  · exact congrArg (fun c : Core => c.mem.sp1) (State.core_modCore_other _ _ _ _ hj)
@[simp] theorem bytes_modMe {s : State} {f : Core → Core} (h : (f s.me).mem.sp1 = s.me.mem.sp1) : (s.modMe f).bytes = s.bytes := bytes_modCore h
@[simp] theorem bytes_modCtx (s : State) (f : SeqCtx → SeqCtx) : (s.modCtx f).bytes = s.bytes := bytes_modMe (by split <;> rfl)
@[simp] theorem bytes_modEng (s : State) (u : Eng) (f : Engine → Engine) : (s.modEng u f).bytes = s.bytes := bytes_modMe (by split <;> rfl)
@[simp] theorem bytes_modGang (s : State) (b : Nat) (f : Gang → Gang) : (s.modGang b f).bytes = s.bytes := rfl
@[simp] theorem bytes_addPend (s : State) (u l : Nat) (e : Eff) (g : Bool) (n : Option Nat) (p : Bool) : (s.addPend u l e g n p).bytes = s.bytes :=
  bytes_modMe (s := s) (f := fun c => { c with pend := c.pend ++ _ }) rfl
@[simp] theorem bytes_addLat (s : State) (u l : Nat) (e : Eff) : (s.addLat u l e).bytes = s.bytes := bytes_addPend ..
@[simp] theorem bytes_wrReg (s : State) (d : BitVec 5) (l : Nat) (v : Word) : (s.wrReg d l v).bytes = s.bytes := bytes_addPend ..
@[simp] theorem bytes_count0 (s : State) : s.count0.bytes = s.bytes := by unfold State.count0; split <;> simp [Core.perfAdd]
@[simp] theorem bytes_next1 (s : State) : s.next1.bytes = s.bytes := by simp [State.next1]
@[simp] theorem bytes_waitOn (s : State) (w : Wait) : (s.waitOn w).bytes = s.bytes := by simp [State.waitOn]
@[simp] theorem bytes_branchTo (s : State) (d : BitVec 18) (m : Bool) : (s.branchTo d m).bytes = s.bytes := by simp [State.branchTo]
@[simp] theorem bytes_chkIf (s : State) (u : Nat) (b : Bool) : (s.chkIf u b).bytes = s.bytes := by unfold State.chkIf; split <;> simp
@[simp] theorem bytes_startHold (s : State) (k c : Nat) (a : Option Await) : (s.startHold k c a).bytes = s.bytes := by
  simp only [State.startHold]; split <;> simp
@[simp] theorem bytes_faultMain (s : State) (k : Nat) (f : FaultRec) : (s.faultMain k f).bytes = s.bytes := by
  simp [State.faultMain, Core.enterHandler]
@[simp] theorem bytes_escalate (s : State) (k : Nat) : (s.escalate k).bytes = s.bytes := bytes_modCore (by split <;> rfl)
@[simp] theorem bytes_takeFault (s : State) (f : FaultRec) : (s.takeFault f).bytes = s.bytes := by unfold State.takeFault; split <;> simp
@[simp] theorem bytes_shadowWait (s : State) (u : Nat) : (s.shadowWait u).bytes = s.bytes := bytes_modMe (by split <;> rfl)
@[simp] theorem bytes_schedMiss (s : State) (u i : Nat) (a : Await) : (s.schedMiss u i a).bytes = s.bytes := by
  simp only [State.schedMiss]; split_ifs <;> simp

/-! ## The core of the step after an issue -/

theorem me_modCtx (s : State) (f : SeqCtx → SeqCtx) :
    (s.modCtx f).me = if s.cur.shadow then { s.me with sh := f s.me.sh } else { s.me with seq := f s.me.seq } := State.me_modMe ..
theorem me_count0 (s : State) : s.count0.me = if s.cur.shadow then s.me else s.me.perfAdd 0 1 := by
  unfold State.count0; split
  · rfl
  · exact State.me_modMe ..
theorem me_next1 (s : State) : s.next1.me =
    if s.cur.shadow then { s.me with sh := s.me.sh.advance s.clk } else ({ s.me with seq := s.me.seq.advance s.clk } : Core).perfAdd 0 1 := by
  rw [State.next1, me_count0, me_modCtx, State.cur_modCtx]; split <;> rfl

theorem core_modCtx_other (s : State) (f : SeqCtx → SeqCtx) {k : Nat} (h : k ≠ s.cur.core) : (s.modCtx f).core k = s.core k :=
  State.core_modMe_other _ _ _ h
theorem core_count0_other (s : State) {k : Nat} (h : k ≠ s.cur.core) : s.count0.core k = s.core k := by
  unfold State.count0; split
  · rfl
  · exact State.core_modMe_other _ _ _ h
theorem core_next1_other (s : State) {k : Nat} (h : k ≠ s.cur.core) : s.next1.core k = s.core k :=
  (core_count0_other (s.modCtx _) h).trans (core_modCtx_other s _ h)
/-- An issue changes nothing but its core. -/
theorem rest_next1 (s : State) : s.next1 = { s with cores := s.next1.cores } := by unfold State.next1 State.count0; split <;> rfl

/-! ## Instructions that write a register (R205, R207, R208) -/

/-- A register write put on its way, and the next instruction: the sequencer's frame. -/
theorem seqFrame_wrReg_next1 (s : State) (d : BitVec 5) (lat : Nat) (v : Word) : SeqFrame s (s.wrReg d lat v).next1 := by
  have hme : (s.wrReg d lat v).me = _ := State.me_addPend ..
  refine ⟨?_, fun k hk => (core_next1_other (s.wrReg d lat v) hk).trans (lget_lput_other _ _ _ _ _ hk), ?_⟩
  · rw [rest_next1]; rfl
  · rw [me_next1, hme, State.cur_wrReg]
    cases s.cur.shadow <;> rfl

/-- Each row of the ALU group and each immediate form is `aluRun` with its latency and value. -/
theorem exec_aluForm {s : State} {d a b : BitVec 5} {i : BitVec 16} {h : BitVec 6} :
    ∀ x ∈ ([.add d a b, .sub d a b, .and_ d a b, .or_ d a b, .xor d a b, .andn d a b, .orn d a b, .sll d a b, .srl d a b, .sra d a b,
            .slt d a b, .sltu d a b, .min_ d a b, .max_ d a b, .minu d a b, .maxu d a b, .mul d a b, .mulh d a b, .mulhu d a b,
            .mulhsu d a b, .clz d a, .ctz d a, .popc d a, .rol d a b, .ror d a b, .addi d a i, .andi d a i, .ori d a i, .xori d a i,
            .slti d a i, .sltiu d a i, .slli d a h, .srli d a h, .srai d a h, .lui d i, .shori d a i, .muli d a i] : List Instr),
      ∃ lat v, exec x s = aluRun x d lat v s := by
  simp only [List.forall_mem_cons]
  exact ⟨⟨_, _, (rfl : execAdd d a b s = _)⟩, ⟨_, _, (rfl : execSub d a b s = _)⟩, ⟨_, _, (rfl : execAnd d a b s = _)⟩,
    ⟨_, _, (rfl : execOr d a b s = _)⟩, ⟨_, _, (rfl : execXor d a b s = _)⟩, ⟨_, _, (rfl : execAndn d a b s = _)⟩,
    ⟨_, _, (rfl : execOrn d a b s = _)⟩, ⟨_, _, (rfl : execSll d a b s = _)⟩, ⟨_, _, (rfl : execSrl d a b s = _)⟩,
    ⟨_, _, (rfl : execSra d a b s = _)⟩, ⟨_, _, (rfl : execSlt d a b s = _)⟩, ⟨_, _, (rfl : execSltu d a b s = _)⟩,
    ⟨_, _, (rfl : execMin d a b s = _)⟩, ⟨_, _, (rfl : execMax d a b s = _)⟩, ⟨_, _, (rfl : execMinu d a b s = _)⟩,
    ⟨_, _, (rfl : execMaxu d a b s = _)⟩, ⟨_, _, (rfl : execMul d a b s = _)⟩, ⟨_, _, (rfl : execMulh d a b s = _)⟩,
    ⟨_, _, (rfl : execMulhu d a b s = _)⟩, ⟨_, _, (rfl : execMulhsu d a b s = _)⟩, ⟨_, _, (rfl : execClz d a s = _)⟩,
    ⟨_, _, (rfl : execCtz d a s = _)⟩, ⟨_, _, (rfl : execPopc d a s = _)⟩, ⟨_, _, (rfl : execRol d a b s = _)⟩, ⟨_, _, (rfl : execRor d a b s = _)⟩,
    ⟨_, _, (rfl : execAddi d a i s = _)⟩, ⟨_, _, (rfl : execAndi d a i s = _)⟩, ⟨_, _, (rfl : execOri d a i s = _)⟩,
    ⟨_, _, (rfl : execXori d a i s = _)⟩, ⟨_, _, (rfl : execSlti d a i s = _)⟩, ⟨_, _, (rfl : execSltiu d a i s = _)⟩,
    ⟨_, _, (rfl : execSlli d a h s = _)⟩, ⟨_, _, (rfl : execSrli d a h s = _)⟩, ⟨_, _, (rfl : execSrai d a h s = _)⟩,
    ⟨_, _, (rfl : execLui d i s = _)⟩, ⟨_, _, (rfl : execShori d a i s = _)⟩, ⟨_, _, (rfl : execMuli d a i s = _)⟩, List.forall_mem_nil _⟩

theorem registerFormsFrame : Claims.RegisterFormsFrame := by
  intro s t d a b i h hi x hx he
  obtain ⟨lat, v, hv⟩ := exec_aluForm x hx
  rw [hv, aluRun_issue hi] at he
  cases he
  exact ⟨seqFrame_wrReg_next1 .., sameMemory_of_bytes (by simp)⟩

/-! ## When a register write lands (R37, R204) -/

/-- An effect of gang time in a core that runs lands once its cycle has come and nothing that it needs is open. -/
theorem pendDue_running {s : State} {k : Nat} {p : Pend} (hs : (s.core k).run.stop = none) (ht : p.tide = false) :
    s.pendDue k p = (decide (p.land ≤ (s.core k).run.g) && s.needMet p) := by
  simp [State.pendDue, State.pendClock, Core.stallFlush, Core.stallMesh, hs, ht]

/-- A register-like effect that needs no operation lands on the core of the step, and is no more in flight. -/
theorem landQuiet_sreg {s : State} {p : Pend} {sh : Bool} {r : Nat} {v : Word} (he : p.eff = .sreg sh r v) (hn : p.need = none) :
    (s.landQuiet p).me = ({ s.me with pend := s.me.pend.filter fun q => q.id != p.id } : Core).landReg (.sreg sh r v) := by
  have : s.landQuiet p = (s.modMe fun c => { c with pend := c.pend.filter fun q => q.id != p.id }).modMe fun c => c.landReg (.sreg sh r v) := by
    simp [State.landQuiet, he, State.endPend, hn, State.modMe]
  rw [this, State.me_modMe, State.me_modMe]

theorem reg_setReg_same (c : SeqCtx) {r : Nat} (v : Word) (h : r ≠ 0) : (c.setReg r v).reg r = v := by
  simp [SeqCtx.setReg, SeqCtx.reg, h]

theorem latencyIsKept : Claims.LatencyIsKept := by
  intro s d lat v k hk hsh hd hl hp hs hlate g hg
  subst hk
  set p : Pend := { id := s.nextId, land := s.me.run.g + lat - 1, since := s.me.run.g, tide := false, unit := 0, goesOn := false, need := none,
                    phased := false, missed := false, eff := .sreg false d.toNat v } with hpdef
  intro t
  have hme : t.core s.cur.core = { s.me with pend := [p], run := { s.me.run with g := g } } := by
    refine (State.core_modCore ..).trans ?_
    rw [show (s.wrReg d lat v).core s.cur.core = _ from State.me_addPend .., hp]
    simp [hpdef, State.clk, hsh, Eff.intoSp3]
  have hmet : t.needMet p = true := by
    have : t.isLate s.nextId = false := hlate
    simp [State.needMet, hpdef, this]
  have hdue : t.pendDue s.cur.core p = decide (s.me.run.g + lat - 1 ≤ g) := by
    rw [pendDue_running (by rw [hme]; exact hs) rfl, hmet, hme, Bool.and_true]
  have hq : t.quietDue s.cur.core = if s.me.run.g + lat - 1 ≤ g then [p] else [] := by
    simp only [State.quietDue, hme, List.filter_cons, List.filter_nil, hdue]
    split_ifs <;> simp_all [Eff.quiet]
  rw [State.landAllQuiet, hq]
  have hcur : ({ t with cur := { t.cur with core := s.cur.core } } : State) = t := rfl
  rw [hcur]
  split_ifs with hc
  · have : ((t.landQuiet p).core s.cur.core) = _ := landQuiet_sreg (s := t) (p := p) rfl rfl
    rw [List.foldl_cons, List.foldl_nil, this]
    exact reg_setReg_same _ _ (by simpa [← BitVec.toNat_inj] using hd)
  · rw [List.foldl_nil, hme]

/-- Settles O13: an ALU word sends one register write, which lands when its latency is over. -/
theorem registerForms : Obligations.RegisterForms := ⟨registerFormsFrame, latencyIsKept⟩

end Sys2Proof.Machine

namespace Sys2Proof.Machine

/-! ## Branches and jumps (R38, R180, R213, R214) -/

/-- The end of the addresses that a context may jump to (R180). -/
theorem targetOk_iff (shadow : Bool) (t : Int) : targetOk shadow t = true ↔ 0 ≤ t ∧ t < if shadow then 0x40000 else 0x3E000 := by
  cases shadow <;> simp [targetOk, Config.scoreSize, Config.pilotHandler]

section Transfer
variable {t : Int} {link : Option (BitVec 5)} {mask : Bool} {s : State}

/-- A transfer that is not taken goes on after its slot, whatever its target. -/
theorem transfer_untaken : transfer false t link mask s = s.branchTo (s.ctx.pc + 8) mask := by
  cases link <;> simp [transfer]

/-- A taken transfer to a legal word writes its link, and its slot is next. -/
theorem transfer_taken (hr : targetOk s.cur.shadow t = true) (ha : t % 4 = 0) : transfer true t link mask s =
    (match link with | some d => s.wrReg d 2 (s.ctx.pc.setWidth 64 + 8) | none => s).branchTo (BitVec.ofInt 18 t) mask := by
  cases link <;> simp [transfer, hr, ha]

/-- A taken transfer out of the legal range raises PERM, aligned or not (log 21). -/
theorem transfer_perm (hr : targetOk s.cur.shadow t = false) : transfer true t link mask s = s.takeFault (mkFault 0 0x05 (t % 2 ^ 64).toNat) := by
  simp [transfer, hr]

/-- One inside the range to no multiple of 4 raises ALIGN. -/
theorem transfer_align (hr : targetOk s.cur.shadow t = true) (ha : t % 4 ≠ 0) :
    transfer true t link mask s = s.takeFault (mkFault 0 0x03 (t % 2 ^ 64).toNat) := by
  simp [transfer, hr, ha]

end Transfer

/-- A conditional branch in place is one transfer, taken on its condition; in a slot it is illegal. -/
theorem brRun_issue {i : Instr} {o : BitVec 16} {cond : State → Bool} {s : State} (h : s.canIssue noSlot = true) :
    brRun i o cond s = .next (transfer (cond s) (brTarget s.ctx.pc o.toInt) none s.maskSeen s) := seqRun_issue h
theorem brRun_misplaced {i : Instr} {o : BitVec 16} {cond : State → Bool} {s : State} (hl : s.me.badLine s.ctx.pc.toNat 4 = false)
    (hp : s.placed noSlot = false) : brRun i o cond s = .next (s.illegal i) := seqRun_misplaced hl hp

/-! Each conditional branch is `brRun` with its condition (R213). -/
section Arms
variable (s : State) (a b : BitVec 5) (o : BitVec 16)
theorem exec_beq : exec (.beq a b o) s = brRun (.beq a b o) o (fun s => s.rd a == s.rd b) s := rfl
theorem exec_bne : exec (.bne a b o) s = brRun (.bne a b o) o (fun s => s.rd a != s.rd b) s := rfl
theorem exec_blt : exec (.blt a b o) s = brRun (.blt a b o) o (fun s => (s.rd a).slt (s.rd b)) s := rfl
theorem exec_bge : exec (.bge a b o) s = brRun (.bge a b o) o (fun s => (s.rd b).sle (s.rd a)) s := rfl
theorem exec_bltu : exec (.bltu a b o) s = brRun (.bltu a b o) o (fun s => (s.rd a).ult (s.rd b)) s := rfl
theorem exec_bgeu : exec (.bgeu a b o) s = brRun (.bgeu a b o) o (fun s => (s.rd b).ule (s.rd a)) s := rfl
theorem exec_bmz : exec (.bmz o) s = brRun (.bmz o) o (fun s => s.maskSeen) s := rfl
theorem exec_bmnz : exec (.bmnz o) s = brRun (.bmnz o) o (fun s => !s.maskSeen) s := rfl
end Arms

/-- Each conditional branch is one transfer, taken on its condition. -/
theorem exec_branch {s : State} {a b : BitVec 5} {o : BitVec 16} (h : s.canIssue noSlot = true) :
    ∀ r ∈ ([(.beq a b o, decide (s.rd a = s.rd b)), (.bne a b o, decide (s.rd a ≠ s.rd b)),
            (.blt a b o, decide ((s.rd a).toInt < (s.rd b).toInt)), (.bge a b o, decide ((s.rd b).toInt ≤ (s.rd a).toInt)),
            (.bltu a b o, decide ((s.rd a).toNat < (s.rd b).toNat)), (.bgeu a b o, decide ((s.rd b).toNat ≤ (s.rd a).toNat)),
            (.bmz o, s.maskSeen), (.bmnz o, !s.maskSeen)] : List (Instr × Bool)),
      exec r.1 s = .next (transfer r.2 (brTarget s.ctx.pc o.toInt) none s.maskSeen s) := by
  simp only [List.forall_mem_cons]
  simp only [exec_beq, exec_bne, exec_blt, exec_bge, exec_bltu, exec_bgeu, exec_bmz, exec_bmnz, brRun_issue h]
  refine ⟨?beq, ?bne, ?blt, ?bge, ?bltu, ?bgeu, trivial, trivial, List.forall_mem_nil _⟩
  all_goals refine congrArg (fun c => Host.Outcome.next (transfer c _ _ _ s)) (Bool.eq_iff_iff.2 ?_)
  case beq => simp
  case bne => simp
  case blt => simp [BitVec.slt_iff_toInt_lt]
  case bge => simp [BitVec.sle_iff_toInt_le]
  case bltu => simp [BitVec.ult_iff_toNat_lt]
  case bgeu => simp [BitVec.ule_iff_toNat_le]

/-- The word before a branch's slot is aligned when the branch is, and so is every target counted from it. -/
theorem brTarget_aligned {pc : BitVec 18} (h : pc.toNat % 4 = 0) (o : Int) : brTarget pc o % 4 = 0 := by
  unfold brTarget; omega

theorem branchResults : Claims.BranchResults := by
  intro s a b o h tgt hpc r hr ht
  rw [exec_branch h r hr]
  cases hc : r.2
  · simp [transfer_untaken]
  · exact congrArg _ (transfer_taken ((targetOk_iff ..).2 (ht hc)) (brTarget_aligned hpc _))

/-- A branch that issues: its slot is next, and PERF counts it. -/
theorem ctx_branchTo (s : State) (dest : BitVec 18) (m : Bool) : (s.branchTo dest m).ctx =
    { s.ctx with slot := some { brPc := s.ctx.pc, dest := dest, mask := m }, pc := s.ctx.pc + 4, next := s.clk + 1 } := by
  simp [State.branchTo]

/-- The clock does not move within a step that changes its own core's contexts and counters alone. -/
theorem clk_branchTo (s : State) (dest : BitVec 18) (m : Bool) : (s.branchTo dest m).clk = s.clk := by
  cases h : s.cur.shadow <;> simp [State.clk, State.branchTo, State.count0, State.modCtx, h, Core.perfAdd]

theorem delaySlot : Claims.DelaySlot := by
  intro s dest m
  simp only [State.ctx_next1, ctx_branchTo, clk_branchTo, SeqCtx.advance]
  simp

/-! Each jump is a transfer that is taken (R214). -/
section Arms
variable (s : State) (d a : BitVec 5) (o : BitVec 26)
theorem exec_j : exec (.j o) s = seqRun (.j o) noSlot (fun s => transfer true (brTarget s.ctx.pc o.toInt) none s.maskSeen s) s := rfl
theorem exec_jal : exec (.jal o) s = seqRun (.jal o) noSlot (fun s => transfer true (brTarget s.ctx.pc o.toInt) (some 31) s.maskSeen s) s := rfl
theorem exec_jr : exec (.jr d a) s = seqRun (.jr d a) noSlot (fun s => transfer true ((s.rd a).toNat : Int) (some d) s.maskSeen s) s := rfl
end Arms

/-- A target is in range or not (R180). -/
theorem targetOk_eq_false {shadow : Bool} {t : Int} (h : t < 0 ∨ ((if shadow then 0x40000 else 0x3E000 : Nat) : Int) ≤ t) : targetOk shadow t = false := by
  refine Bool.eq_false_iff.2 fun hr => ?_
  have := (targetOk_iff ..).1 hr
  cases shadow <;> simp at h this <;> omega

/-- A register's value as a 64-bit INFO. -/
theorem toNat_emod_word (v : Word) : (((v.toNat : Nat) : Int) % 2 ^ 64).toNat = v.toNat := by
  have := v.isLt; omega

theorem transferFaults : Claims.TransferFaults := by
  intro s a b d o p h top
  refine ⟨?branch, ?jumps, fun ht => ?jrRange, fun ht ha => ?jrAlign⟩
  case branch =>
    intro tgt ht r hr hc
    rw [exec_branch h r hr, hc]; exact congrArg _ (transfer_perm (targetOk_eq_false ht))
  case jumps =>
    intro tgt ht
    rw [exec_j, exec_jal, seqRun_issue h, seqRun_issue h]
    exact ⟨congrArg _ (transfer_perm (targetOk_eq_false ht)), congrArg _ (transfer_perm (targetOk_eq_false ht))⟩
  case jrRange =>
    rw [exec_jr, seqRun_issue h, transfer_perm (targetOk_eq_false (.inr (by exact_mod_cast ht))), toNat_emod_word]
  case jrAlign =>
    rw [exec_jr, seqRun_issue h, transfer_align ((targetOk_iff ..).2 ⟨by omega, by exact_mod_cast ht⟩) (by omega), toNat_emod_word]

/-- Settles O14: each branch is one transfer; a transfer's target decides whether it faults, and its slot issues before it arrives. -/
theorem branches : Obligations.Branches := ⟨branchResults, transferFaults, delaySlot⟩

/-- The word after a slot, as a link holds it. -/
theorem link_eq (pc : BitVec 18) : pc.setWidth 64 + 8 = BitVec.ofNat 64 (pc.toNat + 8) := by
  apply BitVec.eq_of_toNat_eq; simp

theorem jumpResults : Claims.JumpResults := by
  intro s d a o h hpc tgt top link
  refine ⟨fun h0 ht => ?_, fun ht ha => ?_⟩
  · have hr : targetOk s.cur.shadow (brTarget s.ctx.pc o.toInt) = true := (targetOk_iff ..).2 ⟨h0, by exact_mod_cast ht⟩
    have ha := brTarget_aligned hpc o.toInt
    rw [exec_j, exec_jal, seqRun_issue h, seqRun_issue h, transfer_taken hr ha, transfer_taken hr ha, link_eq]
    exact ⟨rfl, rfl⟩
  · rw [exec_jr, seqRun_issue h, transfer_taken ((targetOk_iff ..).2 ⟨by omega, by exact_mod_cast ht⟩) (by omega), link_eq]
    simp only [link, BitVec.ofInt_natCast, BitVec.ofNat_toNat]

theorem branchInSlot : Claims.BranchInSlot := by
  intro s a b d o p hslot hline
  have hp : s.placed noSlot = false := by
    cases h : s.ctx.slot <;> simp_all [State.placed, noSlot]
  simp only [List.forall_mem_cons, exec_beq, exec_bne, exec_blt, exec_bge, exec_bltu, exec_bgeu, exec_bmz, exec_bmnz, exec_j, exec_jal, exec_jr,
    brRun_misplaced hline hp, seqRun_misplaced hline hp]
  exact ⟨rfl, rfl, rfl, rfl, rfl, rfl, rfl, rfl, rfl, rfl, rfl, List.forall_mem_nil _⟩

/-- Settles O15: a jump is a transfer that is taken, and a transfer has no place in a slot. -/
theorem jumpsAndSlots : Obligations.JumpsAndSlots := ⟨jumpResults, branchInSlot⟩

end Sys2Proof.Machine

namespace Sys2Proof.Machine

/-! ## A step made for each core of a list -/

section Fold
variable {step : State → Nat → State} {k : Nat} {l : List Nat} {s : State}

/-- Steps made for other cores leave a core. -/
theorem core_foldl_other (h : ∀ u, ∀ j ∈ l, j ≠ k → (step u j).core k = u.core k) (hk : k ∉ l) : (l.foldl step s).core k = s.core k := by
  induction l generalizing s with
  | nil => rfl
  | cons j r ih =>
    obtain ⟨hj, hr⟩ := not_or.1 (mt List.mem_cons.2 hk)
    rw [List.foldl_cons, ih (fun u i hi => h u i (List.mem_cons_of_mem _ hi)) hr]
    exact h s j (List.mem_cons_self ..) (Ne.symm hj)

/-- Of steps made once for each core of a list, a core sees its own alone, made in a state in which what every step keeps holds. -/
theorem core_foldl_mem {I : State → Prop} (h : ∀ u, ∀ j ∈ l, j ≠ k → (step u j).core k = u.core k) (hI : ∀ u, ∀ j ∈ l, I u → I (step u j))
    (h0 : I s) (hl : l.Nodup) (hk : k ∈ l) : ∃ u, I u ∧ u.core k = s.core k ∧ (l.foldl step s).core k = (step u k).core k := by
  induction l generalizing s with
  | nil => simp at hk
  | cons j r ih =>
    obtain ⟨hj, hr⟩ := List.nodup_cons.1 hl
    by_cases hjk : k = j
    · subst hjk
      exact ⟨s, h0, rfl, core_foldl_other (fun u i hi => h u i (List.mem_cons_of_mem _ hi)) hj⟩
    · obtain ⟨u, hu, hc, he⟩ := ih (s := step s j) (fun u i hi => h u i (List.mem_cons_of_mem _ hi))
        (fun u i hi => hI u i (List.mem_cons_of_mem _ hi)) (hI s j (List.mem_cons_self ..) h0) hr ((List.mem_cons.1 hk).resolve_left hjk)
      exact ⟨u, hu, hc.trans (h s j (List.mem_cons_self ..) (Ne.symm hjk)), he⟩

end Fold

/-- The cores of a set are listed once each. -/
theorem nodup_coresOf (m : BitVec 24) : (coresOf m).Nodup := List.nodup_range.filter _

/-! ## Instructions that wait (R43, R46, R148, R159, R217) -/

/-- What GBAR asks of the group that it names (R43). -/
theorem gbarOk_iff (s : State) (k g : Nat) : s.gbarOk k g = true ↔
    (s.group g).1 = true ∧ (s.group g).2.getLsbD k = true ∧ ∃ gg, s.gangOf k = some gg ∧ ∀ j ∈ coresOf (s.group g).2, j ∈ gg.members := by
  cases hg : s.gangOf k <;> simp [State.gbarOk, hg, and_assoc]

/-- A live mask has no bit above 51 (R159). -/
theorem extractLsb'_eq_zero_iff (v : Word) : v.extractLsb' 52 12 = 0 ↔ v.toNat < 2 ^ 52 := by
  have := v.isLt
  rw [← BitVec.toNat_inj, extractLsb'_eq_ofNat, BitVec.toNat_ofNat]
  change _ = 0 ↔ _
  omega

theorem waitsBegin : Claims.WaitsBegin := by
  intro s d a g m h
  refine ⟨?waitg, ?phase, ?pabort, ?pabortR, ⟨fun hm => ?mine, fun hm => ?notMine⟩, fun hv => ?yield, fun hv => ?yieldIllegal⟩
  case waitg => show execWaitg a s = _; rw [execWaitg, seqRun_issue h]
  case phase => show execPhase d m s = _; rw [execPhase, pointRun, seqRun_issue h]
  case pabort => show execPabort d s = _; rw [execPabort, pointRun, seqRun_issue h]
  case pabortR => show execPabortR d s = _; rw [execPabortR, pointRun, seqRun_issue h]
  case mine => show execGbar d g s = _; rw [execGbar, seqRun_issue h, if_pos ((gbarOk_iff ..).2 hm)]
  case notMine =>
    show ∃ n u, _ ∧ execGbar d g s = _
    rw [execGbar, seqRun_issue h, if_neg (mt (gbarOk_iff ..).1 hm)]
    exact ⟨_, { s with free := s.free + 1 }, ⟨_, rfl⟩, rfl⟩
  case yield => show execYield d a s = _; rw [execYield, seqRun_issue h, if_neg (by simpa using (extractLsb'_eq_zero_iff _).2 hv)]
  case yieldIllegal =>
    show execYield d a s = _
    rw [execYield, seqRun_issue h, if_pos (by simpa using mt (extractLsb'_eq_zero_iff _).1 (Nat.not_lt.2 hv))]; rfl

theorem ctx_waitOn (s : State) (w : Wait) : (s.waitOn w).ctx = { s.ctx.advance s.clk with wait := w } := by simp [State.waitOn]

theorem pend_waitOn (s : State) (w : Wait) : (s.waitOn w).me.pend = s.me.pend := by
  rw [State.waitOn, me_modCtx, me_next1, State.cur_next1]
  cases s.cur.shadow <;> rfl

theorem waitState : Claims.WaitState := by
  intro s w hslot
  rw [ctx_waitOn, SeqCtx.advance, hslot]
  exact ⟨rfl, rfl, fun r => rfl, pend_waitOn s w, sameMemory_of_bytes (by simp)⟩

/-! ## BARRIER_RELEASE (R43) -/

/-- A list mapped by a partial function, answer by answer. -/
theorem mapM_eq_some_iff {α β : Type} (f : α → Option β) (l : List α) (r : List β) :
    l.mapM f = some r ↔ List.Forall₂ (fun a b => f a = some b) l r := by
  induction l generalizing r with
  | nil => cases r <;> simp
  | cons a l ih => cases r <;> simp [List.mapM_cons, Option.bind_eq_some_iff, ih]

theorem barrierArrivals_iff (s : State) (n : Nat) (arr : List Nat) : s.barrierArrivals n = some arr ↔
    List.Forall₂ (fun k a => ∃ d, (s.core k).seq.wait = .gbar n a d) (coresOf (s.group n).2) arr := by
  unfold State.barrierArrivals
  rw [mapM_eq_some_iff]
  refine Iff.of_eq (congrArg (List.Forall₂ · _ _) (funext₂ fun k a => propext ?_))
  cases (s.core k).seq.wait <;> simp

/-- One member let on from a barrier at cycle `at64`. -/
def passBarrier (at64 : Nat) (s : State) (k : Nat) : State :=
  { s.modCore k (fun c => match c.seq.wait with | .gbar _ _ d => c.goOn at64 d s.nextId | _ => c) with nextId := s.nextId + 1 }

theorem exec_barrierRelease {s : State} {arr : List Nat} (h : s.barrierArrivals s.cur.arg = some arr) :
    exec .barrierRelease s = .next ((coresOf (s.group s.cur.arg).2).foldl (passBarrier (arr.foldl Nat.max 0 + 64)) s) := by
  show execBarrierRelease s = _
  simp only [execBarrierRelease, h]
  rfl

theorem core_passBarrier_other {u : State} {at64 j k : Nat} (h : j ≠ k) : (passBarrier at64 u j).core k = u.core k :=
  lget_lput_other _ _ _ _ _ (Ne.symm h)

theorem core_passBarrier_same {u : State} {at64 n a d k : Nat} (h : (u.core k).seq.wait = .gbar n a d) :
    (passBarrier at64 u k).core k = (u.core k).goOn at64 d u.nextId := by
  refine (lget_lput_same ..).trans ?_
  simp only [h]

theorem barrierReleases : Claims.BarrierReleases := by
  refine ⟨barrierArrivals_iff, fun s arr h => ?_⟩
  intro g
  refine ⟨_, exec_barrierRelease h, fun k hk => ?_, fun k hk => core_foldl_other (fun u j _ hj => core_passBarrier_other hj) hk⟩
  obtain ⟨a, -, d, hw⟩ : ∃ a ∈ arr, ∃ d, (s.core k).seq.wait = .gbar s.cur.arg a d := by
    obtain ⟨i, hi, rfl⟩ := List.getElem_of_mem hk
    have hall := (barrierArrivals_iff ..).1 h
    have hi' : i < arr.length := hall.length_eq ▸ hi
    exact ⟨_, List.getElem_mem hi', hall.get hi hi'⟩
  obtain ⟨u, -, hu, he⟩ := core_foldl_mem (step := passBarrier g) (s := s) (I := fun _ => True) (fun u j _ hj => core_passBarrier_other hj)
    (fun _ _ _ _ => trivial) trivial (nodup_coresOf _) hk
  rw [he, core_passBarrier_same (hu ▸ hw), hu]
  exact ⟨rfl, rfl, a, d, hw, _, List.mem_append_right _ (List.mem_singleton_self _), rfl, rfl⟩

/-- Settles O21: a wait begins where its instruction issues, and a barrier's members go on together, each once. -/
theorem barriers : Obligations.Barriers := ⟨waitsBegin, waitState, barrierReleases⟩

end Sys2Proof.Machine

namespace Sys2Proof.Machine

/-! ## The ends of waits (R34, R217, R346) -/

/-- The entries that a PLAY counts of the engine of the step. -/
theorem entriesHeld_eq (s : State) (u : Eng) : Claims.entriesHeld s u = (s.eng u).counted s.clk := by
  cases h : (s.eng u).started <;> simp [Claims.entriesHeld, Engine.counted, h, bit]

theorem waitsEnd : Claims.WaitsEnd := by
  refine fun s n => ⟨fun hw => ?waitg, fun hw => ?play⟩
  case waitg => show execWaitgExpiry s = _; simp only [execWaitgExpiry, hw]; rfl
  case play =>
    intro e held
    have hheld : held = e.counted s.me.run.g := by
      cases h : e.started <;> simp [held, Engine.counted, h, bit]
    show (_ → execPlayQueueRoom s = _) ∧ (_ → execPlayQueueRoom s = _)
    simp only [execPlayQueueRoom, hw]
    rw [hheld]
    exact ⟨fun hr => if_pos hr, fun hr => if_neg (Nat.not_lt.2 hr)⟩

/-! ## PLAY (R34, R216) -/

section Play
variable {s : State} {e : BitVec 2} {u : Eng} {a b : BitVec 5} {len : BitVec 14}

/-- The passage that a PLAY names. -/
def playEntry (s : State) (a b : BitVec 5) (len : BitVec 14) : QEntry :=
  { addr := (s.rd a).toNat, len := len.toNat, stamp := (s.rd b).toNat, played := s.clk }

/-- The end of what a PLAY may name: of score memory, or of the part below the handler. -/
def playTop (s : State) : Nat := if s.cur.shadow then 0x40000 else 0x3E000

/-- A PLAY whose engine, length, address and range are legal, in the main context and in a handler. -/
theorem exec_play_legal (h : s.canIssue anyPlace = true) (hu : engOf e = some u) (hl : len ≠ 0) (ha : (s.rd a).toNat % 2 = 0)
    (hr : (s.rd a).toNat + 6 * len.toNat ≤ playTop s) (ht : (s.rd a).toNat < 0x40000) : exec (.play e a b len) s = .next (
      if s.cur.shadow then
        if 4 ≤ (s.eng u).q.length then s.retryNext else (s.modEng u fun x => x.push (playEntry s a b len)).next1
      else if (s.eng u).ended then s.illegal (.play e a b len)
      else if 32 ≤ (s.eng u).counted s.clk then
        let s' := s.modMe fun c => { c with modes := c.modes.noteMiss }
        if s'.me.modes.trapMode then s'.takeFault (mkFault 0 0x07 (0x700 + e.toNat)) else s'.modCtx fun c => { c with wait := .play e.toNat }
      else (s.modEng u fun x => x.push (playEntry s a b len)).next1) := by
  have hrange : ¬ ((if s.cur.shadow then Config.scoreSize else Config.pilotHandler) < (s.rd a).toNat + 6 * len.toNat ∨
      Config.scoreSize ≤ (s.rd a).toNat) := not_or.2 ⟨Nat.not_lt.2 hr, Nat.not_le.2 ht⟩
  show execPlay e a b len s = _
  rw [execPlay, seqRun_issue h]
  simp only [hu, if_neg hl, ha, bne_self_eq_false, Bool.false_eq_true, if_false, Bool.or_eq_true, decide_eq_true_eq, hrange]
  rfl

theorem playAppends : Claims.PlayAppends := by
  intro s e u a b len h hu hl ha ht hr hlane hmain
  rw [exec_play_legal h hu hl ha hr ht]
  cases hs : s.cur.shadow
  · obtain ⟨hroom, hend⟩ := hmain hs
    rw [entriesHeld_eq] at hroom
    simp only [Bool.false_eq_true, if_false, hend, Nat.not_le.2 hroom]; rfl
  · simp only [if_true, Nat.not_le.2 (hlane hs), if_false]; rfl

theorem playFull : Claims.PlayFull := by
  intro s e u a b len h hs hu hl ha hr hfull hend s'
  have hl0 : len.toNat ≠ 0 := fun h0 => hl (BitVec.eq_of_toNat_eq h0)
  rw [entriesHeld_eq] at hfull
  rw [exec_play_legal h hu hl ha (by simpa [playTop, hs] using hr) (by omega)]
  have ht : s'.me.modes.trapMode = s.me.modes.trapMode := by simp [s', Modes.noteMiss]
  simp only [hs, hend, Bool.false_eq_true, if_false, hfull, if_true]
  rw [← ht]

/-- A PLAY with a defect that the rule's table lists: the highest is taken (log 22). -/
theorem exec_play_noEngine (h : s.canIssue anyPlace = true) (hu : engOf e = none) :
    exec (.play e a b len) s = .next (s.illegal (.play e a b len)) := by
  show execPlay e a b len s = _
  rw [execPlay, seqRun_issue h]; simp only [hu]
theorem exec_play_empty (h : s.canIssue anyPlace = true) (hu : engOf e = some u) (hl : len = 0) :
    exec (.play e a b len) s = .next (s.illegal (.play e a b len)) := by
  show execPlay e a b len s = _
  rw [execPlay, seqRun_issue h]; simp only [hu, if_pos hl]
theorem exec_play_misaligned (h : s.canIssue anyPlace = true) (hu : engOf e = some u) (hl : len ≠ 0) (ha : (s.rd a).toNat % 2 ≠ 0) :
    exec (.play e a b len) s = .next (s.takeFault (mkFault 0 0x03 (s.rd a).toNat)) := by
  show execPlay e a b len s = _
  rw [execPlay, seqRun_issue h]; simp only [hu, if_neg hl, bne_iff_ne, if_pos ha]; rfl
theorem exec_play_outside (h : s.canIssue anyPlace = true) (hu : engOf e = some u) (hl : len ≠ 0) (ha : (s.rd a).toNat % 2 = 0)
    (hr : playTop s < (s.rd a).toNat + 6 * len.toNat) : exec (.play e a b len) s = .next (s.takeFault (mkFault 0 0x05 (s.rd a).toNat)) := by
  have hrange : ((if s.cur.shadow then Config.scoreSize else Config.pilotHandler) < (s.rd a).toNat + 6 * len.toNat ∨
      Config.scoreSize ≤ (s.rd a).toNat) := .inl hr
  show execPlay e a b len s = _
  rw [execPlay, seqRun_issue h]
  simp only [hu, if_neg hl, ha, bne_self_eq_false, Bool.false_eq_true, if_false, Bool.or_eq_true, decide_eq_true_eq, if_pos hrange]

end Play

theorem playFaults : Claims.PlayFaults := by
  intro s e a b len h i x top illegal
  refine ⟨fun he => ?three, fun u hu => ⟨fun hl => exec_play_empty h hu hl, fun hl ha => exec_play_misaligned h hu hl ha,
    fun hl ha hr => exec_play_outside h hu hl ha hr, fun hl ha hr hs hend => ?ended⟩, fun he => ?engine⟩
  case three => subst he; exact exec_play_noEngine h rfl
  case ended =>
    have hl0 : len.toNat ≠ 0 := fun h0 => hl (BitVec.eq_of_toNat_eq h0)
    have ht : x < 0x40000 := by simp only [top, hs] at hr; simp at hr; omega
    refine (exec_play_legal h hu hl ha hr ht).trans ?_
    simp only [hs, hend, Bool.false_eq_true, if_false, if_true]; rfl
  case engine =>
    have hsome : ∀ e : BitVec 2, e ≠ 3 → (engOf e).isSome = true := by decide
    exact Option.isSome_iff_exists.1 (hsome e he)

/-! ## NOTIFY, HALT, CHKERR, TRAP, and words without an instruction (R50, R185, R226, R227, R229) -/

/-- An instruction of the main context alone issues there. -/
theorem shadow_of_mainOnly {s : State} (h : s.canIssue mainOnly = true) : s.cur.shadow = false := by
  cases hs : s.cur.shadow
  · rfl
  · simp [State.canIssue, State.placed, mainOnly, hs] at h

/-- A queue after HALT is at its end, and holds at most the word in issue. -/
theorem halt_ended (e : Engine) (now : Nat) : (e.halt now).ended = true ∧ (e.halt now).q.length ≤ 1 := by
  unfold Engine.halt
  split
  · split_ifs <;> simp
  · simp_all

theorem exec_halt {s : State} (h : s.canIssue mainOnly = true) :
    ∃ t, exec .halt s = .next t ∧ t.me.seq.ended = true ∧ (∀ e ∈ t.me.engs, e.ended = true ∧ e.q.length ≤ 1) ∧ t.me.run.halted = true ∧
      t.me.run.poisoned = (s.me.run.poisoned || s.me.modes.chkint) ∧ SameMemory s t := by
  have hs := shadow_of_mainOnly h
  refine ⟨_, (show execHalt s = _ by rw [execHalt, seqRun_issue h]), ?_⟩
  simp only [State.me_modMe, me_modCtx, me_next1, State.cur_next1, hs, Bool.false_eq_true, if_false]
  refine ⟨trivial, fun e he => ?_, trivial, rfl, sameMemory_of_bytes (by simp)⟩
  obtain ⟨e', -, rfl⟩ := List.mem_map.1 he
  exact halt_ended ..

theorem endsAndTraps : Claims.EndsAndTraps := by
  refine fun s code w => ⟨fun h => ⟨?notify, exec_halt h, ?trap⟩, fun h => ⟨fun hc => ?poison, fun hc => ?clean⟩, fun h => ?reserved⟩
  case notify => show execNotify s = _; rw [execNotify, seqRun_issue h]
  case trap => show execTrap code s = _; rw [execTrap, seqRun_issue h]
  case poison => show execChkerr s = _; rw [execChkerr, seqRun_issue h, if_pos hc]
  case clean => show execChkerr s = _; rw [execChkerr, seqRun_issue h, if_neg (by simp [hc])]
  case reserved => show execReservedSequencerEncoding w s = _; rw [execReservedSequencerEncoding, seqRun_issue h]; rfl

/-- Settles O22: each instruction and wait answers as the branch of its meaning that its case selects. -/
theorem waitsPassagesAndEnds : Obligations.WaitsPassagesAndEnds := ⟨waitsEnd, playAppends, playFull, playFaults, endsAndTraps⟩

end Sys2Proof.Machine

namespace Sys2Proof.Machine

/-! ## What a hold and a fault change (R29, R30, R136, R138, R140, R141) -/

/-- Whether a hold of a cause stops core c with its delay slot still due (R136). -/
def slotStays (c : Core) (cause : Nat) : Bool := (cause = 2 || cause = 3) && c.seq.slot.isSome && c.seq.wait = .none && c.seq.next ≤ c.run.g

/-- A core stopped as a source. -/
def stoppedAs (c : Core) (cause : Nat) (aw : Option Await) : Core :=
  { c with run := { c.run with stop := some { slotDue := slotStays c cause, source := true, await := aw, until_ := none }, held := 0 } }

/-- A source stops, and no other core is touched by the step that makes it one. -/
theorem cores_startHold (s : State) (k cause : Nat) (aw : Option Await) :
    (s.startHold k cause aw).cores = (s.setCore k (stoppedAs (s.core k) cause aw)).cores := by
  unfold State.startHold
  dsimp only
  split <;> rfl
theorem core_startHold (s : State) (k cause : Nat) (aw : Option Await) : (s.startHold k cause aw).core k = stoppedAs (s.core k) cause aw := by
  rw [State.core, cores_startHold]; exact State.core_setCore ..
theorem core_startHold_other (s : State) {k j : Nat} (cause : Nat) (aw : Option Await) (h : j ≠ k) : (s.startHold k cause aw).core j = s.core j := by
  rw [State.core, cores_startHold]; exact State.core_setCore_other _ _ _ _ h

/-- A fault in the main context: the handler is made ready, and the core stops as a source. -/
theorem me_takeFault_main {s : State} (f : FaultRec) (hs : s.cur.shadow = false) : (s.takeFault f).me =
    stoppedAs (s.me.enterHandler f (s.tide + 1)) 0 none := by
  have h : s.takeFault f = s.faultMain s.cur.core f := by rw [State.takeFault, hs]; rfl
  rw [State.me, State.cur_takeFault, h]
  exact (core_startHold ..).trans (congrArg (stoppedAs · 0 none) (State.core_modCore ..))
theorem core_takeFault_main_other {s : State} (f : FaultRec) (hs : s.cur.shadow = false) {j : Nat} (h : j ≠ s.cur.core) :
    (s.takeFault f).core j = s.core j := by
  simp only [State.takeFault, hs, Bool.false_eq_true, if_false]
  exact (core_startHold_other _ _ _ h).trans (State.core_modCore_other _ _ _ _ h)

/-- A fault in the shadow context: the Pilot firmware's handler starts, or its gang is marked (R143, log 84). -/
theorem me_takeFault_shadow {s : State} (f : FaultRec) (hs : s.cur.shadow = true) : (s.takeFault f).me =
    if s.me.hnd.pilot then { s.me with hnd := { s.me.hnd with fatal := true } }
    else { s.me with hnd := { s.me.hnd with pilot := true, entry := s.tide + 1, active := false }
                     sh := { s.me.sh with pc := s.me.entryOf true, slot := none, wait := .none, next := s.tide + 1 }
                     lanes := List.replicate 3 Engine.zero
                     mtx := { s.me.mtx with laneDrain := none, laneReads := none }, laneDread := none } := by
  have h : s.takeFault f = s.escalate s.cur.core := by rw [State.takeFault, hs]; rfl
  rw [State.me, State.cur_takeFault, h]
  exact State.core_modCore ..

/-- Whether HCTL routes a code to the timetable's handler (R140). -/
theorem routed_iff (c : Core) (cause : Nat) : c.routed cause = true ↔ c.params.hentry ≠ 0 ∧
    ((cause = 0x20 ∧ c.params.hmask.getLsbD 0 = true) ∨ (1 ≤ cause ∧ cause ≤ 0x10 ∧ c.params.hmask.getLsbD cause = true)) := by
  unfold Core.routed
  by_cases h : cause = 0x20
  · subst h; simp
  · simp [h, and_assoc]

/-- TREC for a fault of the sequencer (R138). -/
theorem trecFor_sequencer (c : Core) {f : FaultRec} (hu : f.unit = 0) : c.trecFor f =
    { cause := BitVec.ofNat 8 f.cause, sub := BitVec.ofNat 8 f.sub, ds := c.seq.slot.isSome, lat := f.lat, unit := 0,
      pc := match c.seq.slot with | some sl => sl.brPc | none => c.seq.pc, paddr := 0, widx := 0, rep := 0,
      info := BitVec.ofNat 64 f.info, gstop := BitVec.ofNat 64 c.run.g } := by
  simp only [Core.trecFor, hu, decide_true, Bool.true_and, if_true]
  cases c.seq.slot <;> rfl

theorem faultEntry : Claims.FaultEntry := by
  intro s f hs hu t own routed
  have hr : routed ↔ s.me.routed f.cause = true := (routed_iff ..).symm
  have hm : t.me = _ := me_takeFault_main f hs
  rw [hm]
  refine ⟨trecFor_sequencer _ hu, rfl, ?_, rfl, rfl, fun h => ?_, fun h => ?_⟩
  · simp only [Core.enterHandler, trecFor_sequencer _ hu]; rfl
  · simp only [Core.enterHandler, hr.1 h, Bool.not_true]; exact ⟨rfl, rfl⟩
  · simp only [Core.enterHandler, Bool.eq_false_iff.2 (mt hr.2 h), Bool.not_false]; exact ⟨rfl, rfl⟩

theorem faultFrame : Claims.FaultFrame := by
  intro s f hs t
  have hm : t.me = _ := me_takeFault_main f hs
  rw [hm]
  exact ⟨fun _ => rfl, fun _ => rfl, rfl, rfl, rfl, rfl, rfl, rfl, rfl, rfl, sameMemory_of_bytes (bytes_takeFault ..),
    fun k hk => core_takeFault_main_other f hs hk⟩

theorem faultInHandler : Claims.FaultInHandler := by
  intro s f hs
  rw [me_takeFault_shadow f hs]
  cases s.me.hnd.pilot <;> simp [Core.entryOf, Config.pilotHandler]

/-- Settles O27: what a fault writes and leaves, in the main context and in a handler. -/
theorem faults : Obligations.Faults := ⟨faultEntry, faultFrame, faultInHandler⟩

end Sys2Proof.Machine

namespace Sys2Proof.Machine

/-! ## Bytes after pieces (R39, R57, R79) -/

@[simp] theorem overlay_nil (a : Nat) (b : Byte) : overlay [] a b = b := rfl
theorem overlay_append (ps qs : List Piece) (a : Nat) (b : Byte) : overlay (ps ++ qs) a b = overlay qs a (overlay ps a b) := List.foldl_append ..
theorem overlay_cons (p : Piece) (ps : List Piece) (a : Nat) (b : Byte) : overlay (p :: ps) a b = overlay ps a (overlay [p] a b) := rfl
theorem overlay_singleton (p : Piece) (a : Nat) (b : Byte) :
    overlay [p] a b = if p.addr ≤ a ∧ a < p.addr + p.bytes.length then lget p.bytes (a - p.addr) 0 else b := by
  simp [overlay]

/-- A byte of memory after pieces are written. -/
theorem mread_foldl_mwriteP {m : Memory} (h : m.wf = true) (ps : List Piece) (a : Nat) : mread (ps.foldl mwriteP m) a = overlay ps a (mread m a) := by
  induction ps generalizing m with
  | nil => rfl
  | cons p r ih => rw [List.foldl_cons, ih (mwriteP_wf h), mwriteP, mread_mwriteL h, ← overlay_singleton]; rfl

/-- Inside a piece the byte is the piece's, and outside it what it was. -/
theorem overlay_inside {p : Piece} {i : Nat} (b : Byte) (h : i < p.bytes.length) : overlay [p] (p.addr + i) b = lget p.bytes i 0 := by
  rw [overlay_singleton, if_pos (by omega), Nat.add_sub_cancel_left]
theorem overlay_outside {p : Piece} {a : Nat} (b : Byte) (h : a < p.addr ∨ p.addr + p.bytes.length ≤ a) : overlay [p] a b = b := by
  rw [overlay_singleton, if_neg (by omega)]

/-! ## ARMED of the served sync objects (R79; log 66) -/

/-- A piece without a run leaves the run's bytes, and makes the others. -/
theorem overlay_without (p : Piece) (x n a : Nat) (b : Byte) :
    overlay (p.without x n) a b = if x ≤ a ∧ a < x + n then b else overlay [p] a b := by
  have hlow : overlay (if p.addr < x then [{ p with bytes := p.bytes.take (x - p.addr) }] else []) a b =
      if a < x then overlay [p] a b else b := by
    split_ifs with h1 h2 h2
    · simp only [overlay_singleton, List.length_take, lget_eq_getD, List.getD_eq_getElem?_getD, List.getElem?_take]
      split_ifs <;> first | rfl | omega
    · rw [overlay_outside _ (by simp only [List.length_take]; omega)]
    · rw [overlay_nil, overlay_outside _ (by omega)]
    · rfl
  have hhigh (c : Byte) : overlay (if x + n < p.addr + p.bytes.length then
      [{ p with addr := Nat.max p.addr (x + n), bytes := p.bytes.drop (x + n - p.addr) }] else []) a c =
      if x + n ≤ a then overlay [p] a c else c := by
    have hmax : Nat.max p.addr (x + n) = p.addr + (x + n - p.addr) := by
      rcases le_total p.addr (x + n) with h | h
      · rw [show Nat.max p.addr (x + n) = x + n from max_eq_right h]; omega
      · rw [show Nat.max p.addr (x + n) = p.addr from max_eq_left h]; omega
    split_ifs with h1 h2 h2
    · simp only [overlay_singleton, List.length_drop, lget_eq_getD, List.getD_eq_getElem?_getD, List.getElem?_drop, hmax]
      by_cases hin : p.addr ≤ a ∧ a < p.addr + p.bytes.length
      · rw [if_pos hin, if_pos (by omega), show x + n - p.addr + (a - (p.addr + (x + n - p.addr))) = a - p.addr by omega]
      · rw [if_neg hin, if_neg (by omega)]
    · rw [overlay_outside _ (by simp only [hmax]; omega)]
    · rw [overlay_nil, overlay_outside _ (by omega)]
    · rfl
  rw [Piece.without, overlay_append, hlow, hhigh]
  split_ifs <;> first | rfl | omega

/-- Pieces replaced one by one, where a condition tells whether a byte is left alone. -/
theorem overlay_flatMap {f : Piece → List Piece} {a : Nat} {c : Prop} [Decidable c]
    (h : ∀ p b, overlay (f p) a b = if c then b else overlay [p] a b) (ps : List Piece) (b : Byte) :
    overlay (ps.flatMap f) a b = if c then b else overlay ps a b := by
  induction ps generalizing b with
  | nil => simp
  | cons p r ih => rw [List.flatMap_cons, overlay_append, h, ih, overlay_cons p r]; split_ifs <;> rfl

open Classical in
/-- What is written of a piece at a home leaves ARMED of every served object there, and makes every other byte. -/
theorem overlay_cutArmed (s : State) (tgt a : Nat) (p : Piece) (b : Byte) :
    overlay (s.cutArmed tgt p) a b = if Claims.keptArmed s tgt a then b else overlay [p] a b := by
  have hfold (l : List (Nat × Nat)) (ps : List Piece) : overlay (l.foldl (fun ps (t, x) =>
      if t = tgt then ps.flatMap fun (q : Piece) => if q.addr < x + 10 && x + 8 < q.addr + q.bytes.length then q.without (x + 8) 2 else [q]
      else ps) ps) a b = if ∃ x ∈ l, x.1 = tgt ∧ x.2 + 8 ≤ a ∧ a < x.2 + 10 then b else overlay ps a b := by
    induction l generalizing ps with
    | nil => simp
    | cons y r ih =>
      obtain ⟨t, x⟩ := y
      rw [List.foldl_cons, ih]
      have hstep : overlay (if t = tgt then ps.flatMap fun (q : Piece) =>
          if q.addr < x + 10 && x + 8 < q.addr + q.bytes.length then q.without (x + 8) 2 else [q] else ps) a b =
          if t = tgt ∧ x + 8 ≤ a ∧ a < x + 10 then b else overlay ps a b := by
        by_cases ht : t = tgt
        · simp only [ht, if_true, true_and]
          refine overlay_flatMap (fun q c => ?_) ps b
          split_ifs with hm hc hc
          · rw [overlay_without, if_pos hc]
          · rw [overlay_without, if_neg hc]
          · rw [Bool.and_eq_true, decide_eq_true_eq, decide_eq_true_eq] at hm
            exact overlay_outside _ (by omega)
          · rfl
        · simp only [ht, if_false, false_and]
      rw [hstep]
      by_cases hr : ∃ x ∈ r, x.1 = tgt ∧ x.2 + 8 ≤ a ∧ a < x.2 + 10
      · rw [if_pos hr, if_pos (List.exists_mem_cons_iff ..|>.2 (.inr hr))]
      · rw [if_neg hr]
        exact if_congr (by rw [List.exists_mem_cons_iff, or_iff_left hr]) rfl rfl
  exact (hfold s.mem.syncs [p]).trans (if_congr Iff.rfl rfl rfl)

/-! ## Writes at HBM (R75, R82) -/

/-- A byte of HBM after pieces of one write. -/
theorem gByte_gWrite {s : State} (h : Memory.wf s.mem.hbm = true) (ps : List Piece) (a : Nat) :
    (s.gWrite 0 ps).gByte 0 a = overlay (ps.flatMap (s.cutArmed 0)) a (s.gByte 0 a) := mread_foldl_mwriteP h _ a

/-- An armed wait is among those that its object's bytes meet. -/
theorem armedAt_eq_nil_iff (s : State) (t a n : Nat) : s.armedAt t a n = [] ↔
    ∀ o ∈ s.gops, ∀ x v, o.kind = .wait t x v → o.armed = true → o.done = false → ¬ (x < a + n ∧ a < x + 8) := by
  rw [State.armedAt, List.filterMap_eq_nil_iff]
  refine forall₂_congr fun o _ => ?_
  cases hk : o.kind <;> simp
  rename_i t' x v
  by_cases ht : t' = t
  · subst ht; simp
  · simp [ht]

/-- Where no armed wait is met, an update wakes none. -/
theorem wakeWaits_none {s : State} {t a n : Nat} (h : s.armedAt t a n = []) : s.wakeWaits t a n = s := by
  rw [armedAt_eq_nil_iff] at h
  simp only [State.wakeWaits]
  rw [if_pos]
  rw [List.isEmpty_iff, List.filterMap_eq_nil_iff]
  intro o ho
  obtain ⟨hmem, hhit⟩ := List.mem_filter.1 ho
  cases hk : o.kind with
  | wait t' x v =>
    simp only [hk, Bool.and_eq_true, decide_eq_true_eq, Bool.not_eq_true'] at hhit
    obtain ⟨⟨⟨⟨⟨ha, hd⟩, rfl⟩, hx⟩, hx'⟩, -⟩ := hhit
    exact absurd ⟨hx, hx'⟩ (h o hmem x v hk ha hd)
  | _ => simp [hk] at hhit

/-- One piece written at HBM where no wait is armed. -/
theorem writeHome_hbm {s : State} {p : Piece} (h : s.armedAt 0 p.addr p.bytes.length = []) : s.writeHome [(0, p)] = s.gWrite 0 [p] :=
  wakeWaits_none (s := s.gWrite 0 [p]) h

/-- The waits armed after an operation is gone were armed before. -/
theorem armedAt_dropOp {s : State} {t a n : Nat} (id : Nat) (h : s.armedAt t a n = []) : (s.dropOp id).armedAt t a n = [] := by
  rw [armedAt_eq_nil_iff] at h ⊢
  exact fun o ho => h o (List.mem_of_mem_filter ho)

/-! ## The events of a home -/

/-- An operation that is due and of the event's kind is performed. -/
theorem homeEvent_ready {s : State} {o : GOp} {allow : GOp → Bool} (h : s.theOp = some o) (hr : s.opReady o = true) (ha : allow o = true) :
    s.homeEvent allow = .next (s.performOp o) := by simp only [State.homeEvent, h, ha, hr, Bool.and_self, if_true]; rfl

theorem exec_globalWritePerformed {s : State} {o : GOp} {ps : List (Nat × Piece)} (h : s.theOp = some o) (hr : s.opReady o = true)
    (hk : o.kind = .write ps) : exec .globalWritePerformed s = .next (s.performOp o) := by
  show execGlobalWritePerformed s = _
  exact homeEvent_ready h hr (by rw [hk])

theorem exec_homeUpdate {s : State} {o : GOp} (h : s.theOp = some o) (hr : s.opReady o = true)
    (hk : (∃ t a, o.kind = .srel t a) ∨ (∃ t a v, o.kind = .wait t a v) ∨ (∃ t a f z x y r, o.kind = .atomic t a f z x y r)) :
    exec .homeUpdate s = .next (s.performOp o) := by
  show execHomeUpdate s = _
  refine homeEvent_ready h hr ?_
  rcases hk with ⟨_, _, hk⟩ | ⟨_, _, _, hk⟩ | ⟨_, _, _, _, _, _, _, hk⟩ <;> rw [hk]

@[simp] theorem gops_endSource (s : State) (k : Nat) : (s.endSource k).gops = s.gops := by unfold State.endSource; split <;> rfl

theorem exec_globalReadArrival {s : State} {o : GOp} {rs : List (Nat × Nat × Nat)} (h : s.theOp = some o) (hr : s.opReady o = true)
    (hk : o.kind = .read rs) : ∃ t, exec .globalReadArrival s = .next t ∧ t.gops = (s.performOp o).gops := by
  show ∃ t, execGlobalReadArrival s = _ ∧ _
  simp only [execGlobalReadArrival, h, hk, hr, Bool.not_true, Bool.false_eq_true, if_false]
  split
  · split_ifs
    · exact ⟨_, rfl, gops_endSource ..⟩
    · exact ⟨_, rfl, rfl⟩
  · exact ⟨_, rfl, rfl⟩

theorem homesPerform : Claims.HomesPerform := by
  refine fun s o h hr => ⟨fun ⟨ps, hk⟩ => exec_globalWritePerformed h hr hk, fun ⟨rs, hk⟩ => ?read, exec_homeUpdate h hr⟩
  obtain ⟨t, he, hg⟩ := exec_globalReadArrival h hr hk
  refine ⟨t, he, fun p hp hid => ?_⟩
  rw [hg, State.performOp, hk] at hp
  obtain ⟨q, -, rfl⟩ := List.mem_map.1 hp
  dsimp only at hid ⊢
  split_ifs at hid ⊢ with hq
  · rfl
  · exact absurd hid hq

theorem globalWriteBytes : Claims.GlobalWriteBytes := by
  intro s o p h hr hk hw ha
  refine ⟨_, exec_globalWritePerformed h hr hk, ?_⟩
  have hperf : s.performOp o = (s.dropOp o.id).gWrite 0 [p] := by
    rw [State.performOp, hk]
    exact writeHome_hbm (armedAt_dropOp _ ha)
  have hbyte (a : Nat) : (s.performOp o).gByte 0 a = overlay (s.cutArmed 0 p) a (s.gByte 0 a) := by
    rw [hperf, gByte_gWrite (s := s.dropOp o.id) hw, List.flatMap_singleton]; rfl
  refine ⟨fun i hi hn => ?_, fun a hout => ?_⟩
  · rw [hbyte, overlay_cutArmed, if_neg hn, overlay_inside _ hi]
  · rw [hbyte, overlay_cutArmed]
    split_ifs with hkept
    · rfl
    · exact overlay_outside _ (by tauto)

/-! ## Numbers at HBM -/

/-- Bytes read one by one are the list that they come from. -/
theorem gRead_eq {s : State} {t a : Nat} {bs : List Byte} (h : ∀ i, i < bs.length → s.gByte t (a + i) = lget bs i 0) :
    s.gRead t a bs.length = bs := by
  refine List.ext_getElem (by simp [State.gRead]) fun i hi _ => ?_
  have hi : i < bs.length := by simpa [State.gRead] using hi
  simp [State.gRead, h i hi, lget_eq_getD, hi]

theorem gNat_eq {s : State} {t a n v : Nat} (h : ∀ i, i < n → s.gByte t (a + i) = lget (leBytes n v) i 0) : s.gNat t a n = v % 2 ^ (8 * n) := by
  have := gRead_eq (s := s) (t := t) (a := a) (bs := leBytes n v) (by simpa using h)
  rw [length_leBytes] at this
  rw [State.gNat, this, leNat_leBytes]

theorem gNat_congr {s t : State} {l a n : Nat} (h : ∀ i, i < n → s.gByte l (a + i) = t.gByte l (a + i)) : s.gNat l a n = t.gNat l a n := by
  simp only [State.gNat, State.gRead]
  exact congrArg leNat (List.map_congr_left fun i hi => h i (List.mem_range.1 hi))

/-! ## A release at its home (R79, R80) -/

/-- Where no wait is armed at an object, none of the operations is counted for it. -/
theorem countP_armed_eq_zero {s : State} {t a : Nat} (h : s.armedAt t a 8 = []) {f : GOp → Bool}
    (hf : ∀ o, f o = true → ∃ v, o.kind = .wait t a v ∧ o.armed = true ∧ o.done = false) : s.gops.countP f = 0 := by
  rw [armedAt_eq_nil_iff] at h
  refine List.countP_eq_zero.2 fun o ho hfo => ?_
  obtain ⟨v, hk, ha, hd⟩ := hf o hfo
  exact h o ho a v hk ha hd ⟨by omega, by omega⟩

/-- There an operation that goes changes no count. -/
theorem armedCount_dropOp {s : State} {t a : Nat} (id : Nat) (h : s.armedAt t a 8 = []) : (s.dropOp id).armedCount t a = s.armedCount t a := by
  refine congrArg₂ (· + ·) ((countP_armed_eq_zero (armedAt_dropOp id h) fun o ho => ?_).trans
    (countP_armed_eq_zero h fun o ho => ?_).symm) rfl
  all_goals
    revert ho
    cases o.kind <;> simp
    rintro h1 h2 rfl rfl
    exact ⟨⟨rfl, rfl⟩, h1, h2⟩

/-- HBM after the home has served an object: ARMED holds the number of its armed waits, and every other byte stands. -/
theorem serveSync_hbm {s : State} (hw : Memory.wf s.mem.hbm = true) (a : Nat) :
    (s.serveSync 0 a).gNat 0 (a + 8) 2 = s.armedCount 0 a % 2 ^ 16 ∧
    (∀ x, x < a + 8 ∨ a + 10 ≤ x → (s.serveSync 0 a).gByte 0 x = s.gByte 0 x) ∧
    Memory.wf (s.serveSync 0 a).mem.hbm = true ∧ (s.serveSync 0 a).gops = s.gops ∧
    ∀ y ∈ (s.serveSync 0 a).mem.syncs, y = (0, a) ∨ y ∈ s.mem.syncs := by
  set u : State := if s.mem.syncs.contains (0, a) then s else { s with mem := { s.mem with syncs := (0, a) :: s.mem.syncs } } with hu
  have hhbm : u.mem.hbm = s.mem.hbm := by rw [hu]; split_ifs <;> rfl
  have hbyte (x : Nat) : u.gByte 0 x = s.gByte 0 x := by simp only [State.gByte, if_true, hhbm]
  have hcount : u.armedCount 0 a = s.armedCount 0 a := by rw [hu]; split_ifs <;> rfl
  have hgops : u.gops = s.gops := by rw [hu]; split_ifs <;> rfl
  have hsync : ∀ y ∈ u.mem.syncs, y = (0, a) ∨ y ∈ s.mem.syncs := by
    rw [hu]; split_ifs
    · exact fun y hy => .inr hy
    · exact fun y hy => List.mem_cons.1 hy
  show (u.noteArmed 0 a).gNat _ _ _ = _ ∧ (∀ x, _ → (u.noteArmed 0 a).gByte 0 x = _) ∧ _ ∧ (u.noteArmed 0 a).gops = _ ∧ _
  by_cases heq : u.gNat 0 (a + 8) 2 = u.armedCount 0 a % 65536
  · have hn : u.noteArmed 0 a = u := by simp only [State.noteArmed, if_pos heq]
    change _ ∧ _ ∧ Memory.wf (u.noteArmed 0 a).mem.hbm = true ∧ _ ∧ ∀ y ∈ (u.noteArmed 0 a).mem.syncs, _
    rw [hn, hhbm]
    exact ⟨heq.trans (congrArg (· % 65536) hcount), fun x _ => hbyte x, hw, hgops, hsync⟩
  · set p : Piece := { addr := a + 8, bytes := leBytes 2 (u.armedCount 0 a), poison := false } with hp
    have hn : u.noteArmed 0 a = { u with mem := { u.mem with hbm := mwriteP u.mem.hbm p } } := by
      simp only [State.noteArmed, if_neg heq]; rfl
    change _ ∧ _ ∧ Memory.wf (u.noteArmed 0 a).mem.hbm = true ∧ _ ∧ ∀ y ∈ (u.noteArmed 0 a).mem.syncs, _
    have hb (x : Nat) : (u.noteArmed 0 a).gByte 0 x = overlay [p] x (s.gByte 0 x) := by
      rw [hn, ← hbyte]; exact mread_foldl_mwriteP (ps := [p]) (by rw [hhbm]; exact hw) x
    refine ⟨?_, fun x hx => ?_, ?_, by rw [hn]; exact hgops, by rw [hn]; exact hsync⟩
    · rw [gNat_eq (v := u.armedCount 0 a) fun i hi => ?_, hcount]
      rw [hb]; exact overlay_inside (p := p) _ (by simpa [hp] using hi)
    · rw [hb]; exact overlay_outside _ (by simpa [hp] using hx)
    · rw [hn]; exact mwriteP_wf (by rw [hhbm]; exact hw)

theorem releaseAddsOne : Claims.ReleaseAddsOne := by
  intro s o a h hr hk hw ha hal hala
  refine ⟨_, exec_homeUpdate h hr (.inl ⟨_, _, hk⟩), ?_⟩
  set d := s.dropOp o.id with hd
  obtain ⟨harm, hrest, hwf, hgops, hsyncs⟩ := serveSync_hbm (s := d) hw a
  set u := d.serveSync 0 a with hu
  set p : Piece := { addr := a, bytes := leBytes 8 ((s.gNat 0 a 8 + 1) % 2 ^ 64), poison := false } with hp
  have hpl : p.bytes.length = 8 := length_leBytes ..
  have hdarm : d.armedAt 0 a 8 = [] := armedAt_dropOp _ ha
  have huarm : u.armedAt 0 p.addr p.bytes.length = [] := by
    rw [hpl]; simpa only [State.armedAt, hgops] using hdarm
  have hperf : s.performOp o = u.gWrite 0 [p] := by
    rw [State.performOp, hk]; exact writeHome_hbm huarm
  have hfree (x : Nat) (hx : x < a + 8) (hx' : a ≤ x) : ¬ Claims.keptArmed u 0 x := by
    rintro ⟨y, hy, -, h1, h2⟩
    rcases hsyncs y hy with rfl | hy
    · exact absurd h1 (by simpa using hx)
    · have := hal y hy; omega
  have hbyte (x : Nat) : (s.performOp o).gByte 0 x = overlay (u.cutArmed 0 p) x (u.gByte 0 x) := by
    rw [hperf, gByte_gWrite hwf, List.flatMap_singleton]
  have hout (x : Nat) (hx : x < a ∨ a + 8 ≤ x) : (s.performOp o).gByte 0 x = u.gByte 0 x := by
    rw [hbyte, overlay_cutArmed]
    split_ifs
    · rfl
    · exact overlay_outside _ (by rw [hpl]; exact hx)
  refine ⟨?version, ?armed, fun x hx => ?_⟩
  case version =>
    rw [gNat_eq (v := (s.gNat 0 a 8 + 1) % 2 ^ 64) fun i hi => ?_]
    · exact Nat.mod_eq_of_lt (Nat.mod_lt _ (by decide))
    · rw [hbyte, overlay_cutArmed, if_neg (hfree _ (by omega) (by omega))]
      exact overlay_inside (p := p) _ (by rw [hpl]; exact hi)
  case armed =>
    rw [gNat_congr fun i hi => hout _ (by omega), harm, armedCount_dropOp _ ha]
  · rw [hout _ (by omega), hrest _ (by omega)]; rfl

/-! ## Atomics (R83) -/

/-- A pattern of w bits read as a signed number. -/
theorem toVal_signed {w v : Nat} (h : v < 2 ^ w) : toVal w true v = if v < 2 ^ (w - 1) then (v : Int) else (v : Int) - 2 ^ w := by
  rw [toVal, Nat.mod_eq_of_lt h]
  by_cases hs : 2 ^ (w - 1) ≤ v
  · simp [hs, Nat.not_lt.2 hs]
  · simp [hs, Nat.not_le.1 hs]

theorem atomicValues : Claims.AtomicValues := by
  intro size old x cmp _ ho hx sg
  have hold : toVal (8 * size) true old = sg old := toVal_signed ho
  have hxv : toVal (8 * size) true x = sg x := toVal_signed hx
  refine ⟨rfl, ?smin, ?smax, ?umin, ?umax, rfl, rfl, rfl, rfl, rfl⟩
  case smin => simp only [atomicNew, hold, hxv]; split_ifs <;> omega
  case smax => simp only [atomicNew, hold, hxv]; split_ifs <;> omega
  case umin => simp only [atomicNew]; split_ifs <;> omega
  case umax => simp only [atomicNew]; split_ifs <;> omega

/-- Settles O26: what a home performs, byte by byte at HBM, and each atomic's new value. -/
theorem homes : Obligations.Homes := ⟨homesPerform, globalWriteBytes, releaseAddsOne, atomicValues⟩

end Sys2Proof.Machine

namespace Sys2Proof.Machine

/-! ## What a landing leaves (R30, R39, R270) -/

/-- A core without what a landing may change besides the bytes or the entry that land: its matrix array, its effects in flight, what has
landed on this cycle, CHKINT, and how it is stopped. -/
def Core.besidesLanding (c : Core) : Core :=
  { c with mtx := Mtx.reset, pend := [], landed := [], modes := { c.modes with chkint := false }, run := { c.run with stop := none } }

/-- A state without what a landing may change so: these of every core, the gangs' holds, the operations at homes, and the model's counters. -/
def State.besidesLanding (s : State) : State × (Nat → Core) :=
  ({ s with cores := [], gangs := [], gops := [], nextId := 0, free := 0 }, fun k => (s.core k).besidesLanding)

theorem core_of_besidesLanding {s t : State} (h : t.besidesLanding = s.besidesLanding) (k : Nat) :
    (t.core k).besidesLanding = (s.core k).besidesLanding := congrFun (congrArg Prod.snd h) k
theorem mem_of_besidesLanding {s t : State} (h : t.besidesLanding = s.besidesLanding) : t.mem = s.mem := congrArg (fun x => x.1.mem) h
theorem cur_of_besidesLanding {s t : State} (h : t.besidesLanding = s.besidesLanding) : t.cur = s.cur := congrArg (fun x => x.1.cur) h
theorem tide_of_besidesLanding {s t : State} (h : t.besidesLanding = s.besidesLanding) : t.tide = s.tide := congrArg (fun x => x.1.tide) h
theorem me_of_besidesLanding {s t : State} (h : t.besidesLanding = s.besidesLanding) : t.me.besidesLanding = s.me.besidesLanding := by
  rw [State.me, cur_of_besidesLanding h]; exact core_of_besidesLanding h _
theorem sp1_of_besidesLanding {c d : Core} (h : d.besidesLanding = c.besidesLanding) : d.mem.sp1 = c.mem.sp1 := congrArg (fun c => c.mem.sp1) h
theorem seq_of_besidesLanding {c d : Core} (h : d.besidesLanding = c.besidesLanding) : d.seq = c.seq :=
  (congrArg Core.seq h : d.besidesLanding.seq = c.besidesLanding.seq)
theorem vec_of_besidesLanding {c d : Core} (h : d.besidesLanding = c.besidesLanding) : d.vec = c.vec :=
  (congrArg Core.vec h : d.besidesLanding.vec = c.besidesLanding.vec)
theorem chans_of_besidesLanding {c d : Core} (h : d.besidesLanding = c.besidesLanding) : d.chans = c.chans :=
  (congrArg Core.chans h : d.besidesLanding.chans = c.besidesLanding.chans)
theorem bytes_of_besidesLanding {s t : State} (h : t.besidesLanding = s.besidesLanding) : t.bytes = s.bytes :=
  Prod.ext (mem_of_besidesLanding h) (funext fun k => sp1_of_besidesLanding (core_of_besidesLanding h k))

@[simp] theorem besidesLanding_modCore {s : State} {k : Nat} {f : Core → Core} (h : (f (s.core k)).besidesLanding = (s.core k).besidesLanding) :
    (s.modCore k f).besidesLanding = s.besidesLanding := by
  refine Prod.ext rfl (funext fun j => ?_)
  by_cases hj : j = k
  · subst hj; exact (congrArg Core.besidesLanding (State.core_modCore ..)).trans h
  · exact congrArg Core.besidesLanding (State.core_modCore_other _ _ _ _ hj)

/-- The same change of a core, made in states that are alike but for what a landing may change. -/
theorem besidesLanding_modCore_congr {s t : State} {k : Nat} {f : Core → Core} (h : t.besidesLanding = s.besidesLanding)
    (hf : ∀ c d : Core, c.besidesLanding = d.besidesLanding → (f c).besidesLanding = (f d).besidesLanding) :
    (t.modCore k f).besidesLanding = (s.modCore k f).besidesLanding := by
  refine Prod.ext (congrArg Prod.fst h : t.besidesLanding.1 = s.besidesLanding.1) (funext fun j => ?_)
  show ((t.modCore k f).core j).besidesLanding = ((s.modCore k f).core j).besidesLanding
  by_cases hj : j = k
  · subst hj; rw [State.core_modCore, State.core_modCore]; exact hf _ _ (core_of_besidesLanding h j)
  · rw [State.core_modCore_other _ _ _ _ hj, State.core_modCore_other _ _ _ _ hj]; exact core_of_besidesLanding h j

@[simp] theorem besidesLanding_dropOp (s : State) (id : Nat) : (s.dropOp id).besidesLanding = s.besidesLanding := rfl
@[simp] theorem besidesLanding_modGang (s : State) (b : Nat) (f : Gang → Gang) : (s.modGang b f).besidesLanding = s.besidesLanding := rfl

@[simp] theorem besidesLanding_endPend (s : State) (p : Pend) : (s.endPend p).besidesLanding = s.besidesLanding := by
  have h : (s.modMe fun c => { c with pend := c.pend.filter fun q => q.id != p.id }).besidesLanding = s.besidesLanding :=
    besidesLanding_modCore rfl
  unfold State.endPend
  dsimp only
  split <;> exact h
@[simp] theorem besidesLanding_endSource (s : State) (k : Nat) : (s.endSource k).besidesLanding = s.besidesLanding := by
  unfold State.endSource
  split
  · exact besidesLanding_modCore rfl
  · exact besidesLanding_modGang ..
@[simp] theorem besidesLanding_checkAwait (s : State) (k : Nat) : (s.checkAwait k).besidesLanding = s.besidesLanding := by
  unfold State.checkAwait
  split
  · split
    · split_ifs
      · exact besidesLanding_endSource ..
      · rfl
    · rfl
  · rfl

/-! ## A matrix word that reads anew (R270) -/

@[simp] theorem besidesLanding_wordFlags (s : State) (k : Nat) (lane : Bool) (e : Nat) (f : BitVec 5) :
    (s.wordFlags k lane e f).besidesLanding = s.besidesLanding :=
  besidesLanding_modCore (s := s) (k := k) (f := fun c => { c with pend := _ }) rfl
@[simp] theorem besidesLanding_drainAnew (s m : State) (k : Nat) (d : Drain) (e : Nat) : (s.drainAnew m k d e).besidesLanding = s.besidesLanding := by
  simp only [State.drainAnew, besidesLanding_wordFlags]
  split <;> exact besidesLanding_modCore rfl
@[simp] theorem besidesLanding_formAnew (s m : State) (k : Nat) (lane : Bool) (r : Reading) : (s.formAnew m k lane r).besidesLanding = s.besidesLanding := by
  simp only [State.formAnew]
  split_ifs
  · split
    · exact besidesLanding_drainAnew ..
    · rfl
  · exact besidesLanding_modCore rfl
  · exact besidesLanding_modCore rfl
  · rw [besidesLanding_wordFlags]; exact besidesLanding_modCore rfl
@[simp] theorem besidesLanding_reread (s : State) (k : Nat) (was : Memory) (lane : Bool) : (s.reread k was lane).besidesLanding = s.besidesLanding := by
  unfold State.reread
  dsimp only
  split
  · rfl
  · refine (apply_ite State.besidesLanding ..).trans ((if_congr Iff.rfl rfl ?_).trans (ite_self _))
    rw [besidesLanding_formAnew]
    split
    · exact (besidesLanding_modCore rfl).trans (besidesLanding_modCore rfl)
    · exact besidesLanding_modCore rfl

/-- With no word in its occupancy there is none to read anew. -/
theorem reread_none {s : State} {k : Nat} {was : Memory} {lane : Bool} (h : (s.core k).mtx.readingOf lane = none) : s.reread k was lane = s := by
  simp only [State.reread, h]

/-! ## Writes into the scratchpads (R39, R261) -/

theorem noteLanded_besides (c : Core) (p : Pend) (lvl : Nat) (ps : List Piece) : (c.noteLanded p lvl ps).besidesLanding = c.besidesLanding := by
  unfold Core.noteLanded; split_ifs <;> rfl

/-- What is left of the last write of a cycle: all of it. -/
theorem notOver_last {c : Core} {p : Pend} {lvl : Nat} {ps : List Piece}
    (h : ∀ x ∈ c.landed, x.lvl = lvl → x.unit < p.unit ∨ (x.unit = p.unit ∧ x.id ≤ p.id)) : c.notOver p lvl ps = ps := by
  have : (c.landed.filter fun x => x.lvl = lvl && (p.unit < x.unit || (p.unit = x.unit && p.id < x.id))) = [] := by
    refine List.filter_eq_nil_iff.2 fun x hx => ?_
    simp only [Bool.and_eq_true, Bool.or_eq_true, decide_eq_true_eq, not_and, not_or]
    intro hl
    have := h x hx hl
    omega
  simp only [Core.notOver, this]
  split_ifs <;> rfl

/-- The core of the step once an effect of it has left those in flight. -/
theorem core_endPend (s : State) (p : Pend) :
    (s.endPend p).core s.cur.core = { s.me with pend := s.me.pend.filter fun q => q.id != p.id } := by
  unfold State.endPend
  dsimp only
  split <;> exact lget_lput_same ..
@[simp] theorem cur_endPend (s : State) (p : Pend) : (s.endPend p).cur = s.cur := cur_of_besidesLanding (besidesLanding_endPend ..)
theorem me_endPend (s : State) (p : Pend) : (s.endPend p).me = { s.me with pend := s.me.pend.filter fun q => q.id != p.id } := by
  rw [State.me, cur_endPend]; exact core_endPend ..

/-- A core with pieces written into its SP1. -/
def Core.writeSp1 (ps : List Piece) (c : Core) : Core :=
  { c with mem := { c.mem with sp1 := ps.foldl mwriteP c.mem.sp1, sp1Poi := poiWrites c.mem.sp1Poi ps } }

/-- Pieces that land in SP1. -/
theorem landSp_sp1 (s : State) (k land id q : Nat) (deps : List Nat) (ps : List Piece) :
    s.landSp k 0 land id q deps ps = s.modCore k (Core.writeSp1 ps) := rfl

section Land
variable {s : State} {p : Pend} {lvl : Nat} {ps : List Piece}

/-- A write of pieces that is due lands. -/
theorem exec_spWriteLands (h : s.thePend = some p) (hn : s.needMet p = true) (he : p.eff = .sp lvl ps) :
    exec .spWriteLands s = .next (((s.endPend p).landNow s.cur.core p lvl ps).checkAwait s.cur.core) := by
  show execSpWriteLands s = _
  have hp : s.effPieces (s.spByte s.cur.core) p = some (lvl, ps, false) := by simp only [State.effPieces, he]
  simp only [execSpWriteLands, h, hp, hn, Bool.not_true, Bool.false_eq_true, if_false]
  rfl

/-- The last write of its cycle into SP1 makes its bytes, and changes nothing else. -/
theorem landNow_sp1 (hl : Claims.lastToLand s p 0) (ps : List Piece) : ((s.endPend p).landNow s.cur.core p 0 ps).besidesLanding =
    (s.modMe (Core.writeSp1 ps)).besidesLanding := by
  have hk := core_endPend s p
  have hno : ((s.endPend p).core s.cur.core).notOver p 0 ps = ps := notOver_last (by rw [hk]; exact hl)
  rw [State.landNow, if_pos rfl, besidesLanding_reread, besidesLanding_reread, besidesLanding_modCore (noteLanded_besides ..), hno]
  rw [landSp_sp1]
  exact besidesLanding_modCore_congr (besidesLanding_endPend s p) fun c d h => congrArg (Core.writeSp1 ps) h

theorem sp1_landNow (hl : Claims.lastToLand s p 0) (ps : List Piece) :
    (((s.endPend p).landNow s.cur.core p 0 ps).checkAwait s.cur.core).me.mem.sp1 = ps.foldl mwriteP s.me.mem.sp1 := by
  have h := me_of_besidesLanding ((besidesLanding_checkAwait _ s.cur.core).trans (landNow_sp1 hl ps))
  rw [sp1_of_besidesLanding h, State.me_modMe, Core.writeSp1]

end Land

/-! ## What a core sees of SP2 and SP3 (R73, R74, R79, R81) -/

/-- Where a core stands: its berth, its gang time and its hop count. -/
def State.place (s : State) (k : Nat) : Option Nat × Nat × Nat := ((s.core k).run.berth, (s.core k).run.g, (s.core k).run.hop)

theorem place_of_besidesLanding {s t : State} {k : Nat} (h : (t.core k).besidesLanding = (s.core k).besidesLanding) : t.place k = s.place k :=
  (congrArg (fun c : Core => (c.run.berth, c.run.g, c.run.hop)) h :
    ((t.core k).besidesLanding.run.berth, _, _) = ((s.core k).besidesLanding.run.berth, _, _))

/-- Whether a core sees a landed write rests on where it and the writer stand, and for another gang's write without open deps on the tide. -/
theorem seesWrite_congr {s t : State} {k b : Nat} {w : SpWrite} (hp : ∀ j, t.place j = s.place j) (ht : t.tide = s.tide)
    (hb : (s.place k).1 = some b) (hw : w.berth = b ∨ w.deps = []) : t.seesWrite k w = s.seesWrite k w := by
  have hsame (u : State) : u.seesWrite k w = if (u.place k).1 = some w.berth then
      decide (w.land + 1 + 2 * (u.place w.writer).2.2 ≤ (u.place k).2.1 + 2 * (u.place k).2.2) || w.seen.contains k else u.shown w := rfl
  rw [hsame t, hsame s, hp, hp, hb]
  rcases hw with rfl | hw
  · simp only [if_true]
  · refine if_congr Iff.rfl rfl ?_
    simp only [State.shown, hw, List.all_nil, ht]

/-- With no writes of members ahead, a core's byte of SP2 or SP3 is that after the landed writes that it sees. -/
theorem spByte_eq_spLanded {s : State} {k lvl a : Nat} (hl : lvl ≠ 0) (h : s.spAhead k lvl = []) : s.spByte k lvl a = s.spLanded k lvl a := by
  simp [State.spByte, State.spRead, hl, h, lget]

/-- One write more that a core sees in its level stands over those that it saw before. -/
theorem spLanded_append {s t : State} {k lvl a : Nat} {w : SpWrite} (h2 : t.mem.sp2 = s.mem.sp2) (h3 : t.mem.sp3 = s.mem.sp3)
    (hq : t.mem.spq = s.mem.spq ++ [w]) (hw : w.lvl = lvl) (hu : w.unit = if lvl = 1 then cluster k else 0) (hs : t.seesWrite k w = true) :
    (∃ b, t.spLanded k lvl a = overlay w.ps a b) ∧
    ((∀ v ∈ s.mem.spq, t.seesWrite k v = s.seesWrite k v) → t.spLanded k lvl a = overlay w.ps a (s.spLanded k lvl a)) := by
  have happ : t.spLanded k lvl a = overlay w.ps a
      ((s.mem.spq.filter fun v => v.lvl = lvl && v.unit = (if lvl = 1 then cluster k else 0) && t.seesWrite k v).foldl (fun b v => overlay v.ps a b)
        (if lvl = 1 then mread (lget s.mem.sp2 (if lvl = 1 then cluster k else 0) []) a else mread s.mem.sp3 a)) := by
    simp only [State.spLanded, h2, h3, hq, List.filter_append, List.foldl_append, List.filter_cons, List.filter_nil, hw, hu, hs, decide_true,
      Bool.and_self, if_true, List.foldl_cons, List.foldl_nil]
  refine ⟨⟨_, happ⟩, fun hv => happ.trans ?_⟩
  rw [List.filter_congr fun v hmem => by rw [hv v hmem]]
  rfl

section Land
variable {s : State} {p : Pend} {lvl : Nat} {ps : List Piece}

/-- What a write of pieces puts into SP2 or SP3: in SP3, not over ARMED of a served sync object (R79; log 66). -/
def landedPieces (s : State) (lvl : Nat) (ps : List Piece) : List Piece := if lvl = 2 then ps.flatMap (s.cutArmed 3) else ps

open Classical in
theorem overlay_landedPieces (s : State) (lvl a : Nat) (ps : List Piece) (b : Byte) :
    overlay (landedPieces s lvl ps) a b = if lvl = 2 ∧ Claims.keptArmed s 3 a then b else overlay ps a b := by
  unfold landedPieces
  by_cases hl : lvl = 2
  · rw [if_pos hl, overlay_flatMap (overlay_cutArmed s 3 a)]
    exact if_congr (by simp [hl]) rfl rfl
  · rw [if_neg hl, if_neg (by simp [hl])]

/-- Pieces that land in SP2 or SP3 are one write more of those that have landed. -/
theorem landSp_shared (s : State) (k land id q : Nat) (deps : List Nat) (ps : List Piece) (h : lvl ≠ 0) :
    let x := s.landSp k lvl land id q deps ps
    x.mem.sp2 = s.mem.sp2 ∧ x.mem.sp3 = s.mem.sp3 ∧ x.tide = s.tide ∧ x.cur = s.cur ∧ x.cores = s.cores ∧
    ∃ w : SpWrite, x.mem.spq = s.mem.spq ++ [w] ∧ w.lvl = lvl ∧ w.unit = (if lvl = 1 then cluster k else 0) ∧
      w.berth = (s.core k).run.berth.getD 32 ∧ w.writer = k ∧ w.land = land ∧ w.ps = landedPieces s lvl ps := by
  unfold State.landSp
  rw [if_neg h]
  exact ⟨rfl, rfl, rfl, rfl, rfl, _, rfl, rfl, rfl, rfl, rfl, rfl, rfl⟩

/-- The last write of its cycle into SP2 or SP3: the write that is noted for those who will see it, and what stays. -/
theorem landNow_shared (hlvl : lvl ≠ 0) (hl : Claims.lastToLand s p lvl) {b : Nat} (hb : s.me.run.berth = some b) (ps : List Piece) :
    let t := ((s.endPend p).landNow s.cur.core p lvl ps).checkAwait s.cur.core
    t.mem.sp2 = s.mem.sp2 ∧ t.mem.sp3 = s.mem.sp3 ∧ t.tide = s.tide ∧ t.cur = s.cur ∧ (∀ j, (t.core j).besidesLanding = (s.core j).besidesLanding) ∧
    ∃ w : SpWrite, t.mem.spq = s.mem.spq ++ [w] ∧ w.lvl = lvl ∧ w.unit = (if lvl = 1 then cluster s.cur.core else 0) ∧ w.berth = b ∧
      w.writer = s.cur.core ∧ w.land = s.me.run.g ∧ w.ps = landedPieces s lvl ps := by
  intro t
  have hk := core_endPend s p
  have hmem : (s.endPend p).mem = s.mem := mem_of_besidesLanding (besidesLanding_endPend s p)
  have hno : ((s.endPend p).core s.cur.core).notOver p lvl ps = ps := notOver_last (by rw [hk]; exact hl)
  set x := (s.endPend p).landSp s.cur.core lvl ((s.endPend p).core s.cur.core).run.g p.id p.unit p.deps ps with hx
  have ht : t.besidesLanding = x.besidesLanding := by
    refine (besidesLanding_checkAwait ..).trans ?_
    rw [State.landNow, if_neg hlvl, hno]
    exact besidesLanding_modCore (noteLanded_besides ..)
  obtain ⟨h2, h3, htide, hcur, hcores, w, hq, hwl, hwu, hwb, hww, hwg, hwp⟩ : _ ∧ _ := landSp_shared (s.endPend p) s.cur.core
    ((s.endPend p).core s.cur.core).run.g p.id p.unit p.deps ps hlvl
  have hcut : (s.endPend p).cutArmed 3 = s.cutArmed 3 := by unfold State.cutArmed; rw [hmem]
  have hland : landedPieces (s.endPend p) lvl ps = landedPieces s lvl ps := by unfold landedPieces; rw [hcut]
  have htm := mem_of_besidesLanding ht
  rw [htm, tide_of_besidesLanding ht, cur_of_besidesLanding ht]
  rw [hmem] at h2 h3 hq
  refine ⟨h2, h3, htide.trans (tide_of_besidesLanding (besidesLanding_endPend ..)), hcur.trans (cur_endPend ..), fun j => ?_,
    w, hq, hwl, hwu, ?_, hww, ?_, hwp.trans hland⟩
  · rw [core_of_besidesLanding ht, State.core, hcores]; exact core_of_besidesLanding (besidesLanding_endPend s p) j
  · rw [hwb, hk]; exact congrArg (·.getD 32) hb
  · rw [hwg, hk]

/-- A core one gang cycle on stands one cycle further, and no other core has moved. -/
theorem place_oneOn (s : State) (k j : Nat) : (Claims.oneOn s k).place j = if j = k then ((s.place k).1, (s.place k).2.1 + 1, (s.place k).2.2) else s.place j := by
  split_ifs with h
  · subst h; simp only [State.place, Claims.oneOn, State.core_modCore]
  · simp only [State.place, Claims.oneOn, State.core_modCore_other _ _ _ _ h]

/-- From the next gang cycle on the core that wrote sees its write over what it would have seen, and surely where the write has bytes. -/
theorem spByte_landed (hlvl : lvl ≠ 0) (hl : Claims.lastToLand s p lvl) {b : Nat} (hb : s.me.run.berth = some b) (ps : List Piece) (a : Nat) :
    let u := Claims.oneOn (((s.endPend p).landNow s.cur.core p lvl ps).checkAwait s.cur.core) s.cur.core
    u.spAhead s.cur.core lvl = [] →
    (∃ c, u.spByte s.cur.core lvl a = overlay (landedPieces s lvl ps) a c) ∧
    ((∀ w ∈ s.mem.spq, w.berth = b ∨ w.deps = []) →
      u.spByte s.cur.core lvl a = overlay (landedPieces s lvl ps) a ((Claims.oneOn s s.cur.core).spLanded s.cur.core lvl a)) := by
  intro u hu
  obtain ⟨h2, h3, htide, -, hcores, w, hq, hwl, hwu, hwb, hww, hwg, hwp⟩ := landNow_shared hlvl hl hb ps
  have hplace (j : Nat) : u.place j = (Claims.oneOn s s.cur.core).place j := by
    rw [place_oneOn, place_oneOn, place_of_besidesLanding (hcores j), place_of_besidesLanding (hcores _)]
  have hbp : ((Claims.oneOn s s.cur.core).place s.cur.core).1 = some b := by rw [place_oneOn, if_pos rfl]; exact hb
  have hsee : u.seesWrite s.cur.core w = true := by
    have hp := (hplace s.cur.core).trans ((place_oneOn ..).trans (if_pos rfl))
    have hown : u.seesWrite s.cur.core w = if (u.place s.cur.core).1 = some w.berth then
      decide (w.land + 1 + 2 * (u.place w.writer).2.2 ≤ (u.place s.cur.core).2.1 + 2 * (u.place s.cur.core).2.2) || w.seen.contains s.cur.core
      else u.shown w := rfl
    rw [hown, hww, hwb, hwg, hp]
    refine (if_pos (show (s.place s.cur.core).1 = some b from hb)).trans ?_
    simp [State.place, State.me]
  obtain ⟨hsome, hold⟩ := spLanded_append (s := Claims.oneOn s s.cur.core) (t := u) (a := a) h2 h3 hq hwl hwu hsee
  rw [spByte_eq_spLanded hlvl hu, ← hwp]
  exact ⟨hsome, fun hd => hold fun v hv => seesWrite_congr hplace htide hbp (hd v hv)⟩

end Land

/-! ## Writes of bytes (R39, R73, R206, R261) -/

theorem piecesLand : Claims.PiecesLand := by
  intro s p lvl ps h hn hl he
  refine ⟨?sp1, fun hlvl b hb hd => ⟨_, exec_spWriteLands h hn he, fun hu a => ?_⟩⟩
  case sp1 =>
    rintro rfl hw
    exact ⟨_, exec_spWriteLands h hn he, fun a => by rw [sp1_landNow hl, mread_foldl_mwriteP hw]⟩
  rw [(spByte_landed (by omega) hl hb ps a hu).2 hd, overlay_landedPieces]
  exact ⟨fun hk => if_pos hk, fun hk => if_neg hk⟩

/-- A byte of a little-endian number. -/
theorem lget_leBytes {n v i : Nat} (h : i < n) : lget (leBytes n v) i 0 = BitVec.ofNat 8 (v / 2 ^ (8 * i)) := by
  induction n generalizing v i with
  | zero => omega
  | succ n ih =>
    cases i with
    | zero => exact BitVec.eq_of_toNat_eq (by simp [leBytes, lget])
    | succ i =>
      rw [leBytes, lget, ih (by omega), Nat.div_div_eq_div_mul]
      rw [show 8 * (i + 1) = 8 + 8 * i by ring, pow_add]; norm_num

theorem storeLands : Claims.StoreLands := by
  intro s p lvl o n v h hn hl he
  set q : Piece := { addr := o, bytes := leBytes n v, poison := false } with hq
  have hlen : q.bytes.length = n := length_leBytes n v
  have hin (i : Nat) (hi : i < n) (b : Byte) : overlay [q] (o + i) b = BitVec.ofNat 8 (v / 2 ^ (8 * i)) :=
    (overlay_inside (p := q) b (by rw [hlen]; exact hi)).trans (lget_leBytes hi)
  have hout (a : Nat) (ha : a < o ∨ o + n ≤ a) (b : Byte) : overlay [q] a b = b := overlay_outside (p := q) b (by rw [hlen]; exact ha)
  refine ⟨?sp1, fun hlvl b hb => ⟨_, exec_spWriteLands h hn he, ?_, fun hu => ⟨fun i hi hk => ?_, fun hd a ha => ?_⟩⟩⟩
  case sp1 =>
    rintro rfl hw
    refine ⟨_, exec_spWriteLands h hn he, fun i hi => ?_, fun a ha => ?_⟩
    · rw [sp1_landNow hl, mread_foldl_mwriteP hw, hin i hi]
    · rw [sp1_landNow hl, mread_foldl_mwriteP hw, hout a ha]
  · obtain ⟨-, -, -, hcur, hcores, -⟩ := landNow_shared (by omega) hl hb [q]
    rw [State.me, hcur]; exact sp1_of_besidesLanding (hcores _)
  · obtain ⟨c, hc⟩ := (spByte_landed (by omega) hl hb [q] (o + i) hu).1
    rw [hc, overlay_landedPieces, if_neg hk, hin i hi]
  · rw [(spByte_landed (by omega) hl hb [q] a hu).2 hd, overlay_landedPieces, hout a ha, ite_self]

/-- A load of a tile in its occupancy. -/
def laneReading : Reading :=
  { hist := { opc := 5, prof := 0, rtz := false, n := 0, bank := 0, mode := 0, descs := [], acc := false, arg := 0 }, tile := 0,
    before := Tile.zero, bank := 0, end_ := 9, olds := [] }

/-- A handler whose lane holds such a word (R141, R270). -/
def readingHandler : State :=
  ({ State.reset with cur := { State.reset.cur with shadow := true } } : State).modMe fun c =>
    { c with mtx := { c.mtx with laneReads := some laneReading } }

/-- A load with a reserved width code escalates there, and the lane's word is dropped (R143; log 101). -/
theorem exec_load_readingHandler : ∃ t, exec (.ldSp1 7 0 0 0) readingHandler = .next t ∧ t.me.mtx.laneReads = none := by
  have hrun : exec (.ldSp1 7 0 0 0) readingHandler = .next (readingHandler.illegal (.ldSp1 7 0 0 0)) :=
    (seqRun_issue (by decide) : ldSp (.ldSp1 7 0 0 0) 0 7 0 0 0 readingHandler = _)
  refine ⟨_, hrun, ?_⟩
  rw [State.illegal, me_takeFault_shadow _ rfl, if_neg (by decide)]

/-- Refutes O17: a scratchpad access that faults in a handler escalates, which drops the matrix word of its lane, so the array does not stand
as the frame says; the landings (`storeLands`, `piecesLand`) hold. -/
theorem not_storesLand : ¬ Obligations.StoresLand := by
  rintro ⟨-, -, hframe⟩
  obtain ⟨t, ht, hnone⟩ := exec_load_readingHandler
  obtain ⟨-, -, -, -, -, hmtx⟩ := hframe readingHandler t 7 0 0 0 (by decide) (.ldSp1 7 0 0 0) (by simp) ht
  rw [hmtx] at hnone
  exact absurd hnone (by decide)

end Sys2Proof.Machine

namespace Sys2Proof.Machine

/-! ## Landings of channel entries and credits (R28, R192, R193) -/

section ChanLand
variable {s : State} {p : Pend} {c : Nat} {f : Chan → Chan}

/-- An effect that ends in a channel of the core of the step changes that channel, and no register or memory. -/
theorem landChan (s : State) (p : Pend) (c : Nat) (f : Chan → Chan) :
    let t := ((s.endPend p).modChan s.cur.core c f).checkAwait s.cur.core
    t.chan c = f (s.chan c) ∧ (∀ c', c' ≠ c → t.chan c' = s.chan c') ∧ t.me.seq = s.me.seq ∧ t.me.vec = s.me.vec ∧ SameMemory s t := by
  intro t
  set x := (s.endPend p).modChan s.cur.core c f
  have hx : x.core s.cur.core = { s.me with pend := s.me.pend.filter fun q => q.id != p.id, chans := lmod s.me.chans c Chan.empty f } := by
    refine (State.core_modCore ..).trans ?_
    rw [core_endPend]
  have hcur : t.cur = s.cur := (cur_of_besidesLanding (besidesLanding_checkAwait ..)).trans (cur_endPend s p)
  have ht : t.me.besidesLanding = (x.core s.cur.core).besidesLanding := by
    rw [State.me, hcur]; exact core_of_besidesLanding (besidesLanding_checkAwait ..) _
  have hchans : t.me.chans = lmod s.me.chans c Chan.empty f := (chans_of_besidesLanding ht).trans (by rw [hx])
  have hbytes : x.bytes = s.bytes := (bytes_modCore rfl).trans (bytes_of_besidesLanding (besidesLanding_endPend s p))
  refine ⟨?_, fun c' h => ?_, (seq_of_besidesLanding ht).trans (by rw [hx]), (vec_of_besidesLanding ht).trans (by rw [hx]),
    sameMemory_of_bytes ((bytes_of_besidesLanding (besidesLanding_checkAwait ..)).trans hbytes)⟩
  · rw [State.chan, hchans]; exact lget_lmod_same ..
  · rw [State.chan, hchans]; exact lget_lmod_other _ _ _ _ _ h

theorem channelLandings : Claims.ChannelLandings := by
  refine fun s p c h hn => ⟨fun he => ?entry, fun he => ?credit⟩
  case entry =>
    obtain ⟨hc, hrest⟩ := landChan s p c fun ch => { ch with q := ch.q.map fun (e : ChEntry) => if e.src = p.id then { e with landed := true } else e }
    refine ⟨_, ?_, by rw [hc], hrest⟩
    show execChannelEntryLands s = _
    rcases he with he | he <;> (simp only [execChannelEntryLands, h, he]; rfl)
  case credit =>
    obtain ⟨hc, hrest⟩ := landChan s p c fun ch => { ch with used := ch.used - 1 }
    refine ⟨_, ?_, by rw [hc], by rw [hc], hrest⟩
    show execCreditReturn s = _
    simp only [execCreditReturn, h, he]; rfl

end ChanLand

/-! ## Multicast copies and the old values of atomics (R145, R311, R312, R315) -/

theorem copiesLand : Claims.CopiesLand := by
  intro s p q h hn hl he hw
  have hrun : exec .dmcastArrival s = .next (((s.endPend p).landNow s.cur.core p 0 [q]).checkAwait s.cur.core) := by
    show execDmcastArrival s = _
    simp only [execDmcastArrival, h, he]; rfl
  have hland := (besidesLanding_checkAwait _ s.cur.core).trans (landNow_sp1 hl [q])
  have hme := (me_of_besidesLanding hland).trans (congrArg Core.besidesLanding (State.me_modMe ..))
  have hbyte (a : Nat) : mread (((s.endPend p).landNow s.cur.core p 0 [q]).checkAwait s.cur.core).me.mem.sp1 a =
      overlay [q] a (mread s.me.mem.sp1 a) := by rw [sp1_landNow hl, mread_foldl_mwriteP hw]
  exact ⟨_, hrun, fun i hi => by rw [hbyte, overlay_inside _ hi], fun a ha => by rw [hbyte, overlay_outside _ ha],
    (mem_of_besidesLanding hland).trans rfl, (seq_of_besidesLanding hme).trans rfl, (vec_of_besidesLanding hme).trans rfl⟩

/-- Where the old value of an atomic lands (R315). -/
def landOld (s : State) (p : Pend) (addr : Option (Nat × Nat)) : State :=
  match addr with
  | some (x, _) => (s.endPend p).landNow s.cur.core p 0 [{ addr := x, bytes := (s.answer p).flatMap fun (q : Piece) => q.bytes, poison := false }]
  | none => s.endPend p

/-- CHKINT consumed at a landing, when some of the value was poisoned (R145). -/
def eatPoison (s : State) (k : Nat) (bad : Bool) : State := if bad then s.modCore k fun c => c.landReg .chkint else s

@[simp] theorem besidesLanding_eatPoison (s : State) (k : Nat) (bad : Bool) : (eatPoison s k bad).besidesLanding = s.besidesLanding := by
  unfold eatPoison; split_ifs
  · exact besidesLanding_modCore rfl
  · rfl

/-- The answer of an atomic lands when it has come. -/
theorem exec_atomicReturn {s : State} {p : Pend} {addr : Option (Nat × Nat)} (h : s.thePend = some p) (he : p.eff = .atomRet addr)
    (hn : s.needMet p = true) : exec .atomicReturn s =
      .next ((eatPoison (landOld s p addr) s.cur.core ((s.answer p).any fun q => q.poison)).checkAwait s.cur.core) := by
  show execAtomicReturn s = _
  simp only [execAtomicReturn, h, he, hn, Bool.not_true, Bool.false_eq_true, if_false]
  rfl

/-- The core's modes at the end of the check of what is awaited. -/
theorem modes_checkAwait (s : State) (k j : Nat) : ((s.checkAwait k).core j).modes = (s.core j).modes := by
  have hend : ((s.endSource k).core j).modes = (s.core j).modes := by
    unfold State.endSource
    split
    · by_cases hj : j = k
      · subst hj; rw [State.core_modCore]
      · rw [State.core_modCore_other _ _ _ _ hj]
    · rfl
  unfold State.checkAwait
  split
  · split
    · split_ifs
      · exact hend
      · rfl
    · rfl
  · rfl


/-- With no matrix word in its occupancy, a landing in SP1 leaves the core's modes. -/
theorem modes_landNow {s : State} {p : Pend} (hr : s.me.mtx.reads = none) (hl : s.me.mtx.laneReads = none) (ps : List Piece) :
    (((s.endPend p).landNow s.cur.core p 0 ps).core s.cur.core).modes = s.me.modes := by
  have hnote (c : Core) : (c.noteLanded p 0 ps).mtx = c.mtx ∧ (c.noteLanded p 0 ps).modes = c.modes := by
    unfold Core.noteLanded; split_ifs <;> exact ⟨rfl, rfl⟩
  have hcore (qs : List Piece) : ((((s.endPend p).modCore s.cur.core (Core.writeSp1 qs)).modCore s.cur.core fun c => c.noteLanded p 0 ps).core
      s.cur.core) = (Core.writeSp1 qs { s.me with pend := s.me.pend.filter fun q => q.id != p.id }).noteLanded p 0 ps := by
    rw [State.core_modCore, State.core_modCore, core_endPend]
  have hmtx (qs : List Piece) (lane : Bool) := congrArg (fun c : Core => c.mtx.readingOf lane) (hcore qs)
  simp only [(hnote _).1] at hmtx
  rw [State.landNow, if_pos rfl, landSp_sp1, reread_none (lane := false) ((hmtx ..).trans hr), reread_none (lane := true) ((hmtx ..).trans hl),
    hcore, (hnote _).2]
  rfl

theorem modes_landOld {s : State} {p : Pend} (hr : s.me.mtx.reads = none) (hl : s.me.mtx.laneReads = none) (addr : Option (Nat × Nat)) :
    ((landOld s p addr).core s.cur.core).modes = s.me.modes := by
  cases addr with
  | none => exact (congrArg Core.modes (core_endPend s p) : ((s.endPend p).core s.cur.core).modes = _)
  | some x => exact modes_landNow hr hl _

theorem chkint_eatPoison (s : State) (k : Nat) (bad : Bool) :
    ((eatPoison s k bad).core k).modes.chkint = ((s.core k).modes.chkint || bad) := by
  cases bad
  · exact (Bool.or_false _).symm
  · exact (congrArg (fun c : Core => c.modes.chkint) (State.core_modCore s k fun c => c.landReg .chkint)).trans (Bool.or_true _).symm

theorem oldValuesLand : Claims.OldValuesLand := by
  intro s p addr h hl he hw
  refine ⟨fun hn => ?_, fun hn => ⟨_, exec_atomicReturn h he hn, ?_⟩⟩
  · show execAtomicReturn s = _
    simp only [execAtomicReturn, h, he, hn]; rfl
  generalize hb : ((s.answer p).any fun q => q.poison) = bad
  generalize ht : (eatPoison (landOld s p addr) s.cur.core bad).checkAwait s.cur.core = t
  have hold : t.besidesLanding = (landOld s p addr).besidesLanding := by
    rw [← ht, besidesLanding_checkAwait, besidesLanding_eatPoison]
  have hsp1 := sp1_of_besidesLanding (me_of_besidesLanding hold)
  have hcur : t.cur = s.cur := by
    refine (cur_of_besidesLanding hold).trans ?_
    cases addr with
    | none => exact cur_endPend ..
    | some x => exact (cur_of_besidesLanding (landNow_sp1 hl _)).trans rfl
  have hchk : t.me.modes.chkint = (((landOld s p addr).core s.cur.core).modes.chkint || bad) := by
    rw [State.me, hcur, ← ht, modes_checkAwait, chkint_eatPoison]
  refine ⟨?_, ?_, fun hbad => by rw [hchk, hbad, Bool.or_true], fun hr hlr => by rw [hchk, modes_landOld hr hlr], ?_⟩
  · rintro rfl a
    rw [hsp1]
    exact (congrArg (fun c : Core => mread c.mem.sp1 a) (me_endPend s p) : mread (s.endPend p).me.mem.sp1 a = _)
  · rintro x n rfl
    have hbyte (a : Nat) : mread t.me.mem.sp1 a =
        overlay [⟨x, (s.answer p).flatMap fun q => q.bytes, false⟩] a (mread s.me.mem.sp1 a) := by
      rw [hsp1, ← mread_foldl_mwriteP hw, ← sp1_landNow hl, sp1_of_besidesLanding (me_of_besidesLanding (besidesLanding_checkAwait _ _))]
      rfl
    exact ⟨fun i hi => by rw [hbyte]; exact overlay_inside _ hi, fun a ha => by rw [hbyte]; exact overlay_outside _ ha⟩
  · refine (mem_of_besidesLanding hold).trans ?_
    cases addr with
    | none => exact mem_of_besidesLanding (besidesLanding_endPend s p)
    | some x => exact (mem_of_besidesLanding (landNow_sp1 hl _)).trans rfl

/-- Settles O49: an entry or a credit that lands changes its channel alone, and a copy or an old value the bytes of SP1 that it names (R28,
R192, R193, R311, R312, R315). -/
theorem landings : Obligations.Landings := ⟨channelLandings, copiesLand, oldValuesLand⟩

end Sys2Proof.Machine

namespace Sys2Proof.Machine

/-! ## Pinned ranges (R69, R211) -/

section Pinned
variable {s : State} {allow : Desc → Bool} {va n : Nat}

/-- No bound descriptor that is admitted has the bytes pinned. -/
theorem pinned_eq_none (h : ∀ d ∈ s.me.descs, d.bound = true → allow d = true → d.xlate va n = none) : s.pinned allow va n = none := by
  refine List.findSome?_eq_none_iff.2 fun d hd => ?_
  split_ifs with hc
  · obtain ⟨hb, ha⟩ := Bool.and_eq_true_iff.1 hc
    exact h d hd hb ha
  · rfl

/-- One has: the translation is one that a bound and admitted descriptor recorded. -/
theorem pinned_of_mem {d : Desc} (hd : d ∈ s.me.descs) (hb : d.bound = true) (ha : allow d = true) (hx : d.xlate va n ≠ none) :
    ∃ e ∈ s.me.descs, e.bound = true ∧ allow e = true ∧ ∃ rs, e.xlate va n = some rs ∧ s.pinned allow va n = some rs := by
  have hne : s.pinned allow va n ≠ none := fun h => hx (by
    have := List.findSome?_eq_none_iff.1 h d hd
    rwa [if_pos (Bool.and_eq_true_iff.2 ⟨hb, ha⟩)] at this)
  obtain ⟨rs, hrs⟩ := Option.ne_none_iff_exists'.1 hne
  obtain ⟨e, he, hxe⟩ := List.exists_of_findSome?_eq_some hrs
  split_ifs at hxe with hc
  obtain ⟨hbe, hae⟩ := Bool.and_eq_true_iff.1 hc
  exact ⟨e, he, hbe, hae, rs, hxe, hrs⟩

end Pinned

/-! ## LD.G, ST.G, LD.AP and ST.AP (R64, R209, R211, R212) -/

theorem widthOk_load {w : BitVec 3} (h : w.toNat ≤ 6) : widthOk false w = true := decide_eq_true h
theorem widthOk_store {w : BitVec 3} (h : w.toNat ≤ 3) : widthOk true w = true := decide_eq_true h

theorem widBytes_store {w : BitVec 3} (h : w.toNat ≤ 3) : widBytes w = 2 ^ w.toNat := by
  rw [widBytes, Nat.mod_eq_of_lt (by omega)]

section Global
variable {s : State} {i : Instr} {ap : Bool} {w : BitVec 3} {d a : BitVec 5} {off : BitVec 13}

/-- A global load whose place is given waits for its home. -/
theorem ldGlobal_place (h : s.canIssue anyPlace = true) (hw : w.toNat ≤ 6) {va : Nat} {rs : List (Nat × Nat × Nat)}
    (hp : s.globalPlace ap false (s.rd a) off (widBytes w) = .inr (va, rs)) : ldGlobal i ap w d a off s = .next
      (((s.newOp s.cur.core 0 (.read rs) [] 0 (budget 0 (runsTarget rs) (widBytes w))).2.addPend 0 (s.clk + budget 0 (runsTarget rs) (widBytes w) - 1)
        (.ldReg s.cur.shadow d.toNat w.toNat) true (some (s.newOp s.cur.core 0 (.read rs) [] 0 (budget 0 (runsTarget rs) (widBytes w))).1)).next1) := by
  rw [ldGlobal, seqRun_issue h, if_neg (by rw [widthOk_load hw]; decide), hp]
  rfl
theorem ldGlobal_fault (h : s.canIssue anyPlace = true) (hw : w.toNat ≤ 6) {f : FaultRec}
    (hp : s.globalPlace ap false (s.rd a) off (widBytes w) = .inl f) : ldGlobal i ap w d a off s = .next (s.takeFault f) := by
  rw [ldGlobal, seqRun_issue h, if_neg (by rw [widthOk_load hw]; decide), hp]

/-- A global store whose place is given is an operation of the sequencer queue. -/
theorem stGlobal_place (h : s.canIssue anyPlace = true) (hw : w.toNat ≤ 3) {va : Nat} {rs : List (Nat × Nat × Nat)}
    (hp : s.globalPlace ap true (s.rd a) off (widBytes w) = .inr (va, rs)) : stGlobal i ap w d a off s = .next
      (s.newOp s.cur.core 0 (.write (splitRuns rs (leBytes (widBytes w) (s.rd d).toNat) false)) [(0, va, widBytes w)]).2.next1 := by
  rw [stGlobal, seqRun_issue h, if_neg (by rw [widthOk_store hw]; decide), hp]
theorem stGlobal_fault (h : s.canIssue anyPlace = true) (hw : w.toNat ≤ 3) {f : FaultRec}
    (hp : s.globalPlace ap true (s.rd a) off (widBytes w) = .inl f) : stGlobal i ap w d a off s = .next (s.takeFault f) := by
  rw [stGlobal, seqRun_issue h, if_neg (by rw [widthOk_store hw]; decide), hp]

end Global

theorem globalAccesses : Claims.GlobalAccesses := by
  intro s w d a off h r hr
  have hrun : exec r.1 s = ldGlobal r.1 r.2.2 w d a off s ∧ exec r.2.1 s = stGlobal r.2.1 r.2.2 w d a off s := by
    simp only [List.mem_cons, List.not_mem_nil, or_false] at hr
    obtain rfl | rfl := hr <;> exact ⟨rfl, rfl⟩
  obtain ⟨hl, hs⟩ := hrun
  exact ⟨fun hw va rs hp => hl.trans (ldGlobal_place h hw hp),
    fun hw va rs hp => hs.trans (widBytes_store hw ▸ stGlobal_place h hw (widBytes_store hw ▸ hp)),
    fun hw f hp => hl.trans (ldGlobal_fault h hw hp),
    fun hw f hp => hs.trans (stGlobal_fault h hw (widBytes_store hw ▸ hp))⟩

theorem globalPlaces : Claims.GlobalPlaces := by
  intro s store x off n o fits
  have hfits (d : Desc) (hb : d.bound = true) : (decide (d.level = 3) && (!store || !d.ro)) = true ↔ fits d := by
    simp [fits, hb]; cases store <;> simp
  have hal (h : o % n = 0) : s.globalPlace false store x off n =
      match s.pinned (fun d => d.level = 3 && (!store || !d.ro)) o n with | some rs => .inr (o, rs) | none => .inl (mkFault 0 0x05 o) := by
    have h' : effAddr x off % n = 0 := h
    simp only [State.globalPlace, h', bne_self_eq_false, Bool.false_eq_true, if_false]
    rfl
  refine ⟨fun h => ?_, fun h hno => ?_, fun h d hd hf hx => ?_⟩
  · have h' : (effAddr x off % n != 0) = true := bne_iff_ne.2 h
    simp only [State.globalPlace, h', Bool.false_eq_true, if_false, if_true]
    rfl
  · rw [hal h, pinned_eq_none fun d hd hb ha => hno d hd ((hfits d hb).1 ha)]
  · obtain ⟨e, he, hb, ha, rs, hxe, hp⟩ := pinned_of_mem (allow := fun d => d.level = 3 && (!store || !d.ro)) hd hf.1 ((hfits d hf.1).2 hf) hx
    exact ⟨e, he, (hfits e hb).1 ha, rs, hxe, by rw [hal h, hp]⟩

/-! ## Aperture views (R64, R209) -/

section Aperture
variable {s : State} {store : Bool} {x : Word} {off : BitVec 13} {n : Nat}

theorem toNat_extract_apidx (x : Word) : (x.extractLsb' 60 4).toNat = x.toNat / 2 ^ 60 := by
  rw [BitVec.extractLsb'_toNat, Nat.shiftRight_eq_div_pow]
  have := x.isLt
  omega
theorem toNat_extract_low (x : Word) : (x.extractLsb' 0 48).toNat = x.toNat % 2 ^ 48 := by
  rw [BitVec.extractLsb'_toNat, Nat.shiftRight_zero]
theorem extract_reserved_eq_zero (x : Word) : x.extractLsb' 48 12 = 0 ↔ x.toNat / 2 ^ 48 % 2 ^ 12 = 0 := by
  rw [← BitVec.toNat_inj, BitVec.extractLsb'_toNat, Nat.shiftRight_eq_div_pow]; rfl

/-- Bits [59:48] of the address are 0 (R209). -/
theorem globalPlace_reserved (h : x.toNat / 2 ^ 48 % 2 ^ 12 ≠ 0) : s.globalPlace true store x off n = .inl (mkFault 0 0x05 x.toNat) := by
  have hb : (x.extractLsb' 48 12 != 0) = true := bne_iff_ne.2 (mt (extract_reserved_eq_zero x).1 h)
  simp only [State.globalPlace, hb, if_true]

/-- The offset into an aperture (R64). -/
def aperOffset (x : Word) (off : BitVec 13) : Int := ((x.toNat % 2 ^ 48 : Nat) : Int) + off.toInt

theorem globalPlace_range (h : x.toNat / 2 ^ 48 % 2 ^ 12 = 0) (ho : aperOffset x off < 0 ∨ 2 ^ 48 ≤ aperOffset x off) :
    s.globalPlace true store x off n = .inl (mkFault 0 0x05 (aperOffset x off % 2 ^ 64).toNat) := by
  have hb : (x.extractLsb' 48 12 != 0) = false := bne_eq_false_iff_eq.2 ((extract_reserved_eq_zero x).2 h)
  have hr : (decide (aperOffset x off < 0) || decide ((2 ^ 48 : Int) ≤ aperOffset x off)) = true := by simpa using ho
  simp only [State.globalPlace, hb, Bool.false_eq_true, if_false, if_true, toNat_extract_low]
  exact if_pos hr

theorem aperKind_eq (s : State) (ap : Nat) : s.aperKind ap = (s.aperWord ap 0).toNat / 2 ^ 61 % 4 := by
  rw [State.aperKind, BitVec.extractLsb'_toNat, Nat.shiftRight_eq_div_pow]
theorem aperLen_eq (s : State) (ap : Nat) : s.aperLen ap = (s.aperWord ap 2).toNat % 2 ^ 48 := toNat_extract_low _
theorem aperVbase_eq (s : State) (ap : Nat) : s.aperVbase ap = (s.aperWord ap 0).toNat % 2 ^ 48 := toNat_extract_low _

/-- The descriptors whose pins an access through aperture `ap` may use (R211). -/
def aperAllows (store : Bool) (ap : Nat) (d : Desc) : Bool := d.level = 4 && d.apidx.toNat = ap && (!store || !d.ro)

/-- The checks after the range of the offset o. -/
theorem globalPlace_inRange {o ap : Nat} (h : x.toNat / 2 ^ 48 % 2 ^ 12 = 0) (ho : aperOffset x off = o) (hlt : o < 2 ^ 48)
    (hap : ap = x.toNat / 2 ^ 60) : s.globalPlace true store x off n =
      if o % n ≠ 0 then .inl (mkFault 0 0x03 o)
      else if (s.aperWord ap 0).getLsbD 63 = false then .inl (mkFault 0 0x05 o)
      else if s.aperKind ap = 1 then .inl (mkFault 0 0x06 ap)
      else if s.aperLen ap ≤ o ∨ (store = true ∧ s.aperKind ap = 2) then .inl (mkFault 0 0x05 o)
      else match s.pinned (aperAllows store ap) (s.aperVbase ap + o) n with
        | some rs => .inr (s.aperVbase ap + o, rs)
        | none => .inl (mkFault 0 0x05 o) := by
  have hb : (x.extractLsb' 48 12 != 0) = false := bne_eq_false_iff_eq.2 ((extract_reserved_eq_zero x).2 h)
  have hr : (decide ((o : Int) < 0) || decide ((2 ^ 48 : Int) ≤ o)) = false := by simp; omega
  rw [aperOffset] at ho
  simp only [State.globalPlace, hb, hr, ho, Bool.false_eq_true, if_false, if_true, toNat_extract_low, toNat_extract_apidx, ← hap, Int.toNat_natCast]
  refine if_congr bne_iff_ne rfl (if_congr (by simp [State.aperValid]) rfl (if_congr Iff.rfl rfl ?_))
  by_cases hl : s.aperLen ap ≤ o
  · rw [if_pos hl, if_pos (.inl hl)]
  · rw [if_neg hl]; exact if_congr (by simp [hl]) rfl rfl

end Aperture

theorem apertureChecks : Claims.ApertureChecks := by
  intro s store w d a off h hw i x ap oi n
  have hfault (f : FaultRec) (hp : s.globalPlace true store x off n = .inl f) : exec i s = .next (s.takeFault f) := by
    cases store with
    | false => exact (rfl : exec (.ldAp w d a off) s = ldGlobal _ true w d a off s).trans (ldGlobal_fault h hw hp)
    | true => exact (rfl : exec (.stAp w d a off) s = stGlobal _ true w d a off s).trans (stGlobal_fault h hw hp)
  refine ⟨fun hb => hfault _ (globalPlace_reserved hb), fun hb => ⟨fun ho => hfault _ (globalPlace_range hb ho), fun h0 h1 => ?_⟩⟩
  intro o kind len va fits
  have hplace := globalPlace_inRange (s := s) (store := store) (n := n) hb (Int.toNat_of_nonneg h0).symm (by omega) rfl
  rw [aperKind_eq, aperLen_eq, aperVbase_eq] at hplace
  have hfits (e : Desc) (he : e.bound = true) : aperAllows store ap e = true ↔ fits e := by
    simp [fits, he, aperAllows]; cases store <;> simp [and_assoc]
  refine ⟨fun hm => hfault _ (hplace.trans (if_pos hm)), fun hm hv => hfault _ ?_, fun hm hv => ?_⟩
  · exact hplace.trans ((if_neg (not_not.2 hm)).trans (if_pos hv))
  replace hplace := hplace.trans ((if_neg (not_not.2 hm)).trans (if_neg (by rw [hv]; decide)))
  refine ⟨fun hk => hfault _ (hplace.trans (if_pos hk)), fun hk hno => hfault _ ?_, fun hk hl hro e he hf hx => ?_⟩
  · refine hplace.trans ((if_neg hk).trans ?_)
    obtain hl | hro | hno := hno
    · exact if_pos (.inl hl)
    · exact if_pos (.inr hro)
    · have hp : s.pinned (aperAllows store ap) va n = none := pinned_eq_none fun e he hb ha => hno e he ((hfits e hb).1 ha)
      split_ifs
      · rfl
      · exact congrArg (fun r => match r with | some rs => Sum.inr (va, rs) | none => .inl (mkFault 0 0x05 o)) hp
  · obtain ⟨e', he', hb', ha', rs, hxe, hp⟩ := pinned_of_mem (allow := aperAllows store ap) he hf.1 ((hfits e hf.1).2 hf) hx
    refine ⟨e', he', (hfits e' hb').1 ha', rs, hxe, hplace.trans ((if_neg hk).trans ((if_neg ?_).trans ?_))⟩
    · exact fun hc => hc.elim (Nat.not_le.2 hl) hro
    · exact congrArg (fun r => match r with | some rs => Sum.inr (va, rs) | none => .inl (mkFault 0 0x05 o)) hp

/-! ## A load whose data are late (R41, R42, R212) -/

/-- A core whose handler's fault ends a wait for `aw`. -/
def awaiting (aw : Await) (c : Core) : Core := { c with hnd := { c.hnd with await := some aw } }

/-- A schedule miss in the main context, as its core sees it. -/
theorem me_schedMiss {s : State} (unit info : Nat) (aw : Await) (hs : s.cur.shadow = false) : (s.schedMiss unit info aw).me =
    let c := { s.me with modes := s.me.modes.noteMiss }
    if s.me.modes.trapMode then awaiting aw (stoppedAs (c.enterHandler (mkFault unit 0x07 info) (s.tide + 1)) 0 none)
    else stoppedAs c 1 (some aw) := by
  have hm : (s.modMe fun c => { c with modes := c.modes.noteMiss }).me.modes.trapMode = s.me.modes.trapMode := by rw [State.me_modMe]; rfl
  have hmiss := State.me_modMe s fun c => { c with modes := c.modes.noteMiss }
  unfold State.schedMiss
  rw [if_neg (by rw [hs]; decide)]
  dsimp only
  rw [hm]
  split_ifs
  · exact (State.me_modMe ..).trans (congrArg (awaiting aw) ((me_takeFault_main (s := s.modMe fun c => { c with modes := c.modes.noteMiss }) _ hs).trans (by rw [hmiss]; rfl)))
  · rw [State.me, State.cur_startHold]
    exact (core_startHold ..).trans (congrArg (stoppedAs · 1 (some aw)) hmiss)

/-- A core whose load `id` has missed its budget. -/
def missedLoad (id : Nat) (c : Core) : Core := { c with pend := c.pend.map fun q => if q.id = id then { q with missed := true } else q }

theorem loadBudgets : Claims.LoadBudgets := by
  intro s p sh r n wid hp he
  have hrun : exec .seqLoadBudgetExpiry s = if sh then .next (s.modMe fun c => { c with sh := { c.sh with next := s.tide + 1 } })
      else .next ((s.modMe (missedLoad p.id)).schedMiss 0 (0x200 + r) (.load p.id)) := by
    show execSeqLoadBudgetExpiry s = _
    simp only [execSeqLoadBudgetExpiry, hp, he]; rfl
  refine ⟨fun h => by rw [hrun, if_pos h], fun h hs hn hlt => ⟨_, by rw [hrun, if_neg (by rw [h]; decide)], ?_⟩⟩
  have hcnt : s.me.modes.noteMiss.misscnt = BitVec.ofNat 16 (n + 1) := by
    simp only [Modes.noteMiss, hn]
    rw [if_neg (fun hc => by have := congrArg BitVec.toNat hc; simp at this; omega), BitVec.ofNat_add]
    rfl
  have hmiss := me_schedMiss (s := s.modMe (missedLoad p.id)) 0 (0x200 + r) (.load p.id) hs
  rw [State.me_modMe] at hmiss
  have hmem : SameMemory s ((s.modMe (missedLoad p.id)).schedMiss 0 (0x200 + r) (.load p.id)) :=
    sameMemory_of_bytes ((bytes_schedMiss ..).trans (bytes_modMe rfl))
  by_cases ht : s.me.modes.trapMode = true
  · replace hmiss := hmiss.trans (if_pos ht)
    rw [hmiss]
    exact ⟨rfl, hcnt, rfl, fun _ => ⟨rfl, rfl⟩, fun hf => absurd ht (by rw [hf]; decide), fun q => rfl, hmem⟩
  · replace hmiss := hmiss.trans (if_neg ht)
    rw [hmiss]
    exact ⟨rfl, hcnt, rfl, fun h => absurd h ht, fun _ => ⟨rfl, _, rfl, rfl, rfl⟩, fun q => rfl, hmem⟩

/-- Settles O18: where global accesses go and what refuses them, and a load whose data are late (R41, R64, R69, R209, R211, R212). -/
theorem globalAccessesAndBudgets : Obligations.GlobalAccessesAndBudgets :=
  ⟨globalAccesses, globalPlaces, apertureChecks, loadBudgets⟩

end Sys2Proof.Machine

namespace Sys2Proof.Machine

/-! ## Compares and the mask stack (R248 to R250) -/

/-- The form of a compare; with PUSH it has no destination and no MSK. -/
def cmpForm (w : V3) : VForm :=
  { ty := 0, rm := false, sat := true, msk := !w.sat, x := 7, va := true, vb := true, vd := if w.sat then 0 else 1 }

section Compare
variable {i : Instr} {w : V3} {cond : Nat → Lane → Lane → Bool} {s : State}

/-- A compare without PUSH works lane by lane. -/
theorem vecCmp_lanes (h : w.sat = false) : vecCmp i w cond s =
    vec3 i w (cmpForm w) 3 (fun a b _ => (if cond w.x.toNat a b then BitVec.allOnes 32 else 0, 0)) s := by
  rw [vecCmp, cmpForm, h]; rfl

/-- One with PUSH pushes the mask of the lanes that pass, when there is room. -/
theorem vecCmp_push (h : w.sat = true) (hl : s.wordLegal .vec (v3Legal (cmpForm w) w && !w.msk) = true) (hd : s.me.maskDepth < 16)
    (hok : s.vecOk false (v3Srcs w (cmpForm w) (s.eng .vec).rep) none = true) :
    vecCmp i w cond s = .next (s.vecDone none (w.rep.toNat + 1) 1 3 (v3Srcs w (cmpForm w) (s.eng .vec).rep)
      { lanes := [], wm := 0, fl := 0
        masks := [.push (laneMask fun l => cond w.x.toNat (lget (lget (s.srcLanes (v3Srcs w (cmpForm w) (s.eng .vec).rep)) 0 []) l 0)
          (lget (lget (s.srcLanes (v3Srcs w (cmpForm w) (s.eng .vec).rep)) 1 []) l 0))] }) := by
  have hp : s.pushOk = true := decide_eq_true hd
  unfold vecCmp
  rw [if_neg (by rw [h]; decide)]
  refine (engRun_issue (vecOk_clean hok) hl).trans (congrArg Host.Outcome.next ?_)
  exact (if_neg (by rw [hp]; decide)).trans (vecGo_done hok)

end Compare

/-- Whether lane l passes a VCMPI (R249). -/
def passesI (s : State) (v : VI) (vs : List VSrc) (l : Nat) : Bool :=
  intCond (v.imm.toNat / 4096 % 8) (lget (lget (s.srcLanes vs) 0 []) l 0) ((v.imm.setWidth 12).signExtend 32)

/-- The condition field of a VCMPI. -/
theorem toNat_condField (v : VI) : (v.imm.extractLsb' 12 3).toNat = v.imm.toNat / 4096 % 8 := by
  rw [BitVec.extractLsb'_toNat, Nat.shiftRight_eq_div_pow]

section Immediate
variable {s : State} {v : VI} {vs : List VSrc}
  (hvs : vs = [{ f := v.va, idx := stepped (srcChan v.va) (stepsS1 v.step) (srcIdx v.va) (s.eng .vec).rep }])
include hvs

theorem exec_vcmpi_lanes (h : v.imm.getLsbD 15 = false) (hl : s.wordLegal .vec (viLegal v true true) = true) {dst : Option (Bool × Nat)}
    (hdst : dst = some (dstChan v.vd, stepped (dstChan v.vd) (stepsD v.step) (dstIdx v.vd) (s.eng .vec).rep)) (hok : s.vecOk false vs dst = true) :
    exec (.vcmpi v) s = .next (s.vecDone dst (v.rep.toNat + 1) 1 3 vs
      { lanes := (List.range 64).map fun l => if passesI s v vs l then BitVec.allOnes 32 else 0
        wm := if v.msk then s.me.active else BitVec.allOnes 64, fl := 0 }) := by
  subst hvs hdst
  show execVcmpi v s = _
  have hl' : s.wordLegal .vec (viLegal v true true && true) = true := by rwa [Bool.and_true]
  unfold execVcmpi
  rw [h, toNat_condField]
  refine (if_pos rfl).trans ((engRun_issue (vecOk_clean hok) hl').trans (congrArg Host.Outcome.next ?_))
  exact vecGo_done hok

theorem exec_vcmpi_push (h : v.imm.getLsbD 15 = true) (hl : s.wordLegal .vec (viLegal v true false && !v.msk) = true) (hd : s.me.maskDepth < 16)
    (hok : s.vecOk false vs none = true) : exec (.vcmpi v) s = .next (s.vecDone none (v.rep.toNat + 1) 1 3 vs
      { lanes := [], wm := 0, fl := 0, masks := [.push (laneMask (passesI s v vs))] }) := by
  subst hvs
  show execVcmpi v s = _
  have hp : s.pushOk = true := decide_eq_true hd
  unfold execVcmpi
  rw [h, toNat_condField]
  refine (if_neg (by decide)).trans ((engRun_issue (vecOk_clean hok) hl).trans (congrArg Host.Outcome.next ?_))
  exact (if_neg (by rw [hp]; decide)).trans (vecGo_done hok)

end Immediate

theorem compares : Claims.Compares := by
  intro s w v k form
  refine ⟨fun r hr => ?_, fun h hl hok => exec_vcmpi_lanes rfl h hl rfl hok, fun h hl hd hok => exec_vcmpi_push rfl h hl hd hok⟩
  have hrun : exec r.1 s = vecCmp r.1 w r.2 s := by
    simp only [List.mem_cons, List.not_mem_nil, or_false] at hr
    obtain rfl | rfl := hr <;> rfl
  exact ⟨fun h hl hok => hrun.trans ((vecCmp_lanes h).trans (vec3_done hl hok)), fun h hl hd hok => hrun.trans (vecCmp_push h hl hd hok)⟩

theorem compareConditions : Claims.CompareConditions := by
  intro a b
  refine ⟨?_, ?_, ?_, ?_, ?_, ?_, ?_, ?_⟩ <;> refine Bool.eq_iff_iff.2 ?_ <;>
    simp [intCond, BitVec.slt_iff_toInt_lt, BitVec.sle_iff_toInt_le, BitVec.ult_iff_lt, BitVec.ule_iff_le, BitVec.lt_def, BitVec.le_def]

theorem maskStack : Claims.MaskStack := fun _ _ _ =>
  ⟨congrArg (· :: []) BitVec.allOnes_and, rfl, congrArg (· :: []) BitVec.allOnes_and, rfl, rfl, rfl⟩

/-! ## Mask words -/

section MaskWord
variable {i : Instr} {w : V3} {x : Nat} {va : Bool} {allow : Nat → Bool} {ops : List (List Lane) → List MaskOp} {s : State}

theorem vecMask_done (hl : s.wordLegal .vec (v3Legal (maskForm x va) w && w.rep = 0 && w.step = 0) = true) (ha : allow s.me.maskDepth = true)
    (hok : s.vecOk false (v3Srcs w (maskForm x va) 0) none = true) : vecMask i w x va allow ops s =
      .next (s.vecDone none 1 1 3 (v3Srcs w (maskForm x va) 0)
        { lanes := [], wm := 0, fl := 0, masks := ops (s.srcLanes (v3Srcs w (maskForm x va) 0)) }) := by
  rw [vecMask, engRun_issue (vecOk_clean hok) hl, ha, vecGo_done hok]; rfl

theorem vecMask_refused (hl : s.wordLegal .vec (v3Legal (maskForm x va) w && w.rep = 0 && w.step = 0) = true) (hb : s.wordBad .vec = false)
    (ha : allow s.me.maskDepth = false) : vecMask i w x va allow ops s = .next (s.illegalWord .vec i) := by
  rw [vecMask, engRun_issue hb hl, ha]; rfl

end MaskWord

theorem maskWords : Claims.MaskWords := by
  intro s w n r hr vs hl hb
  have key {x : Nat} {va : Bool} {allow : Nat → Bool} {ops : List (List Lane) → List MaskOp}
      (hrun : exec r.1 s = vecMask r.1 w x va allow ops s) (hx : r.2.1 = x) (hva : r.2.2.1 = va) (hallow : r.2.2.2.1 = allow s.me.maskDepth)
      (hops : r.2.2.2.2 = ops (s.srcLanes (v3Srcs w (maskForm x va) 0))) :
      (r.2.2.2.1 = true → s.vecOk false vs none = true →
        exec r.1 s = .next (s.vecDone none 1 1 3 vs { lanes := [], wm := 0, fl := 0, masks := r.2.2.2.2 })) ∧
      (r.2.2.2.1 = false → exec r.1 s = .next (s.takeFault (mkFault 1 0x02 (encodeNat r.1)))) := by
    subst hx hva
    exact ⟨fun ha hok => hrun.trans ((vecMask_done hl (hallow.symm.trans ha) hok).trans (by rw [hops])),
      fun ha => hrun.trans (vecMask_refused hl hb (hallow.symm.trans ha))⟩
  simp only [List.mem_cons, List.not_mem_nil, or_false] at hr
  obtain rfl | rfl | rfl | rfl := hr
  · exact key (rfl : _ = execMpush w s) rfl rfl rfl rfl
  · exact key (rfl : _ = execMinv w s) rfl rfl rfl rfl
  · exact key (rfl : _ = execMpop w s) rfl rfl rfl rfl
  · exact key (rfl : _ = execMclr w s) rfl rfl rfl rfl

/-! ## Floating compares (R94, R248) -/

/-- A finite value on the scale 2^k, for k no greater than its exponent. -/
theorem flVal_scaled (s : Bool) (m : Nat) {e k : Int} (h : k ≤ e) : Claims.flVal s m e = (sgn s m * 2 ^ (e - k).toNat : Int) * (2 : ℚ) ^ k := by
  have hp : (2 : ℚ) ^ e = (2 : ℚ) ^ (e - k).toNat * (2 : ℚ) ^ k := by
    rw [← zpow_natCast, Int.toNat_of_nonneg (by omega), ← zpow_add₀ (by norm_num)]; congr 1; omega
  rw [Claims.flVal, hp]
  cases s <;> simp [sgn] <;> ring

/-- The compare of finite values has the sign of their difference. -/
theorem flCmp_fin (s t : Bool) (m n : Nat) (e j : Int) :
    (flCmp (.fin s m e) (.fin t n j) < 0 ↔ Claims.flVal s m e < Claims.flVal t n j) ∧
    (0 < flCmp (.fin s m e) (.fin t n j) ↔ Claims.flVal t n j < Claims.flVal s m e) := by
  have hx := flVal_scaled s m (min_le_left e j)
  have hy := flVal_scaled t n (min_le_right e j)
  have hpos : (0 : ℚ) < (2 : ℚ) ^ min e j := by positivity
  rw [hx, hy, mul_lt_mul_iff_left₀ hpos, mul_lt_mul_iff_left₀ hpos, Int.cast_lt, Int.cast_lt]
  simp only [flCmp]
  split_ifs <;> omega

/-- The order that compares find is the order of values. -/
theorem flCmp_iff {x y : Fl} (hx : x ≠ .nan) (hy : y ≠ .nan) :
    (flCmp x y < 0 ↔ Claims.flLess x y) ∧ (0 < flCmp x y ↔ Claims.flLess y x) := by
  cases x with
  | nan => exact absurd rfl hx
  | inf a =>
    cases y with
    | nan => exact absurd rfl hy
    | inf b => cases a <;> cases b <;> simp [flCmp, Claims.flLess]
    | fin t n j => cases a <;> simp [flCmp, Claims.flLess]
  | fin s m e =>
    cases y with
    | nan => exact absurd rfl hy
    | inf b => cases b <;> simp [flCmp, Claims.flLess]
    | fin t n j => exact flCmp_fin s t m n e j

/-- A NaN is in no order. -/
theorem not_flLess_nan (x y : Fl) (h : x = .nan ∨ y = .nan) : ¬ Claims.flLess x y := by
  rintro hl
  obtain rfl | rfl := h
  · exact hl
  · cases x <;> exact hl

theorem isNaN_iff (x : Fl) : x.isNaN = true ↔ x = .nan := by cases x <;> simp [Fl.isNaN]

theorem floatConditions : Claims.FloatConditions := by
  intro a b
  simp only [fltCond]
  generalize decodeF 10 a.toNat = x
  generalize decodeF 10 b.toNat = y
  have hun : (x.isNaN || y.isNaN) = true ↔ x = .nan ∨ y = .nan := by rw [Bool.or_eq_true, isNaN_iff, isNaN_iff]
  by_cases h : x = .nan ∨ y = .nan
  · simp [hun.2 h, h, not_flLess_nan x y h, not_flLess_nan y x h.symm]
  · have hb : (x.isNaN || y.isNaN) = false := Bool.eq_false_iff.2 (mt hun.1 h)
    obtain ⟨hneg, hpos⟩ := flCmp_iff (not_or.1 h).1 (not_or.1 h).2
    simp only [hb, h, ← hneg, ← hpos, Bool.not_false, Bool.true_and, Bool.false_or, decide_eq_true_eq, bne_iff_ne, not_false_iff, true_and, false_or,
      Bool.false_eq_true]
    exact ⟨by omega, ne_iff_lt_or_gt, not_lt.symm, not_lt.symm, trivial⟩

/-- Settles O33: what compares deliver, and the mask stack (R94, R248 to R250). -/
theorem vectorCompares : Obligations.VectorCompares := ⟨compares, compareConditions, floatConditions, maskWords, maskStack⟩

end Sys2Proof.Machine

namespace Sys2Proof.Machine

/-! ## What a vector word with register operands changes (R30, R236, R238, R239) -/

theorem VecFrame.refl (s : State) : VecFrame s s := ⟨rfl, fun _ _ => rfl, rfl⟩

theorem VecFrame.cur {s t : State} (h : VecFrame s t) : t.cur = s.cur := (congrArg State.cur h.rest : t.cur = _)
theorem VecFrame.mem {s t : State} (h : VecFrame s t) : t.mem = s.mem := (congrArg State.mem h.rest : t.mem = _)
theorem VecFrame.me {s t : State} (h : VecFrame s t) : t.core s.cur.core = t.me := by rw [State.me, h.cur]

theorem VecFrame.trans {s t u : State} (h : VecFrame s t) (g : VecFrame t u) : VecFrame s u := by
  refine ⟨?_, fun k hk => (g.others k (by rwa [h.cur])).trans (h.others k hk), ?_⟩
  · have hg := g.rest
    rw [h.rest] at hg
    exact hg
  · have hg := g.own
    rw [h.own] at hg
    exact hg

/-- A change of the step's core alone, within the frame. -/
theorem VecFrame.of_modMe {s : State} {f : Core → Core} (n : Nat)
    (h : f s.me = { s.me with pend := (f s.me).pend, perf := (f s.me).perf, engs := (f s.me).engs, lanes := (f s.me).lanes }) :
    VecFrame s { s.modMe f with nextId := n } := by
  refine ⟨rfl, fun k hk => lget_lput_other _ _ _ _ _ hk, ?_⟩
  have hme : ({ s.modMe f with nextId := n } : State).me = f s.me := State.me_modMe s f
  rw [hme]; exact h

theorem vecFrame_addLat (s : State) (unit lat : Nat) (e : Eff) : VecFrame s (s.addLat unit lat e) :=
  .of_modMe (f := fun c => { c with pend := c.pend ++ _ }) (s.nextId + 1) rfl
theorem vecFrame_modEng (s : State) (u : Eng) (f : Engine → Engine) : VecFrame s (s.modEng u f) := by
  refine .of_modMe (f := fun c => if s.cur.shadow then { c with lanes := lmod c.lanes (engIdx u) Engine.zero f }
    else { c with engs := lmod c.engs (engIdx u) Engine.zero f }) s.nextId ?_
  split <;> rfl
theorem vecFrame_engIssue (s : State) (u : Eng) (reps occ : Nat) : VecFrame s (s.engIssue u reps occ) :=
  (vecFrame_modEng ..).trans (.of_modMe (f := fun c => c.perfAdd (engNum u) 1) _ rfl)

theorem vecFrame_foldl {α : Type} (f : State → α → State) (hf : ∀ s a, VecFrame s (f s a)) (l : List α) (s : State) : VecFrame s (l.foldl f s) := by
  induction l generalizing s with
  | nil => exact .refl s
  | cons a l ih => exact (hf s a).trans (ih _)

theorem VecFrame.sameMemory {s t : State} (h : VecFrame s t) : SameMemory s t := by
  refine sameMemory_of_bytes (Prod.ext h.mem (funext fun k => ?_))
  by_cases hk : k = s.cur.core
  · subst hk
    exact (congrArg (fun c : Core => c.mem.sp1) (h.me.trans h.own) : (t.core s.cur.core).mem.sp1 = _)
  · exact congrArg (fun c : Core => c.mem.sp1) (h.others k hk)

/-- A result for a register, or none. -/
def toRegister (dst : Option (Bool × Nat)) : Prop := ∀ c, dst ≠ some (true, c)

theorem vecFrame_vecOut (s : State) {dst : Option (Bool × Nat)} (h : toRegister dst) (lat : Nat) (o : VOut) : VecFrame s (s.vecOut dst lat o) := by
  have hflags (t : State) : VecFrame t (if o.fl = 0 then t else t.addLat 1 lat (.vflag o.fl)) := by
    split_ifs
    · exact .refl t
    · exact vecFrame_addLat ..
  have hmasks (t : State) := vecFrame_foldl (fun (s : State) (m : MaskOp) => s.addLat 1 lat (.mask m)) (fun s _ => vecFrame_addLat s 1 lat _) o.masks t
  unfold State.vecOut
  rcases dst with _ | ⟨_ | _, c⟩
  · exact (hflags s).trans (hmasks _)
  · exact ((vecFrame_addLat ..).trans (hflags _)).trans (hmasks _)
  · exact absurd rfl (h c)

theorem toRegister_none : toRegister none := fun _ => nofun

/-- Sources that are all registers. -/
def fromRegisters (vs : List VSrc) : Prop := ∀ v ∈ vs, srcChan v.f = false

theorem chanReads_registers {vs : List VSrc} (h : fromRegisters vs) (popped : List (Nat × Nat)) : chanReads vs popped = vs.map fun _ => none := by
  induction vs with
  | nil => rfl
  | cons v vs ih =>
    rw [chanReads, if_neg (by rw [h v List.mem_cons_self]; decide), ih fun u hu => h u (List.mem_cons_of_mem _ hu)]
    rfl

theorem popCounts_registers {vs : List VSrc} (h : fromRegisters vs) : popCounts vs = [] := by
  have hf : (vs.filter fun v => srcChan v.f && srcPop v.f) = [] := List.filter_eq_nil_iff.2 fun v hv => by
    rw [h v hv, Bool.false_and]; decide
  simp only [popCounts, hf]
  rfl

theorem firstFault_eq_none {l : List (Option FaultRec)} (h : ∀ f ∈ l, f = none) : firstFault l = none := by
  induction l with
  | nil => rfl
  | cons f l ih => rw [h f List.mem_cons_self]; exact ih fun g hg => h g (List.mem_cons_of_mem _ hg)

theorem chanFaults_registers {s : State} {vs : List VSrc} {dst : Option (Bool × Nat)} (hvs : fromRegisters vs) (hd : toRegister dst) :
    s.chanFaults vs dst = none := by
  refine firstFault_eq_none fun f hf => ?_
  rw [List.mem_append, List.mem_map, List.mem_singleton] at hf
  obtain ⟨v, hv, rfl⟩ | rfl := hf
  · exact if_neg (by rw [hvs v hv]; decide)
  · split
    · exact absurd rfl (hd _)
    · rfl

theorem srcMiss_registers {s : State} {vs : List VSrc} (hvs : fromRegisters vs) : s.srcMiss vs = none := by
  rw [State.srcMiss, chanReads_registers hvs, List.findSome?_eq_none_iff]
  intro c hc
  obtain ⟨_, _, rfl⟩ := List.mem_map.1 hc
  rfl

/-- Registers alone raise no channel fault and miss nothing: the repeat always completes. -/
theorem vecGo_registers {s : State} {i : Instr} {reps occ lat : Nat} {mesh : Bool} {vs : List VSrc} {dst : Option (Bool × Nat)}
    {out : List (List Lane) → VOut} (hvs : fromRegisters vs) (hd : toRegister dst) :
    s.vecGo i reps occ lat mesh vs dst out = s.vecDone dst reps occ lat vs (out (s.srcLanes vs)) := by
  unfold State.vecGo
  rcases dst with _ | ⟨_ | _, c⟩
  · simp only [chanFaults_registers hvs hd, srcMiss_registers hvs]; rfl
  · simp only [chanFaults_registers hvs hd, srcMiss_registers hvs]; rfl
  · exact absurd rfl (hd c)

/-- The frame of such a repeat. -/
theorem vecFrame_vecGo {s : State} {i : Instr} {reps occ lat : Nat} {mesh : Bool} {vs : List VSrc} {dst : Option (Bool × Nat)}
    {out : List (List Lane) → VOut} (hvs : fromRegisters vs) (hd : toRegister dst) (ha : ∀ ls, (out ls).also = fun s => s) :
    VecFrame s (s.vecGo i reps occ lat mesh vs dst out) := by
  rw [vecGo_registers hvs hd, State.vecDone, popCounts_registers hvs, ha]
  exact ((vecFrame_vecOut s hd lat _).trans (vecFrame_modEng ..)).trans (vecFrame_engIssue ..)

/-! ## The families of vector words -/

theorem perf_takeFault (s : State) (f : FaultRec) : (s.takeFault f).me.perf = s.me.perf := by
  cases hs : s.cur.shadow with
  | false => rw [me_takeFault_main f hs]; rfl
  | true => rw [me_takeFault_shadow f hs]; split_ifs <;> rfl

/-- A word whose issue, when PERF1 counts it, keeps the frame. -/
def Framed (s : State) (r : Res) : Prop :=
  ∀ t, r = .next t → lget t.me.perf 1 0 ≠ lget s.me.perf 1 0 → VecFrame s t

theorem Framed.ite {s : State} {c : Prop} [Decidable c] {q r : Res} (hq : Framed s q) (hr : Framed s r) : Framed s (if c then q else r) := by
  split_ifs
  · exact hq
  · exact hr

theorem framed_fault (s : State) (f : FaultRec) : Framed s (.next (s.takeFault f)) := by
  rintro t ht hp
  obtain rfl : s.takeFault f = t := Host.Outcome.next.inj ht
  exact absurd (by rw [perf_takeFault]) hp

theorem framed_engRun {s : State} {i : Instr} {legal : Bool} {body : State → State} (h : Framed s (.next (body s))) :
    Framed s (engRun .vec i legal body s) := by
  unfold engRun
  split_ifs
  · exact framed_fault _ _
  · exact framed_fault _ _
  · exact h

theorem framed_vecGo {s : State} {i : Instr} {reps occ lat : Nat} {mesh : Bool} {vs : List VSrc} {dst : Option (Bool × Nat)}
    {out : List (List Lane) → VOut} (hvs : fromRegisters vs) (hd : toRegister dst) (ha : ∀ ls, (out ls).also = fun s => s) :
    Framed s (.next (s.vecGo i reps occ lat mesh vs dst out)) := by
  rintro t ht -
  obtain rfl : _ = t := Host.Outcome.next.inj ht
  exact vecFrame_vecGo hvs hd ha

section V3Words
variable {s : State} {w : V3} {i : Instr} {f : VForm} {lat : Nat}

theorem v3Srcs_registers (ha : srcChan w.va = false) (hb : f.vb = true → srcChan w.vb = false) (k : Nat) : fromRegisters (v3Srcs w f k) := by
  intro v hv
  rw [v3Srcs, List.mem_append] at hv
  obtain hv | hv := hv
  · split_ifs at hv
    · rw [List.mem_singleton.1 hv]; exact ha
    · exact absurd hv List.not_mem_nil
  · split_ifs at hv with hf
    · rw [List.mem_singleton.1 hv]; exact hb hf
    · exact absurd hv List.not_mem_nil

theorem v3Dest_register (hd : dstChan w.vd = false) (f : VForm) (k : Nat) : toRegister (v3Dest w f k) := by
  intro c
  rw [v3Dest]
  split_ifs
  · simp
  · simp [hd]

variable (ha : srcChan w.va = false) (hb : f.vb = true → srcChan w.vb = false) (hd : dstChan w.vd = false)
include ha hb hd

theorem framed_vec3 {op : Lane → Lane → Lane → LaneR} : Framed s (vec3 i w f lat op s) :=
  framed_engRun (framed_vecGo (v3Srcs_registers ha hb _) (v3Dest_register hd _ _) fun _ => rfl)

theorem framed_vec3All {mesh : Bool} {op : BitVec 64 → List (List Lane) → VOut} (hop : ∀ act vs, (op act vs).also = fun s => s) :
    Framed s (vec3All i w f lat mesh op s) :=
  framed_engRun (framed_vecGo (v3Srcs_registers ha hb _) (v3Dest_register hd _ _) (hop _))

end V3Words

/-- A word that the depth of the mask stack may refuse. -/
theorem framed_ite_illegal {s : State} {i : Instr} {c : Prop} [Decidable c] {t : State} (h : Framed s (.next t)) :
    Framed s (.next (if c then s.illegalWord .vec i else t)) := by
  split_ifs
  · exact framed_fault _ _
  · exact h

section V3Families
variable {s : State} {w : V3} {i : Instr}

theorem framed_vecReduce {ty : Nat} {rm sat legal : Bool} {empty : Lane} {op : LaneR → LaneR → LaneR} {fin : Lane → Lane}
    (ha : srcChan w.va = false) (hd : dstChan w.vd = false) : Framed s (vecReduce i w ty rm sat legal empty op s fin) := by
  unfold vecReduce
  exact framed_engRun (framed_vecGo (v3Srcs_registers ha (fun h => absurd h Bool.false_ne_true) _) (v3Dest_register hd _ _) fun _ => rfl)

theorem framed_vecMask {x : Nat} {va : Bool} {allow : Nat → Bool} {ops : List (List Lane) → List MaskOp} (ha : srcChan w.va = false) :
    Framed s (vecMask i w x va allow ops s) := by
  unfold vecMask
  exact framed_engRun (framed_ite_illegal (framed_vecGo (v3Srcs_registers ha (fun h => absurd h Bool.false_ne_true) _) toRegister_none fun _ => rfl))

theorem framed_vecCmp {cond : Nat → Lane → Lane → Bool} (ha : srcChan w.va = false) (hb : srcChan w.vb = false) (hd : dstChan w.vd = false) :
    Framed s (vecCmp i w cond s) := by
  unfold vecCmp
  refine Framed.ite (framed_vec3 ha (fun _ => hb) hd) ?_
  exact framed_engRun (framed_ite_illegal (framed_vecGo (v3Srcs_registers ha (fun _ => hb) _) toRegister_none fun _ => rfl))

theorem framed_vcvt (ha : srcChan w.va = false) (hd : dstChan w.vd = false) : Framed s (execVcvt w s) := by
  unfold execVcvt
  exact framed_engRun (framed_vecGo (v3Srcs_registers ha (fun h => absurd h Bool.false_ne_true) _) (v3Dest_register hd _ _) fun _ => rfl)

theorem framed_vbcst (ha : srcChan w.va = false) (hd : dstChan w.vd = false) : Framed s (execVbcst w s) := by
  unfold execVbcst
  exact framed_engRun (framed_vecGo (v3Srcs_registers ha (fun h => absurd h Bool.false_ne_true) _) (v3Dest_register hd _ _) fun _ => rfl)

theorem framed_vdotp (ha : srcChan w.va = false) (hb : srcChan w.vb = false) (hd : dstChan w.vd = false) : Framed s (execVdotp w s) := by
  unfold execVdotp
  refine framed_engRun (framed_vecGo (v3Srcs_registers ha (fun _ => hb) _) (fun c => ?_) fun _ => rfl)
  split_ifs
  · exact v3Dest_register hd _ _ c
  · exact toRegister_none c

end V3Families

section VIWords
variable {s : State} {v : VI} {i : Instr} (ha : srcChan v.va = false) (hd : dstChan v.vd = false)
include ha

theorem viSrc_register (k : Nat) : fromRegisters [{ f := v.va, idx := k }] := fun _ hu => by rw [List.mem_singleton.1 hu]; exact ha

include hd

theorem framed_vecI {lat : Nat} {va legal : Bool} {op : Lane → Lane} : Framed s (vecI i v lat va legal op s) := by
  refine framed_engRun (framed_vecGo ?_ (fun c => by rw [hd]; nofun) fun _ => rfl)
  split_ifs
  · exact viSrc_register ha _
  · exact fun _ hu => absurd hu List.not_mem_nil

theorem framed_vcmpi : Framed s (execVcmpi v s) := by
  unfold execVcmpi
  refine Framed.ite (framed_vecI ha hd) ?_
  exact framed_engRun (framed_ite_illegal (framed_vecGo (viSrc_register ha _) toRegister_none fun _ => rfl))

end VIWords

/-! ## The words of a frame by family, each with its meaning -/

/-- The integer words of R244. -/
def integerWords : List ((V3 → Instr) × (V3 → State → Res)) :=
  [(.vadd, execVadd), (.vsub, execVsub), (.vmul, execVmul), (.vmulh, execVmulh), (.vmac, execVmac), (.vadds, execVadds), (.vsubs, execVsubs),
   (.vabs, execVabs), (.vneg, execVneg), (.vmin, execVmin), (.vmax, execVmax), (.vabsd, execVabsd)]

/-- The bit words of R246 and R247. -/
def bitWords : List ((V3 → Instr) × (V3 → State → Res)) :=
  [(.vand, execVand), (.vor, execVor), (.vxor, execVxor), (.vnot, execVnot), (.vshl, execVshl), (.vshr, execVshr), (.vsra, execVsra),
   (.vrot, execVrot), (.vpopc, execVpopc), (.vclz, execVclz), (.vfsh, execVfsh), (.vbfx, execVbfx), (.vbfi, execVbfi)]

/-- The floating words of R252 and R253. -/
def floatWords : List ((V3 → Instr) × (V3 → State → Res)) :=
  [(.vfadd, execVfadd), (.vfsub, execVfsub), (.vfmul, execVfmul), (.vfma, execVfma), (.vfms, execVfms), (.vfsqrt, execVfsqrt), (.vfmin, execVfmin),
   (.vfmax, execVfmax), (.vfminp, execVfminp), (.vfmaxp, execVfmaxp), (.vfabs, execVfabs), (.vfneg, execVfneg)]

/-- The table-defined words of R254. -/
def tableWords : List ((V3 → Instr) × (V3 → State → Res)) :=
  [(.vrcp, execVrcp), (.vrsq, execVrsq), (.vexp2, execVexp2), (.vlog2, execVlog2)]

/-- The compares. -/
def compareWords : List ((V3 → Instr) × (V3 → State → Res)) :=
  [(.vcmp, execVcmp), (.vfcmp, execVfcmp)]

/-- The mask words. -/
def maskStackWords : List ((V3 → Instr) × (V3 → State → Res)) :=
  [(.mpush, execMpush), (.minv, execMinv), (.mpop, execMpop), (.mclr, execMclr)]

/-- The reductions. -/
def reductionWords : List ((V3 → Instr) × (V3 → State → Res)) :=
  [(.vradd, execVradd), (.vrmin, execVrmin), (.vrmax, execVrmax), (.vrand, execVrand), (.vror, execVror), (.vrxor, execVrxor), (.vrfadd, execVrfadd),
   (.vrfmin, execVrfmin), (.vrfmax, execVrfmax)]

/-- The permutes and moves. -/
def permuteWords : List ((V3 → Instr) × (V3 → State → Res)) :=
  [(.vperm, execVperm), (.vslup, execVslup), (.vsldn, execVsldn), (.vrev, execVrev), (.vzip, execVzip), (.vuzp, execVuzp), (.vmov, execVmov)]

/-- The immediate words that work lane by lane. -/
def immediateWords : List ((VI → Instr) × (VI → State → Res)) :=
  [(.vaddi, execVaddi), (.vli, execVli), (.vlih, execVlih), (.vandi, execVandi), (.vshli, execVshli), (.vshri, execVshri), (.vsrai, execVsrai)]

section Families
variable {s : State} {w : V3}

theorem framed_vecInt {i : Instr} {a b c d : Bool} {lat : Nat} {op : Int → Int → Int → Int}
    (ha : srcChan w.va = false) (hb : srcChan w.vb = false) (hd : dstChan w.vd = false) : Framed s (vecInt i w a b c d lat op s) := by
  unfold vecInt
  exact framed_vec3 ha (fun _ => hb) hd

theorem framed_integerWords (ha : srcChan w.va = false) (hb : srcChan w.vb = false) (hd : dstChan w.vd = false) :
    ∀ r ∈ integerWords, Framed s (exec (r.1 w) s) := by
  intro r hr
  simp only [integerWords, List.mem_cons, List.not_mem_nil, or_false] at hr
  have hrun : exec (r.1 w) s = r.2 w s := by rcases hr with rfl | rfl | rfl | rfl | rfl | rfl | rfl | rfl | rfl | rfl | rfl | rfl <;> rfl
  rw [hrun]
  rcases hr with rfl | rfl | rfl | rfl | rfl | rfl | rfl | rfl | rfl | rfl | rfl | rfl <;> dsimp only <;> exact framed_vecInt ha hb hd

theorem framed_vecBits {i : Instr} {x : Nat} {a b : Bool} {op : Lane → Lane → Lane → Lane}
    (ha : srcChan w.va = false) (hb : srcChan w.vb = false) (hd : dstChan w.vd = false) : Framed s (vecBits i w x a b op s) := by
  unfold vecBits
  exact framed_vec3 ha (fun _ => hb) hd

theorem framed_bitWords (ha : srcChan w.va = false) (hb : srcChan w.vb = false) (hd : dstChan w.vd = false) :
    ∀ r ∈ bitWords, Framed s (exec (r.1 w) s) := by
  intro r hr
  simp only [bitWords, List.mem_cons, List.not_mem_nil, or_false] at hr
  have hrun : exec (r.1 w) s = r.2 w s := by rcases hr with rfl | rfl | rfl | rfl | rfl | rfl | rfl | rfl | rfl | rfl | rfl | rfl | rfl <;> rfl
  rw [hrun]
  rcases hr with rfl | rfl | rfl | rfl | rfl | rfl | rfl | rfl | rfl | rfl | rfl | rfl | rfl <;> dsimp only <;> exact framed_vecBits ha hb hd

theorem framed_vecFlt {i : Instr} {a b c : Bool} {lat : Nat} {op : Nat → Nat → Nat → Nat → Nat → Nat × Fx}
    (ha : srcChan w.va = false) (hb : srcChan w.vb = false) (hd : dstChan w.vd = false) : Framed s (vecFlt i w a b c lat op s) := by
  unfold vecFlt
  exact framed_vec3 ha (fun _ => hb) hd

theorem framed_floatWords (ha : srcChan w.va = false) (hb : srcChan w.vb = false) (hd : dstChan w.vd = false) :
    ∀ r ∈ floatWords, Framed s (exec (r.1 w) s) := by
  intro r hr
  simp only [floatWords, List.mem_cons, List.not_mem_nil, or_false] at hr
  have hrun : exec (r.1 w) s = r.2 w s := by rcases hr with rfl | rfl | rfl | rfl | rfl | rfl | rfl | rfl | rfl | rfl | rfl | rfl <;> rfl
  rw [hrun]
  rcases hr with rfl | rfl | rfl | rfl | rfl | rfl | rfl | rfl | rfl | rfl | rfl | rfl <;> dsimp only <;> exact framed_vecFlt ha hb hd

theorem framed_vecTable {i : Instr} {fn : Nat → Nat × Fx}
    (ha : srcChan w.va = false) (hb : srcChan w.vb = false) (hd : dstChan w.vd = false) : Framed s (vecTable i w fn s) := by
  unfold vecTable
  exact framed_vec3 ha (fun _ => hb) hd

theorem framed_tableWords (ha : srcChan w.va = false) (hb : srcChan w.vb = false) (hd : dstChan w.vd = false) :
    ∀ r ∈ tableWords, Framed s (exec (r.1 w) s) := by
  intro r hr
  simp only [tableWords, List.mem_cons, List.not_mem_nil, or_false] at hr
  have hrun : exec (r.1 w) s = r.2 w s := by rcases hr with rfl | rfl | rfl | rfl <;> rfl
  rw [hrun]
  rcases hr with rfl | rfl | rfl | rfl <;> dsimp only <;> exact framed_vecTable ha hb hd

theorem framed_compareWords (ha : srcChan w.va = false) (hb : srcChan w.vb = false) (hd : dstChan w.vd = false) :
    ∀ r ∈ compareWords, Framed s (exec (r.1 w) s) := by
  intro r hr
  simp only [compareWords, List.mem_cons, List.not_mem_nil, or_false] at hr
  have hrun : exec (r.1 w) s = r.2 w s := by
    rcases hr with rfl | rfl <;> rfl
  rw [hrun]
  rcases hr with rfl | rfl <;> dsimp only <;> exact framed_vecCmp ha hb hd

theorem framed_maskStackWords (ha : srcChan w.va = false) :
    ∀ r ∈ maskStackWords, Framed s (exec (r.1 w) s) := by
  intro r hr
  simp only [maskStackWords, List.mem_cons, List.not_mem_nil, or_false] at hr
  have hrun : exec (r.1 w) s = r.2 w s := by
    rcases hr with rfl | rfl | rfl | rfl <;> rfl
  rw [hrun]
  rcases hr with rfl | rfl | rfl | rfl <;> dsimp only <;> exact framed_vecMask ha

theorem framed_reductionWords (ha : srcChan w.va = false) (hd : dstChan w.vd = false) :
    ∀ r ∈ reductionWords, Framed s (exec (r.1 w) s) := by
  intro r hr
  simp only [reductionWords, List.mem_cons, List.not_mem_nil, or_false] at hr
  have hrun : exec (r.1 w) s = r.2 w s := by
    rcases hr with rfl | rfl | rfl | rfl | rfl | rfl | rfl | rfl | rfl <;> rfl
  rw [hrun]
  rcases hr with rfl | rfl | rfl | rfl | rfl | rfl | rfl | rfl | rfl <;> dsimp only <;> exact framed_vecReduce ha hd

theorem framed_vecPerm {i : Instr} {f : VForm} {lat : Nat} {mesh : Bool} {pick : List Lane → List Lane → Nat → Lane}
    (ha : srcChan w.va = false) (hb : srcChan w.vb = false) (hd : dstChan w.vd = false) : Framed s (vecPerm i w f lat mesh pick s) := by
  unfold vecPerm
  exact framed_vec3All ha (fun _ => hb) hd fun _ _ => rfl

theorem framed_permuteWords (ha : srcChan w.va = false) (hb : srcChan w.vb = false) (hd : dstChan w.vd = false) :
    ∀ r ∈ permuteWords, Framed s (exec (r.1 w) s) := by
  intro r hr
  simp only [permuteWords, List.mem_cons, List.not_mem_nil, or_false] at hr
  have hrun : exec (r.1 w) s = r.2 w s := by
    rcases hr with rfl | rfl | rfl | rfl | rfl | rfl | rfl <;> rfl
  rw [hrun]
  rcases hr with rfl | rfl | rfl | rfl | rfl | rfl | rfl <;>
    dsimp only [execVperm, execVslup, execVsldn, execVrev, execVzip, execVuzp, execVmov] <;> exact framed_vecPerm ha hb hd

theorem framed_vsel (ha : srcChan w.va = false) (hb : srcChan w.vb = false) (hd : dstChan w.vd = false) : Framed s (execVsel w s) := by
  unfold execVsel
  exact framed_vec3All ha (fun _ => hb) hd fun _ _ => rfl

theorem framed_vins (ha : srcChan w.va = false) (hd : dstChan w.vd = false) : Framed s (execVins w s) := by
  unfold execVins
  exact framed_vec3All ha (fun h => absurd h Bool.false_ne_true) hd fun _ _ => rfl

theorem framed_immediateWords {v : VI} (ha : srcChan v.va = false) (hd : dstChan v.vd = false) :
    ∀ r ∈ immediateWords, Framed s (exec (r.1 v) s) := by
  intro r hr
  simp only [immediateWords, List.mem_cons, List.not_mem_nil, or_false] at hr
  have hrun : exec (r.1 v) s = r.2 v s := by
    rcases hr with rfl | rfl | rfl | rfl | rfl | rfl | rfl <;> rfl
  rw [hrun]
  rcases hr with rfl | rfl | rfl | rfl | rfl | rfl | rfl <;> dsimp only <;> exact framed_vecI ha hd

end Families

theorem vectorWordFrame : Claims.VectorWordFrame := by
  intro s t w v ha hd hva hvd
  have done {r : Res} (hf : Framed s r) (h : r = .next t) (hp : lget t.me.perf 1 0 ≠ lget s.me.perf 1 0) : VecFrame s t ∧ SameMemory s t :=
    ⟨hf t h hp, (hf t h hp).sameMemory⟩
  refine ⟨fun hb i hi => done ?_, fun i hi => done ?_⟩
  · have hi' : i ∈ ((integerWords ++ bitWords ++ floatWords ++ tableWords ++ compareWords ++ maskStackWords).map fun r => r.1 w) ++ [.vsel w] ++
        ((reductionWords ++ permuteWords).map fun r => r.1 w) ++ [.vins w, .vdotp w] := hi
    simp only [List.mem_append, List.mem_map, List.mem_cons, List.not_mem_nil, or_false] at hi'
    obtain ((⟨r, hr, rfl⟩ | rfl) | ⟨r, hr, rfl⟩) | rfl | rfl := hi'
    · obtain ((((hr | hr) | hr) | hr) | hr) | hr := hr
      · exact framed_integerWords ha hb hd r hr
      · exact framed_bitWords ha hb hd r hr
      · exact framed_floatWords ha hb hd r hr
      · exact framed_tableWords ha hb hd r hr
      · exact framed_compareWords ha hb hd r hr
      · exact framed_maskStackWords ha r hr
    · exact (framed_vsel ha hb hd : Framed s (execVsel w s))
    · obtain hr | hr := hr
      · exact framed_reductionWords ha hd r hr
      · exact framed_permuteWords ha hb hd r hr
    · exact (framed_vins ha hd : Framed s (execVins w s))
    · exact (framed_vdotp ha hb hd : Framed s (execVdotp w s))
  · have hi' : i ∈ [.vcvt w, .vbcst w] ++ (immediateWords.map fun r => r.1 v) ++ [.vcmpi v] := hi
    simp only [List.mem_append, List.mem_map, List.mem_cons, List.not_mem_nil, or_false] at hi'
    obtain ((rfl | rfl) | ⟨r, hr, rfl⟩) | rfl := hi'
    · exact (framed_vcvt ha hd : Framed s (execVcvt w s))
    · exact (framed_vbcst ha hd : Framed s (execVbcst w s))
    · exact framed_immediateWords hva hvd r hr
    · exact (framed_vcmpi hva hvd : Framed s (execVcmpi v s))

/-! ## Where a vector result lands (R37, R239) -/

theorem lget_mergeLanes (m : BitVec 64) (old new : List Lane) {l : Nat} (h : l < 64) :
    lget (mergeLanes m old new) l 0 = if m.getLsbD l then lget new l 0 else lget old l 0 := by
  rw [mergeLanes, lget_eq_getD, List.getD_eq_getElem _ _ (by simpa using h)]
  simp

/-- An element put in a list leaves the others that the list has. -/
theorem lget_lput_within {α : Type} {l : List α} {i j : Nat} (v d d' : α) (h : j ≠ i) (hj : j < l.length) : lget (lput l i v d') j d = lget l j d := by
  induction l generalizing i j with
  | nil => exact absurd hj (Nat.not_lt_zero j)
  | cons x l ih =>
    cases i with
    | zero =>
      cases j with
      | zero => exact absurd rfl h
      | succ j => rfl
    | succ i =>
      cases j with
      | zero => rfl
      | succ j => exact ih (fun he => h (congrArg (· + 1) he)) (Nat.lt_of_succ_lt_succ hj)

theorem vectorResultLands : Claims.VectorResultLands := by
  intro s p r m v he hn
  have hv : (s.landQuiet p).me.vec.v = lmod s.me.vec.v r (List.replicate 64 0) fun o => mergeLanes m o v := by
    have hland : s.landQuiet p = (s.endPend p).modCore s.cur.core fun c => c.landReg (.vreg r m v) := by
      simp only [State.landQuiet, he]
    rw [hland, State.me, State.cur_modCore, cur_endPend, State.core_modCore, core_endPend]
    rfl
  rw [hv]
  refine ⟨fun l hl => ?_, fun q hq hlt => lget_lput_within _ _ _ hq hlt⟩
  rw [lmod, lget_lput_pad_same, lget_mergeLanes _ _ _ hl]

/-- Settles O36: a vector word changes its queue, PERF and what is in flight, and its result lands in the lanes written (R30, R37, R239). -/
theorem vectorFrames : Obligations.VectorFrames := ⟨vectorWordFrame, vectorResultLands⟩

end Sys2Proof.Machine

namespace Sys2Proof.Machine

/-! ## The bytes of elements (R39, R58, R61) -/

/-- Two pieces one behind the other make the same bytes as one. -/
theorem overlay_joined {p q : Piece} (h : p.addr + p.bytes.length = q.addr) (a : Nat) (b : Byte) :
    overlay [{ p with bytes := p.bytes ++ q.bytes }] a b = overlay [q] a (overlay [p] a b) := by
  simp only [overlay_singleton, List.length_append, lget_eq_getD]
  by_cases h1 : p.addr ≤ a ∧ a < p.addr + p.bytes.length
  · rw [if_pos (by omega), if_neg (by omega), if_pos h1, List.getD_append _ _ _ _ (by omega)]
  · by_cases h2 : q.addr ≤ a ∧ a < q.addr + q.bytes.length
    · rw [if_pos (by omega), if_pos h2, List.getD_append_right _ _ _ _ (by omega)]
      congr 1; omega
    · rw [if_neg (by omega), if_neg h2, if_neg h1]

theorem overlay_joinPieces (ps : List Piece) (a : Nat) (b : Byte) : overlay (joinPieces ps) a b = overlay ps a b := by
  induction ps generalizing b with
  | nil => rfl
  | cons p r ih =>
    rw [overlay_cons p r, ← ih, joinPieces]
    generalize joinPieces r = l
    cases l with
    | nil => rfl
    | cons q t =>
      dsimp only
      split_ifs with h
      · rw [overlay_cons, overlay_cons q, overlay_joined (by simpa using (Bool.and_eq_true_iff.1 h).1)]
      · rfl

theorem elementBytes : Claims.ElementBytes := by
  intro s k d base a old es hb
  rw [State.elemPieces, if_neg hb, overlay_joinPieces, overlay, List.foldl_map]
  refine List.foldl_ext _ _ _ fun b e _ => ?_
  obtain ⟨i, j, v, poi⟩ := e
  dsimp only
  rw [length_leBytes]
  by_cases h : (d.addrIn base i j).toNat ≤ a ∧ a < (d.addrIn base i j).toNat + d.bits / 8
  · rw [if_pos (by simpa using h), if_pos h, lget_leBytes (by omega)]
  · rw [if_neg (by simpa using h), if_neg h]

/-! ## A repeat of a memory word (R63, R259 to R261) -/

section VmRun
variable {i : Instr} {w : VM} {legal write : Bool} {extra : Desc → Bool} {body : Desc → Nat → State → State} {s : State}

/-- The descriptor that a memory word has latched. -/
def vmDesc (s : State) (w : VM) : Desc := lget (s.latch .vec [w.desc.toNat]) 0 Desc.zero

/-- The checks of a repeat of a memory word, once its own fields are legal. -/
theorem vmRun_issue (hb : s.wordBad .vec = false) (hl : s.wordLegal .vec legal = true) : vmRun i w legal write extra body s = .next
    (if (vmDesc s w).fmt = 5 then s.illegalWord .vec i
     else if 3 ≤ (vmDesc s w).level.toNat || !extra (vmDesc s w) then s.takeFault (permD 1 w.desc.toNat)
     else match s.descFault s.cur.core 1 w.desc.toNat (vmDesc s w) write with
       | some f => s.takeFault f
       | none =>
         if (vmDesc s w).rows.toNat ≤ vmRow w (s.eng .vec).rep then s.takeFault (permD 1 w.desc.toNat)
         else match if write then [] else s.readMiss (vmDesc s w) with
           | [] => body (vmDesc s w) (s.eng .vec).rep (s.keepLatch .vec (s.latch .vec [w.desc.toNat]))
           | ids => s.engMiss .vec w.desc.toNat (.pends ids)) := engRun_issue hb hl

section Checks
variable (hb : s.wordBad .vec = false) (hl : s.wordLegal .vec legal = true)
include hb hl

theorem vmRun_int64 (hf : (vmDesc s w).fmt = 5) : vmRun i w legal write extra body s = .next (s.illegalWord .vec i) := by
  rw [vmRun_issue hb hl, if_pos hf]

theorem vmRun_level (hf : (vmDesc s w).fmt ≠ 5) (h : 3 ≤ (vmDesc s w).level.toNat ∨ extra (vmDesc s w) = false) :
    vmRun i w legal write extra body s = .next (s.takeFault (permD 1 w.desc.toNat)) := by
  rw [vmRun_issue hb hl, if_neg hf, if_pos (by simpa using h)]

variable (hf : (vmDesc s w).fmt ≠ 5) (hv : (vmDesc s w).level.toNat < 3) (he : extra (vmDesc s w) = true)
include hf hv he

theorem vmRun_descFault {f : FaultRec} (h : s.descFault s.cur.core 1 w.desc.toNat (vmDesc s w) write = some f) :
    vmRun i w legal write extra body s = .next (s.takeFault f) := by
  rw [vmRun_issue hb hl, if_neg hf, if_neg (by simp [he]; omega), h]

variable (hd : s.descFault s.cur.core 1 w.desc.toNat (vmDesc s w) write = none)
include hd

theorem vmRun_row (h : (vmDesc s w).rows.toNat ≤ vmRow w (s.eng .vec).rep) :
    vmRun i w legal write extra body s = .next (s.takeFault (permD 1 w.desc.toNat)) := by
  rw [vmRun_issue hb hl, if_neg hf, if_neg (by simp [he]; omega), hd]
  exact congrArg Host.Outcome.next (if_pos h)

variable (hr : vmRow w (s.eng .vec).rep < (vmDesc s w).rows.toNat)
include hr

theorem vmRun_miss (hw : write = false) (h : s.readMiss (vmDesc s w) ≠ []) :
    vmRun i w legal write extra body s = .next (s.engMiss .vec w.desc.toNat (.pends (s.readMiss (vmDesc s w)))) := by
  rw [vmRun_issue hb hl, if_neg hf, if_neg (by simp [he]; omega), hd]
  refine congrArg Host.Outcome.next ((if_neg (Nat.not_le.2 hr)).trans ?_)
  rw [hw, if_neg Bool.false_ne_true]
  split
  · next hn => exact absurd hn h
  · rfl

theorem vmRun_body (h : write = true ∨ s.readMiss (vmDesc s w) = []) : vmRun i w legal write extra body s =
    .next (body (vmDesc s w) (s.eng .vec).rep (s.keepLatch .vec (s.latch .vec [w.desc.toNat]))) := by
  rw [vmRun_issue hb hl, if_neg hf, if_neg (by simp [he]; omega), hd]
  refine congrArg Host.Outcome.next ((if_neg (Nat.not_le.2 hr)).trans ?_)
  have hn : (if write then [] else s.readMiss (vmDesc s w)) = [] := by
    obtain h | h := h
    · rw [if_pos h]
    · rw [h, ite_self]
  rw [hn]

end Checks
end VmRun

/-! ## The effects in flight (R37, R344) -/

/-- The step's core, and what the effects in flight of every core are, apart from when they land. -/
def State.effects (s : State) : Nat × (Nat → List Eff) := (s.cur.core, fun k => (s.core k).pend.map fun p => p.eff)

theorem mem_pend_of_effects {s t : State} (h : t.effects = s.effects) {e : Eff} (he : ∃ p ∈ s.me.pend, p.eff = e) : ∃ p ∈ t.me.pend, p.eff = e := by
  have hcur : t.cur.core = s.cur.core := congrArg Prod.fst h
  have hme : (t.me.pend.map fun p => p.eff) = s.me.pend.map fun p => p.eff := by
    rw [State.me, hcur]; exact congrFun (congrArg Prod.snd h) s.cur.core
  obtain ⟨p, hp, rfl⟩ := he
  exact List.mem_map.1 (hme ▸ List.mem_map_of_mem hp)

theorem effects_modCore {s : State} {k : Nat} {f : Core → Core}
    (h : ((f (s.core k)).pend.map fun p => p.eff) = (s.core k).pend.map fun p => p.eff) : (s.modCore k f).effects = s.effects := by
  refine Prod.ext rfl (funext fun j => ?_)
  by_cases hj : j = k
  · subst hj; exact (congrArg (fun c : Core => c.pend.map fun p => p.eff) (State.core_modCore ..)).trans h
  · exact congrArg (fun c : Core => c.pend.map fun p => p.eff) (State.core_modCore_other _ _ _ _ hj)

theorem eff_effLater (c : Core) (id d : Nat) : ((c.effLater id d).pend.map fun p => p.eff) = c.pend.map fun p => p.eff := by
  rw [Core.effLater, List.map_map]
  refine List.map_congr_left fun p _ => ?_
  dsimp only [Function.comp]
  split_ifs <;> rfl

theorem pend_setPorts (c : Core) (lane : Bool) (p : Ports) : (c.setPorts lane p).pend = c.pend := by unfold Core.setPorts; split_ifs <;> rfl

theorem eff_moveEff (c : Core) (lane : Bool) (now id d : Nat) : ((c.moveEff lane now id d).pend.map fun p => p.eff) = c.pend.map fun p => p.eff :=
  (eff_effLater _ id _).trans (congrArg (List.map fun p : Pend => p.eff) (pend_setPorts ..))

theorem effects_delayPort (s : State) (k : Nat) (lane : Bool) (p : DPort) (d : Nat) : (s.delayPort k lane p d).effects = s.effects := by
  by_cases hd : d = 0
  · rw [State.delayPort, if_pos hd]
  have hid (c : Core) : ((if p.id = 0 then c else c.effLater p.id d).pend.map fun p => p.eff) = c.pend.map fun p => p.eff := by
    split_ifs
    · rfl
    · exact eff_effLater ..
  have hown (c : Core) (f : Engine → Engine) : (if !p.own then c
      else if lane then { c with lanes := lmod c.lanes 2 Engine.zero f } else { c with engs := lmod c.engs 2 Engine.zero f }).pend = c.pend := by
    split_ifs <;> rfl
  rw [State.delayPort, if_neg hd]
  refine (foldl_keeps State.effects (fun s x => effects_modCore (eff_moveEff ..)) p.also _).trans (effects_modCore ?_)
  exact (congrArg (List.map fun p : Pend => p.eff) (hown ..)).trans (hid _)

theorem effects_vecPort (s : State) (cs : List Nat) : (s.vecPort cs).effects = s.effects :=
  (foldl_keeps State.effects (fun _ _ => effects_delayPort ..) _ _).trans
    (effects_modCore (congrArg (List.map fun p : Pend => p.eff) (pend_setPorts ..)))

theorem effects_touchBanks (s : State) (cs : List Nat) (gain : Nat) : (s.touchBanks cs gain).effects = s.effects :=
  (effects_modCore (f := fun c => c.perfAdd 7 gain) rfl).trans (effects_vecPort ..)

theorem effects_noteShadow (s : State) (n : Nat) : (s.noteShadow n).effects = s.effects := effects_modCore rfl

theorem effects_engIssue (s : State) (u : Eng) (reps occ : Nat) : (s.engIssue u reps occ).effects = s.effects :=
  (effects_modCore (f := fun c => c.perfAdd (engNum u) 1) rfl).trans (effects_modCore (by split <;> rfl))

theorem mem_pend_addPend (s : State) (unit land : Nat) (e : Eff) (g : Bool) (n : Option Nat) (ph : Bool) :
    ∃ p ∈ (s.addPend unit land e g n ph).me.pend, p.eff = e := by
  have hp : ∃ q : Pend, q.eff = e ∧ (s.addPend unit land e g n ph).me.pend = s.me.pend ++ [q] :=
    ⟨{ id := s.nextId, land := land, since := s.clk, tide := s.cur.shadow, unit := unit, goesOn := g, need := n, phased := ph, missed := false,
       eff := e, deps := if e.intoSp3 then s.sp3Deps unit else [] }, rfl,
      congrArg Core.pend (State.me_modMe s fun c => { c with pend := c.pend ++ [_] })⟩
  obtain ⟨q, he, hq⟩ := hp
  exact ⟨q, hq ▸ List.mem_append_right _ (List.mem_singleton.2 rfl), he⟩

/-! ## Vector loads and stores (R259 to R261) -/

/-- The three loads: the word, whether it reads an index, latencies, occupancies, its condition, and its columns. -/
theorem exec_vmLoads {s : State} {w : VM} {lats occs : List Nat} {extra : Desc → Bool} {cols : Nat → List Lane → List Nat} {i : Instr}
    {idx : Bool} (hb : s.wordBad .vec = false) (hl : s.wordLegal .vec (vmLoadLegal w idx) = true) (hf : (vmDesc s w).fmt ≠ 5)
    (hv : (vmDesc s w).level.toNat < 3) (he : extra (vmDesc s w) = true) (hd : s.descFault s.cur.core 1 w.desc.toNat (vmDesc s w) false = none)
    (hr : vmRow w (s.eng .vec).rep < (vmDesc s w).rows.toNat) (hm : s.readMiss (vmDesc s w) = []) {s' : State}
    (hs' : s' = s.keepLatch .vec (s.latch .vec [w.desc.toNat])) {vs : List VSrc} (hvs : vs = if idx then [{ f := w.vi, idx := srcIdx w.vi }] else [])
    {dst : Option (Bool × Nat)}
    (hdst : dst = some (dstChan (vmDst w), stepped (dstChan (vmDst w)) (stepsD w.step) (dstIdx (vmDst w)) (s.eng .vec).rep))
    (hok : s'.vecOk false vs dst = true) {out : VOut × Nat}
    (hout : out = s'.loadOut (vmDesc s w) (vmRow w (s.eng .vec).rep) (cols (vmUnit w (s.eng .vec).rep) (lget (s'.srcLanes vs) 0 []))
      (vmOcc occs (vmDesc s w)) (if idx then loadLane (vmDesc s w).fmt.toNat (vmDesc s w).fill.toNat else 0) idx) :
    vmLoad i w idx lats occs extra cols s = .next (s'.vecDone dst (w.rep.toNat + 1) (vmOcc occs (vmDesc s w) + out.2)
      (vmLat lats (vmDesc s w) + out.2) vs out.1) := by
  subst hs' hvs hdst hout
  refine (vmRun_body hb hl hf hv he hd hr (.inr hm)).trans (congrArg Host.Outcome.next ?_)
  exact vecGo_done hok

theorem vectorMemory : Claims.VectorMemory := by
  intro s w k n d s' row u dst hf hv hr hb
  refine ⟨fun hd hm r hr' => ?_, fun hd => ?_⟩
  · intro vs cols out hext hl hok
    simp only [List.mem_cons, List.not_mem_nil, or_false] at hr'
    obtain rfl | rfl | rfl := hr'
    · have hrun : exec (.vld w) s = execVld w s := rfl
      exact hrun.trans (exec_vmLoads (lats := [6, 12, 48]) (occs := [1, 1, 2]) (extra := fun _ => true)
        (cols := fun u _ => (List.range 64).map fun l => 64 * u + l) hb hl hf hv rfl hd hr hm rfl rfl rfl hok rfl)
    · have hrun : exec (.vldx w) s = execVldx w s := rfl
      exact hrun.trans (exec_vmLoads (lats := [8, 14, 50]) (occs := [4, 4, 16]) (extra := fun _ => true)
        (cols := fun _ x => (List.range 64).map fun l => (lget x l 0).toNat) hb hl hf hv rfl hd hr hm rfl rfl rfl hok rfl)
    · have hrun : exec (.vlut w) s = execVlut w s := rfl
      exact hrun.trans (exec_vmLoads (lats := [8]) (occs := [1]) (extra := fun d => d.level = 0 && d.cols.toNat ≤ 4096)
        (cols := fun _ x => (List.range 64).map fun l => (lget x l 0).toNat % 65536) hb hl hf hv hext hd hr hm rfl rfl rfl hok rfl)
  · have hact : s'.me.active = s.me.active := congrArg Core.active (State.me_modMe ..) |>.trans (by split <;> rfl)
    rw [← hact]
    intro vs hl hok ls
    have hrun : exec (.vst w) s = execVst w s := rfl
    refine ⟨_, hrun.trans ((vmRun_body (extra := fun _ => true) hb hl hf hv rfl hd hr (.inl rfl)).trans
      (congrArg Host.Outcome.next (vecGo_done hok))), ?_⟩
    refine mem_pend_of_effects (effects_engIssue ..) (mem_pend_of_effects ((effects_touchBanks ..).trans (effects_noteShadow ..)) ?_)
    exact mem_pend_addPend ..

/-- A load is a repeat of a memory word. -/
theorem vmLoad_eq_vmRun (i : Instr) (w : VM) (idx : Bool) (lats occs : List Nat) (extra : Desc → Bool) (cols : Nat → List Lane → List Nat) :
    ∃ body, ∀ s, vmLoad i w idx lats occs extra cols s = vmRun i w (vmLoadLegal w idx) false extra body s := ⟨_, fun _ => rfl⟩
theorem execVst_eq_vmRun (w : VM) : ∃ body, ∀ s, execVst w s = vmRun (.vst w) w (vmStoreLegal w) true (fun _ => true) body s := ⟨_, fun _ => rfl⟩

theorem vectorMemoryFaults : Claims.VectorMemoryFaults := by
  intro s w hb k n d row r hr
  have key {extra : Desc → Bool} {body : Desc → Nat → State → State} (hrun : exec r.1 s = vmRun r.1 w r.2.1 r.2.2.1 extra body s)
      (hext : r.2.2.2 = extra d) :
      (k = 0 → r.2.1 = false → exec r.1 s = .next (s.takeFault (mkFault 1 0x02 (encodeNat r.1)))) ∧
      (s.wordLegal .vec r.2.1 = true →
        (d.fmt = 5 → exec r.1 s = .next (s.takeFault (mkFault 1 0x02 (encodeNat r.1)))) ∧
        (d.fmt ≠ 5 → 3 ≤ d.level.toNat ∨ r.2.2.2 = false → exec r.1 s = .next (s.takeFault (mkFault 1 0x05 n))) ∧
        (d.fmt ≠ 5 → d.level.toNat < 3 → r.2.2.2 = true →
          (∀ f, s.descFault s.cur.core 1 n d r.2.2.1 = some f → exec r.1 s = .next (s.takeFault f)) ∧
          (s.descFault s.cur.core 1 n d r.2.2.1 = none →
            (d.rows.toNat ≤ row → exec r.1 s = .next (s.takeFault (mkFault 1 0x05 n))) ∧
            (row < d.rows.toNat → r.2.2.1 = false → s.readMiss d ≠ [] →
              exec r.1 s = .next (s.schedMiss 1 n (.pends (s.readMiss d))))))) := by
    refine ⟨fun hk hl => hrun.trans ?_, fun hl => ⟨fun hf => hrun.trans (vmRun_int64 hb hl hf), fun hf h => hrun.trans ?_, fun hf hv he => ?_⟩⟩
    · rw [hl]; exact engRun_illegal hb hk
    · exact vmRun_level hb hl hf (hext ▸ h)
    · exact ⟨fun f h => hrun.trans (vmRun_descFault hb hl hf hv (hext ▸ he) h),
        fun hd => ⟨fun h => hrun.trans (vmRun_row hb hl hf hv (hext ▸ he) hd h),
          fun h hw hm => hrun.trans (vmRun_miss hb hl hf hv (hext ▸ he) hd h hw hm)⟩⟩
  simp only [List.mem_cons, List.not_mem_nil, or_false] at hr
  obtain rfl | rfl | rfl | rfl := hr
  · obtain ⟨body, hbody⟩ := vmLoad_eq_vmRun (.vld w) w false [6, 12, 48] [1, 1, 2] (fun _ => true) fun u _ => (List.range 64).map fun l => 64 * u + l
    exact key ((rfl : exec (.vld w) s = execVld w s).trans (hbody s)) rfl
  · obtain ⟨body, hbody⟩ := vmLoad_eq_vmRun (.vldx w) w true [8, 14, 50] [4, 4, 16] (fun _ => true)
      fun _ x => (List.range 64).map fun l => (lget x l 0).toNat
    exact key ((rfl : exec (.vldx w) s = execVldx w s).trans (hbody s)) rfl
  · obtain ⟨body, hbody⟩ := vmLoad_eq_vmRun (.vlut w) w true [8] [1] (fun d => d.level = 0 && d.cols.toNat ≤ 4096)
      fun _ x => (List.range 64).map fun l => (lget x l 0).toNat % 65536
    exact key ((rfl : exec (.vlut w) s = execVlut w s).trans (hbody s)) (Bool.decide_and ..)
  · obtain ⟨body, hbody⟩ := execVst_eq_vmRun w
    exact key ((rfl : exec (.vst w) s = execVst w s).trans (hbody s)) rfl

/-- Settles O35: the loads and stores of the vector engine, their faults, and the bytes of elements (R61, R63, R259 to R261). -/
theorem vectorMemories : Obligations.VectorMemories := ⟨vectorMemory, vectorMemoryFaults, elementBytes⟩

end Sys2Proof.Machine

namespace Sys2Proof.Machine

/-! ## The queues of the engines (R35, R36, R50, R200 to R202) -/

/-- A change of an engine's queue leaves the core's modes and counters. -/
theorem modes_modEng (s : State) (u : Eng) (f : Engine → Engine) : (s.modEng u f).me.modes = s.me.modes ∧ (s.modEng u f).me.perf = s.me.perf := by
  have hme : (s.modEng u f).me = _ := State.me_modMe ..
  rw [hme]
  split_ifs <;> exact ⟨rfl, rfl⟩

/-- Whether the head passage starts after its stamp (R35). -/
def startsLate (s : State) : Bool :=
  match (s.eng s.cur.unit).q with
  | q :: _ => !s.cur.shadow && q.stamp < s.clk
  | [] => false

theorem startsLate_iff (s : State) :
    startsLate s = true ↔ s.cur.shadow = false ∧ ∃ q r, (s.eng s.cur.unit).q = q :: r ∧ q.stamp < s.clk := by
  unfold startsLate
  split
  · next q r h => simp [h]
  · next h => simp [h]

/-- The queue at the start of a passage. -/
def atStart (e : Engine) : Engine := { e with started := true, widx := 0, rep := 0 }

/-- A start, of which a late one is noted (R35, R42, R236). -/
theorem exec_passageStart {s : State} (h : s.startDue s.cur.unit = true) : exec .passageStart s = .next (if startsLate s then
      ((s.modEng s.cur.unit atStart).modMe fun c => { c with modes := { c.modes with late := true } }).modMe fun c => c.perfAdd 6 1
    else s.modEng s.cur.unit atStart) := by
  show execPassageStart s = _
  simp only [execPassageStart, h]
  rfl

theorem passageStarts : Claims.PassageStarts := by
  intro s h late
  have hlate : startsLate s = true ↔ late := startsLate_iff s
  have hmodes := modes_modEng s s.cur.unit atStart
  refine ⟨_, exec_passageStart h, ?_⟩
  by_cases hl : startsLate s = true
  · rw [if_pos hl]
    refine ⟨?_, fun _ => ?_, fun hn => absurd (hlate.1 hl) hn, sameMemory_of_bytes (by rw [bytes_modMe rfl, bytes_modMe rfl, bytes_modEng])⟩
    · refine Eq.trans ?_ (State.eng_modEng s s.cur.unit atStart)
      rw [State.eng, State.eng, State.me_modMe, State.me_modMe]; rfl
    · rw [State.me_modMe, State.me_modMe]
      refine ⟨congrArg (fun m : Modes => { m with late := true }) hmodes.1, ?_⟩
      exact (lget_lmod_same _ 6 (0 : Word) (· + BitVec.ofNat 64 1)).trans (congrArg (fun p => lget p 6 0 + 1) hmodes.2)
  · rw [if_neg hl]
    exact ⟨State.eng_modEng .., fun h => absurd (hlate.2 h) hl, fun _ => hmodes, sameMemory_of_bytes (bytes_modEng ..)⟩

/-! ## Control words -/

theorem controlWords : Claims.ControlWords := by
  intro s u w hb
  refine ⟨fun hl => ?_, fun hl => ?_, fun hl => ?_, fun hl => ⟨fun hs => ?_, fun hs q hq hlast => ?_⟩⟩
  · show execNop u w s = _
    exact engRun_issue hb hl
  · show execWait u w s = _
    exact engRun_issue hb hl
  · show execEngineQfence u w s = _
    exact engRun_issue hb hl
  · show execEngineNotify u w s = _
    refine (engRun_issue hb hl).trans ?_
    rw [if_pos hs]
  · have hok : (s.eng u).notifyOk s.clk = true := by simp [Engine.notifyOk, hq, hlast]
    show execEngineNotify u w s = _
    refine (engRun_issue hb hl).trans ?_
    rw [hs, hok]; rfl

/-- The end of a WAIT, as a queue sees it at cycle `now`. -/
theorem waiting_expiry (e : Engine) (now : Nat) :
    (if e.waiting && decide (e.next ≤ now) then { e with waiting := false } else e) = { e with waiting := e.waiting && !decide (e.next ≤ now) } := by
  obtain ⟨q, widx, rep, next, started, latch, sacq, ended, played, waiting, count, last, acc⟩ := e
  dsimp only
  by_cases hn : next ≤ now <;> cases waiting <;> simp [hn]

theorem waitExpires : Claims.WaitExpires := fun s => ⟨_, rfl, (State.eng_modEng ..).trans (waiting_expiry _ s.clk)⟩

theorem repeatsAdvance : Claims.RepeatsAdvance := by
  intro e q r reps nx hq
  have hissued : e.issued reps nx =
      let e' : Engine := { e with last := (q.addr, e.widx, e.rep), next := nx, started := true }
      if e.rep + 1 < reps then { e' with rep := e.rep + 1 }
      else if e.widx + 1 < q.len then { e' with widx := e.widx + 1, rep := 0, latch := [], acc := [] }
      else { e' with q := r, widx := 0, rep := 0, latch := [], acc := [], started := false, count := e.count + 1 } := by
    simp only [Engine.issued, hq]
  rw [hissued]
  refine ⟨?_, ?_, fun h => ?_, fun h hw => ?_, fun h hw => ?_⟩
  · dsimp only; split_ifs <;> rfl
  · dsimp only; split_ifs <;> rfl
  · rw [if_pos h]; exact ⟨rfl, rfl, rfl⟩
  · rw [if_neg (Nat.not_lt.2 h), if_pos hw]; exact ⟨rfl, rfl, rfl⟩
  · rw [if_neg (Nat.not_lt.2 h), if_neg (Nat.not_lt.2 hw)]; exact ⟨rfl, rfl, rfl⟩

theorem wordsRefused : Claims.WordsRefused := by
  intro s u b w
  refine ⟨fun hb hr => ?_, fun hb i hi => ?_⟩
  · show execUnassignedEngineOpcode u b s = _
    exact engRun_illegal hb hr
  simp only [List.mem_cons, List.not_mem_nil, or_false] at hi
  obtain rfl | rfl | rfl | rfl | rfl := hi
  · show execUnassignedEngineOpcode u b s = _
    exact engRun_poison hb
  · show execNop u w s = _
    exact engRun_poison hb
  · show execWait u w s = _
    exact engRun_poison hb
  · show execEngineNotify u w s = _
    exact engRun_poison hb
  · show execEngineQfence u w s = _
    exact engRun_poison hb

/-- Settles O37: how passages start, control words issue, repeats advance, and words are refused (R35, R36, R50, R135, R190, R200). -/
theorem engineControl : Obligations.EngineControl := ⟨passageStarts, controlWords, waitExpires, repeatsAdvance, wordsRefused⟩

end Sys2Proof.Machine

namespace Sys2Proof.Machine

/-! ## Gangs and their changes (R23, R25) -/

theorem berth_of_gang {s : State} {b : Nat} {g : Gang} (h : s.gang b = some g) : g.berth = b := by simpa using List.find?_some h

/-- The gang of a berth after the gang there has changed. -/
theorem gang_modGang {s : State} {b : Nat} {g : Gang} {f : Gang → Gang} (h : s.gang b = some g) (hf : ∀ g, (f g).berth = g.berth) :
    (s.modGang b f).gang b = some (f g) := by
  have hb := berth_of_gang h
  have hp : ((fun g : Gang => decide (g.berth = b)) ∘ fun g => if g.berth = b then f g else g) = fun g => decide (g.berth = b) := by
    funext g; dsimp only [Function.comp]; split_ifs <;> simp [*]
  show (s.gangs.map _).find? _ = _
  rw [List.find?_map, hp]
  exact (congrArg (Option.map _) h).trans (congrArg some (if_pos hb))

/-- A gang is looked up among the gangs alone. -/
theorem gang_congr {s t : State} (h : t.gangs = s.gangs) (b : Nat) : t.gang b = s.gang b := by rw [State.gang, State.gang, h]

theorem gangOf_berth {s : State} {k : Nat} {g : Gang} (h : s.gangOf k = some g) : (s.core k).run.berth = some g.berth ∧ s.gang g.berth = some g := by
  unfold State.gangOf at h
  split at h
  · next b hb => rw [hb, berth_of_gang h]; exact ⟨rfl, berth_of_gang h ▸ h⟩
  · exact nomatch h

theorem gangOf_congr {s t : State} {k : Nat} (hb : (t.core k).run.berth = (s.core k).run.berth) (hg : t.gangs = s.gangs) : t.gangOf k = s.gangOf k := by
  unfold State.gangOf; rw [hb]
  split
  · exact gang_congr hg _
  · rfl

theorem gangOf_modCore {s : State} {k : Nat} {f : Core → Core} (h : (f (s.core k)).run.berth = (s.core k).run.berth) :
    (s.modCore k f).gangOf k = s.gangOf k :=
  gangOf_congr ((congrArg (fun c : Core => c.run.berth) (State.core_modCore s k f)).trans h) rfl

/-- The gang of a core after a change of that gang that keeps its berth. -/
theorem gangOf_modGang {s : State} {k : Nat} {g : Gang} {f : Gang → Gang} (h : s.gangOf k = some g) (hf : ∀ g, (f g).berth = g.berth) :
    (s.modGang g.berth f).gangOf k = some (f g) := by
  obtain ⟨hb, hg⟩ := gangOf_berth h
  have hb' : ((s.modGang g.berth f).core k).run.berth = some g.berth := hb
  rw [State.gangOf, hb']
  exact gang_modGang hg hf

/-- The same change of every core of a list, one that made again changes nothing. -/
theorem core_foldl_modCore {f : Core → Core} (hf : ∀ c, f (f c) = f c) (l : List Nat) (s : State) (k : Nat) :
    (l.foldl (fun s j => s.modCore j f) s).core k = if k ∈ l then f (s.core k) else s.core k := by
  induction l generalizing s with
  | nil => rfl
  | cons j r ih =>
    rw [List.foldl_cons, ih]
    by_cases hk : k = j
    · subst hk
      rw [State.core_modCore, hf, ite_self, if_pos List.mem_cons_self]
    · rw [State.core_modCore_other _ _ _ _ hk]
      exact if_congr (by simp [hk]) rfl rfl

/-- What the changes of cores leave: everything but the cores. -/
theorem foldl_modCore_rest (f : Core → Core) (l : List Nat) (s : State) : ∃ cs, l.foldl (fun s j => s.modCore j f) s = { s with cores := cs } := by
  induction l generalizing s with
  | nil => exact ⟨s.cores, rfl⟩
  | cons j r ih =>
    obtain ⟨cs, h⟩ := ih (s.modCore j f)
    exact ⟨cs, h⟩

theorem bytes_foldl_modCore {f : Core → Core} (hf : ∀ c, (f c).mem.sp1 = c.mem.sp1) (l : List Nat) (s : State) :
    (l.foldl (fun s j => s.modCore j f) s).bytes = s.bytes := foldl_keeps State.bytes (fun _ _ => bytes_modCore (hf _)) l s

/-! ## The start of a gang (R25, R149) -/

/-- A member as its gang starts. -/
def startMember (c : Core) : Core :=
  if c.snap.isNone then ({ c with run := { c.run with started := true } }).snapshot none else { c with run := { c.run with started := true } }

theorem startMember_again (c : Core) : startMember (startMember c) = startMember c := by
  unfold startMember
  by_cases h : c.snap.isNone = true
  · simp only [h, if_true, Core.snapshot]; rfl
  · simp only [h]; exact if_neg h

theorem run_startMember (c : Core) : (startMember c).run = { c.run with started := true } := by unfold startMember; split_ifs <;> rfl
theorem seq_startMember (c : Core) : (startMember c).seq = c.seq := by unfold startMember; split_ifs <;> rfl
theorem sp1_startMember (c : Core) : (startMember c).mem.sp1 = c.mem.sp1 := by unfold startMember; split_ifs <;> rfl

theorem exec_gangStart {s : State} {g : Gang} (h : s.gang s.cur.arg = some g) : exec .gangStart s = if g.started then .next s
    else .next ((g.members.foldl (fun s k => s.modCore k startMember) s).modGang g.berth fun g => { g with started := true, startedAt := s.tide }) := by
  obtain ⟨cs, hrest⟩ := foldl_modCore_rest startMember g.members s
  show execGangStart s = _
  simp only [execGangStart, h]
  show (if g.started then _ else ok ((g.members.foldl (fun s k => s.modCore k startMember) s).modGang g.berth fun x =>
    { x with started := true, startedAt := (g.members.foldl (fun s k => s.modCore k startMember) s).tide })) = _
  rw [hrest]; rfl

theorem gangStarts : Claims.GangStarts := by
  intro s g hg
  refine ⟨fun h => by rw [exec_gangStart hg, if_pos h], fun h => ⟨_, by rw [exec_gangStart hg, if_neg (by rw [h]; decide)], ?_⟩⟩
  obtain ⟨cs, hrest⟩ := foldl_modCore_rest startMember g.members s
  have hcore (k : Nat) := core_foldl_modCore startMember_again g.members s k
  have hb : s.gang g.berth = some g := by rwa [berth_of_gang hg]
  refine ⟨?_, sameMemory_of_bytes ((bytes_modGang ..).trans (bytes_foldl_modCore sp1_startMember ..)), fun k hk => (hcore k).trans (if_neg hk),
    fun k hk => ?_⟩
  · exact gang_modGang (f := fun g => { g with started := true, startedAt := s.tide }) ((gang_congr (by rw [hrest]) _).trans hb) fun _ => rfl
  · have hk' := (hcore k).trans (if_pos hk)
    refine ⟨(congrArg Core.run hk').trans (run_startMember _), (congrArg Core.seq hk').trans (seq_startMember _), fun hn => ?_, fun hn => ?_⟩
    · have : startMember (s.core k) = { s.core k with run := { (s.core k).run with started := true } } := if_neg (by simpa using hn)
      have hsnap := congrArg Core.snap (hk'.trans this)
      exact hsnap
    · have : startMember (s.core k) = ({ s.core k with run := { (s.core k).run with started := true } }).snapshot none := if_pos (by simp [hn])
      exact ⟨_, congrArg Core.snap (hk'.trans this), rfl, rfl, rfl, rfl, rfl, rfl⟩

/-! ## Hold waves (R30, R136) -/

/-- A member that a wave stops. -/
def stopMember (c : Core) : Core :=
  { c with run := { c.run with stop := some { slotDue := c.slotNow, source := false, await := none, until_ := none }, held := 0 } }

/-- A gang that awaits no wave of core k any more. -/
def waveDone (k : Nat) (g : Gang) : Gang := { g with hold := g.hold.map fun h => { h with waves := h.waves.filter fun w => w.1 != k } }

theorem exec_holdWave {s : State} {g : Gang} (h : s.gangOf s.cur.core = some g) : exec .holdWave s =
    if s.me.run.stop.isSome then .next (s.modGang g.berth (waveDone s.cur.core))
    else .next ((s.modGang g.berth (waveDone s.cur.core)).modCore s.cur.core stopMember) := by
  show execHoldWave s = _
  simp only [execHoldWave, h]
  rfl

theorem holdWaves : Claims.HoldWaves := by
  intro s g h q due
  obtain ⟨-, hg⟩ := gangOf_berth h
  have hgang := gang_modGang (f := waveDone s.cur.core) hg fun _ => rfl
  by_cases hs : s.me.run.stop.isSome = true
  · refine ⟨s.modGang g.berth (waveDone s.cur.core), by rw [exec_holdWave h, if_pos hs], fun k hk => rfl, sameMemory_of_bytes (bytes_modGang ..), hgang, fun _ => rfl, fun hn => ?_⟩
    exact absurd hs (by rw [hn]; decide)
  · refine ⟨(s.modGang g.berth (waveDone s.cur.core)).modCore s.cur.core stopMember, by rw [exec_holdWave h, if_neg hs], fun k hk => State.core_modCore_other _ _ _ _ hk,
      sameMemory_of_bytes ((bytes_modCore rfl).trans (bytes_modGang ..)), hgang, fun hn => ?_, fun _ => State.core_modCore ..⟩
    exact absurd (Option.isSome_iff_ne_none.2 hn) hs

/-! ## The release of a hold (R32, R142, R150) -/

/-- A member that is told when to resume, d cycles after it stopped. -/
def resumeMember (tide d : Nat) (stall : Bool) (c : Core) : Core :=
  { c with run := { c.run with stop := c.run.stop.map fun st => { st with until_ := some (tide - c.run.held + d), stall := stall } }
           hnd := Handler.idle }

theorem resumeMember_again (tide d : Nat) (stall : Bool) (c : Core) :
    resumeMember tide d stall (resumeMember tide d stall c) = resumeMember tide d stall c := by
  simp only [resumeMember, Option.map_map]; rfl

/-- A gang whose hold has been released. -/
def unheld (g : Gang) : Gang := { g with hold := none }

/-- A release, before the rollback that may have been requested. -/
def State.released (s : State) (g : Gang) (h : HoldRec) : State :=
  g.members.foldl (fun u k => u.modCore k (resumeMember u.tide (s.holdLength g h) h.stall)) (({ s with free := s.free + 1 }).modGang g.berth unheld)

theorem exec_release {s : State} {g : Gang} {h : HoldRec} (hg : s.gang s.cur.arg = some g) (hh : g.hold = some h) : exec .release s =
    if !s.holdOver g h || s.saveTakes g then .next s
    else .next (if h.rb then (s.released g h).retryGang g (64 + maxOf (g.members.map fun k => ((s.released g h).core k).run.g)) h.rbCount
      else s.released g h) := by
  show execRelease s = _
  unfold execRelease
  rw [hg]
  dsimp only
  rw [hh]
  rfl

/-- The tide stands while the cores change one by one. -/
theorem foldl_modCore_tide (f : Nat → Core → Core) (l : List Nat) (s : State) :
    l.foldl (fun u k => u.modCore k (f u.tide)) s = l.foldl (fun u k => u.modCore k (f s.tide)) s := by
  induction l generalizing s with
  | nil => rfl
  | cons j r ih => exact ih (s.modCore j (f s.tide))

theorem released_eq (s : State) (g : Gang) (h : HoldRec) : s.released g h =
    g.members.foldl (fun u k => u.modCore k (resumeMember s.tide (s.holdLength g h) h.stall)) (({ s with free := s.free + 1 }).modGang g.berth unheld) :=
  foldl_modCore_tide (fun t => resumeMember t (s.holdLength g h) h.stall) _ _

section Release
variable {s : State} {g : Gang} {h : HoldRec}

theorem core_released (k : Nat) :
    (s.released g h).core k = if k ∈ g.members then resumeMember s.tide (s.holdLength g h) h.stall (s.core k) else s.core k := by
  rw [released_eq]
  exact core_foldl_modCore (resumeMember_again s.tide (s.holdLength g h) h.stall) g.members _ k

theorem gang_released (hg : s.gang g.berth = some g) : (s.released g h).gang g.berth = some (unheld g) := by
  obtain ⟨cs, hrest⟩ := foldl_modCore_rest (resumeMember s.tide (s.holdLength g h) h.stall) g.members
    (({ s with free := s.free + 1 }).modGang g.berth unheld)
  rw [released_eq, hrest]
  exact gang_modGang (s := { s with free := s.free + 1 }) hg fun _ => rfl

theorem bytes_released : (s.released g h).bytes = s.bytes := by
  rw [released_eq]
  exact bytes_foldl_modCore (f := resumeMember s.tide (s.holdLength g h) h.stall) (fun _ => rfl) _ _

theorem le_foldl_min_iff (l : List HoldSrc) (n m : Nat) : m ≤ l.foldl (fun m x => Nat.min m x.stopA) n ↔ m ≤ n ∧ ∀ x ∈ l, m ≤ x.stopA := by
  induction l generalizing n with
  | nil => simp
  | cons x r ih => rw [List.foldl_cons, ih, Nat.le_min, and_assoc, List.forall_mem_cons]

theorem foldl_max_le_iff (l : List Nat) (n m : Nat) : l.foldl Nat.max n ≤ m ↔ n ≤ m ∧ ∀ x ∈ l, x ≤ m := by
  induction l generalizing n with
  | nil => simp
  | cons x r ih => rw [List.foldl_cons, ih, Nat.max_le, and_assoc, List.forall_mem_cons]

theorem maxOf_le_iff (l : List Nat) (m : Nat) : maxOf l ≤ m ↔ ∀ x ∈ l, x ≤ m := by
  rw [maxOf, foldl_max_le_iff, and_iff_right (Nat.zero_le m)]

/-- The lengths that R32 allows, and which of them is taken (log 6). -/
def lengthOf (held free last first : Nat) : Nat :=
  let low := Nat.max (last - first) held
  if low ≤ last + 256 - first then low + Config.freeNat free % (last + 256 - first - low + 1) else low

theorem low_le_lengthOf (held free last first : Nat) : last - first ≤ lengthOf held free last first ∧ held ≤ lengthOf held free last first := by
  have hmax : Nat.max (last - first) held ≤ lengthOf held free last first := by
    unfold lengthOf; dsimp only; split_ifs
    · exact Nat.le_add_right ..
    · exact Nat.le_refl _
  exact ⟨Nat.le_trans (Nat.le_max_left ..) hmax, Nat.le_trans (Nat.le_max_right ..) hmax⟩

theorem lengthOf_le {held free last first : Nat} (h : held ≤ last + 256 - first) : lengthOf held free last first ≤ last + 256 - first := by
  have hlow : Nat.max (last - first) held ≤ last + 256 - first := Nat.max_le.2 ⟨by omega, h⟩
  unfold lengthOf
  rw [if_pos hlow]
  have hmod : Config.freeNat free % (last + 256 - first - Nat.max (last - first) held + 1) < last + 256 - first - Nat.max (last - first) held + 1 :=
    Nat.mod_lt _ (Nat.succ_pos _)
  omega

/-- How long the sources have held the gang, at its longest: from the first stop to the last end (R32). -/
theorem holdLength_eq {first last : Nat} (hfirst : ∀ x ∈ h.srcs, first ≤ x.stopA) (hmin : ∃ x ∈ h.srcs, x.stopA = first)
    (hlast : ∀ x ∈ h.srcs, x.ended.getD (s.actual x.core) ≤ last) (hmax : ∃ x ∈ h.srcs, x.ended.getD (s.actual x.core) = last) :
    s.holdLength g h = lengthOf (maxOf (g.members.map fun k => (s.core k).run.held)) s.free last first := by
  have hl : maxOf (h.srcs.map fun x => x.ended.getD (s.actual x.core)) = last := by
    refine Nat.le_antisymm ((maxOf_le_iff ..).2 fun y hy => ?_) ?_
    · obtain ⟨x, hx, rfl⟩ := List.mem_map.1 hy
      exact hlast x hx
    · obtain ⟨x, hx, rfl⟩ := hmax
      exact (maxOf_le_iff ..).1 (Nat.le_refl _) _ (List.mem_map_of_mem hx)
  have hf : h.srcs.foldl (fun m x => Nat.min m x.stopA) (match h.srcs with | x :: _ => x.stopA | [] => 0) = first := by
    refine Nat.le_antisymm ?_ ((le_foldl_min_iff ..).2 ⟨?_, hfirst⟩)
    · obtain ⟨x, hx, rfl⟩ := hmin
      exact ((le_foldl_min_iff ..).1 (Nat.le_refl _)).2 x hx
    · obtain ⟨x, hx, -⟩ := hmin
      split
      · next y _ he => exact hfirst y (he ▸ List.mem_cons_self)
      · next he => exact absurd (he ▸ hx) List.not_mem_nil
  exact congrArg₂ (lengthOf (maxOf (g.members.map fun k => (s.core k).run.held)) s.free) hl hf

theorem saveTakes_iff : s.saveTakes g = true ↔ g.saveReq = true ∧ s.pointArrivals g = none := by simp [State.saveTakes]

theorem releaseKept_false (hover : s.holdOver g h = true) (hsave : g.saveReq = false ∨ s.pointArrivals g ≠ none) :
    (!s.holdOver g h || s.saveTakes g) = false := by
  rw [hover]
  refine Bool.eq_false_iff.2 fun hc => ?_
  obtain ⟨h1, h2⟩ := saveTakes_iff.1 (by simpa using hc)
  exact hsave.elim (fun h => absurd h1 (by rw [h]; decide)) (fun h => h h2)

theorem releases : Claims.Releases := by
  intro s g h hg hh
  have hb : s.gang g.berth = some g := by rwa [berth_of_gang hg]
  refine ⟨fun hn => ?_, fun hover hsave hrb => ?_⟩
  · rw [exec_release hg hh, if_pos]
    rw [Bool.or_eq_true, Bool.not_eq_true', saveTakes_iff]; exact hn
  intro till first last hfirst hmin hlast hmax
  have hgo := releaseKept_false hover hsave
  have hd := holdLength_eq (g := g) hfirst hmin hlast hmax
  refine ⟨s.released g h, s.holdLength g h, ?_, ?_, fun k hk => ?_, fun hall => ?_, gang_released hb, sameMemory_of_bytes bytes_released,
    fun k hk => (core_released k).trans (if_neg hk), fun k hk => ?_⟩
  · rw [exec_release hg hh, if_neg (by rw [hgo]; decide), if_neg (by rw [hrb]; decide)]
  · rw [hd]; exact (low_le_lengthOf ..).1
  · rw [hd]; exact Nat.le_trans ((maxOf_le_iff ..).1 (Nat.le_refl _) _ (List.mem_map_of_mem (f := fun k => (s.core k).run.held) hk)) (low_le_lengthOf ..).2
  · rw [hd]
    refine lengthOf_le ((maxOf_le_iff ..).2 fun y hy => ?_)
    obtain ⟨k, hk, rfl⟩ := List.mem_map.1 hy
    exact hall k hk
  · rw [core_released, if_pos hk]; exact ⟨rfl, rfl, rfl, rfl⟩

end Release

theorem rollbackRefused : Claims.RollbackRefused := by
  intro s g h hg hh hover hsave hrb ⟨k, hk, hno⟩
  have hb : s.gang g.berth = some g := by rwa [berth_of_gang hg]
  have hgo := releaseKept_false hover hsave
  have hany : (g.members.any fun k => ((s.released g h).core k).modes.noretry) = true :=
    List.any_eq_true.2 ⟨k, hk, by rw [core_released, if_pos hk]; exact hno⟩
  refine ⟨(s.released g h).abortGang g.berth 3, ?_, (aborted_abortGang 3 (gang_released hb) : Claims.Aborted (unheld g) 3 _)⟩
  rw [exec_release hg hh, if_neg (by rw [hgo]; decide), if_pos hrb, State.retryGang, if_pos hany]

/-! ## The release wave (R32, R155) -/

/-- A member that goes on. -/
def goesOn (c : Core) : Core := { c with run := { c.run with stop := none, held := 0, errDue := false } }

theorem exec_releaseWave {s : State} {st : Stop} {n : Nat} (hst : s.me.run.stop = some st) (hn : st.until_ = some n) : exec .releaseWave s =
    if s.tide < n then .next s else .next (if s.me.run.errDue then (s.modMe goesOn).errorHold s.cur.core else s.modMe goesOn) := by
  show execReleaseWave s = _
  unfold execReleaseWave
  rw [hst]; dsimp only; rw [hn]; rfl

/-- A gang's hold with one more source, whose wave is under way to the other members. -/
def addSource (src : HoldSrc) (ws : List (Nat × Nat)) (g : Gang) : Gang :=
  match g.hold with
  | none => { g with hold := some { srcs := [src], waves := ws, rb := false, rbCount := false } }
  | some h => { g with hold := some { h with srcs := h.srcs ++ [src], waves := h.waves ++ ws } }

/-- A gang's hold with the condition of core k ended at cycle n (R32). -/
def endCondition (k n : Nat) (g : Gang) : Gang :=
  match g.hold with
  | none => g
  | some h => { g with hold := some { h with srcs := h.srcs.map fun x =>
      if x.core = k ∧ x.cause ≠ 3 ∧ x.ended = none then { x with ended := some n } else x } }

/-- A gang's hold that rolls back at its release. -/
def rollsBack (g : Gang) : Gang := { g with hold := g.hold.map fun h => { h with rb := true } }

theorem berth_addSource (src : HoldSrc) (ws : List (Nat × Nat)) (g : Gang) : (addSource src ws g).berth = g.berth := by
  unfold addSource; split <;> rfl
theorem berth_endCondition (k n : Nat) (g : Gang) : (endCondition k n g).berth = g.berth := by
  unfold endCondition; split <;> rfl

/-- The waves of core k, stopped as a source, leave for the other members of its gang (R30). -/
def waveFrom (k cause : Nat) (t : State) : State :=
  match t.gangOf k with
  | none => t
  | some g => t.modGang g.berth (addSource { core := k, stopN := t.tide, stopA := t.actual k, cause := cause, ended := none }
      ((g.members.filter fun m => m != k).map fun m => (m, t.actual k + 2 * hops k m - 2 * (t.core m).run.hop)))

theorem startHold_gang {s : State} {k : Nat} {g : Gang} (h : s.gangOf k = some g) (cause : Nat) (aw : Option Await) :
    ∃ src ws, src.core = k ∧ src.cause = cause ∧ src.ended = none ∧
      s.startHold k cause aw = (s.modCore k fun c => stoppedAs c cause aw).modGang g.berth (addSource src ws) := by
  have hg : (s.modCore k fun c => stoppedAs c cause aw).gangOf k = some g := (gangOf_modCore rfl).trans h
  have hunfold : s.startHold k cause aw = waveFrom k cause (s.modCore k fun c => stoppedAs c cause aw) := rfl
  rw [hunfold, waveFrom, hg]
  exact ⟨_, _, rfl, rfl, rfl, rfl⟩

theorem endSource_gang {s : State} {k : Nat} {g : Gang} (h : s.gangOf k = some g) :
    s.endSource k = s.modGang g.berth (endCondition k (s.actual k)) := by
  simp only [State.endSource, h]; rfl

/-- A member that holds its gang at once, as a source that is over, rolls the hold back (R155). -/
theorem errorHold_gang {s : State} {k : Nat} {g : Gang} (h : s.gangOf k = some g) : ∃ src ws n, src.core = k ∧ src.cause = 0 ∧ src.ended = none ∧
    s.errorHold k = (((s.modCore k fun c => stoppedAs c 0 none).modGang g.berth (addSource src ws)).modGang g.berth (endCondition k n)).modGang
      g.berth rollsBack := by
  obtain ⟨src, ws, hk, hc, he, hstart⟩ := startHold_gang h 0 none
  have hg0 : (s.modCore k fun c => stoppedAs c 0 none).gangOf k = some g := (gangOf_modCore rfl).trans h
  have hg1 := gangOf_modGang (f := addSource src ws) hg0 (berth_addSource src ws)
  have hb : (((s.modCore k fun c => stoppedAs c 0 none).modGang g.berth (addSource src ws)).core k).run.berth = some g.berth := by
    have hcore := congrArg (fun c : Core => c.run.berth) (State.core_modCore s k fun c => stoppedAs c 0 none)
    exact hcore.trans (gangOf_berth h).1
  refine ⟨src, ws, ((s.modCore k fun c => stoppedAs c 0 none).modGang g.berth (addSource src ws)).actual k, hk, hc, he, ?_⟩
  rw [State.errorHold, hstart, endSource_gang hg1, berth_addSource]
  show (match (((s.modCore k fun c => stoppedAs c 0 none).modGang g.berth (addSource src ws)).core k).run.berth with | some b => _ | none => _) = _
  rw [hb]
  rfl

theorem hold_rollsBack {src : HoldSrc} {k : Nat} (g : Gang) (ws : List (Nat × Nat)) (n : Nat) (hk : src.core = k) (hc : src.cause = 0)
    (he : src.ended = none) : ∃ h, (rollsBack (endCondition k n (addSource src ws g))).hold = some h ∧ h.rb = true ∧
      ∃ y ∈ h.srcs, y.core = k ∧ y.cause = 0 ∧ y.ended ≠ none := by
  have hadd : ∃ h, (addSource src ws g).hold = some h ∧ src ∈ h.srcs := by
    unfold addSource
    split
    · exact ⟨_, rfl, List.mem_singleton.2 rfl⟩
    · exact ⟨_, rfl, List.mem_append_right _ (List.mem_singleton.2 rfl)⟩
  obtain ⟨h, hh, hmem⟩ := hadd
  refine ⟨{ h with srcs := h.srcs.map fun x => if x.core = k ∧ x.cause ≠ 3 ∧ x.ended = none then { x with ended := some n } else x, rb := true }, ?_,
    rfl, _, List.mem_map_of_mem hmem, ?_⟩
  · simp only [rollsBack, endCondition, hh]; rfl
  · rw [if_pos ⟨hk, by rw [hc]; decide, he⟩]
    exact ⟨hk, hc, nofun⟩

theorem releaseWaves : Claims.ReleaseWaves := by
  intro s
  refine ⟨fun st n hst hn hle hdue => ?_, fun st n b g hst hn hle hdue hb hg => ?_, fun st n hst hn hlt => ?_, fun st hst hn => ?_⟩
  · rw [exec_releaseWave hst hn, if_neg (Nat.not_lt.2 hle), if_neg (by rw [hdue]; decide)]; rfl
  · have hgo : (s.modMe goesOn).gangOf s.cur.core = some g := by
      refine (gangOf_modCore rfl).trans ?_
      rw [State.gangOf, show (s.core s.cur.core).run.berth = some b from hb]; exact hg
    obtain ⟨src, ws, n', hk, hc, he, heq⟩ := errorHold_gang hgo
    obtain rfl := berth_of_gang hg
    have hg1 := gang_modGang (s := (s.modMe goesOn).modCore s.cur.core fun c => stoppedAs c 0 none) (f := addSource src ws) hg (berth_addSource src ws)
    have hg2 := gang_modGang (f := endCondition s.cur.core n') hg1 (berth_endCondition _ _)
    have hg3 := gang_modGang (f := rollsBack) hg2 fun _ => rfl
    have hme : ((s.modMe goesOn).errorHold s.cur.core).me = stoppedAs (goesOn s.me) 0 none := by
      rw [heq]
      exact (State.core_modCore (s.modMe goesOn) s.cur.core fun c => stoppedAs c 0 none).trans
        (congrArg (stoppedAs · 0 none) (State.core_modCore s s.cur.core goesOn))
    obtain ⟨h, hh, hrb, y, hy⟩ := hold_rollsBack g ws n' hk hc he
    refine ⟨(s.modMe goesOn).errorHold s.cur.core, _, _, h, by rw [exec_releaseWave hst hn, if_neg (Nat.not_lt.2 hle), if_pos hdue], by rw [hme]; rfl,
      rfl, by rw [hme]; rfl, by rw [hme]; rfl, by rw [heq]; rfl, fun k hk => ?_, by rw [heq]; exact hg3, hh, hrb, y, hy⟩
    rw [heq]
    exact (State.core_modCore_other (s.modMe goesOn) k s.cur.core (fun c => stoppedAs c 0 none) hk).trans
      (State.core_modCore_other s k s.cur.core goesOn hk)
  · rw [exec_releaseWave hst hn, if_pos hlt]
  · show execReleaseWave s = _
    unfold execReleaseWave
    rw [hst]; dsimp only; rw [hn]; rfl

/-- Settles O45: how a gang starts, is held and goes on (R25, R30, R32, R136, R142, R149, R150, R155). -/
theorem gangsAndHolds : Obligations.GangsAndHolds := ⟨gangStarts, holdWaves, releases, rollbackRefused, releaseWaves⟩

end Sys2Proof.Machine

namespace Sys2Proof.Machine

/-! ## Numbers in bytes -/

theorem bnat_leBytes {n v : Nat} (h : v < 2 ^ (8 * n)) (r : List Byte) : bnat (leBytes n v ++ r) 0 n = v := by
  rw [bnat, List.drop_zero, List.take_left' (length_leBytes n v), leNat_leBytes, Nat.mod_eq_of_lt h]

/-- A number behind a field of n bytes. -/
theorem bnat_skip {n i : Nat} (h : n ≤ i) (v : Nat) (l : List Byte) (m : Nat) : bnat (leBytes n v ++ l) i m = bnat l (i - n) m := by
  rw [bnat, bnat, List.drop_append, length_leBytes, List.drop_eq_nil_of_le (by rwa [length_leBytes]), List.nil_append]

theorem recordFormat : Claims.RecordFormat := by
  intro r ph h0 h1 h2 h3 h4 h5 h6 h7 h8 h9 b
  have hb : b = leBytes 4 r.token ++ (leBytes 4 r.frameno ++ (leBytes 4 r.seq ++ (leBytes 1 r.status ++ (leBytes 1 r.reason ++
      (leBytes 1 r.flags ++ (leBytes 1 (bit ph) ++ (leBytes 8 r.gcycles ++ (leBytes 4 r.phases ++ (leBytes 2 r.nsave ++
      (leBytes 1 r.group ++ (leBytes 1 0 ++ []))))))))))) := by
    simp only [b, Record.bytes, List.append_assoc, List.append_nil]
  have hph : bit ph < 2 ^ (8 * 1) := by cases ph <;> decide
  have hbit : bit ph = if ph then 1 else 0 := by cases ph <;> rfl
  refine ⟨by simp [hb], ?_⟩
  rw [hb, ← hbit]
  simp only [bnat_skip, Nat.reduceLeDiff, Nat.reduceSub, Nat.le_refl, Nat.sub_self]
  exact ⟨bnat_leBytes h0 _, bnat_leBytes h1 _, bnat_leBytes h2 _, bnat_leBytes h3 _, bnat_leBytes h4 _, bnat_leBytes h5 _, bnat_leBytes hph _,
    bnat_leBytes h6 _, bnat_leBytes h7 _, bnat_leBytes h8 _, bnat_leBytes h9 _, bnat_leBytes (by decide) _⟩

/-! ## The end of a gang (R51, R381, R382, R386) -/

theorem runLimits : Claims.RunLimits := by
  intro s g hg lim
  have hrun : exec .runLimitExpiry s = if lim != 0 && lim ≤ (s.core g.origin).run.g then .next (s.abortGang g.berth 6) else .next s := by
    show execRunLimitExpiry s = _
    simp only [execRunLimitExpiry, hg]; rfl
  have hb : s.gang g.berth = some g := by rwa [berth_of_gang hg]
  refine ⟨fun h => ?_, fun h0 h1 => ⟨_, ?_, aborted_abortGang 6 hb⟩⟩
  · rw [hrun, if_neg]
    simp only [Bool.and_eq_true, bne_iff_ne, decide_eq_true_eq]
    omega
  · rw [hrun, if_pos (by simp [h0, h1])]

/-- A core whose combiner fires. -/
def firesAt (c : Core) : Core := { c with run := { c.run with fired := some c.run.g } }

theorem exec_combinerFires {s : State} {g : Gang} (hg : s.gangOf s.cur.core = some g) : exec .combinerFires s =
    if s.combinerDue s.cur.core then
      match g.members.mapM fun m => ((s.modCore s.cur.core firesAt).core m).run.fired.map fun f =>
        f + 2 * ((s.modCore s.cur.core firesAt).core m).run.hop with
      | some fs => .next ((s.modCore s.cur.core firesAt).completeGang g (maxOf fs))
      | none => .next (s.modCore s.cur.core firesAt)
    else .next s := by
  have hg' : (s.modCore s.cur.core firesAt).gangOf s.cur.core = some g := (gangOf_modCore rfl).trans hg
  show execCombinerFires s = _
  unfold execCombinerFires
  cases hd : s.combinerDue s.cur.core with
  | false => exact if_pos (by rw [hd]; rfl)
  | true =>
    refine (if_neg (by rw [hd]; decide)).trans ?_
    show (match (s.modCore s.cur.core firesAt).gangOf s.cur.core with | none => _ | some g => _) = _
    rw [hg']
    rfl

/-- When a member's combiner has fired, in gang time and by the origin's count (R51). -/
theorem fired_firesAt (s : State) (k m : Nat) : ((s.modCore k firesAt).core m).run.fired = (if m = k then some (s.core k).run.g else (s.core m).run.fired) ∧
    ((s.modCore k firesAt).core m).run.hop = (s.core m).run.hop := by
  by_cases h : m = k
  · subst h
    rw [State.core_modCore, if_pos rfl]; exact ⟨rfl, rfl⟩
  · rw [State.core_modCore_other _ _ _ _ h, if_neg h]; exact ⟨rfl, rfl⟩

theorem noteLate_rest (s : State) (g : Gang) (b : Bind) : (s.noteLate g b).cores = s.cores ∧ (s.noteLate g b).sched = s.sched := by
  unfold State.noteLate
  split
  · exact ⟨rfl, rfl⟩
  · dsimp only; split_ifs <;> exact ⟨rfl, rfl⟩

/-- The state in which a gang's members have left at its completion. -/
def State.completed (s : State) (g : Gang) : State := (s.noteLate g (s.bind g.berth)).freeGang g

theorem completeGang_eq (s : State) (g : Gang) (n : Nat) : ∃ x : State, x.besidesRecords = (s.completed g).besidesRecords ∧
    ∃ fl, s.completeGang g n = x.endBind g.berth 0 fl 0 :=
  ⟨_, by simp [State.completed], _, rfl⟩

theorem core_completeGang {s : State} {g : Gang} (n : Nat) {m : Nat} (hm : m ∈ g.members) :
    ∃ c : Core, (s.completeGang g n).core m = c.leave ∧ c.chans = (s.core m).chans := by
  obtain ⟨x, hx, fl, h⟩ := completeGang_eq s g n
  have hcores : (s.completeGang g n).cores = (s.completed g).cores := by rw [h, ← cores_of_besidesRecords hx]; rfl
  have hcore (j : Nat) : (s.completeGang g n).core j = (s.completed g).core j := by rw [State.core, hcores]; rfl
  obtain ⟨c, hc⟩ := core_freeGang (s := s.noteLate g (s.bind g.berth)) hm
  refine ⟨c, (hcore m).trans hc, ?_⟩
  have hchans : ((s.completed g).core m).chans = (s.core m).chans := by
    have hkeep (t : State) (j : Nat) : ((t.modCore j Core.leave).core m).chans = (t.core m).chans := by
      by_cases hj : m = j
      · subst hj; rw [State.core_modCore]; rfl
      · rw [State.core_modCore_other _ _ _ _ hj]
    rw [State.completed, State.core, cores_freeGang]
    refine (foldl_keeps (fun t : State => (t.core m).chans) hkeep ..).trans ?_
    rw [State.core, (noteLate_rest ..).1]; rfl
  rw [← hchans]
  exact (congrArg Core.chans hc).symm

/-- An element without an answer leaves the list without one. -/
theorem mapM_eq_none {α β : Type} {f : α → Option β} {l : List α} (h : ∃ a ∈ l, f a = none) : l.mapM f = none := by
  obtain ⟨a, ha, hn⟩ := h
  refine Option.eq_none_iff_forall_ne_some.2 fun r hr => ?_
  obtain ⟨i, hi, rfl⟩ := List.getElem_of_mem ha
  have hall := (mapM_eq_some_iff ..).1 hr
  have := hall.get hi (hall.length_eq ▸ hi)
  simp [hn] at this

/-- The end of a gang that completes: no gang has its berth, and its bind record is DONE with END 0. -/
theorem gang_completeGang (s : State) (g : Gang) (n : Nat) : (s.completeGang g n).gang g.berth = none := by
  obtain ⟨x, hx, fl, h⟩ := completeGang_eq s g n
  rw [h]
  exact (gang_congr (gangs_of_besidesRecords hx) _).trans (gang_freeGang ..)
theorem bind_completeGang (s : State) (g : Gang) (n : Nat) : ((s.completeGang g n).bind g.berth).state = 3 ∧
    ((s.completeGang g n).bind g.berth).end_ = 0 ∧ ((s.completeGang g n).bind g.berth).reason = 0 := by
  have h : (s.completeGang g n).bind g.berth = _ := State.bind_modBind ..
  rw [h]; exact ⟨rfl, rfl, rfl⟩

theorem completion : Claims.Completion := by
  intro s g k fire fired hg
  have hrun := exec_combinerFires hg
  have hfired (m : Nat) : (((s.modCore s.cur.core firesAt).core m).run.fired.map fun f => f + 2 * ((s.modCore s.cur.core firesAt).core m).run.hop) =
      (fired m).map fun f => f + 2 * (s.core m).run.hop := by
    rw [(fired_firesAt s s.cur.core m).1, (fired_firesAt s s.cur.core m).2]; rfl
  simp only [hfired] at hrun
  refine ⟨fun hd => by rw [hrun, if_neg (by rw [hd]; decide)], fun hd hm => ?_, fun fs hd hfs => ?_⟩
  · have hnone : (g.members.mapM fun m => (fired m).map fun f => f + 2 * (s.core m).run.hop) = none :=
      mapM_eq_none (hm.imp fun m h => ⟨h.1, by rw [h.2]; rfl⟩)
    rw [hrun, if_pos hd, hnone]
    rfl
  intro b r
  have hphase : ((s.modCore k firesAt).core g.origin).modes.phase = (s.core g.origin).modes.phase := by
    by_cases h : g.origin = k
    · rw [h, State.core_modCore]; rfl
    · rw [State.core_modCore_other _ _ _ _ h]
  obtain ⟨hstate, hend, hreason⟩ := bind_completeGang (s.modCore k firesAt) g (maxOf fs)
  refine ⟨rfl, rfl, rfl, rfl, rfl, rfl, rfl, rfl, congrArg BitVec.toNat hphase, (s.modCore k firesAt).completeGang g (maxOf fs),
    by rw [hrun, if_pos hd, hfs], gang_completeGang .., hstate, hend, hreason, rfl, fun m hm => ?_⟩
  obtain ⟨c, hc, hchans⟩ := core_completeGang (s := s.modCore k firesAt) (maxOf fs) hm
  have hkeep : ((s.modCore k firesAt).core m).chans = (s.core m).chans := by
    by_cases h : m = k
    · rw [h, State.core_modCore]; rfl
    · rw [State.core_modCore_other _ _ _ _ h]
  rw [hc]
  refine ⟨rfl, rfl, rfl, rfl, hchans.trans hkeep, fun d hd => ?_⟩
  obtain ⟨e, -, rfl⟩ := List.mem_map.1 hd
  rfl

/-- Settles O46: how a gang completes, the bytes of its record, and the limit of its run (R51, R381, R386). -/
theorem gangEnds : Obligations.GangEnds := ⟨completion, recordFormat, runLimits⟩

end Sys2Proof.Machine

namespace Sys2Proof.Machine

/-! ## Steps made for each of several cores -/

section Each
variable {σ α V : Type} {step : σ → α → σ} {key : α → Nat} {p : σ → Nat → V} {f : α → V → V}

/-- Of steps for different cores, each of which changes what is seen of its own core alone, a core sees its own. -/
theorem foldl_each (h : ∀ s a k, p (step s a) k = if k = key a then f a (p s k) else p s k) {l : List α} (hl : (l.map key).Nodup) (s : σ) :
    (∀ a ∈ l, p (l.foldl step s) (key a) = f a (p s (key a))) ∧ ∀ k, k ∉ l.map key → p (l.foldl step s) k = p s k := by
  induction l generalizing s with
  | nil => exact ⟨fun a ha => absurd ha List.not_mem_nil, fun _ _ => rfl⟩
  | cons b r ih =>
    obtain ⟨hb, hr⟩ := List.nodup_cons.1 hl
    obtain ⟨ih1, ih2⟩ := ih hr (step s b)
    refine ⟨fun a ha => ?_, fun k hk => ?_⟩
    · obtain rfl | ha := List.mem_cons.1 ha
      · exact (ih2 _ hb).trans ((h ..).trans (if_pos rfl))
      · exact (ih1 a ha).trans (congrArg (f a) ((h ..).trans (if_neg fun (he : key a = key b) => hb (he ▸ List.mem_map_of_mem ha))))
    · obtain ⟨hne, hk⟩ := not_or.1 (mt List.mem_cons.2 hk)
      exact (ih2 k hk).trans ((h ..).trans (if_neg hne))

/-- What a step establishes and every step keeps holds in the end. -/
theorem foldl_establishes {P : σ → Prop} (hkeep : ∀ s a, P s → P (step s a)) {l : List α} {a : α} (ha : a ∈ l) (hest : ∀ s, P (step s a)) (s : σ) :
    P (l.foldl step s) := by
  have hall (l : List α) (s : σ) (hs : P s) : P (l.foldl step s) := by
    induction l generalizing s with
    | nil => exact hs
    | cons b r ih => exact ih _ (hkeep s b hs)
  induction l generalizing s with
  | nil => exact absurd ha List.not_mem_nil
  | cons b r ih =>
    obtain rfl | ha := List.mem_cons.1 ha
    · exact hall r _ (hest s)
    · exact ih ha _

end Each

/-! ## Cores but for what the end of another core's phase may touch (R47, R193) -/

/-- A core without its channels, its effects in flight and its builder calls, and without its shadow context. -/
def Core.besidesPhase (c : Core) : Core := { c with chans := [], pend := [], builds := [], hnd := Handler.idle, sh := SeqCtx.zero }

/-- That of each core. -/
def State.phaseView (s : State) (k : Nat) : Core := (s.core k).besidesPhase

theorem phaseView_modCore {s : State} {j : Nat} {f g : Core → Core} (h : ∀ c, (f c).besidesPhase = g c.besidesPhase) (k : Nat) :
    (s.modCore j f).phaseView k = if k = j then g (s.phaseView k) else s.phaseView k := by
  unfold State.phaseView
  by_cases hk : k = j
  · subst hk; rw [if_pos rfl, State.core_modCore, h]
  · rw [if_neg hk, State.core_modCore_other _ _ _ _ hk]

theorem phaseView_modCore_id {s : State} {j : Nat} {f : Core → Core} (h : ∀ c, (f c).besidesPhase = c.besidesPhase) :
    (s.modCore j f).phaseView = s.phaseView :=
  funext fun k => (phaseView_modCore (g := id) h k).trans (ite_self _)

theorem phaseView_giveCredits (s : State) (k c x n : Nat) : (s.giveCredits k c x n).phaseView = s.phaseView := by
  induction n generalizing s with
  | zero => rfl
  | succ n ih =>
    unfold State.giveCredits
    split
    · refine (ih _).trans ?_
      unfold State.giveCredit
      dsimp only
      split_ifs
      · exact phaseView_modCore_id fun _ => rfl
      · exact phaseView_modCore_id (f := fun c => { c with pend := c.pend ++ [_] }) fun _ => rfl
    · rfl

theorem phaseView_discardIn (s : State) (k c x : Nat) (gone : ChEntry → Bool) : (s.discardIn k c x gone).phaseView = s.phaseView := by
  unfold State.discardIn
  dsimp only
  split_ifs
  · rfl
  · exact (phaseView_giveCredits ..).trans (phaseView_modCore_id fun _ => rfl)
  · exact phaseView_modCore_id fun _ => rfl

theorem phaseView_discardMesh (s : State) (k x : Nat) : (s.discardMesh k x).phaseView = s.phaseView := by
  refine foldl_keeps State.phaseView (fun s c => ?_) ..
  split_ifs
  · exact phaseView_discardIn ..
  · rfl

theorem phaseView_discardLocal (s : State) (k x : Nat) : (s.discardLocal k x).phaseView = s.phaseView := by
  refine foldl_keeps State.phaseView (fun s c => ?_) ..
  split_ifs
  · rfl
  · exact phaseView_discardIn ..

/-- A core that discards its open phase (R47). -/
def clearPhase (c : Core) : Core :=
  { c with mem := { c.mem with held := [] }, descs := c.descs.map fun d => { d with shw := false }, modes := { c.modes with chkint := false } }

theorem phaseView_cancelPhase (s : State) (j x k : Nat) :
    (s.cancelPhase j x).phaseView k = if k = j then clearPhase (s.phaseView k) else s.phaseView k := by
  rw [State.cancelPhase, phaseView_discardMesh]
  exact phaseView_modCore (g := clearPhase) (fun _ => rfl) k

/-- A core that resumes from its snapshot, with the retry counted (R151). -/
def resumed (sn : Snapshot) (gr : Nat) (count : Bool) (c : Core) : Core :=
  { c.restore sn gr with
    modes := { (c.restore sn gr).modes with
      rcnt := if count && (c.restore sn gr).modes.rcnt != 15 then (c.restore sn gr).modes.rcnt + 1 else (c.restore sn gr).modes.rcnt } }

/-- A core that retries its phase from gang cycle gr, when it has a snapshot. -/
def retried (gr : Nat) (count : Bool) (c : Core) : Core :=
  match c.snap with
  | none => c
  | some sn => (resumed sn gr count c).besidesPhase

theorem phaseView_dropOps (s : State) (drop : GOp → Bool) : (s.dropOps drop).phaseView = s.phaseView := by
  funext k
  rw [State.phaseView, State.core, cores_of_besidesHomes (besidesHomes_dropOps s drop)]; rfl

theorem phaseView_bumpPins (l : List (List Pin)) (up : Bool) (s : State) : (l.foldl (fun s ps => s.bumpPins ps up) s).phaseView = s.phaseView :=
  foldl_keeps (f := fun s ps => s.bumpPins ps up) State.phaseView (fun _ _ => rfl) l s

theorem phaseView_retryCore (s : State) (j gr : Nat) (count : Bool) (k : Nat) :
    (s.retryCore j gr count).phaseView k = if k = j then retried gr count (s.phaseView k) else s.phaseView k := by
  cases hs : (s.core j).snap with
  | none =>
    rw [State.retryCore, hs]
    split_ifs with hk
    · subst hk; rw [retried, show (s.phaseView k).snap = none from hs]
    · rfl
  | some sn =>
    have hu (u : State) (hu : u.phaseView = s.phaseView) :
        (u.modCore j (resumed sn gr count)).phaseView k = if k = j then retried gr count (s.phaseView k) else s.phaseView k := by
      rw [phaseView_modCore (f := resumed sn gr count) (g := fun c => (resumed sn gr count c).besidesPhase) (fun _ => rfl) k, hu]
      split_ifs with hk
      · subst hk; rw [retried, show (s.phaseView k).snap = some sn from hs]
      · rfl
    rw [State.retryCore, hs]
    refine hu _ ?_
    rw [phaseView_discardLocal, phaseView_bumpPins, phaseView_bumpPins, phaseView_dropOps]

end Sys2Proof.Machine

namespace Sys2Proof.Machine

/-! ## The members of a gang and what each executed at its phase point -/

theorem exec_phasePointRelease {s : State} {gg : Gang} {arr : List (Nat × BitVec 16 × Nat × Nat)} (hg : s.gang s.cur.arg = some gg)
    (harr : s.pointArrivals gg = some arr) :
    exec .phasePointRelease s =
      if s.allAt gg (maxOf (arr.map fun a => a.2.2.1) + 64) then .next (s.phasePoint gg arr (maxOf (arr.map fun a => a.2.2.1) + 64)) else .next s := by
  show execPhasePointRelease s = _
  rw [execPhasePointRelease, hg]; dsimp only; rw [harr]; rfl

theorem members_zip_arrivals {s : State} {gg : Gang} {arr : List (Nat × BitVec 16 × Nat × Nat)} (harr : s.pointArrivals gg = some arr) :
    (gg.members.zip arr).map Prod.fst = gg.members :=
  List.map_fst_zip ((mapM_eq_some_iff ..).1 harr).length_eq.le

theorem mem_zip_of_getElem? {α β : Type} {l : List α} {r : List β} {i : Nat} {a : α} {b : β} (ha : l[i]? = some a) (hb : r[i]? = some b) :
    (a, b) ∈ l.zip r :=
  List.mem_iff_getElem?.2 ⟨i, List.getElem?_zip_eq_some.2 ⟨ha, hb⟩⟩

/-! ## The operations that a core has issued -/

/-- The queue and the kind of each operation of core k, in the order of their issue. -/
def State.issued (s : State) (k : Nat) : List (Nat × GKind) := (s.gops.filter (·.core = k)).map fun o => (o.unit, o.kind)

theorem issued_map {s : State} {f : GOp → GOp} (h : ∀ o, (f o).core = o.core ∧ (f o).unit = o.unit ∧ (f o).kind = o.kind) (k : Nat) :
    ({ s with gops := s.gops.map f } : State).issued k = s.issued k := by
  simp only [State.issued, List.filter_map, List.map_map, Function.comp_def, h]

theorem mem_issued {s : State} {k unit : Nat} {kind : GKind} : (unit, kind) ∈ s.issued k ↔ ∃ o ∈ s.gops, o.core = k ∧ o.unit = unit ∧ o.kind = kind := by
  simp [State.issued, and_assoc]

theorem issued_newOp (s : State) (j unit : Nat) (kind : GKind) (names : List (Nat × Nat × Nat)) (cls k : Nat) :
    (s.newOp j unit kind names cls).2.issued k = if k = j then s.issued k ++ [(unit, kind)] else s.issued k := by
  unfold State.newOp
  dsimp only
  simp only [bne_self_eq_false, Bool.false_and, Bool.false_eq_true, if_false, List.isEmpty_nil, if_true]
  rw [State.issued, List.filter_append, List.map_append]
  by_cases hk : j = k
  · subst hk; simp [State.issued]
  · simp [State.issued, hk, Ne.symm hk]

/-- What a commit shows of core k: the core, and the operations that it has issued. -/
def State.coreIssued (s : State) (k : Nat) : Core × List (Nat × GKind) := (s.core k, s.issued k)

/-- The held stores of a core performed (R46). -/
def heldPerformed (x : Core × List (Nat × GKind)) : Core × List (Nat × GKind) :=
  ({ x.1 with mem := { x.1.mem with held := [] } }, x.2 ++ x.1.mem.held.map fun h => (3, .write h.ps))

theorem coreIssued_modCore (s : State) (j : Nat) (f : Core → Core) (k : Nat) :
    (s.modCore j f).coreIssued k = if k = j then (f (s.core k), s.issued k) else s.coreIssued k := by
  unfold State.coreIssued
  split_ifs with hk
  · subst hk; rw [State.core_modCore]; rfl
  · rw [State.core_modCore_other _ _ _ _ hk]; rfl

theorem coreIssued_performHeld (s : State) (j k : Nat) :
    (s.performHeld j).coreIssued k = if k = j then heldPerformed (s.coreIssued k) else s.coreIssued k := by
  have hfold (hs : List Held) (st : State × List Nat) :
      ((hs.foldl (fun (st : State × List Nat) h =>
        let (id, s) := st.1.newOp j 3 (.write h.ps) h.names h.cls
        ({ s with gops := s.gops.map fun (o : GOp) => if o.id = id then { o with deps := st.2 ++ o.deps } else o }, [id])) st).1).coreIssued k =
      (st.1.core k, if k = j then st.1.issued k ++ hs.map fun h => (3, .write h.ps) else st.1.issued k) := by
    induction hs generalizing st with
    | nil => simp [State.coreIssued]
    | cons h r ih =>
      rw [List.foldl_cons, ih]
      refine Prod.ext rfl ?_
      dsimp only
      rw [issued_map (fun o => by split_ifs <;> exact ⟨rfl, rfl, rfl⟩), issued_newOp]
      split_ifs
      · simp
      · rfl
  rw [State.performHeld]
  refine (hfold ..).trans ?_
  by_cases hk : k = j
  · subst hk; rw [if_pos rfl, if_pos rfl, State.core_modCore]; rfl
  · rw [if_neg hk, if_neg hk, State.core_modCore_other _ _ _ _ hk]; rfl

/-! ## Commit (R46) -/

/-- A core without held stores that commits its phase with region mask `mask` (R46, R146, R153). -/
def committed (mask : BitVec 16) (noretry : Bool) (c : Core) : Core :=
  { c with
    descs := c.descs.mapIdx fun i d => { d with bank := if d.db && mask.getLsbD i then !d.bank else d.bank, shw := false }
    modes := { c.modes with phase := c.modes.phase + 1, rcnt := 0, noretry := noretry, chkint := false, cancel := false }
    tfrec := { c.tfrec with rb := false }
    run := { c.run with dborne := false }
    pend := c.pend.map fun (p : Pend) => { p with phased := false } }

theorem coreIssued_commitCore (s : State) (j : Nat) (mask : BitVec 16) (noretry : Bool) (k : Nat) :
    (s.commitCore j mask noretry).coreIssued k =
      if k = j then ((committed mask noretry (heldPerformed (s.coreIssued k)).1, (heldPerformed (s.coreIssued k)).2) : Core × List (Nat × GKind))
      else s.coreIssued k := by
  rw [State.commitCore, coreIssued_modCore, coreIssued_performHeld]
  split_ifs with hk
  · have h := coreIssued_performHeld s j k
    rw [if_pos hk] at h
    rw [← h]; rfl
  · rfl

theorem lget_mapIdx {α : Type} (f : Nat → α → α) (l : List α) (j : Nat) (d : α) (hd : ∀ j, f j d = d) : lget (l.mapIdx f) j d = f j (lget l j d) := by
  induction l generalizing f j with
  | nil => exact (hd j).symm
  | cons x r ih =>
    rw [List.mapIdx_cons]
    cases j with
    | zero => rfl
    | succ j => exact ih (fun i => f (i + 1)) j fun i => hd (i + 1)

/-- Of members that each go by `f`, a core sees its own going. -/
theorem coreIssued_foldl_modCore {α : Type} (f : Nat × α → Core → Core) {l : List (Nat × α)} (hl : (l.map Prod.fst).Nodup) (s : State) :
    (∀ a ∈ l, (l.foldl (fun s a => s.modCore a.1 (f a)) s).coreIssued a.1 = (f a (s.core a.1), s.issued a.1)) ∧
      ∀ k, k ∉ l.map Prod.fst → (l.foldl (fun s a => s.modCore a.1 (f a)) s).coreIssued k = s.coreIssued k :=
  foldl_each (p := State.coreIssued) (f := fun a x => (f a x.1, x.2)) (fun s a k => by
    rw [coreIssued_modCore]
    split_ifs with h
    · subst h; rfl
    · rfl) hl s

/-- What a commit makes of a core and of the operations that it has issued (R46). -/
def committing (noretry : Bool) (a : Nat × Nat × BitVec 16 × Nat × Nat) (x : Core × List (Nat × GKind)) : Core × List (Nat × GKind) :=
  (committed a.2.2.1 noretry (heldPerformed x).1, (heldPerformed x).2)

theorem coreIssued_foldl_commitCore (noretry : Bool) {l : List (Nat × Nat × BitVec 16 × Nat × Nat)} (hl : (l.map Prod.fst).Nodup) (s : State) :
    (∀ a ∈ l, (l.foldl (fun s a => s.commitCore a.1 a.2.2.1 noretry) s).coreIssued a.1 = committing noretry a (s.coreIssued a.1)) ∧
      ∀ k, k ∉ l.map Prod.fst → (l.foldl (fun s a => s.commitCore a.1 a.2.2.1 noretry) s).coreIssued k = s.coreIssued k :=
  foldl_each (p := State.coreIssued) (f := committing noretry) (fun s a k => coreIssued_commitCore s a.1 a.2.2.1 noretry k) hl s

/-- The commit of a gang on each of its members (R46). -/
theorem coreIssued_phasePoint {s : State} {gg : Gang} {arr : List (Nat × BitVec 16 × Nat × Nat)} (hm : gg.members.Nodup)
    (harr : s.pointArrivals gg = some arr) (g : Nat) (hchk : ∀ k ∈ gg.members, (s.core k).modes.chkint = false) (hk : ∀ a ∈ arr, a.1 = 0) :
    ∃ noretry, (∀ a ∈ gg.members.zip arr, (s.phasePoint gg arr g).coreIssued a.1 =
        (((committing noretry a (s.coreIssued a.1)).1.goOnAt g a.2.2.2.2).snapshot (some a.2.2.2.2), (committing noretry a (s.coreIssued a.1)).2)) ∧
      ∀ k, k ∉ gg.members → (s.phasePoint gg arr g).core k = s.core k := by
  have hbad : (gg.members.filter fun k => (s.core k).modes.chkint) = [] := List.filter_eq_nil_iff.2 fun k h => by simp [hchk k h]
  have hno (n : Nat) (hn : n ≠ 0) : (arr.any fun a => a.1 = n) = false := by
    rw [List.any_eq_false]
    exact fun a ha => by simpa [hk a ha] using Ne.symm hn
  have hz := members_zip_arrivals harr
  have hnd : ((gg.members.zip arr).map Prod.fst).Nodup := hz.symm ▸ hm
  refine ⟨gg.members.any fun k => !(s.core k).quiet g, ?_⟩
  rw [State.phasePoint]
  dsimp only
  rw [hbad, if_neg (by decide), if_neg (by simp [hno 2 (by decide)]), if_neg (by simp [hno 1 (by decide)])]
  obtain ⟨h1, h1'⟩ := coreIssued_foldl_commitCore (gg.members.any fun k => !(s.core k).quiet g) hnd s
  generalize (gg.members.any fun k => !(s.core k).quiet g) = noretry at h1 h1' ⊢
  obtain ⟨h2, h2'⟩ := coreIssued_foldl_modCore (fun a c => c.goOnAt g a.2.2.2.2) hnd
    ((gg.members.zip arr).foldl (fun s a => s.commitCore a.1 a.2.2.1 noretry) s)
  obtain ⟨h3, h3'⟩ := coreIssued_foldl_modCore (fun a c => c.snapshot (some a.2.2.2.2)) hnd
    (((gg.members.zip arr).foldl (fun s a => s.commitCore a.1 a.2.2.1 noretry) s).allGoOn gg arr g)
  refine ⟨fun a ha => ?_, fun k hk => ?_⟩
  · refine (h3 a ha).trans ?_
    obtain ⟨hc1, hi1⟩ := Prod.mk.injEq .. ▸ h1 a ha
    obtain ⟨hc2, hi2⟩ := Prod.mk.injEq .. ▸ h2 a ha
    exact Prod.ext (congrArg (fun c => c.snapshot (some a.2.2.2.2)) (hc2.trans (congrArg (fun c => c.goOnAt g a.2.2.2.2) hc1))) (hi2.trans hi1)
  · have hk : k ∉ (gg.members.zip arr).map Prod.fst := hz.symm ▸ hk
    exact congrArg Prod.fst ((h3' k hk).trans ((h2' k hk).trans (h1' k hk)))

theorem pc_setReg (c : SeqCtx) (r : Nat) (v : Word) : (c.setReg r v).pc = c.pc := by
  unfold SeqCtx.setReg
  split_ifs <;> rfl

theorem commits : Claims.Commits := by
  intro s gg arr hg hm harr g
  rw [exec_phasePointRelease hg harr]
  refine ⟨fun h => if_neg (by simp [g, h]), fun hall hchk hk => ⟨s.phasePoint gg arr g, if_pos hall, ?_⟩⟩
  obtain ⟨noretry, hin, hout⟩ := coreIssued_phasePoint hm harr g hchk hk
  refine ⟨hout, fun i k kind mask a d hi ha => ?_⟩
  intro c c'
  obtain ⟨hc, hops⟩ := Prod.mk.injEq .. ▸ hin _ (mem_zip_of_getElem? hi ha)
  have hc' : c' = _ := hc
  refine ⟨fun j => ?_, ?_⟩
  · rw [hc']
    exact lget_mapIdx (fun i (d : Desc) => { d with bank := if d.db && mask.getLsbD i then !d.bank else d.bank, shw := false }) _ _ _ fun _ => rfl
  · rw [hc']
    refine ⟨rfl, rfl, rfl, rfl, rfl, fun h hh => mem_issued.1 ?_, rfl, rfl, rfl, _, rfl, rfl, pc_setReg .., rfl, rfl⟩
    rw [hops]
    exact List.mem_append_right _ (List.mem_map_of_mem hh)

end Sys2Proof.Machine

namespace Sys2Proof.Machine

/-! ## What the steps of a phase point show of the members (R47, R151) -/

theorem phaseView_foldl_modCore {α : Type} {f : Nat × α → Core → Core} (h : ∀ a c, (f a c).besidesPhase = f a c.besidesPhase) {l : List (Nat × α)}
    (hl : (l.map Prod.fst).Nodup) (s : State) {a : Nat × α} (ha : a ∈ l) :
    (l.foldl (fun s a => s.modCore a.1 (f a)) s).phaseView a.1 = f a (s.phaseView a.1) :=
  (foldl_each (step := fun s a => s.modCore a.1 (f a)) (key := Prod.fst) (p := State.phaseView) (f := f) (fun _ a k => phaseView_modCore (h a) k) hl s).1 a ha

theorem phaseView_foldl_members {step : State → Nat → State} {f : Core → Core}
    (h : ∀ s j k, (step s j).phaseView k = if k = j then f (s.phaseView k) else s.phaseView k) {l : List Nat} (hl : l.Nodup) (s : State) {k : Nat}
    (hk : k ∈ l) : (l.foldl step s).phaseView k = f (s.phaseView k) :=
  (foldl_each (p := State.phaseView) (key := id) (f := fun _ => f) h (by rwa [List.map_id]) s).1 k hk

theorem phaseView_foldl_cancelPhase {l : List Nat} (hl : l.Nodup) (x : Nat) (s : State) {k : Nat} (hk : k ∈ l) :
    (l.foldl (fun s k => s.cancelPhase k x) s).phaseView k = clearPhase (s.phaseView k) :=
  phaseView_foldl_members (step := fun s k => s.cancelPhase k x) (fun s j k => phaseView_cancelPhase s j x k) hl s hk

theorem phaseView_allGoOn {s : State} {gg : Gang} {arr : List (Nat × BitVec 16 × Nat × Nat)} (hl : ((gg.members.zip arr).map Prod.fst).Nodup) (g : Nat)
    {a : Nat × Nat × BitVec 16 × Nat × Nat} (ha : a ∈ gg.members.zip arr) :
    (s.allGoOn gg arr g).phaseView a.1 = (s.phaseView a.1).goOnAt g a.2.2.2.2 :=
  phaseView_foldl_modCore (f := fun (a : Nat × Nat × BitVec 16 × Nat × Nat) c => c.goOnAt g a.2.2.2.2) (fun _ _ => rfl) hl s ha

/-! ## What is in flight to shadow banks (R47) -/

/-- Nothing is in flight from core k to a shadow bank. -/
def State.unphased (s : State) (k : Nat) : Prop := ∀ p ∈ (s.core k).pend, p.phased = false

theorem unphased_modCore {s : State} {j k : Nat} {f : Core → Core} (hf : k = j → s.unphased k → ∀ p ∈ (f (s.core k)).pend, p.phased = false)
    (h : s.unphased k) : (s.modCore j f).unphased k := by
  unfold State.unphased
  by_cases hk : k = j
  · subst hk; rw [State.core_modCore]; exact hf rfl h
  · rw [State.core_modCore_other _ _ _ _ hk]; exact h

theorem unphased_giveCredits {s : State} {k : Nat} (j c x n : Nat) (h : s.unphased k) : (s.giveCredits j c x n).unphased k := by
  induction n generalizing s with
  | zero => exact h
  | succ n ih =>
    unfold State.giveCredits
    split
    · refine ih ?_
      unfold State.giveCredit
      dsimp only
      split_ifs
      · exact unphased_modCore (fun _ h => h) h
      · refine unphased_modCore (f := fun c => { c with pend := c.pend ++ [_] }) (fun _ h p hp => ?_) h
        obtain hp | hp := List.mem_append.1 hp
        · exact h p hp
        · obtain rfl := List.mem_singleton.1 hp; rfl
    · exact h

theorem unphased_discardIn {s : State} {k : Nat} (j c x : Nat) (gone : ChEntry → Bool) (h : s.unphased k) : (s.discardIn j c x gone).unphased k := by
  unfold State.discardIn
  dsimp only
  split_ifs
  · exact h
  · exact unphased_giveCredits _ _ _ _ (unphased_modCore (fun _ h p hp => h p (List.mem_of_mem_filter hp)) h)
  · exact unphased_modCore (fun _ h p hp => h p (List.mem_of_mem_filter hp)) h

/-- A core whose open phase is discarded, its inbound channels apart (R47). -/
def droppedPhase (c : Core) : Core :=
  { c with mem := { c.mem with held := [] }
           builds := c.builds.map fun (b : Build) => { b with write := b.write && !c.pend.any fun p => p.id = b.id && p.phased }
           pend := c.pend.filterMap Pend.cancelled
           descs := c.descs.map fun d => { d with shw := false }
           modes := { c.modes with chkint := false } }

theorem phased_of_cancelled {p q : Pend} (h : p.cancelled = some q) : q.phased = false := by
  unfold Pend.cancelled at h
  split at h
  case isTrue hp => cases h; simpa using hp
  case isFalse =>
    split at h
    · cases h; rfl
    · cases h

theorem unphased_discardMesh {s : State} {k : Nat} (j x : Nat) (h : s.unphased k) : (s.discardMesh j x).unphased k := by
  have hdiscard (l : List Nat) (ph : Nat) (u : State) (hu : u.unphased k) :
      (l.foldl (fun s c => if s.isMesh j c then s.discardIn j c x fun e => e.phase = ph else s) u).unphased k := by
    induction l generalizing u with
    | nil => exact hu
    | cons c r ih =>
      refine ih _ ?_
      dsimp only
      split_ifs
      · exact unphased_discardIn _ _ _ _ hu
      · exact hu
  exact hdiscard _ _ _ h

theorem unphased_cancelPhase {s : State} {k : Nat} (j x : Nat) (h : j = k ∨ s.unphased k) : (s.cancelPhase j x).unphased k := by
  refine unphased_discardMesh (s := s.modCore j droppedPhase) j x ?_
  unfold State.unphased
  by_cases hk : k = j
  · subst hk
    rw [State.core_modCore]
    intro p hp
    obtain ⟨q, -, hq⟩ := List.mem_filterMap.1 hp
    exact phased_of_cancelled hq
  · rw [State.core_modCore_other _ _ _ _ hk]; exact h.resolve_left (Ne.symm hk)

theorem unphased_foldl_cancelPhase {l : List Nat} {k : Nat} (hk : k ∈ l) (x : Nat) (s : State) : (l.foldl (fun s k => s.cancelPhase k x) s).unphased k :=
  foldl_establishes (P := fun u => u.unphased k) (step := fun s k => s.cancelPhase k x) (fun _ _ h => unphased_cancelPhase _ _ (.inr h)) hk
    (fun _ => unphased_cancelPhase _ _ (.inl rfl)) s

theorem unphased_foldl_modCore {α : Type} {key : α → Nat} {f : α → Core → Core} (hf : ∀ a c, (f a c).pend = c.pend) (l : List α) {s : State} {k : Nat}
    (h : s.unphased k) : (l.foldl (fun s a => s.modCore (key a) (f a)) s).unphased k := by
  induction l generalizing s with
  | nil => exact h
  | cons a r ih => exact ih (unphased_modCore (fun _ h => by rwa [hf]) h)

/-! ## Cancellation (R47, R148) -/

/-- A gang that cancels its phase and goes on at g (R47). -/
def State.cancelled (s : State) (gg : Gang) (arr : List (Nat × BitVec 16 × Nat × Nat)) (g : Nat) : State :=
  (gg.members.foldl (fun s k => s.cancelPhase k g) s).allGoOn gg arr g

/-- A core that the phase point tells that it was cancelled (R146). -/
def toldCancel (c : Core) : Core := { c with modes := { c.modes with cancel := true } }

theorem phasePoint_cancel {s : State} {gg : Gang} {arr : List (Nat × BitVec 16 × Nat × Nat)} (g : Nat)
    (hchk : ∀ k ∈ gg.members, (s.core k).modes.chkint = false) (h2 : ∀ a ∈ arr, a.1 ≠ 2) (h1 : ∃ a ∈ arr, a.1 = 1) :
    s.phasePoint gg arr g = gg.members.foldl (fun s k => s.modCore k toldCancel) (s.cancelled gg arr g) := by
  have hbad : (gg.members.filter fun k => (s.core k).modes.chkint) = [] := List.filter_eq_nil_iff.2 fun k h => by simp [hchk k h]
  have hno : ¬ (arr.any fun a => a.1 = 2) = true := by
    rw [List.any_eq_true]; exact fun ⟨a, ha, h⟩ => h2 a ha (of_decide_eq_true h)
  have hyes : (arr.any fun a => a.1 = 1) = true := List.any_eq_true.2 (h1.imp fun a h => ⟨h.1, decide_eq_true h.2⟩)
  rw [State.phasePoint]
  dsimp only
  rw [hbad, if_neg (by decide), if_neg hno, if_pos hyes]; rfl

theorem cancels : Claims.Cancels := by
  intro s gg arr hg hm harr g hall hchk h2 h1
  refine ⟨s.phasePoint gg arr g, (exec_phasePointRelease hg harr).trans (if_pos hall), fun i k kind mask a d hi ha => ?_⟩
  intro c c'
  have hz := mem_zip_of_getElem? hi ha
  have hk : k ∈ gg.members := List.mem_of_getElem? hi
  have hnd : ((gg.members.zip arr).map Prod.fst).Nodup := (members_zip_arrivals harr).symm ▸ hm
  have hv : c'.besidesPhase = toldCancel ((clearPhase c.besidesPhase).goOnAt g d) := by
    refine (congrFun (congrArg State.phaseView (phasePoint_cancel g hchk h2 h1)) k).trans ?_
    refine (phaseView_foldl_members (step := fun s k => s.modCore k toldCancel) (fun s j k => phaseView_modCore (f := toldCancel) (g := toldCancel) (fun _ => rfl) k) hm _ hk).trans ?_
    exact congrArg toldCancel ((phaseView_allGoOn hnd g hz).trans (congrArg (·.goOnAt g d) (phaseView_foldl_cancelPhase hm g s hk)))
  have hu : (s.phasePoint gg arr g).unphased k := by
    rw [phasePoint_cancel g hchk h2 h1]
    exact unphased_foldl_modCore (key := id) (f := fun _ => toldCancel) (fun _ _ => rfl) _
      (unphased_foldl_modCore (key := Prod.fst) (f := fun (a : Nat × Nat × BitVec 16 × Nat × Nat) c => c.goOnAt g a.2.2.2.2)
        (fun _ _ => rfl) _ (unphased_foldl_cancelPhase hk g s))
  refine ⟨congrArg (·.mem.held) hv, congrArg (·.descs) hv, hu, (congrArg (·.modes) hv).trans ?_, congrArg (·.seq) hv, congrArg (·.snap) hv⟩
  show ({ c.modes with chkint := false, cancel := true } : Modes) = _
  rw [← hchk k hk]

end Sys2Proof.Machine

namespace Sys2Proof.Machine

/-! ## Retry (R151) -/

theorem reg_ite_setReg (c : SeqCtx) (regs : List Word) (d : Nat) (v : Word) {r : Nat} (hr : r ≠ 0) (h : c.regs = if d = 0 then regs else lput regs d v 0) :
    c.reg r = if d = r then v else lget regs r 0 := by
  rw [SeqCtx.reg, if_neg hr, h]
  by_cases hd : d = r
  · subst hd; rw [if_neg hr, if_pos rfl, lget_lput_same]
  · rw [if_neg hd]
    split_ifs
    · rfl
    · exact lget_lput_other _ _ _ _ _ (Ne.symm hd)

theorem lget_replicate_or {α : Type} (n i : Nat) (x d : α) : lget (List.replicate n x) i d = x ∨ lget (List.replicate n x) i d = d := by
  rw [lget_eq_getD, List.getD_eq_getElem?_getD, List.getElem?_replicate]
  split_ifs
  · exact .inl rfl
  · exact .inr rfl

theorem lane_vec_zero (r l : Nat) : lget (lget Vec.zero.v r []) l 0 = 0 := by
  obtain hv | hv := lget_replicate_or 32 r (List.replicate 64 (0 : Lane)) []
  · rw [Vec.zero, hv]; exact (lget_replicate_or 64 l 0 0).elim id id
  · rw [Vec.zero, hv, lget_nil]

/-- A core that resumes from its snapshot has retried its phase (R151). -/
theorem retried_resumed {c c1 : Core} (sn : Snapshot) (gr : Nat) (hphase : c1.modes.phase = c.modes.phase) (hrcnt : c1.modes.rcnt = c.modes.rcnt)
    (hchk : c1.modes.chkint = false) (hheld : c1.mem.held = []) : Claims.Retried c (resumed sn gr true c1) sn gr := by
  refine ⟨rfl, rfl, rfl, rfl, fun r hr => ?_, rfl, rfl, rfl, fun r l => ?_, fun x hx => ?_, fun x hx => ?_, fun e he => ?_, fun e he => ?_, hheld, hchk,
    hphase, ?_⟩
  · cases hp : sn.ptReg with
    | none => rw [if_neg (by simp), SeqCtx.reg, if_neg hr]; show lget (match sn.ptReg with | some d => _ | none => _) r 0 = _; rw [hp]
    | some d =>
      simp only [Option.some.injEq]
      refine reg_ite_setReg _ _ _ _ hr ?_
      show (match sn.ptReg with | some d => _ | none => _) = _; rw [hp]
  · exact lane_vec_zero r l
  · obtain ⟨t, -, rfl⟩ := List.mem_map.1 hx; exact ⟨_, rfl⟩
  · exact List.eq_of_mem_replicate hx
  · obtain ⟨y, -, rfl⟩ := List.mem_map.1 he; rfl
  · obtain rfl := List.eq_of_mem_replicate he; rfl
  · show (if true && c1.modes.rcnt != 15 then c1.modes.rcnt + 1 else c1.modes.rcnt) = _
    rw [hrcnt]
    by_cases h : c.modes.rcnt = 15
    · simp [h]
    · rw [if_neg h, if_pos (by simpa using h)]

theorem retried_of_snap {c : Core} {sn : Snapshot} {gr : Nat} {count : Bool} (h : c.snap = some sn) :
    retried gr count c = (resumed sn gr count c).besidesPhase := by
  rw [retried, h]

theorem refuse_retried (gr : Nat) (count : Bool) (c : Core) : (retried gr count c).modes.refuse = c.modes.refuse := by
  unfold retried
  split <;> rfl

theorem phaseView_retryGang {s : State} {gg : Gang} (gr : Nat) (hm : gg.members.Nodup) (hno : ∀ k ∈ gg.members, (s.core k).modes.noretry = false) {k : Nat}
    (hk : k ∈ gg.members) : (s.retryGang gg gr true).phaseView k = retried gr true (clearPhase (s.phaseView k)) := by
  rw [State.retryGang, if_neg (by rw [List.any_eq_true]; exact fun ⟨k, hk, h⟩ => by simp [hno k hk] at h)]
  exact (phaseView_foldl_members (step := fun s k => s.retryCore k gr true) (fun s j k => phaseView_retryCore s j gr true k) hm _ hk).trans
    (congrArg (retried gr true) (phaseView_foldl_cancelPhase hm _ s hk))

/-! ## A refusal, and PABORT.R (R148, R152) -/

/-- A core that the phase point tells that it is refused. -/
def toldRefuse (c : Core) : Core := { c with modes := { c.modes with refuse := true } }

/-- A gang that its phase point refuses. -/
def State.refused (s : State) (gg : Gang) : State := gg.members.foldl (fun s k => s.modCore k toldRefuse) s

theorem core_refused (s : State) (gg : Gang) (k : Nat) : (s.refused gg).core k = if k ∈ gg.members then toldRefuse (s.core k) else s.core k :=
  core_foldl_modCore (f := toldRefuse) (fun _ => rfl) gg.members s k

theorem gang_refused (s : State) (gg : Gang) (b : Nat) : (s.refused gg).gang b = s.gang b := by
  obtain ⟨cs, h⟩ := foldl_modCore_rest toldRefuse gg.members s
  rw [State.refused, h]; rfl

section Outcomes
variable {s : State} {gg : Gang} {arr : List (Nat × BitVec 16 × Nat × Nat)}

/-- The fault of a member whose phase is refused beyond the last retry (R152). -/
def refusal (m : Modes) : FaultRec := { cause := 0x0A, sub := 3, unit := 0, info := m.phase.toNat, lat := false, skip := 0 }

theorem phasePoint_refused (g : Nat) (h : ∃ k ∈ gg.members, (s.core k).modes.chkint = true) : s.phasePoint gg arr g =
    if (s.core gg.origin).modes.retrymax.toNat < (s.core gg.origin).modes.rcnt.toNat + 1 then
      (gg.members.filter fun k => (s.core k).modes.chkint).foldl (fun u k => u.faultMain k (refusal (s.core gg.origin).modes))
        ((s.refused gg).cancelled gg arr g)
    else (s.refused gg).retryGang gg (g + 64) true := by
  obtain ⟨k, hk, hc⟩ := h
  have hne : (!(gg.members.filter fun k => (s.core k).modes.chkint).isEmpty) = true := by
    rw [Bool.not_eq_true', List.isEmpty_eq_false_iff]
    exact List.ne_nil_of_mem (List.mem_filter.2 ⟨hk, hc⟩)
  rw [State.phasePoint]
  dsimp only
  rw [if_pos hne]; rfl

theorem phasePoint_abort (g : Nat) (h : ¬ ∃ k ∈ gg.members, (s.core k).modes.chkint = true) (h2 : ∃ a ∈ arr, a.1 = 2) : s.phasePoint gg arr g =
    if (s.core gg.origin).modes.retrymax.toNat < (s.core gg.origin).modes.rcnt.toNat + 1 then s.abortGang gg.berth 4
    else s.retryGang gg (g + 64) true := by
  have hbad : (gg.members.filter fun k => (s.core k).modes.chkint) = [] := List.filter_eq_nil_iff.2 fun k hk hc => h ⟨k, hk, hc⟩
  have hyes : (arr.any fun a => a.1 = 2) = true := List.any_eq_true.2 (h2.imp fun a h => ⟨h.1, decide_eq_true h.2⟩)
  rw [State.phasePoint]
  dsimp only
  rw [hbad, if_neg (by decide), if_pos hyes]

/-- A phase point that is refused or undone below the last retry: the gang, told of a refusal, retries. -/
theorem phasePoint_retry (g : Nat) (hb : s.gang gg.berth = some gg) (hfull : ¬ (s.core gg.origin).modes.retrymax.toNat < (s.core gg.origin).modes.rcnt.toNat + 1)
    (h : (∃ k ∈ gg.members, (s.core k).modes.chkint = true) ∨ ∃ a ∈ arr, a.1 = 2) : ∃ u : State,
      s.phasePoint gg arr g = u.retryGang gg (g + 64) true ∧ u.gang gg.berth = some gg ∧ ∀ k ∈ gg.members,
        (u.core k = toldRefuse (s.core k) ∨ u.core k = s.core k) ∧
        ((∃ k ∈ gg.members, (s.core k).modes.chkint = true) → u.core k = toldRefuse (s.core k)) := by
  by_cases hbad : ∃ k ∈ gg.members, (s.core k).modes.chkint = true
  · refine ⟨s.refused gg, ?_, (gang_refused ..).trans hb, fun k hk => ?_⟩
    · rw [phasePoint_refused g hbad, if_neg hfull]
    · have hc := (core_refused s gg k).trans (if_pos hk)
      exact ⟨.inl hc, fun _ => hc⟩
  · refine ⟨s, ?_, hb, fun k _ => ⟨.inr rfl, fun h => absurd h hbad⟩⟩
    rw [phasePoint_abort g hbad (h.resolve_left hbad), if_neg hfull]

theorem core_faultMain (s : State) (k : Nat) (f : FaultRec) : (s.faultMain k f).core k = stoppedAs ((s.core k).enterHandler f (s.tide + 1)) 0 none :=
  (core_startHold ..).trans (congrArg (stoppedAs · 0 none) (State.core_modCore ..))
theorem core_faultMain_other (s : State) (f : FaultRec) {j k : Nat} (h : k ≠ j) : (s.faultMain j f).core k = s.core k :=
  (core_startHold_other _ _ _ h).trans (State.core_modCore_other _ _ _ _ h)

theorem slot_setReg (c : SeqCtx) (r : Nat) (v : Word) : (c.setReg r v).slot = c.slot := by
  unfold SeqCtx.setReg
  split_ifs <;> rfl

theorem seq_goOnAt (c : Core) (g d : Nat) : (c.goOnAt g d).seq.pc = c.seq.pc ∧ (c.goOnAt g d).seq.slot = c.seq.slot :=
  ⟨pc_setReg .., slot_setReg ..⟩

/-- What a fault that a phase point raises saves (R138, log 87). -/
theorem trec_faultMain (s : State) (k : Nat) (m : Modes) : ((s.faultMain k (refusal m)).core k).trec.cause = 0x0A ∧
    ((s.faultMain k (refusal m)).core k).trec.sub = 3 ∧ ((s.faultMain k (refusal m)).core k).trec.info = BitVec.ofNat 64 m.phase.toNat ∧
    ((s.faultMain k (refusal m)).core k).trec.pc = (match (s.core k).seq.slot with | some sl => sl.brPc | none => (s.core k).seq.pc) := by
  rw [core_faultMain, show (stoppedAs ((s.core k).enterHandler (refusal m) (s.tide + 1)) 0 none).trec = (s.core k).trecFor (refusal m) from rfl,
    trecFor_sequencer _ rfl]
  exact ⟨rfl, rfl, rfl, rfl⟩

theorem refuse_enterHandler (c : Core) (f : FaultRec) (t : Nat) : (c.enterHandler f t).modes.refuse = c.modes.refuse := by
  unfold Core.enterHandler
  dsimp only
  split_ifs <;> rfl

/-- A member of a gang whose refused phase is discarded beyond the last retry (R152). -/
theorem phaseView_refused_cancelled (hm : gg.members.Nodup) (harr : s.pointArrivals gg = some arr) (g : Nat) {k : Nat} (hk : k ∈ gg.members) :
    ∃ d, ((s.refused gg).cancelled gg arr g).phaseView k = (clearPhase (toldRefuse (s.phaseView k))).goOnAt g d := by
  have hz := members_zip_arrivals harr
  obtain ⟨a, ha, rfl⟩ := List.mem_map.1 (hz.symm ▸ hk)
  refine ⟨a.2.2.2.2, (phaseView_allGoOn (hz.symm ▸ hm) g ha).trans (congrArg (fun c : Core => c.goOnAt g a.2.2.2.2) ?_)⟩
  refine (phaseView_foldl_cancelPhase hm g _ hk).trans (congrArg clearPhase ?_)
  exact congrArg Core.besidesPhase ((core_refused s gg a.1).trans (if_pos hk))

end Outcomes

theorem refusals : Claims.Refusals := by
  intro s gg arr hg hm harr g m full bad stuck hall hwhy
  have hb : s.gang gg.berth = some gg := by rwa [berth_of_gang hg]
  have hexec : exec .phasePointRelease s = .next (s.phasePoint gg arr g) := (exec_phasePointRelease hg harr).trans (if_pos hall)
  refine ⟨fun hfull hstuck => ⟨_, hexec, fun k hk => ?_⟩, fun hfull hstuck => ⟨_, hexec, ?_⟩, fun hfull hbad => ⟨_, hexec, ?_⟩,
    fun hfull hbad => ⟨_, hexec, fun k hk => ?_⟩⟩
  · obtain ⟨u, hu, -, hcore⟩ := phasePoint_retry g hb hfull hwhy
    have hno (k : Nat) (hk : k ∈ gg.members) : (u.core k).modes.noretry = false := by
      have h : (s.core k).modes.noretry = false := Bool.eq_false_iff.2 fun h => hstuck ⟨k, hk, h⟩
      obtain hc | hc := (hcore k hk).1 <;> rw [hc]
      · exact h
      · exact h
    have hv : ((s.phasePoint gg arr g).core k).besidesPhase = retried (g + 64) true (clearPhase (u.phaseView k)) :=
      (congrFun (congrArg State.phaseView hu) k).trans (phaseView_retryGang (g + 64) hm hno hk)
    refine ⟨fun hbad => ?_, fun sn hsn => ?_⟩
    · have h := (congrArg (·.modes.refuse) hv).trans (refuse_retried ..)
      exact h.trans (congrArg (·.modes.refuse) ((hcore k hk).2 hbad))
    · suffices h : Claims.Retried (s.core k) ((s.phasePoint gg arr g).core k).besidesPhase sn (g + 64) from h
      rw [hv]
      obtain hc | hc := (hcore k hk).1
      · rw [retried_of_snap (sn := sn) (by rw [State.phaseView, hc]; exact hsn), State.phaseView, hc]
        exact retried_resumed (c1 := clearPhase (toldRefuse (s.core k)).besidesPhase) sn _ rfl rfl rfl rfl
      · rw [retried_of_snap (sn := sn) (by rw [State.phaseView, hc]; exact hsn), State.phaseView, hc]
        exact retried_resumed (c1 := clearPhase (s.core k).besidesPhase) sn _ rfl rfl rfl rfl
  · obtain ⟨u, hu, hub, hcore⟩ := phasePoint_retry g hb hfull hwhy
    obtain ⟨k, hk, hno⟩ := hstuck
    have hno : (u.core k).modes.noretry = true := by
      obtain hc | hc := (hcore k hk).1 <;> rw [hc]
      · exact hno
      · exact hno
    rw [hu, State.retryGang, if_pos (List.any_eq_true.2 ⟨k, hk, hno⟩)]
    exact aborted_abortGang 3 hub
  · rw [phasePoint_abort g hbad (hwhy.resolve_left hbad), if_pos hfull]
    exact aborted_abortGang 4 hb
  · rw [phasePoint_refused g hbad, if_pos hfull]
    obtain ⟨d, hd⟩ := phaseView_refused_cancelled hm harr g hk
    have hother (u : State) (j : Nat) (_ : j ∈ gg.members.filter fun k => (s.core k).modes.chkint) (h : j ≠ k) :
        (u.faultMain j (refusal m)).core k = u.core k := core_faultMain_other _ _ (Ne.symm h)
    by_cases hc : (s.core k).modes.chkint = true
    · obtain ⟨u, -, hu, hfold⟩ := core_foldl_mem (s := (s.refused gg).cancelled gg arr g) (step := fun u k => u.faultMain k (refusal m))
        (I := fun _ => True) hother (fun _ _ _ _ => trivial) trivial (hm.filter _) (List.mem_filter.2 ⟨hk, hc⟩)
      have hview : (u.core k).besidesPhase = (clearPhase (toldRefuse (s.phaseView k))).goOnAt g d := (congrArg Core.besidesPhase hu).trans hd
      obtain ⟨hpc, hslot⟩ := seq_goOnAt (clearPhase (toldRefuse (s.phaseView k))) g d
      have hpc : (u.core k).seq.pc = (s.core k).seq.pc := (congrArg (·.seq.pc) hview).trans hpc
      have hslot : (u.core k).seq.slot = (s.core k).seq.slot := (congrArg (·.seq.slot) hview).trans hslot
      obtain ⟨hcause, hsub, hinfo, hsaved⟩ := trec_faultMain u k m
      rw [hpc, hslot] at hsaved
      refine hfold ▸ ⟨?_, ?_, fun _ => ⟨hcause, hsub, hinfo, hsaved, ?_⟩⟩
      · rw [core_faultMain]
        exact (refuse_enterHandler (u.core k) (refusal m) (u.tide + 1)).trans (congrArg (·.modes.refuse) hview)
      · rw [core_faultMain]
        exact congrArg (·.mem.held) hview
      · rw [core_faultMain]; rfl
    · have hfold := core_foldl_other (s := (s.refused gg).cancelled gg arr g) (step := fun u k => u.faultMain k (refusal m)) hother
        fun h => hc (List.mem_filter.1 h).2
      rw [hfold]
      exact ⟨congrArg (·.modes.refuse) hd, congrArg (·.mem.held) hd, fun h => absurd h hc⟩

/-- Settles O47: what each outcome of a phase point makes of the members, as the steps of the outcome show it of one member after another. -/
theorem phasePoints : Obligations.PhasePoints := ⟨commits, cancels, refusals⟩

end Sys2Proof.Machine

namespace Sys2Proof.Machine

/-! ## A sequencer instruction beside a vector word that reads SP3 (R76, R201) -/

/-- A row of 8 bytes in SP3. -/
def sp3Row : Desc := { Desc.zero with level := 2, rows := 1, cols := 8, rstride := 64 }

/-- A core whose vector engine is between two repeats of a word that has latched a row of SP3, and whose sequencer stands at ADDI s1, s0, 1. -/
def latchingCore : Core :=
  { Core.reset with
    run := { Run.idle with berth := some 0, started := true }
    engs := [{ Engine.zero with started := true, rep := 1, next := 1, latch := [sp3Row] }]
    mem := { Core.reset.mem with score := mwriteL [] 0 (leBytes 4 0x10200001) } }

/-- A release by that vector engine at a word of the row, which its home has yet to perform. -/
def releaseUnderWay : GOp :=
  { id := 0, core := 0, unit := 1, kind := .srel 3 0, deps := [], due := 1, done := false, data := [], armed := false, lane := false, names := [] }

def latchingState : State := { State.reset.solo fun _ => latchingCore with gops := [releaseUnderWay] }

/-- How many reads are delayed after a step. -/
def lateAfter : Host.Outcome State Fault Refusal → Nat
  | .next t => t.late.length
  | _ => 0

/-- The addition is taken for a read of SP3 that the release delays. -/
theorem late_step_latchingState : lateAfter (step latchingState) = 1 := rfl

/-- The sequencer alone issues. -/
theorem issuing_latchingState : ∀ x ∈ latchingState.issuing 0, x.1 = 0 := by
  intro x hx
  obtain rfl : x = (0, ((latchingState.modCore 0 fun c => { c with seq := { c.seq with wait := .none } }).at_ 0 false .vec 0, .addi 1 0 1)) :=
    List.mem_singleton.1 hx
  rfl

/-- Refutes O6: the choice of a step looks for reads of SP3 in what the vector engine has latched, also when the sequencer is to issue; beside a word
between two of its repeats that reads SP3 after its own release, ADDI is noted as a delayed read, though it is no load of SP3. -/
theorem not_stepRunsDecoded : ¬ Obligations.StepRunsDecoded := by
  intro h
  obtain ⟨-, -, -, -, -, -, -, -, -, -, hmember, -⟩ := h latchingState
  obtain ⟨u, hstep, hu, -⟩ := hmember 0 (by simp [latchingState, State.solo, State.quiet]) rfl rfl
    (fun g hg => by obtain rfl : g = soloGang := List.mem_singleton.1 hg; rfl) rfl rfl
    (fun o ho => by obtain rfl : o = releaseUnderWay := List.mem_singleton.1 ho; rfl) ⟨[], _, rfl, fun _ hj => absurd hj List.not_mem_nil⟩
    rfl rfl rfl (fun u => by cases u <;> rfl) rfl (by decide) rfl rfl
    (fun x hx hpos => absurd (issuing_latchingState x hx) (by omega)) (fun hf => absurd hf (by decide))
  have hadd : decodeSeq (BitVec.ofNat 32 ((latchingState.core 0).code (latchingState.core 0).seq.pc.toNat 4)) = .addi 1 0 1 := rfl
  rw [hadd] at hstep hu
  rw [hu (by simp)] at hstep
  exact absurd (late_step_latchingState.symm.trans (congrArg lateAfter hstep)) (by decide)

end Sys2Proof.Machine

namespace Sys2Proof.Machine

/-! ## Every meaning answers a next state (R18, R139, R394)

Each way in which several instructions run answers; an instruction that runs in none of them tests some conditions and goes on in every case. -/

section Runs

theorem aluRun_answers (i : Instr) (d : BitVec 5) (lat : Nat) (v : State → Word) (s : State) :
    ∃ t, aluRun i d lat v s = .next t := seqRun_answers ..
theorem ldSp_answers (i : Instr) (lvl : Nat) (w : BitVec 3) (d a : BitVec 5) (off : BitVec 13) (s : State) :
    ∃ t, ldSp i lvl w d a off s = .next t := seqRun_answers ..
theorem ldGlobal_answers (i : Instr) (ap : Bool) (w : BitVec 3) (d a : BitVec 5) (off : BitVec 13) (s : State) :
    ∃ t, ldGlobal i ap w d a off s = .next t := seqRun_answers ..
theorem stSp_answers (i : Instr) (lvl : Nat) (w : BitVec 3) (d a : BitVec 5) (off : BitVec 13) (s : State) :
    ∃ t, stSp i lvl w d a off s = .next t := seqRun_answers ..
theorem stGlobal_answers (i : Instr) (ap : Bool) (w : BitVec 3) (d a : BitVec 5) (off : BitVec 13) (s : State) :
    ∃ t, stGlobal i ap w d a off s = .next t := seqRun_answers ..
theorem brRun_answers (i : Instr) (off : BitVec 16) (cond : State → Bool) (s : State) :
    ∃ t, brRun i off cond s = .next t := seqRun_answers ..
theorem waitRun_answers (i : Instr) (a b : BitVec 5) (d : Option Nat) (s : State) :
    ∃ t, waitRun i a b d s = .next t := seqRun_answers ..
theorem tretRun_answers (i : Instr) (form : Nat) (s : State) :
    ∃ t, tretRun i form s = .next t := seqRun_answers ..
theorem pointRun_answers (i : Instr) (kind : Nat) (mask : BitVec 16) (d : BitVec 5) (s : State) :
    ∃ t, pointRun i kind mask d s = .next t := seqRun_answers ..
theorem mtsRun_answers (i : Instr) (p : Place) (a : BitVec 5) (n : Nat) (s : State) :
    ∃ t, mtsRun i p a n s = .next t := seqRun_answers ..

theorem vec3_answers (i : Instr) (w : V3) (f : VForm) (lat : Nat) (op : Lane → Lane → Lane → LaneR) (s : State) :
    ∃ t, vec3 i w f lat op s = .next t := engRun_answers ..
theorem vecI_answers (i : Instr) (w : VI) (lat : Nat) (va legal : Bool) (op : Lane → Lane) (s : State) :
    ∃ t, vecI i w lat va legal op s = .next t := engRun_answers ..
theorem vcmpi_answers (w : VI) (s : State) : ∃ t, execVcmpi w s = .next t := by
  unfold execVcmpi
  dsimp only
  split
  · exact vecI_answers ..
  · exact engRun_answers ..
theorem vecMask_answers (i : Instr) (w : V3) (x : Nat) (va : Bool) (allow : Nat → Bool) (ops : List (List Lane) → List MaskOp) (s : State) :
    ∃ t, vecMask i w x va allow ops s = .next t := engRun_answers ..
theorem vec3All_answers (i : Instr) (w : V3) (f : VForm) (lat : Nat) (mesh : Bool) (op : BitVec 64 → List (List Lane) → VOut) (s : State) :
    ∃ t, vec3All i w f lat mesh op s = .next t := engRun_answers ..
theorem vecReduce_answers (i : Instr) (w : V3) (ty : Nat) (rm sat : Bool) (legal : Bool) (empty : Lane) (op : LaneR → LaneR → LaneR)
    (s : State) (fin : Lane → Lane) :
    ∃ t, vecReduce i w ty rm sat legal empty op s fin = .next t := by unfold vecReduce; exact engRun_answers ..
theorem vmRun_answers (i : Instr) (w : VM) (legal write : Bool) (extra : Desc → Bool) (body : Desc → Nat → State → State) (s : State) :
    ∃ t, vmRun i w legal write extra body s = .next t := engRun_answers ..
theorem matProduct_answers (i : Instr) (w : MX) (legal : Bool) (ns : List Nat) (fmts : List Desc → Bool) (hist : List Desc → HistEntry)
    (shapes : State → List Desc → Option FaultRec) (sparse : State → List Desc → Option (FaultRec × Tfrec)) (s : State) :
    ∃ t, matProduct i w legal ns fmts hist shapes sparse s = .next t := engRun_answers ..
theorem dataRun_answers (i : Instr) (w : DX) (legal : Bool) (ns : List (BitVec 4)) (body : List Desc → Nat → State → State) (s : State) :
    ∃ t, dataRun i w legal ns body s = .next t := engRun_answers ..
theorem vecInt_answers (i : Instr) (w : V3) (satOk vb vdReg sat : Bool) (lat : Nat) (op : Int → Int → Int → Int) (s : State) :
    ∃ t, vecInt i w satOk vb vdReg sat lat op s = .next t := vec3_answers ..
theorem vecBits_answers (i : Instr) (w : V3) (x : Nat) (vb vdReg : Bool) (op : Lane → Lane → Lane → Lane) (s : State) :
    ∃ t, vecBits i w x vb vdReg op s = .next t := vec3_answers ..
theorem vecFlt_answers (i : Instr) (w : V3) (rounds vb vdReg : Bool) (lat : Nat) (op : Nat → Nat → Nat → Nat → Nat → Nat × Fx) (s : State) :
    ∃ t, vecFlt i w rounds vb vdReg lat op s = .next t := vec3_answers ..
theorem vecTable_answers (i : Instr) (w : V3) (fn : Nat → Nat × Fx) (s : State) :
    ∃ t, vecTable i w fn s = .next t := vec3_answers ..
theorem vecPerm_answers (i : Instr) (w : V3) (f : VForm) (lat : Nat) (mesh : Bool) (pick : List Lane → List Lane → Nat → Lane) (s : State) :
    ∃ t, vecPerm i w f lat mesh pick s = .next t := vec3All_answers ..
theorem vmLoad_answers (i : Instr) (w : VM) (idx : Bool) (lats occs : List Nat) (extra : Desc → Bool) (cols : Nat → List Lane → List Nat)
    (s : State) :
    ∃ t, vmLoad i w idx lats occs extra cols s = .next t := vmRun_answers ..
theorem blockRun_answers (i : Instr) (w : DX) (load cls : Bool) (ph : Nat) (lv : Nat → Bool) (occ : Desc → Desc → Nat → Nat)
    (move : Nat → Desc → Nat → Desc → Blk → State → State) (s : State) :
    ∃ t, blockRun i w load cls ph lv occ move s = .next t := by unfold blockRun; exact dataRun_answers ..
theorem storeRun_answers (i : Instr) (w : DX) (ph : Nat) (store : List (Nat × Piece) → List (Nat × Nat × Nat) → State → FaultRec ⊕ State)
    (s : State) :
    ∃ t, storeRun i w ph store s = .next t := blockRun_answers ..
theorem gatherRun_answers (i : Instr) (w : DX) (ph : Nat) (tn rn : BitVec 4) (gather : Bool)
    (go : Desc → Desc → Desc → List Nat → Nat → State → State) (s : State) :
    ∃ t, gatherRun i w ph tn rn gather go s = .next t := dataRun_answers ..
theorem bfxRun_answers (sg : Bool) (rd rs1 rs2 : BitVec 5) (s : State) :
    ∃ t, bfxRun sg rd rs1 rs2 s = .next t := by
  unfold bfxRun
  dsimp only
  split_ifs <;> exact ⟨_, rfl⟩
theorem rankSet_answers (qd : BitVec 3) (v : BitVec 32) (s : State) :
    ∃ t, rankSet qd v s = .next t :=
  ⟨_, rfl⟩
theorem queueRunTo_answers (v : Nat) (skip : Bool) (s : State) :
    ∃ t, queueRunTo v skip s = .next t := by
  unfold queueRunTo
  split_ifs <;> exact ⟨_, rfl⟩
theorem fetchRun_answers (typ : Nat) (s : State) :
    ∃ t, fetchRun typ s = .next t := by
  unfold fetchRun
  dsimp only
  split_ifs <;> exact ⟨_, rfl⟩
theorem frespRun_answers (act : State → Nat → State) (s : State) :
    ∃ t, frespRun act s = .next t := by
  unfold frespRun
  dsimp only
  split_ifs <;> exact ⟨_, rfl⟩
theorem mboxRun_answers (opc : Nat) (act : List Byte → State → Nat × List Byte × State) (s : State) :
    ∃ t, mboxRun opc act s = .next t := by
  unfold mboxRun
  dsimp only
  split_ifs <;> exact ⟨_, rfl⟩
theorem decCommand_answers (opc : Nat) (act : DecCmd → State → State) (s : State) :
    ∃ t, decCommand opc act s = .next t := by
  unfold decCommand
  dsimp only
  split
  · split_ifs <;> exact ⟨_, rfl⟩
  · exact ⟨_, rfl⟩
theorem homeEvent_answers (s : State) (allow : GOp → Bool) : ∃ t, s.homeEvent allow = .next t := by
  unfold State.homeEvent
  split
  · split_ifs <;> exact ⟨_, rfl⟩
  · exact ⟨_, rfl⟩
theorem mboxWrite_answers (opc : Nat) (good : List Byte → State → Bool) (act : List Byte → State → State) (s : State) :
    ∃ t, mboxWrite opc good act s = .next t := mboxRun_answers ..
theorem vecCmp_answers (i : Instr) (w : V3) (cond : Nat → Lane → Lane → Bool) (s : State) :
    ∃ t, vecCmp i w cond s = .next t := by
  unfold vecCmp
  dsimp only
  split
  · exact vec3_answers ..
  · exact engRun_answers ..

end Runs

/-- What the meaning of each instruction and event comes down to: for most, one of the runs above. -/
theorem exec_answers (i : Instr) (s : State) : ∃ t, exec i s = .next t := by
  cases i
  all_goals unfold exec
  case add | sub | and_ | or_ | xor | andn | orn | sll | srl | sra | slt | sltu | min_ | max_ | minu | maxu | mul | mulh | mulhu | mulhsu |
      clz | ctz | popc | rol | ror | addi | andi | ori | xori | slti | sltiu | slli | srli | srai | lui | shori | muli =>
    exact aluRun_answers ..
  case ldSp1 | ldSp2 | ldSp3 => exact ldSp_answers ..
  case ldG | ldAp => exact ldGlobal_answers ..
  case stSp1 | stSp2 | stSp3 => exact stSp_answers ..
  case stG | stAp => exact stGlobal_answers ..
  case beq | bne | blt | bge | bltu | bgeu | bmz | bmnz => exact brRun_answers ..
  case j | jal | jr | trap | dset | dbind | dunbind | yield | chkerr | srel | waitg | tesc | tsupply | notify | halt | gbar | qfence | play |
      mfs | mts | sfifo | lslot | chmap | reservedSequencerEncoding =>
    exact seqRun_answers ..
  case swait | sacq => exact waitRun_answers ..
  case tret | tretSkip | tretRb => exact tretRun_answers ..
  case phase | pabort | pabortR => exact pointRun_answers ..
  case errinj | promo | cktol | nprof | mainpc => exact mtsRun_answers ..
  case vadd | vsub | vmul | vmulh | vmac | vadds | vsubs | vabs | vneg | vmin | vmax | vabsd => exact vecInt_answers ..
  case vaddi | vli | vlih | vandi | vshli | vshri | vsrai => exact vecI_answers ..
  case vand | vor | vxor | vnot | vshl | vshr | vsra | vrot | vfsh | vbfx | vbfi | vpopc | vclz => exact vecBits_answers ..
  case vcmp | vfcmp => exact vecCmp_answers ..
  case vcvt | vbcst | vbcs | vdotp => simp only [execVcvt, execVbcst, execVbcs, execVdotp]; exact engRun_answers ..
  case vcmpi => exact vcmpi_answers ..
  case engineNotify | engineQfence | wait | nop | mzero | mload | mdrain | mckset | locfix | mretry | wxload | unassignedEngineOpcode =>
    exact engRun_answers ..
  case mpush | minv | mpop | mclr => exact vecMask_answers ..
  case vsel => exact vec3All_answers ..
  case vfadd | vfsub | vfmul | vfma | vfms | vfsqrt | vfmin | vfmax | vfminp | vfmaxp | vfabs | vfneg => exact vecFlt_answers ..
  case vrcp | vrsq | vexp2 | vlog2 => exact vecTable_answers ..
  case vradd | vrmin | vrmax | vrfadd | vrfmin | vrfmax | vrand | vror | vrxor => exact vecReduce_answers ..
  case vperm | vrev | vmov => exact vecPerm_answers ..
  case vslup | vsldn | vzip | vuzp => simp only [execVslup, execVsldn, execVzip, execVuzp]; exact vecPerm_answers ..
  case vins => simp only [execVins]; exact vec3All_answers ..
  case vld | vldx | vlut => exact vmLoad_answers ..
  case vst => exact vmRun_answers ..
  case mmul | mlata => exact matProduct_answers ..
  case mmuls | mlatx => simp only [execMmuls, execMlatx]; exact matProduct_answers ..
  case dload => exact blockRun_answers ..
  case tmov => simp only [execTmov]; exact blockRun_answers ..
  case dstore | dphst => exact storeRun_answers ..
  case dgather | dscatter => exact gatherRun_answers ..
  case dtrans | dfill => exact dataRun_answers ..
  case dmcast | dcomp | dexp | datom | dataSrel | dataSacq | afence | mfbuild | mfread | cmfetch | tsupd =>
    simp only [execDmcast, execDcomp, execDexp, execDatom, execDataSrel, execDataSacq, execAfence, execMfbuild, execMfread, execCmfetch,
      execTsupd]
    exact dataRun_answers ..
  case qbfx | qbfxS => exact bfxRun_answers ..
  case rankLdi | rankLdf | rankAdd | rankSub | rankMulsh | rankShl | rankShr | rankMin | rankSmax | rankAnd | rankOr | rankSltu =>
    exact rankSet_answers ..
  case queueOff | queueRun | queueRunSkip | queueDrain => exact queueRunTo_answers ..
  case frame | nopPacket | indirect | waitv | mark => exact fetchRun_answers ..
  case frespResume | frespRollback | frespForcedSave | frespAbort => exact frespRun_answers ..
  case groupSet | aperSet | layerSet | berthCtl | grantSet | peerwinSet | powerCap => exact mboxWrite_answers ..
  case rasRead => exact mboxRun_answers ..
  case flush | decoderReset => exact decCommand_answers ..
  case globalWritePerformed | homeUpdate => exact homeEvent_answers ..
  all_goals
    simp only [execAper, execRegisterWrite, execTrapEntry, execHandlerDeadline, execHoldWave, execRelease, execReleaseWave, execGangStart,
      execPassageStart, execPlayQueueRoom, execWaitgExpiry, execWaitExpiry, execSpWriteLands, execGlobalReadArrival, execSeqLoadBudgetExpiry,
      execChannelEntryLands, execCreditReturn, execDmcastArrival, execBarrierRelease, execPhasePointRelease, execYieldRelease, execYieldreq,
      execPdlExpiry, execForcedSave, execCombinerFires, execRunLimitExpiry, execUncorrectableError, execCorrectableError, execFetchAheadError,
      execPageUnpin, execDbindComplete, execSacqComplete, execHostAmoRelease, execHostLrAcquire, execMdrainEntryLands, execChecksumVerdict,
      execErrinjApply, execAtomicReturn, execMfbuildDirectoryCheck, execBuilderService, execManifestLands, execQfetch, execQwait,
      execQwaitComplete, execQdisp, execRankEnd, execRankStq, execRank, execRankctlLoad, execTail, execWaitvSatisfied, execGroupTableWrite,
      execArmed, execAbort, execHold, execBindRelease, execBindYieldreq, execCoaltExpiry, execDoorbell, execDone, execSelfTest, execHostAccess,
      execInboundWrite, execInboundRead, execInboundAtomicop, execEthernetReceive, execEthernetTransmit, execXtscap, execDecoderTail,
      execDecoderRun, execDecode, execDecodeResume, execPowerOn, execHealthy, execPldmUpdate, execActivation, execGetCerts, execChallenge,
      execTestButtonShort, execTestButtonLong, execSelfTestVerdict, execSensorRefresh, execThermalCritical, execThermalShutdown,
      execPowerCapControl, execReset, execPowerLoss, execAutoNegotiation, execTableWalkFinished, execPilotInterrupt]
  all_goals repeat' split
  all_goals exact ⟨_, rfl⟩

theorem step_answers (s : State) : ∃ t, step s = .next t := by
  unfold step
  split
  · exact exec_answers ..
  · split <;> exact ⟨_, rfl⟩

/-- Settles O7: by the meaning of each instruction, and for a step by what it chooses. -/
theorem everyMeaningAnswers : Obligations.EveryMeaningAnswers := ⟨exec_answers, step_answers⟩

end Sys2Proof.Machine

namespace Sys2Proof.Machine

theorem core_modGang (s : State) (b : Nat) (f : Gang → Gang) (k : Nat) : (s.modGang b f).core k = s.core k := rfl

/-- The gang of a berth after a change of the gang of that berth. -/
theorem gang_modGang_berth {s : State} {b : Nat} {g : Gang} {f : Gang → Gang} (h : s.gang b = some g) (hf : ∀ g, (f g).berth = g.berth) :
    (s.modGang g.berth f).gang b = some (f g) := by
  rw [berth_of_gang h]; exact gang_modGang h hf

/-! ## The triggers of a bind record (R29, R158, R378, R379) -/

section Triggers
variable {s : State} {act : State → Gang → State} {g : Gang}

/-- A trigger acts on the gang of a record that is RUNNING. -/
theorem triggerOn_gang (h2 : (s.bind s.cur.arg).state = 2) (hg : s.gang s.cur.arg = some g) : triggerOn act s = act s g := by
  rw [triggerOn, if_neg (by rw [h2]; decide), hg]

theorem triggerOn_ignored (h : (s.bind s.cur.arg).state ≠ 2 ∨ s.gang s.cur.arg = none) : triggerOn act s = s := by
  unfold triggerOn
  split_ifs with h2
  · rfl
  · rw [h.resolve_left (by simpa using h2)]

end Triggers

theorem triggers : Claims.Triggers := by
  intro s berth
  refine ⟨fun h i hi => ?_, fun g h2 hg => ?_⟩
  · simp only [List.mem_cons, List.not_mem_nil, or_false] at hi
    obtain rfl | rfl | rfl | rfl := hi <;> exact congrArg Host.Outcome.next (triggerOn_ignored h)
  · have hb := berth_of_gang hg
    refine ⟨⟨_, rfl, ?_⟩, ⟨_, rfl, ?_⟩, fun hy => congrArg Host.Outcome.next ?_, fun hy hover => ⟨_, rfl, ?_⟩, fun hy hover => ⟨_, (s.core g.origin).run.g + Config.freeNat s.free, rfl, ?_⟩⟩
    · rw [State.trigAbort, triggerOn_gang h2 hg]
      exact aborted_abortGang 5 (hb.symm ▸ hg)
    · rw [State.trigRelease, triggerOn_gang h2 hg]
      exact ⟨rfl, gang_modGang_berth hg (by intro; rfl)⟩
    · rw [State.trigYieldreq, triggerOn_gang h2 hg, if_pos (Option.isSome_iff_ne_none.2 hy)]
    · rw [State.trigYieldreq, triggerOn_gang h2 hg, if_neg (by simp [hy]), if_pos (by simp [hover])]
      exact ⟨gang_modGang_berth hg (by intro; rfl), rfl⟩
    · rw [State.trigYieldreq, triggerOn_gang h2 hg, if_neg (by simp [hy]), if_neg (by simp [hover])]
      exact ⟨Nat.le_add_right .., gang_modGang_berth (s := { s with free := s.free + 1 }) hg (by intro; rfl), rfl⟩

/-! ## Pilot holds (R29) -/

/-- A gang with HOLDASKED as given (log 61). -/
def askedHold (b : Bool) (g : Gang) : Gang := { g with holdAsked := b }

/-- A stop as a source, and the waves that leave for the other members (R30). -/
theorem startHold_waves {s : State} {k : Nat} {g : Gang} (h : s.gangOf k = some g) (cause : Nat) (aw : Option Await) : ∃ src ws,
    src.core = k ∧ src.cause = cause ∧ src.ended = none ∧ src.stopN = s.tide ∧ (∀ m ∈ g.members, m ≠ k → ∃ w ∈ ws, w.1 = m) ∧
      s.startHold k cause aw = (s.modCore k fun c => stoppedAs c cause aw).modGang g.berth (addSource src ws) := by
  have hg : (s.modCore k fun c => stoppedAs c cause aw).gangOf k = some g := (gangOf_modCore rfl).trans h
  have hunfold : s.startHold k cause aw = waveFrom k cause (s.modCore k fun c => stoppedAs c cause aw) := rfl
  rw [hunfold, waveFrom, hg]
  exact ⟨_, _, rfl, rfl, rfl, rfl, fun m hm hk => ⟨_, List.mem_map_of_mem (List.mem_filter.2 ⟨hm, by simpa using hk⟩), rfl⟩, rfl⟩

theorem hold_addSource (src : HoldSrc) (ws : List (Nat × Nat)) (g : Gang) : ∃ h, (addSource src ws g).hold = some h ∧ src ∈ h.srcs ∧
    (∀ w ∈ ws, w ∈ h.waves) ∧ (addSource src ws g).members = g.members := by
  unfold addSource
  split
  · exact ⟨_, rfl, List.mem_singleton.2 rfl, fun _ h => h, rfl⟩
  · exact ⟨_, rfl, List.mem_append_right _ (List.mem_singleton.2 rfl), fun _ h => List.mem_append_right _ h, rfl⟩

section Hold
variable {s : State} {g : Gang} (h2 : (s.bind s.cur.arg).state = 2) (hg : s.gang s.cur.arg = some g)
include h2 hg

theorem trigHold_running (hstop : (s.core g.origin).run.stop = none) :
    s.trigHold = (s.modGang g.berth (askedHold false)).startHold g.origin 3 none := by
  rw [State.trigHold, triggerOn_gang h2 hg]
  dsimp only
  rw [core_modGang, hstop]; rfl

theorem trigHold_again {st : Stop} {h : HoldRec} (hstop : (s.core g.origin).run.stop = some st) (hhold : g.hold = some h) (hheld : h.pilotHeld = true) :
    s.trigHold = s.modGang g.berth (askedHold false) := by
  rw [State.trigHold, triggerOn_gang h2 hg]
  dsimp only
  rw [core_modGang, hstop, hhold]
  exact if_pos hheld

theorem trigHold_later {st : Stop} {n : Nat} (hstop : (s.core g.origin).run.stop = some st) (hn : st.until_ = some n)
    (hnot : ∀ h, g.hold = some h → h.pilotHeld = false) : s.trigHold = s.modGang g.berth (askedHold true) := by
  rw [State.trigHold, triggerOn_gang h2 hg]
  dsimp only
  rw [core_modGang, hstop]
  cases hh : g.hold with
  | none => dsimp only; rw [hn]; rfl
  | some h => dsimp only; rw [if_neg (by rw [hnot h hh]; decide), hn]; rfl

theorem trigHold_joins {st : Stop} {h : HoldRec} (hstop : (s.core g.origin).run.stop = some st) (hn : st.until_ = none) (hhold : g.hold = some h)
    (hnot : h.pilotHeld = false) : ∃ src, src.core = g.origin ∧ src.cause = 3 ∧ src.ended = none ∧ s.trigHold =
      (s.modGang g.berth (askedHold false)).modGang g.berth fun gg => { gg with hold := some { h with srcs := h.srcs ++ [src] } } := by
  refine ⟨{ core := g.origin, stopN := s.tide - (s.core g.origin).run.held, stopA := s.actual g.origin - (s.core g.origin).run.held, cause := 3,
            ended := none }, rfl, rfl, rfl, ?_⟩
  rw [State.trigHold, triggerOn_gang h2 hg]
  dsimp only
  rw [core_modGang, hstop, hhold]
  dsimp only
  rw [if_neg (by rw [hnot]; decide), hn]; rfl

end Hold

theorem pilotHeld_iff (h : HoldRec) : h.pilotHeld = true ↔ ∃ x ∈ h.srcs, x.cause = 3 ∧ x.ended = none := by
  simp [HoldRec.pilotHeld, List.any_eq_true]

theorem pilotHeld_eq_false {h : HoldRec} (hn : ∀ x ∈ h.srcs, x.cause = 3 → x.ended ≠ none) : h.pilotHeld = false :=
  Bool.eq_false_iff.2 fun hp => by
    obtain ⟨x, hx, hc, he⟩ := (pilotHeld_iff h).1 hp
    exact hn x hx hc he

theorem pilotHolds : Claims.PilotHolds := by
  intro s g berth o h2 hg hob
  have hb : g.berth = berth := berth_of_gang hg
  have hasked (b : Bool) : (s.modGang g.berth (askedHold b)).gang berth = some (askedHold b g) := gang_modGang_berth hg fun _ => rfl
  refine ⟨fun hstop => ?_, fun st h hstop hhold hheld => ⟨s.trigHold, rfl, ?_⟩, fun st hstop hnot huntil => ⟨s.trigHold, rfl, ?_⟩,
    fun st h hstop hhold hnot huntil => ?_⟩
  · have hof : (s.modGang g.berth (askedHold false)).gangOf g.origin = some (askedHold false g) := by
      have hrun : ((s.modGang g.berth (askedHold false)).core g.origin).run.berth = some berth := hob
      rw [State.gangOf, hrun]; exact hasked false
    obtain ⟨src, ws, hcore, hcause, hended, hat, hws, hstart⟩ := startHold_waves hof 3 none
    obtain ⟨h, hhold, hsrc, hwaves, hmem⟩ := hold_addSource src ws (askedHold false g)
    have ht : s.trigHold = _ := (trigHold_running h2 hg hstop).trans hstart
    have hg' : s.trigHold.gang berth = some (addSource src ws (askedHold false g)) := by
      rw [ht]
      exact gang_modGang_berth (g := askedHold false g) (hasked false) (berth_addSource src ws)
    have ho : s.trigHold.core g.origin = stoppedAs o 3 none := by
      rw [ht]
      exact State.core_modCore (s.modGang g.berth (askedHold false)) g.origin fun c => stoppedAs c 3 none
    refine ⟨s.trigHold, _, h, rfl, congrArg (·.run.stop) ho, rfl, ⟨_, hg', hhold, hmem⟩, ⟨src, hsrc, hcore, hcause, hended, hat⟩, fun k hk hne => ?_,
      fun k hk => ?_⟩
    · obtain ⟨w, hw, hwk⟩ := hws k hk hne
      exact ⟨w, hwaves w hw, hwk⟩
    · rw [ht]
      exact State.core_modCore_other (s.modGang g.berth (askedHold false)) k g.origin (fun c => stoppedAs c 3 none) hk
  · rw [trigHold_again h2 hg hstop hhold ((pilotHeld_iff h).2 hheld)]
    exact ⟨rfl, hasked false⟩
  · obtain ⟨n, hn⟩ := Option.ne_none_iff_exists'.1 huntil
    rw [trigHold_later h2 hg hstop hn fun h hh => pilotHeld_eq_false (hnot h hh)]
    exact ⟨rfl, hasked true⟩
  · obtain ⟨src, hcore, hcause, hended, ht⟩ := trigHold_joins h2 hg hstop huntil hhold (pilotHeld_eq_false hnot)
    refine ⟨s.trigHold, { askedHold false g with hold := some { h with srcs := h.srcs ++ [src] } }, { h with srcs := h.srcs ++ [src] }, rfl,
      by rw [ht]; rfl, ?_, rfl, rfl, src, rfl, hcore, hcause, hended⟩
    rw [ht]
    exact gang_modGang_berth (g := askedHold false g) (hasked false) (by intro; rfl)

end Sys2Proof.Machine

namespace Sys2Proof.Machine

/-! ## Dispatch refuses (R379, R381) -/

theorem besidesRecords_refuseBind (s : State) (berth reason : Nat) : ∃ u : State, u.besidesRecords = s.besidesRecords ∧
    s.refuseBind berth reason = u.endBind berth reason 0 3 :=
  ⟨_, (besidesRecords_freeSlotOf ..).trans (besidesRecords_writeBindRecord ..), rfl⟩

theorem bind_endBind (s : State) (berth reason flags end_ : Nat) : (s.endBind berth reason flags end_).bind berth =
    { s.bind berth with state := 3, reason := BitVec.ofNat 8 reason, cflags := BitVec.ofNat 8 flags, end_ := BitVec.ofNat 2 end_ } :=
  State.bind_modBind ..

section Refuses
variable {s : State}

theorem exec_armed_refused {r : Nat} (h1 : (s.bind s.cur.arg).state = 1) (hr : s.armReason s.cur.arg = r) (h0 : r ≠ 0) :
    exec .armed s = .next (s.refuseBind s.cur.arg r) := by
  show execArmed s = _
  rw [execArmed]
  dsimp only
  rw [if_neg (by rw [h1]; decide), hr, if_pos (by simpa using h0)]; rfl

theorem exec_armed_taken (h1 : (s.bind s.cur.arg).state = 1) (hr : s.armReason s.cur.arg = 0) : exec .armed s =
    if (s.bind s.cur.arg).restore then
      match s.saveFor ((s.bind s.cur.arg).savepa.toNat * 4096) (s.imageOf s.cur.arg) with
      | some sv => .next (s.restoreGang s.cur.arg sv)
      | none => .next (s.launch s.cur.arg)
    else .next (s.launch s.cur.arg) := by
  show execArmed s = _
  rw [execArmed]
  dsimp only
  rw [if_neg (by rw [h1]; decide), hr, if_neg (by decide)]; rfl

end Refuses

theorem dispatchRefuses : Claims.DispatchRefuses := by
  intro s berth b g cores bad11 bad12 bad13 bad14 refused
  refine ⟨fun h => ?_, fun h1 => ?_⟩
  · show execArmed s = _
    rw [execArmed]
    exact if_pos (bne_iff_ne.2 h)
  have href (n : Nat) (hr : s.armReason berth = n) (h0 : n ≠ 0) : refused n := by
    obtain ⟨u, hu, he⟩ := besidesRecords_refuseBind s berth n
    have hbind := bind_endBind u berth n 0 3
    refine ⟨_, exec_armed_refused h1 hr h0, ?_⟩
    rw [show s.cur.arg = berth from rfl, he, hbind]
    exact ⟨rfl, rfl, rfl, (cores_of_besidesRecords hu :), (gangs_of_besidesRecords hu :)⟩
  have h11 : (!g.1 || cores.length != b.members.toNat) = true ↔ bad11 := by simp [bad11]
  have h12 : (cores.any fun k => s.sched.failed.getLsbD k) = true ↔ bad12 := List.any_eq_true
  have h13 : (cores.any fun k => (s.busyCores berth).contains k) = true ↔ bad13 := by simp [bad13]
  have h14 : (b.restore && !s.saveUsable (b.savepa.toNat * 4096)) = true ↔ bad14 := by
    simp [bad14, State.saveUsable]
  refine ⟨fun h => href 11 (if_pos (h11.2 h)) (by decide), fun n11 h => href 12 ?_ (by decide), fun n11 n12 h => href 13 ?_ (by decide),
    fun n11 n12 n13 h => href 14 ?_ (by decide)⟩
  · exact (if_neg (mt h11.1 n11)).trans (if_pos (h12.2 h))
  · exact (if_neg (mt h11.1 n11)).trans ((if_neg (mt h12.1 n12)).trans (if_pos (h13.2 h)))
  · exact (if_neg (mt h11.1 n11)).trans ((if_neg (mt h12.1 n12)).trans ((if_neg (mt h13.1 n13)).trans (if_pos (h14.2 h))))

/-! ## Dispatch launches (R23, R357, R361) -/

/-- The place of a member whose bind record is b. -/
def placedRun (b : Bind) (berth m k origin : Nat) (im : Memory) : Run :=
  { Run.idle with berth := some berth, member := m, hop := hops origin k, usesp2 := imgUsesp2 im, seqNo := b.seq, stream := b.stream,
                  group := b.group }

/-- The part with the shared memories of a gang to be launched made ready (R357, R361). -/
def State.readied (s : State) (im : Memory) (members : List Nat) (ls : List Load) : State :=
  (if imgUsesp2 im then ({ s with free := s.free + 2 } : State).clearSp2 (members.map cluster) else { s with free := s.free + 2 }).initShared members ls

/-- The members of a launched gang on their cores, one after another. -/
def State.seated (s : State) (berth origin : Nat) (im : Memory) (cap : Capsule) (l : List ((Nat × Load) × Nat)) : State :=
  l.foldl (fun s x => s.modCore x.1.1 fun old => launchCore im cap x.1.2 x.2 old (launchRun s berth x.2 x.1.1 origin im)) s

/-- A gang in a berth whose record is RUNNING from tide cycle t0. -/
def State.berthed (s : State) (berth : Nat) (g : Gang) (f : Bind → Bind) : State :=
  (({ s with gangs := s.gangs ++ [g] } : State).modBind berth f).modSched Sched.noteClamp

theorem launch_eq {s : State} {berth : Nat} {ls : List Load} (h : imgLoads (s.imageOf berth) (s.bind berth).args = some ls) :
    let members := coresOf (s.group (s.bind berth).group.toNat).2
    let im := s.imageOf berth
    let u := s.readied im members ls
    let v := u.seated berth (members.headD 0) im u.fleet.capsule (members.zip ls).zipIdx
    s.launch berth = v.berthed berth (v.newGang berth s.startCycle members im) fun b => { b with state := 2, t0 := word s.startCycle } := by
  intro members im u v
  rw [State.launch, h]; rfl

theorem cores_readied (s : State) (im : Memory) (members : List Nat) (ls : List Load) : (s.readied im members ls).cores = s.cores := by
  have hinit (u : State) : (u.initShared members ls).cores = u.cores := by
    refine foldl_keeps State.cores (fun u x => foldl_keeps State.cores (fun u r => ?_) _ _) _ _
    dsimp only
    split_ifs <;> rfl
  rw [State.readied, hinit]
  split_ifs <;> rfl

theorem gangs_readied (s : State) (im : Memory) (members : List Nat) (ls : List Load) : (s.readied im members ls).gangs = s.gangs := by
  have hinit (u : State) : (u.initShared members ls).gangs = u.gangs := by
    refine foldl_keeps State.gangs (fun u x => foldl_keeps State.gangs (fun u r => ?_) _ _) _ _
    dsimp only
    split_ifs <;> rfl
  rw [State.readied, hinit]
  split_ifs <;> rfl

theorem gangs_seated (s : State) (berth origin : Nat) (im : Memory) (cap : Capsule) (l : List ((Nat × Load) × Nat)) :
    (s.seated berth origin im cap l).gangs = s.gangs := foldl_keeps State.gangs (fun _ _ => by rfl) _ _

/-- Each member sits on its own core. -/
theorem core_seated (s : State) (berth origin : Nat) (im : Memory) (cap : Capsule) {l : List ((Nat × Load) × Nat)} (hl : (l.map (·.1.1)).Nodup) :
    (∀ x ∈ l, (s.seated berth origin im cap l).core x.1.1 =
      launchCore im cap x.1.2 x.2 (s.core x.1.1) (placedRun (s.bind berth) berth x.2 x.1.1 origin im)) ∧
    ∀ k, k ∉ l.map (·.1.1) → (s.seated berth origin im cap l).core k = s.core k := by
  obtain ⟨h1, h2⟩ := foldl_each (p := fun (s : State) k => (s.bind berth, s.core k)) (key := fun x : (Nat × Load) × Nat => x.1.1)
    (step := fun (s : State) x => s.modCore x.1.1 fun old => launchCore im cap x.1.2 x.2 old (launchRun s berth x.2 x.1.1 origin im))
    (f := fun x c => (c.1, launchCore im cap x.1.2 x.2 c.2 (placedRun c.1 berth x.2 x.1.1 origin im)))
    (fun s x k => by
      split_ifs with hk
      · subst hk; exact Prod.ext rfl (State.core_modCore ..)
      · exact Prod.ext rfl (State.core_modCore_other _ _ _ _ hk)) hl s
  exact ⟨fun x hx => congrArg Prod.snd (h1 x hx), fun k hk => congrArg Prod.snd (h2 k hk)⟩

theorem map_zip_zipIdx {α β : Type} {l : List α} {r : List β} (h : r.length = l.length) : ((l.zip r).zipIdx).map (·.1.1) = l := by
  have hfst : ((l.zip r).zipIdx).map (·.1.1) = (((l.zip r).zipIdx).map Prod.fst).map Prod.fst := by rw [List.map_map]; rfl
  rw [hfst, List.zipIdx_map_fst, List.map_fst_zip h.ge]

theorem bind_berthed (s : State) (berth : Nat) (g : Gang) (f : Bind → Bind) : (s.berthed berth g f).bind berth = f (s.bind berth) :=
  State.bind_modBind ..

theorem dispatchLaunches : Claims.DispatchLaunches := by
  intro s ls berth b im cores h1 hr hres hls hlen
  let u := s.readied im cores ls
  let v := u.seated berth (cores.headD 0) im u.fleet.capsule (cores.zip ls).zipIdx
  have ht : s.launch berth = v.berthed berth (v.newGang berth s.startCycle cores im) _ := launch_eq hls
  have hmap : ((cores.zip ls).zipIdx).map (·.1.1) = cores := map_zip_zipIdx hlen
  obtain ⟨hin, hout⟩ := core_seated u berth (cores.headD 0) im u.fleet.capsule
    (show (((cores.zip ls).zipIdx).map (·.1.1)).Nodup by rw [hmap]; exact nodup_coresOf _)
  have hold (k : Nat) : u.core k = s.core k := congrArg (fun cs => lget cs k Core.reset) (cores_readied s im cores ls)
  have hcore (k : Nat) : (s.launch berth).core k = v.core k := by rw [ht]; rfl
  refine ⟨s.launch berth, s.startCycle, (exec_armed_taken h1 hr).trans (if_neg (by rw [show (s.bind s.cur.arg).restore = false from hres]; decide)),
    by unfold State.startCycle; omega, by rw [ht, bind_berthed], by rw [ht, bind_berthed],
    ⟨v.newGang berth s.startCycle cores im, ?_, rfl, rfl, rfl, rfl, rfl, rfl, rfl⟩, fun k hk => ?_, fun i k hi => ?_⟩
  · rw [ht]
    exact congrArg (· ++ _) ((gangs_seated ..).trans (gangs_readied ..))
  · exact (hcore k).trans ((hout k (show k ∉ ((cores.zip ls).zipIdx).map (·.1.1) by rwa [hmap])).trans (hold k))
  · intro c
    obtain ⟨l, hl⟩ : ∃ l, ls[i]? = some l := by
      obtain ⟨hi', -⟩ := List.getElem?_eq_some_iff.1 hi
      exact ⟨_, List.getElem?_eq_getElem (hlen.symm ▸ hi')⟩
    have hmem : ((k, l), i) ∈ (cores.zip ls).zipIdx := List.mk_mem_zipIdx_iff_getElem?.2 (List.getElem?_zip_eq_some.2 ⟨hi, hl⟩)
    have hc : c = launchCore im u.fleet.capsule l i (u.core k) (placedRun (u.bind berth) berth i k (cores.headD 0) im) :=
      (hcore k).trans (hin _ hmem)
    rw [hc]
    refine ⟨rfl, rfl, rfl, rfl, rfl, rfl, fun r => ?_, fun r x => ?_, fun l' hl' => ?_, rfl, rfl, rfl⟩
    · show (if r = 0 then 0 else lget (List.replicate 32 (0 : Word)) r 0) = 0
      rw [(lget_replicate_or 32 r (0 : Word) 0).elim id id, ite_self]
    · exact lane_vec_zero r x
    · obtain rfl : l = l' := Option.some.inj (hl.symm.trans hl')
      rfl

end Sys2Proof.Machine

namespace Sys2Proof.Machine

/-! ## Bytes of a window put into an empty memory (R387) -/

theorem mread_filter {P : Nat → Bool} (m : Memory) {a : Nat} (h : P a = true) : mread (m.filter fun c => P c.1) a = mread m a := by
  induction m with
  | nil => rfl
  | cons c r ih =>
    by_cases hc : P c.1 = true
    · rw [List.filter_cons_of_pos (p := fun c : Host.Cell => P c.1) hc]; exact if_congr Iff.rfl rfl ih
    · rw [List.filter_cons_of_neg (p := fun c : Host.Cell => P c.1) hc, ih]
      exact (if_neg (c := c.1 = a) fun he => hc (he ▸ h)).symm

theorem mread_shift {m : Memory} {lo a : Nat} (h : ∀ c ∈ m, lo ≤ c.1) : mread (m.map fun c => (c.1 - lo, c.2)) a = mread m (lo + a) := by
  induction m with
  | nil => rfl
  | cons c r ih =>
    obtain ⟨hc, hr⟩ := List.forall_mem_cons.1 h
    exact if_congr (by omega) rfl (ih hr)

theorem mread_mwindow (m : Memory) {lo n a : Nat} (h : a < n) : mread (mwindow m lo n) a = mread m (lo + a) := by
  rw [mwindow, mread_shift fun c hc => by have := (List.mem_filter.1 hc).2; simp only [Bool.and_eq_true, decide_eq_true_eq] at this; exact this.1]
  exact mread_filter (P := fun x => lo ≤ x && x < lo + n) m (by simp; omega)

theorem mread_mblit_nil (w : Memory) {n a : Nat} (h : a < n) : mread (mblit [] 0 n w) a = mread w a := by
  have hid : (w.filter fun c => decide (c.1 < n)).map (fun c => (c.1 + 0, c.2)) = w.filter fun c => decide (c.1 < n) := List.map_id _
  rw [mblit, hid]
  simp only [List.filter_nil, List.nil_append, List.append_nil]
  exact mread_filter (P := fun x => x < n) w (by simpa using h)

/-! ## Dispatch restores (R162, R387) -/

section Keyed
variable {α : Type} {step : State → α → State} {key : α → Nat} (h : ∀ u b k, k ≠ key b → (step u b).core k = u.core k)
include h

theorem core_foldl_keyed_other {l : List α} {k : Nat} (hk : k ∉ l.map key) (s : State) : (l.foldl step s).core k = s.core k := by
  induction l generalizing s with
  | nil => rfl
  | cons b r ih =>
    obtain ⟨hb, hr⟩ := not_or.1 (mt List.mem_cons.2 hk)
    exact (ih hr (step s b)).trans (h s b k hb)

/-- Of steps for different cores, a core sees the step for it, made in a state that keeps what every step keeps. -/
theorem core_foldl_keyed {I : State → Prop} (hI : ∀ u b, I u → I (step u b)) {l : List α} (hl : (l.map key).Nodup) {a : α} (ha : a ∈ l) {s : State}
    (h0 : I s) : ∃ u, I u ∧ (l.foldl step s).core (key a) = (step u a).core (key a) := by
  induction l generalizing s with
  | nil => exact absurd ha List.not_mem_nil
  | cons b r ih =>
    obtain ⟨hb, hr⟩ := List.nodup_cons.1 hl
    obtain rfl | ha := List.mem_cons.1 ha
    · exact ⟨s, h0, core_foldl_keyed_other h hb _⟩
    · exact ih hr ha (hI s b h0)

end Keyed

/-- What a restore keeps of a state while it puts the members back. -/
def State.seats (s : State) : List Core × List Gang × Memory := (s.cores, s.gangs, s.mem.hbm)

theorem seats_restoreShared (s : State) (im : Memory) (sv : Saved) (new : List Nat) : (s.restoreShared im sv new).seats = s.seats := by
  have hclear (u : State) : (if imgUsesp2 im then u.clearSp2 (new.map cluster) else u).seats = u.seats := by split_ifs <;> rfl
  have hregions (l : List (Nat × Nat × Nat × Nat)) (u : State) :
      (l.foldl (fun (s : State) (x : Nat × Nat × Nat × Nat) =>
        if x.1 = 1 then
          let m := s.mem
          let cl := cluster (new.headD 0)
          { s with mem := { m with sp2 := lmod m.sp2 cl [] (fun y => mblit y x.2.1 x.2.2.1 (mwindow m.hbm x.2.2.2 x.2.2.1))
                                   sp2Poi := lmod m.sp2Poi cl [] (fun l => poiMove l m.hbmPoi x.2.2.2 x.2.2.1 x.2.1) } }
        else let ps := regionPieces s.mem.hbm s.mem.hbmPoi x.2.1 x.2.2.1 x.2.2.2; s.putSp3 ps ps) u).seats = u.seats :=
    foldl_keeps State.seats (fun u x => by dsimp only; split_ifs <;> rfl) l u
  rw [State.restoreShared]
  dsimp only
  by_cases hk : sv.kind = 2
  · rw [if_pos hk]
    exact (hregions _ _).trans (hclear s)
  · rw [if_neg hk]
    exact hclear s

/-- The members of a restored gang put back on their cores, one after another. -/
def State.reseated (s : State) (berth t0 : Nat) (sv : Saved) (im : Memory) (new : List Nat) : State :=
  let first := sv.mems.foldl (fun m x => Nat.min m x.core.run.g) ((sv.mems.map fun x => x.core.run.g).headD 0)
  (new.zipIdx).foldl (fun s (k, i) =>
    let g := match sv.mems[i]? with | some x => x.core.run.g | none => 0
    s.restoreMember im sv new i k (launchRun s berth i k (new.headD 0) im) (t0 + (g - first))) (({ s with free := s.free + 2 } : State).restoreShared im sv new)

theorem cores_restoreRest (s : State) (sv : Saved) (new : List Nat) : ((s.restoreSlots sv new).restoreOps sv new).seats = s.seats := by
  have hkept (u : State) (b : Bool) : (u.writeKept sv new b).seats = u.seats := by
    refine foldl_keeps State.seats (fun u i => ?_) _ _
    dsimp only
    split
    · exact foldl_keeps State.seats (fun _ _ => by rfl) _ _
    · rfl
  rw [State.restoreOps]
  refine (foldl_keeps State.seats (fun _ _ => by rfl) _ _).trans ?_
  rw [State.restoreSlots, hkept, hkept]

theorem restoreGang_eq {s : State} {berth : Nat} {sv : Saved} (hrb : sv.rb = none) :
    let new := coresOf (s.group (s.bind berth).group.toNat).2
    let u := s.reseated berth s.startCycle sv (s.imageOf berth) new
    (s.restoreGang berth sv).cores = u.cores ∧
    (∃ g, (s.restoreGang berth sv).gangs = u.gangs ++ [g] ∧ g.berth = berth ∧ g.members = new ∧ g.started = false ∧ g.nsave = sv.gang.nsave) ∧
    ((s.restoreGang berth sv).bind berth).state = 2 ∧
    ((s.restoreGang berth sv).bind berth).restcyc = BitVec.ofNat 32 (s.startCycle - s.tide) := by
  intro new u
  have hseats := cores_restoreRest u sv new
  obtain ⟨hc, hgm⟩ := Prod.mk.injEq .. ▸ hseats
  obtain ⟨hg, -⟩ := Prod.mk.injEq .. ▸ hgm
  rw [State.restoreGang, hrb]
  refine ⟨hc, ⟨_, congrArg (· ++ _) hg, rfl, rfl, rfl, rfl⟩, ?_, ?_⟩
  · show (lget (lmod _ berth Bind.zero fun b : Bind => { b with state := 2, t0 := _, restcyc := _ }) berth Bind.zero).state = _
    rw [lget_lmod_same]
  · show (lget (lmod _ berth Bind.zero fun b : Bind => { b with state := 2, t0 := _, restcyc := _ }) berth Bind.zero).restcyc = _
    rw [lget_lmod_same]

theorem seats_restoreMember (s : State) (im : Memory) (sv : Saved) (new : List Nat) (i k : Nat) (run : Run) (t : Nat) :
    (s.restoreMember im sv new i k run t).gangs = s.gangs ∧ (s.restoreMember im sv new i k run t).mem.hbm = s.mem.hbm ∧
      ∀ j, j ≠ k → (s.restoreMember im sv new i k run t).core j = s.core j := by
  unfold State.restoreMember
  split
  · exact ⟨rfl, rfl, fun _ _ => rfl⟩
  · exact ⟨rfl, rfl, fun j hj => State.core_modCore_other _ _ _ _ hj⟩

/-- A member put back on its core (R162). -/
theorem core_restoreMember {s : State} {sv : Saved} {i : Nat} {m : SavedMember} (hm : sv.mems[i]? = some m) (im : Memory) (new : List Nat) (k : Nat)
    (run : Run) (t : Nat) :
    let c := (s.restoreMember im sv new i k run t).core k
    c.seq = m.core.seq ∧ c.sh = m.core.sh ∧ c.vec = m.core.vec ∧ c.mtx = m.core.mtx ∧ c.descs = m.core.descs ∧ c.chans = m.core.chans ∧
    c.engs = m.core.engs ∧ c.snap = m.core.snap ∧ c.run.g = m.core.run.g ∧ c.run.berth = run.berth ∧ c.run.member = run.member ∧
    c.modes.forced = decide (sv.kind = 2) ∧ (c.run.stop.isSome = true ↔ sv.kind = 2) ∧
    ∀ n a, m.sp1s = [(0, n)] → a < n → mread c.mem.sp1 a = mread s.mem.hbm (sp1Image sv.savepa i + a) := by
  rw [State.restoreMember, hm]
  dsimp only
  rw [State.core_modCore]
  refine ⟨rfl, rfl, rfl, rfl, rfl, rfl, rfl, rfl, rfl, rfl, rfl, rfl, ?_, fun n a hs ha => ?_⟩
  · show (if sv.kind = 2 then some _ else none : Option Stop).isSome = true ↔ _
    split_ifs with h <;> simp [h]
  · show mread (m.sp1s.foldl (fun mm x => mblit mm x.1 x.2 (mwindow s.mem.hbm (sp1Image sv.savepa i + x.1) x.2)) []) a = _
    rw [hs]
    exact (mread_mblit_nil _ ha).trans (mread_mwindow _ ha)

/-- How member i of a saved gang goes on from tide cycle t0 (R162). -/
def memberStart (sv : Saved) (t0 i : Nat) : Nat :=
  t0 + ((match sv.mems[i]? with | some x => x.core.run.g | none => 0) -
    sv.mems.foldl (fun m x => Nat.min m x.core.run.g) ((sv.mems.map fun x => x.core.run.g).headD 0))

theorem core_reseated (s : State) (berth t0 : Nat) (sv : Saved) (im : Memory) {new : List Nat} (hn : new.Nodup) {i k : Nat} (hi : new[i]? = some k) :
    ∃ u : State, u.mem.hbm = s.mem.hbm ∧ (s.reseated berth t0 sv im new).core k =
      (u.restoreMember im sv new i k (launchRun u berth i k (new.headD 0) im) (memberStart sv t0 i)).core k := by
  have hseats := seats_restoreShared { s with free := s.free + 2 } im sv new
  exact core_foldl_keyed (key := Prod.fst) (I := fun u => u.mem.hbm = s.mem.hbm)
    (step := fun (u : State) (x : Nat × Nat) => u.restoreMember im sv new x.2 x.1 (launchRun u berth x.2 x.1 (new.headD 0) im) (memberStart sv t0 x.2))
    (fun u x j hj => (seats_restoreMember ..).2.2 j hj) (fun u x hu => (seats_restoreMember ..).2.1.trans hu)
    (by rwa [List.zipIdx_map_fst]) (List.mk_mem_zipIdx_iff_getElem?.2 hi) (congrArg (·.2.2) hseats)

theorem gangs_reseated (s : State) (berth t0 : Nat) (sv : Saved) (im : Memory) (new : List Nat) :
    (s.reseated berth t0 sv im new).gangs = s.gangs :=
  (foldl_keeps State.gangs (fun _ _ => (seats_restoreMember ..).1) _ _).trans
    (congrArg (·.2.1) (seats_restoreShared { s with free := s.free + 2 } im sv new))

theorem savepa_of_saveFor {s : State} {pa : Nat} {im : Memory} {sv : Saved} (h : s.saveFor pa im = some sv) : sv.savepa = pa := by
  unfold State.saveFor State.saveAt at h
  split_ifs at h
  split at h
  · cases h; rfl
  · cases h

theorem dispatchRestores : Claims.DispatchRestores := by
  refine ⟨fun s => ?_, fun s sv => ?_⟩
  · intro berth b h1 hr hres hnone
    rw [exec_armed_taken h1 hr, if_pos hres, hnone]
  · intro berth b cores h1 hr hres hsome hrb
    obtain ⟨hcores, ⟨g, hgangs, hg⟩, hstate, hcyc⟩ := restoreGang_eq (s := s) (berth := berth) hrb
    refine ⟨s.restoreGang berth sv, by rw [exec_armed_taken h1 hr, if_pos hres, hsome], hstate, hcyc, ⟨g, ?_, hg⟩, fun i k m hi hm => ?_⟩
    · rw [hgangs, gangs_reseated]
    · intro c
      obtain ⟨u, hhbm, hcore⟩ := core_reseated s berth s.startCycle sv (s.imageOf berth) (nodup_coresOf _) hi
      have hc : c = _ := (congrArg (fun cs => lget cs k Core.reset) hcores).trans hcore
      rw [hc, ← hhbm, ← savepa_of_saveFor hsome]
      exact core_restoreMember hm ..

/-- Settles O55: dispatch refuses by the first reason that holds, and seats the members of a gang one core after another; the triggers act on the
gang of a RUNNING record alone. -/
theorem dispatch : Obligations.Dispatch := ⟨dispatchRefuses, dispatchLaunches, dispatchRestores, triggers, pilotHolds⟩

end Sys2Proof.Machine

namespace Sys2Proof.Machine

/-! ## Canonical memories: the state taken apart (log 1)

An update that leaves the memories alone leaves the canonical form as it was, said as an equivalence so that a chain of updates is peeled off by
`simp`; one that writes a memory keeps the form. -/

/-- A core's memories are the two of its memory record. -/
@[simp] theorem coreMemOk_iff (c : Core) : c.memOk ↔ Memory.wf c.mem.sp1 = true ∧ Memory.wf c.mem.score = true := Iff.rfl

@[simp] theorem memMemOk_mk (sp2 sp2Poi sp3 sp3Poi hbm hbmPoi pcie pciePoi spq pinned syncs resv) :
    Mem.memOk ⟨sp2, sp2Poi, sp3, sp3Poi, hbm, hbmPoi, pcie, pciePoi, spq, pinned, syncs, resv⟩ ↔
      (∀ x ∈ sp2, Memory.wf x = true) ∧ Memory.wf sp3 = true ∧ Memory.wf hbm = true ∧ Memory.wf pcie = true := Iff.rfl

@[simp] theorem memMemOk_parts (m : Mem) :
    ((∀ x ∈ m.sp2, Memory.wf x = true) ∧ Memory.wf m.sp3 = true ∧ Memory.wf m.hbm = true ∧ Memory.wf m.pcie = true) ↔ m.memOk := Iff.rfl

/-- Every core of a list has canonical memories. -/
def CoresOk (l : List Core) : Prop := ∀ c ∈ l, c.memOk

@[simp] theorem memOk_mk (tide cores gangs mem gops late saves apers builders sched pilot io fleet inputs cur free nextId) :
    State.memOk ⟨tide, cores, gangs, mem, gops, late, saves, apers, builders, sched, pilot, io, fleet, inputs, cur, free, nextId⟩ ↔
      CoresOk cores ∧ (∀ v ∈ saves, v.memOk) ∧ mem.memOk ∧ Memory.wf pilot.sram = true ∧ Memory.wf fleet.flash = true :=
  ⟨fun h => ⟨h.cores, h.saves, h.mem, h.sram, h.flash⟩, fun ⟨h1, h2, h3, h4, h5⟩ => ⟨h1, h2, h3, h4, h5⟩⟩

@[simp] theorem memOk_parts (s : State) :
    (CoresOk s.cores ∧ (∀ v ∈ s.saves, v.memOk) ∧ s.mem.memOk ∧ Memory.wf s.pilot.sram = true ∧ Memory.wf s.fleet.flash = true) ↔ s.memOk :=
  (memOk_mk ..).symm

/-- A state with the memories of a canonical one is canonical. -/
theorem memOk_of_fields {s t : State} (h : s.memOk) (hc : t.cores = s.cores) (hs : t.saves = s.saves) (hm : t.mem = s.mem)
    (hp : t.pilot.sram = s.pilot.sram) (hf : t.fleet.flash = s.fleet.flash) : t.memOk :=
  ⟨hc ▸ h.cores, hs ▸ h.saves, hm ▸ h.mem, hp ▸ h.sram, hf ▸ h.flash⟩

/-! ## Lists by index -/

/-- Every element of a list with an element set is that element, the padding, or one of the list. -/
theorem mem_lput {α : Type} {l : List α} {i : Nat} {v d x : α} (h : x ∈ lput l i v d) : x = v ∨ x = d ∨ x ∈ l := by
  induction l generalizing i with
  | nil => induction i with
    | zero => exact .inl (List.mem_singleton.1 h)
    | succ n ih => rcases List.mem_cons.1 h with h | h; exacts [.inr (.inl h), ih h]
  | cons y r ih => cases i with
    | zero => exact (List.mem_cons.1 h).imp id fun h => .inr (List.mem_cons_of_mem _ h)
    | succ n =>
      rcases List.mem_cons.1 h with h | h
      · exact .inr (.inr (h ▸ List.mem_cons_self ..))
      · exact (ih h).imp id (Or.imp id (List.mem_cons_of_mem _))

theorem lget_mem_or {α : Type} (l : List α) (i : Nat) (d : α) : lget l i d = d ∨ lget l i d ∈ l := by
  induction l generalizing i with
  | nil => exact .inl (lget_nil ..)
  | cons x r ih => cases i with
    | zero => exact .inr (List.mem_cons_self ..)
    | succ n => exact (ih n).imp id (List.mem_cons_of_mem _)

/-- What holds of the padding holds of all of a list when it holds of what each index reads. -/
theorem forall_mem_iff_lget {α : Type} {P : α → Prop} {d : α} (hd : P d) (l : List α) : (∀ x ∈ l, P x) ↔ ∀ i, P (lget l i d) := by
  refine ⟨fun h i => (lget_mem_or l i d).elim (fun e => e.symm ▸ hd) (h _), fun h x hx => ?_⟩
  obtain ⟨i, hi, rfl⟩ := List.getElem_of_mem hx
  simpa [lget_eq_getD, hi] using h i

/-- A property of a list's elements kept where one of them is changed. -/
theorem forall_mem_lmod {α : Type} {P : α → Prop} {d : α} (hd : P d) {l : List α} (h : ∀ x ∈ l, P x) {i : Nat} {f : α → α}
    (hf : ∀ x, P x → P (f x)) :
    ∀ x ∈ lmod l i d f, P x := by
  intro x hx
  rcases mem_lput hx with rfl | rfl | hx
  exacts [hf _ ((forall_mem_iff_lget hd l).1 h i), hd, h _ hx]

/-! ## Cores changed -/

theorem coreReset_memOk : Core.reset.memOk := ⟨rfl, rfl⟩
theorem memOk_reset : State.reset.memOk :=
  ⟨fun _ hc => (List.eq_of_mem_replicate hc).symm ▸ coreReset_memOk, fun _ hv => absurd hv List.not_mem_nil,
    ⟨fun _ hx => (List.eq_of_mem_replicate hx).symm ▸ wf_nil, wf_nil, wf_nil, wf_nil⟩, wf_nil, wf_nil⟩

theorem memOk_core {s : State} (h : s.memOk) (k : Nat) : (s.core k).memOk := (forall_mem_iff_lget coreReset_memOk s.cores).1 h.cores k
@[simp] theorem coreMem_ite (p : Prop) [Decidable p] (a b : Core) : (if p then a else b).mem = if p then a.mem else b.mem := by split <;> rfl

/-- A core changed so that its memories are as canonical as they were. -/
@[simp] theorem coresOk_modCore (s : State) (k : Nat) {f : Core → Core} (hf : ∀ c, (f c).memOk ↔ c.memOk) :
    CoresOk (s.modCore k f).cores ↔ CoresOk s.cores := by
  unfold CoresOk
  rw [forall_mem_iff_lget coreReset_memOk, forall_mem_iff_lget coreReset_memOk]
  refine forall_congr' fun j => ?_
  by_cases hj : j = k
  · subst hj; exact (iff_of_eq (congrArg Core.memOk (State.core_modCore s j f))).trans (hf _)
  · exact iff_of_eq (congrArg Core.memOk (State.core_modCore_other s j k f hj))

/-- An update of cores alone is judged by them. -/
theorem memOk_of_coresOk {s t : State} (ht : t = { s with cores := t.cores, gangs := t.gangs, nextId := t.nextId })
    (hc : CoresOk t.cores ↔ CoresOk s.cores) :
    t.memOk ↔ s.memOk := by
  rw [ht, memOk_mk, hc, memOk_parts]

@[simp] theorem memOk_modCore (s : State) (k : Nat) {f : Core → Core} (hf : ∀ c, (f c).memOk ↔ c.memOk) : (s.modCore k f).memOk ↔ s.memOk :=
  memOk_of_coresOk rfl (coresOk_modCore s k hf)

/-- A core changed so that its memories stay canonical. -/
theorem memOk_modCore_of {s : State} (h : s.memOk) (k : Nat) {f : Core → Core} (hf : ∀ c, c.memOk → (f c).memOk) : (s.modCore k f).memOk := by
  refine ⟨(forall_mem_iff_lget coreReset_memOk _).2 fun j => ?_, h.saves, h.mem, h.sram, h.flash⟩
  by_cases hj : j = k
  · subst hj; exact (iff_of_eq (congrArg Core.memOk (State.core_modCore s j f))).2 (hf _ (memOk_core h j))
  · exact (iff_of_eq (congrArg Core.memOk (State.core_modCore_other s j k f hj))).2 (memOk_core h j)

@[simp] theorem coresOk_modMe (s : State) {f : Core → Core} (hf : ∀ c, (f c).memOk ↔ c.memOk) : CoresOk (s.modMe f).cores ↔ CoresOk s.cores :=
  coresOk_modCore s _ hf

@[simp] theorem memOk_modMe (s : State) {f : Core → Core} (hf : ∀ c, (f c).memOk ↔ c.memOk) : (s.modMe f).memOk ↔ s.memOk :=
  memOk_modCore s _ hf

/-- Steps of a fold each of which leaves the canonical form as it was. -/
@[simp] theorem memOk_foldl {α : Type} {f : State → α → State} (hf : ∀ s a, (f s a).memOk ↔ s.memOk) (l : List α) (s : State) :
    (l.foldl f s).memOk ↔ s.memOk := by
  induction l generalizing s with
  | nil => rfl
  | cons a r ih => exact (ih _).trans (hf s a)

/-- Steps of a fold each of which keeps the canonical form. -/
theorem memOk_foldl_of {α : Type} {f : State → α → State} (hf : ∀ s a, s.memOk → (f s a).memOk) (l : List α) {s : State} (h : s.memOk) :
    (l.foldl f s).memOk := by
  induction l generalizing s with
  | nil => exact h
  | cons a r ih => exact ih (hf s a h)

theorem lget_sp2_wf {s : State} (h : s.memOk) (u : Nat) : Memory.wf (lget s.mem.sp2 u []) = true :=
  (forall_mem_iff_lget (P := fun x => Memory.wf x = true) wf_nil _).1 h.mem.1 u

/-- Other fields replaced beside the memories outside the cores. -/
theorem memOk_withMem {s : State} (h : s.memOk) {m : Mem} (hm : m.memOk) : ({ s with mem := m } : State).memOk :=
  ⟨h.cores, h.saves, hm, h.sram, h.flash⟩

theorem memOk_ite {p : Prop} [Decidable p] {a b : State} (ha : a.memOk) (hb : b.memOk) : (if p then a else b).memOk := by split <;> assumption

@[simp] theorem memOk_ite_iff (p : Prop) [Decidable p] (a b : State) : (if p then a else b).memOk ↔ if p then a.memOk else b.memOk := by
  split <;> rfl

end Sys2Proof.Machine

namespace Sys2Proof.Machine

/-! ## What leaves a core's memories alone -/

theorem mem_ite {p : Prop} [Decidable p] {a b c : Core} (ha : a.mem = c.mem) (hb : b.mem = c.mem) : (if p then a else b).mem = c.mem := by
  split <;> assumption

@[simp] theorem mem_enterHandler (c : Core) (f : FaultRec) (t : Nat) : (c.enterHandler f t).mem = c.mem := rfl
@[simp] theorem mem_perfAdd (c : Core) (k n : Nat) : (c.perfAdd k n).mem = c.mem := rfl
@[simp] theorem mem_skipWord (c : Core) : c.skipWord.mem = c.mem := by unfold Core.skipWord; split_ifs <;> rfl

@[simp] theorem mem_sysWrite (c : Core) (n : Nat) (v : Word) : (c.sysWrite n v).mem = c.mem := by
  unfold Core.sysWrite
  repeat' apply mem_ite
  all_goals rfl

@[simp] theorem mem_prwWrite (c : Core) (n : Nat) (v : Word) : (c.prwWrite n v).mem = c.mem := by unfold Core.prwWrite; split_ifs <;> simp
@[simp] theorem mem_restore (c : Core) (sn : Snapshot) (gr : Nat) : (c.restore sn gr).mem = c.mem := rfl
@[simp] theorem mem_snapshot (c : Core) (pt : Option Nat) : (c.snapshot pt).mem = c.mem := rfl

@[simp] theorem mem_noteLanded (c : Core) (p : Pend) (lvl : Nat) (ps : List Piece) : (c.noteLanded p lvl ps).mem = c.mem := by
  unfold Core.noteLanded; split <;> rfl

@[simp] theorem mem_landReg (c : Core) (e : Eff) : (c.landReg e).mem = c.mem := by
  unfold Core.landReg
  repeat' split
  all_goals rfl

@[simp] theorem mem_setDrain (c : Core) (d : Drain) : (c.setDrain d).mem = c.mem := rfl
@[simp] theorem mem_setTile (c : Core) (t : Nat) (x : Tile) : (c.setTile t x).mem = c.mem := rfl
@[simp] theorem mem_setBank (c : Core) (b : Nat) (x : Bank) : (c.setBank b x).mem = c.mem := rfl
@[simp] theorem mem_goOn (c : Core) (g d id : Nat) : (c.goOn g d id).mem = c.mem := rfl
@[simp] theorem mem_goOnAt (c : Core) (g d : Nat) : (c.goOnAt g d).mem = c.mem := rfl

@[simp] theorem mem_taintBy (c : Core) (es : List ChEntry) : (c.taintBy es).mem = c.mem := by
  unfold Core.taintBy
  repeat' split
  all_goals rfl

@[simp] theorem mem_setPorts (c : Core) (lane : Bool) (p : Ports) : (c.setPorts lane p).mem = c.mem := by unfold Core.setPorts; split <;> rfl
@[simp] theorem mem_effLater (c : Core) (id d : Nat) : (c.effLater id d).mem = c.mem := rfl
@[simp] theorem mem_moveEff (c : Core) (lane : Bool) (now id d : Nat) : (c.moveEff lane now id d).mem = c.mem := by simp [Core.moveEff]
@[simp] theorem mem_pauseDrain (c : Core) (d : Drain) : (c.pauseDrain d).mem = c.mem := rfl

@[simp] theorem mem_setDread (c : Core) (lane : Bool) (r : Option DataRead) : (c.setDread lane r).mem = c.mem := by
  unfold Core.setDread; split <;> rfl

@[simp] theorem mem_pass (c : Core) (stall : Bool) : (c.pass stall).mem = c.mem := by
  unfold Core.pass
  repeat' split
  all_goals rfl

@[simp] theorem sp1_leave (c : Core) : c.leave.mem.sp1 = c.mem.sp1 := rfl
@[simp] theorem score_leave (c : Core) : c.leave.mem.score = c.mem.score := rfl
@[simp] theorem sp1_leaveSaved (c : Core) : c.leaveSaved.mem.sp1 = c.mem.sp1 := rfl
@[simp] theorem score_leaveSaved (c : Core) : c.leaveSaved.mem.score = c.mem.score := rfl

theorem sp1_hold {c d : Core} {hs : List Held} (h : c.hold hs = some d) : d.mem.sp1 = c.mem.sp1 := by
  unfold Core.hold at h; split at h <;> cases h; rfl

theorem score_hold {c d : Core} {hs : List Held} (h : c.hold hs = some d) : d.mem.score = c.mem.score := by
  unfold Core.hold at h; split at h <;> cases h; rfl

end Sys2Proof.Machine

namespace Sys2Proof.Machine

/-! ## The functions of the state, in the order in which they are defined -/

/-! ### Sequencers, faults and holds -/

@[simp] theorem memOk_at_ (s : State) (k : Nat) (shadow : Bool) (u : Eng) (arg : Nat) : (s.at_ k shadow u arg).memOk ↔ s.memOk := by simp [State.at_]
@[simp] theorem memOk_escalate (s : State) (k : Nat) : (s.escalate k).memOk ↔ s.memOk := by simp [State.escalate]
@[simp] theorem memOk_modGang (s : State) (b : Nat) (f : Gang → Gang) : (s.modGang b f).memOk ↔ s.memOk := by simp [State.modGang]

@[simp] theorem memOk_startHold (s : State) (k cause : Nat) (await : Option Await) : (s.startHold k cause await).memOk ↔ s.memOk := by
  unfold State.startHold
  dsimp only
  repeat' split
  all_goals simp

@[simp] theorem memOk_faultMain (s : State) (k : Nat) (f : FaultRec) : (s.faultMain k f).memOk ↔ s.memOk := by simp [State.faultMain]
@[simp] theorem memOk_takeFault (s : State) (f : FaultRec) : (s.takeFault f).memOk ↔ s.memOk := by simp [State.takeFault]
@[simp] theorem memOk_illegal (s : State) (i : Instr) : (s.illegal i).memOk ↔ s.memOk := by simp [State.illegal]
@[simp] theorem memOk_count0 (s : State) : (s.count0).memOk ↔ s.memOk := by simp [State.count0]
@[simp] theorem memOk_modCtx (s : State) (f : SeqCtx → SeqCtx) : (s.modCtx f).memOk ↔ s.memOk := by simp [State.modCtx]
@[simp] theorem memOk_next1 (s : State) : (s.next1).memOk ↔ s.memOk := by simp [State.next1]

@[simp] theorem memOk_addPend (s : State) (unit land : Nat) (eff : Eff) (goesOn : Bool) (need : Option Nat) (phased : Bool) :
    (s.addPend unit land eff goesOn need phased).memOk ↔ s.memOk := by simp [State.addPend]

@[simp] theorem memOk_addLat (s : State) (unit lat : Nat) (eff : Eff) : (s.addLat unit lat eff).memOk ↔ s.memOk := by simp [State.addLat]
@[simp] theorem memOk_wrReg (s : State) (d : BitVec 5) (lat : Nat) (v : Word) : (s.wrReg d lat v).memOk ↔ s.memOk := by simp [State.wrReg]
@[simp] theorem memOk_retryNext (s : State) : (s.retryNext).memOk ↔ s.memOk := by simp [State.retryNext]
@[simp] theorem memOk_chkIf (s : State) (unit : Nat) (b : Bool) : (s.chkIf unit b).memOk ↔ s.memOk := by simp [State.chkIf]

@[simp] theorem memOk_newOp (s : State) (k unit : Nat) (kind : GKind) (names : List (Nat × Nat × Nat)) (cls bud : Nat) :
    (s.newOp k unit kind names cls bud).2.memOk ↔ s.memOk := by simp [State.newOp]

@[simp] theorem memOk_branchTo (s : State) (dest : BitVec 18) (mask : Bool) : (s.branchTo dest mask).memOk ↔ s.memOk := by simp [State.branchTo]

@[simp] theorem memOk_transfer (taken : Bool) (t : Int) (link : Option (BitVec 5)) (mask : Bool) (s : State) :
    (transfer taken t link mask s).memOk ↔ s.memOk := by
  unfold transfer
  dsimp only
  repeat' split
  all_goals simp

@[simp] theorem memOk_startUnpin (s : State) (k d : Nat) : (s.startUnpin k d).memOk ↔ s.memOk := by simp [State.startUnpin]
@[simp] theorem memOk_dunbind (s : State) (n : Nat) : (s.dunbind n).memOk ↔ s.memOk := by simp [State.dunbind]
@[simp] theorem memOk_waitOn (s : State) (w : Wait) : (s.waitOn w).memOk ↔ s.memOk := by simp [State.waitOn]
@[simp] theorem memOk_endSource (s : State) (k : Nat) : (s.endSource k).memOk ↔ s.memOk := by unfold State.endSource; split <;> simp

@[simp] theorem memOk_finishHandler (s : State) (k form : Nat) : (s.finishHandler k form).memOk ↔ s.memOk := by
  unfold State.finishHandler
  dsimp only
  split
  · split <;> simp
  · simp

@[simp] theorem memOk_postFault (s : State) (k : Nat) : (s.postFault k).memOk ↔ s.memOk := by
  unfold State.postFault
  dsimp only
  repeat' split
  all_goals simp

@[simp] theorem memOk_takeFree (s : State) : (s.takeFree).2.memOk ↔ s.memOk := by simp [State.takeFree]
@[simp] theorem memOk_fence (s : State) (k unit : Nat) (ids : List Nat) : (s.fence k unit ids).memOk ↔ s.memOk := by simp [State.fence]
@[simp] theorem memOk_qfence (s : State) (k unit : Nat) (mask : List Nat) : (s.qfence k unit mask).memOk ↔ s.memOk := by simp [State.qfence]

/-! ### Queues and channels -/

@[simp] theorem memOk_modEng (s : State) (u : Eng) (f : Engine → Engine) : (s.modEng u f).memOk ↔ s.memOk := by simp [State.modEng]
@[simp] theorem memOk_shadowWait (s : State) (unit : Nat) : (s.shadowWait unit).memOk ↔ s.memOk := by simp [State.shadowWait]

@[simp] theorem memOk_schedMiss (s : State) (unit info : Nat) (await : Await) : (s.schedMiss unit info await).memOk ↔ s.memOk := by
  simp [State.schedMiss]

@[simp] theorem memOk_modChan (s : State) (k c : Nat) (f : Chan → Chan) : (s.modChan k c f).memOk ↔ s.memOk := by simp [State.modChan]

@[simp] theorem memOk_pushLocal (s : State) (unit c land : Nat) (v : List Lane) (drain : Option (Nat × Nat)) :
    (s.pushLocal unit c land v drain).memOk ↔ s.memOk := by simp [State.pushLocal]

/-! ### Register writes -/

@[simp] theorem memOk_writeAper (s : State) (n k : Nat) (v : Word) : (s.writeAper n k v).memOk ↔ s.memOk := by simp [State.writeAper]

@[simp] theorem memOk_slotWrite (s : State) (cl n k : Nat) (v : Word) (pilot : Bool) : (s.slotWrite cl n k v pilot).memOk ↔ s.memOk := by
  simp [State.slotWrite]

@[simp] theorem memOk_writeCoreReg (s : State) (who : Party) (k n : Nat) (v : Word) : (s.writeCoreReg who k n v).memOk ↔ s.memOk := by
  simp [State.writeCoreReg]

@[simp] theorem memOk_modQueue (s : State) (n : Nat) (f : Queue → Queue) : (s.modQueue n f).memOk ↔ s.memOk := by simp [State.modQueue]
@[simp] theorem memOk_putSp3 (s : State) (ps whole : List Piece) : (s.putSp3 ps whole).memOk ↔ s.memOk := by simp [State.putSp3]

/-! ### Homes and records -/

/-- ARMED is two bytes that the home writes. -/
@[simp] theorem memOk_noteArmed {s : State} (h : s.memOk) (t x : Nat) : (s.noteArmed t x).memOk := by
  obtain ⟨h2, h3, hh, hp⟩ := h.mem
  unfold State.noteArmed
  dsimp only
  split
  · exact h
  split
  · simp [h]
  split
  · exact memOk_withMem h ⟨h2, h3, mwriteP_wf hh, hp⟩
  · exact h

@[simp] theorem memOk_endWaitv {s : State} (h : s.memOk) (n : Nat) : (s.endWaitv n).memOk := by
  unfold State.endWaitv
  split
  · exact memOk_noteArmed (by simp [h]) ..
  · exact h

@[simp] theorem memOk_modSched (s : State) (f : Sched → Sched) : (s.modSched f).memOk ↔ s.memOk := by simp [State.modSched]

/-- A write at a home writes pieces. -/
@[simp] theorem memOk_gWrite {s : State} (h : s.memOk) (t : Nat) (ps : List Piece) : (s.gWrite t ps).memOk := by
  obtain ⟨h2, h3, hh, hp⟩ := h.mem
  unfold State.gWrite
  dsimp only
  split
  · exact memOk_withMem h ⟨h2, h3, foldl_mwriteP_wf hh, hp⟩
  split
  · simp [h]
  · exact memOk_withMem h ⟨h2, h3, hh, foldl_mwriteP_wf hp⟩

@[simp] theorem memOk_wakeWaits {s : State} (h : s.memOk) (t a n : Nat) : (s.wakeWaits t a n).memOk := by
  unfold State.wakeWaits
  dsimp only
  split
  · exact h
  · exact memOk_foldl_of (fun _ _ h => memOk_noteArmed h ..) _ (by simp [h])

@[simp] theorem memOk_writeHome {s : State} (h : s.memOk) (ps : List (Nat × Piece)) : (s.writeHome ps).memOk := by
  refine memOk_foldl_of (fun _ _ h => memOk_wakeWaits h ..) _ (memOk_foldl_of (fun s t h => ?_) _ h)
  split
  · exact h
  · exact memOk_gWrite h ..

@[simp] theorem memOk_out (s : State) (o : Out) : (s.out o).memOk ↔ s.memOk := by simp [State.out]
@[simp] theorem memOk_modHart (s : State) (k : Nat) (f : Hart → Hart) : (s.modHart k f).memOk ↔ s.memOk := by simp [State.modHart]
@[simp] theorem memOk_irq (s : State) (external : Bool) (vec : Nat) : (s.irq external vec).memOk ↔ s.memOk := by simp [State.irq]
@[simp] theorem memOk_raiseIrq (s : State) (n : Nat) : (s.raiseIrq n).memOk ↔ s.memOk := by simp [State.raiseIrq]
@[simp] theorem memOk_countIrq (s : State) (n : Nat) (urgent : Bool) : (s.countIrq n urgent).memOk ↔ s.memOk := by simp [State.countIrq]

@[simp] theorem memOk_putRecord {s : State} (h : s.memOk) (n i : Nat) (ph : Bool) (r : Record) : (s.putRecord n i ph r).memOk := by
  unfold State.putRecord
  split
  · exact h
  · simp [memOk_writeHome h]

@[simp] theorem memOk_writeRecordAs {s : State} (h : s.memOk) (n i : Nat) (ph : Bool) (r : Record) : (s.writeRecordAs n i ph r).memOk := by
  unfold State.writeRecordAs
  dsimp only
  exact memOk_foldl_of (fun _ _ h => memOk_putRecord h ..) _ (by simp [memOk_putRecord h])

@[simp] theorem memOk_writeRecord {s : State} (h : s.memOk) (n i : Nat) (r : Record) : (s.writeRecord n i r).memOk := memOk_writeRecordAs h ..
@[simp] theorem memOk_purge {s : State} (h : s.memOk) (n : Nat) (f : Frame) : (s.purge n f).memOk := memOk_writeRecord h ..

@[simp] theorem memOk_queueOff {s : State} (h : s.memOk) (n : Nat) : (s.queueOff n).memOk :=
  memOk_foldl_of (fun _ _ h => memOk_purge h ..) _ (by simp [memOk_endWaitv h])

@[simp] theorem memOk_queueState {s : State} (h : s.memOk) (n v : Nat) (skip : Bool) : (s.queueState n v skip).memOk := by
  unfold State.queueState
  split
  · exact memOk_queueOff h n
  · split <;> simp [h]

@[simp] theorem memOk_writeQueue {s : State} (h : s.memOk) (who : Party) (n k : Nat) (v : Word) : (s.writeQueue who n k v).memOk := by
  unfold State.writeQueue
  split
  · exact h
  dsimp only
  split
  · exact memOk_queueState (by simp [h]) ..
  · split <;> simp [h]

@[simp] theorem memOk_modRank (s : State) (f : RankEngine → RankEngine) : (s.modRank f).memOk ↔ s.memOk := by simp [State.modRank]

/-! ### Outcomes -/

/-- An outcome whose next state, if it has one, is canonical. -/
structure ResMemOk (r : Res) : Prop where
  next : ∀ t, r = .next t → t.memOk

@[simp] theorem resMemOk_next (s : State) : ResMemOk (.next s) ↔ s.memOk := ⟨fun h => h.next s rfl, fun h => ⟨fun _ e => by cases e; exact h⟩⟩
@[simp] theorem resMemOk_ok (s : State) : ResMemOk (ok s) ↔ s.memOk := resMemOk_next s

theorem memOk_resState {s : State} {r : Res} (h : s.memOk) (hr : ResMemOk r) : (resState s r).memOk := by
  unfold resState
  split
  · exact hr.next _ rfl
  · exact h

@[simp] theorem resMemOk_rankctlLoad {s : State} (h : s.memOk) : ResMemOk (execRankctlLoad s) := by
  unfold execRankctlLoad
  dsimp only
  repeat' split
  all_goals simp [h]

@[simp] theorem memOk_writeSched {s : State} (h : s.memOk) (o : Nat) (v : Word) : (s.writeSched o v).memOk := by
  have hload : ∀ u : State, u.memOk → (resState u (execRankctlLoad u)).memOk := fun u hu => memOk_resState hu (resMemOk_rankctlLoad hu)
  simp [State.writeSched, h, hload]

@[simp] theorem memOk_writeGroup (s : State) (g : Nat) (v : Word) : (s.writeGroup g v).memOk ↔ s.memOk := by simp [State.writeGroup]

/-- A trigger acts on the gang of a RUNNING record or does nothing. -/
theorem memOk_triggerOn {s : State} {act : State → Gang → State} (h : s.memOk) (ha : ∀ g, (act s g).memOk) : (triggerOn act s).memOk := by
  unfold triggerOn
  repeat' split
  exacts [h, ha _, h]

@[simp] theorem memOk_trigYieldreq {s : State} (h : s.memOk) : s.trigYieldreq.memOk :=
  memOk_triggerOn h fun g => by split <;> [exact h; split <;> simp [h]]

@[simp] theorem memOk_trigHold {s : State} (h : s.memOk) : s.trigHold.memOk :=
  memOk_triggerOn h fun g => by
    dsimp only
    split
    · simp [h]
    · split
      · simp [h]
      · split <;> simp [h]
    · split <;> simp [h]

@[simp] theorem memOk_trigRelease {s : State} (h : s.memOk) : s.trigRelease.memOk := memOk_triggerOn h fun g => by simp [h]

/-! ### Dispatch and the operations of homes -/

@[simp] theorem memOk_rasSev (s : State) (sev cls : Nat) (core berth : Nat) (code addr : Nat) :
    (s.rasSev sev cls core berth code addr).memOk ↔ s.memOk := by simp [State.rasSev]

@[simp] theorem memOk_ras (s : State) (cls core : Nat) (berth code addr : Nat) : (s.ras cls core berth code addr).memOk ↔ s.memOk := by
  simp [State.ras]

@[simp] theorem memOk_signal (s : State) (bit : Nat) : (s.signal bit).memOk ↔ s.memOk := by simp [State.signal]
@[simp] theorem memOk_modBind (s : State) (b : Nat) (f : Bind → Bind) : (s.modBind b f).memOk ↔ s.memOk := by simp [State.modBind]

@[simp] theorem memOk_endBind (s : State) (berth reason : Nat) (flags end_ : Nat) : (s.endBind berth reason flags end_).memOk ↔ s.memOk := by
  simp [State.endBind]

@[simp] theorem memOk_freeSlotOf (s : State) (b : Bind) : (s.freeSlotOf b).memOk ↔ s.memOk := by simp [State.freeSlotOf]

@[simp] theorem memOk_writeBindRecord {s : State} (h : s.memOk) (b : Bind) (r : Record) : (s.writeBindRecord b r).memOk := by
  unfold State.writeBindRecord
  split
  · exact memOk_writeRecordAs h ..
  · exact memOk_writeHome h ..

@[simp] theorem memOk_showBerth (s : State) (berth : Nat) : (s.showBerth berth).memOk ↔ s.memOk := by simp [State.showBerth]

@[simp] theorem memOk_dropOps {s : State} (h : s.memOk) (drop : GOp → Bool) : (s.dropOps drop).memOk :=
  memOk_foldl_of (fun _ _ h => memOk_noteArmed h ..) _ (by simp [h])

@[simp] theorem memOk_freeGang {s : State} (h : s.memOk) (g : Gang) : (s.freeGang g).memOk := by
  have hleft : (g.members.foldl (fun s k => s.modCore k Core.leave) s).memOk := by simp [h]
  unfold State.freeGang
  simp [memOk_dropOps hleft]

@[simp] theorem memOk_dropOp (s : State) (id : Nat) : (s.dropOp id).memOk ↔ s.memOk := by simp [State.dropOp]
@[simp] theorem memOk_setOp (s : State) (o : GOp) : (s.setOp o).memOk ↔ s.memOk := by simp [State.setOp]

@[simp] theorem memOk_serveSync {s : State} (h : s.memOk) (t x : Nat) : (s.serveSync t x).memOk := by
  unfold State.serveSync
  exact memOk_noteArmed (by split <;> simp [h]) ..

/-- What a home performs: a write, a release and an atomic write pieces; a wait may write ARMED. -/
@[simp] theorem memOk_performOp {s : State} (h : s.memOk) (o : GOp) : (s.performOp o).memOk := by
  unfold State.performOp
  split
  · exact memOk_writeHome (by simp [h]) _
  · simp [h]
  · exact memOk_writeHome (memOk_serveSync (by simp [h]) ..) _
  · split <;> exact memOk_serveSync (by simp [h]) ..
  · next t a op size x cmp rel _ =>
    have hserved : ∀ o, (if rel then (s.setOp o).serveSync t a else s.setOp o).memOk := fun o => by
      split
      · exact memOk_serveSync (by simp [h]) ..
      · simp [h]
    dsimp only
    split
    · exact hserved _
    · exact memOk_writeHome (hserved _) _
  · simp [h]

@[simp] theorem memOk_landSp {s : State} (h : s.memOk) (k lvl land id q : Nat) (deps : List Nat) (ps : List Piece) :
    (s.landSp k lvl land id q deps ps).memOk := by
  unfold State.landSp
  split
  · exact memOk_modCore_of h k fun c hc => ⟨foldl_mwriteP_wf hc.1, hc.2⟩
  · simp only [memOk_mk]; exact ⟨h.cores, h.saves, h.mem, h.sram, h.flash⟩

@[simp] theorem memOk_landIssued {s : State} (h : s.memOk) (k : Nat) : (s.landIssued k).memOk := by
  refine memOk_foldl_of (fun s p h => ?_) _ h
  have hop : (match s.gops.find? fun (o : GOp) => p.need = some o.id && !o.done with | some o => s.performOp o | none => s).memOk := by
    split
    · exact memOk_performOp h _
    · exact h
  dsimp only
  split
  · exact memOk_landSp hop ..
  · exact hop

@[simp] theorem memOk_flushGang {s : State} (h : s.memOk) (g : Gang) : (s.flushGang g).memOk :=
  memOk_foldl_of (fun _ _ h => memOk_performOp h _) _ (memOk_foldl_of (fun _ _ h => memOk_landIssued h _) _ h)

@[simp] theorem memOk_abortGang {s : State} (h : s.memOk) (berth reason : Nat) : (s.abortGang berth reason).memOk := by
  unfold State.abortGang
  split
  · exact h
  · simp [memOk_writeBindRecord (memOk_freeGang (memOk_flushGang h _) _)]

@[simp] theorem memOk_trigAbort {s : State} (h : s.memOk) : s.trigAbort.memOk := memOk_triggerOn h fun _ => memOk_abortGang h ..

@[simp] theorem memOk_writeTriggers {s : State} (h : s.memOk) (v : Word) : (s.writeTriggers v).memOk := by
  have hif : ∀ {u t : State} {b : Bool}, u.memOk → t.memOk → (if b then t else u).memOk := fun hu ht => by split <;> assumption
  have hy := hif (b := v.getLsbD 0) h (memOk_trigYieldreq h)
  have hh := hif (b := v.getLsbD 1) hy (memOk_trigHold hy)
  have hr := hif (b := v.getLsbD 2) hh (memOk_trigRelease hh)
  exact hif hr (memOk_trigAbort hr)

@[simp] theorem memOk_writeBind {s : State} (h : s.memOk) (berth k : Nat) (v : Word) : (s.writeBind berth k v).memOk := by
  have harg : ({ s with cur := { s.cur with arg := berth } } : State).memOk := by simp [h]
  unfold State.writeBind
  dsimp only
  split
  · simp [memOk_writeTriggers harg]
  · repeat' split
    all_goals simp [h]

@[simp] theorem memOk_writeSchedBlock {s : State} (h : s.memOk) (who : Party) (o : Nat) (v : Word) : (s.writeSchedBlock who o v).memOk := by
  simp [State.writeSchedBlock, h]

/-! ### The register space -/

@[simp] theorem memOk_modMbox (s : State) (m : Nat) (f : Mailbox → Mailbox) : (s.modMbox m f).memOk ↔ s.memOk := by simp [State.modMbox]
@[simp] theorem memOk_writeRequest (s : State) (m o : Nat) (v : Word) : (s.writeRequest m o v).memOk ↔ s.memOk := by simp [State.writeRequest]
@[simp] theorem memOk_ring (s : State) (m : Nat) : (s.ring m).memOk ↔ s.memOk := by simp [State.ring]
@[simp] theorem memOk_mboxDone (s : State) (m : Nat) : (s.mboxDone m).memOk ↔ s.memOk := by simp [State.mboxDone]

@[simp] theorem memOk_writeMbox (s : State) (who : Party) (m o : Nat) (v : Word) : (s.writeMbox who m o v).memOk ↔ s.memOk := by
  simp [State.writeMbox]

@[simp] theorem memOk_writeGrant (s : State) (n k : Nat) (v : Word) : (s.writeGrant n k v).memOk ↔ s.memOk := by simp [State.writeGrant]
@[simp] theorem memOk_writePeer (s : State) (n k : Nat) (v : Word) : (s.writePeer n k v).memOk ↔ s.memOk := by simp [State.writePeer]
@[simp] theorem memOk_writeWindow (s : State) (o : Nat) (v : Word) : (s.writeWindow o v).memOk ↔ s.memOk := by simp [State.writeWindow]

@[simp] theorem memOk_dropPost (s : State) (k : Nat) : (s.dropPost k).memOk ↔ s.memOk := by
  have hpost : ∀ p : Pilot, p.admitPost.sram = p.sram := fun p => by
    unfold Pilot.admitPost
    repeat' split
    all_goals rfl
  simp [State.dropPost, hpost]

@[simp] theorem memOk_answerFault (s : State) (k form : Nat) : (s.answerFault k form).memOk ↔ s.memOk := by simp [State.answerFault]
@[simp] theorem memOk_failCore (s : State) (k berth code : Nat) : (s.failCore k berth code).memOk ↔ s.memOk := by simp [State.failCore]

theorem resMemOk_frespRun {s : State} {act : State → Nat → State} (h : s.memOk) (ha : ∀ s k, s.memOk → (act s k).memOk) :
    ResMemOk (frespRun act s) := by
  unfold frespRun
  dsimp only
  split
  · simp [ha _ _ ((memOk_dropPost s _).2 h)]
  · simp [h]

@[simp] theorem resMemOk_frespAbort {s : State} (h : s.memOk) : ResMemOk (execFrespAbort s) :=
  resMemOk_frespRun h fun s k h => by split <;> simp [h]

@[simp] theorem resMemOk_frespResume {s : State} (h : s.memOk) : ResMemOk (execFrespResume s) := resMemOk_frespRun h fun s k h => by simp [h]
@[simp] theorem resMemOk_frespRollback {s : State} (h : s.memOk) : ResMemOk (execFrespRollback s) := resMemOk_frespRun h fun s k h => by simp [h]

@[simp] theorem resMemOk_frespForcedSave {s : State} (h : s.memOk) : ResMemOk (execFrespForcedSave s) := resMemOk_frespRun h fun s k h => by
  dsimp only
  repeat' split
  all_goals simp [h]

@[simp] theorem memOk_writeFresp {s : State} (h : s.memOk) (k a : Nat) : (s.writeFresp k a).memOk := by
  have ht : ({ s with cur := { s.cur with core := k } } : State).memOk := by simp [h]
  have hr : ∀ {r : Res}, ResMemOk r → (resState ({ s with cur := { s.cur with core := k } } : State) r).memOk := memOk_resState ht
  unfold State.writeFresp
  simp only [memOk_mk]
  refine (memOk_parts _).2 ?_
  split
  exacts [hr (resMemOk_frespResume ht), hr (resMemOk_frespRollback ht), hr (resMemOk_frespForcedSave ht), hr (resMemOk_frespAbort ht), ht]

@[simp] theorem memOk_modPcore (s : State) (k : Nat) (f : PilotCore → PilotCore) : (s.modPcore k f).memOk ↔ s.memOk := by simp [State.modPcore]
@[simp] theorem memOk_writeSigset (s : State) (k : Nat) (v : Word) : (s.writeSigset k v).memOk ↔ s.memOk := by simp [State.writeSigset]
@[simp] theorem memOk_modDctx (s : State) (c : Nat) (f : DecCtx → DecCtx) : (s.modDctx c f).memOk ↔ s.memOk := by simp [State.modDctx]
@[simp] theorem memOk_modDec (s : State) (e : Nat) (f : DecEng → DecEng) : (s.modDec e f).memOk ↔ s.memOk := by simp [State.modDec]
@[simp] theorem memOk_decRun (s : State) (e : Nat) (run : Bool) : (s.decRun e run).memOk ↔ s.memOk := by simp [State.decRun]

@[simp] theorem memOk_writeDec (s : State) (o : Nat) (v : Word) : (s.writeDec o v).memOk ↔ s.memOk := by
  unfold State.writeDec
  dsimp only
  repeat' split
  all_goals simp

@[simp] theorem memOk_modPort (s : State) (p : Nat) (f : EthPort → EthPort) : (s.modPort p f).memOk ↔ s.memOk := by simp [State.modPort]
@[simp] theorem memOk_capture (s : State) : (s.capture).memOk ↔ s.memOk := by simp [State.capture]
@[simp] theorem memOk_writePtp (s : State) (o : Nat) (v : Word) : (s.writePtp o v).memOk ↔ s.memOk := by unfold State.writePtp; split <;> simp
@[simp] theorem memOk_writeMsix (s : State) (i : Nat) (v : Word) : (s.writeMsix i v).memOk ↔ s.memOk := by simp [State.writeMsix]

@[simp] theorem memOk_writeReg {s : State} (h : s.memOk) (who : Party) (off : Nat) (v : Word) : (s.writeReg who off v).memOk := by
  simp [State.writeReg, h]

/-! ### Retries, rollbacks and phase points -/

@[simp] theorem memOk_giveCredit (s : State) (k m : Nat) (c' x : Nat) : (s.giveCredit k m c' x).memOk ↔ s.memOk := by simp [State.giveCredit]

@[simp] theorem memOk_giveCredits (s : State) (k c x n : Nat) : (s.giveCredits k c x n).memOk ↔ s.memOk := by
  induction n generalizing s with
  | zero => rfl
  | succ n ih =>
    unfold State.giveCredits
    split
    · simp [ih]
    · rfl

@[simp] theorem memOk_discardIn (s : State) (k c x : Nat) (gone : ChEntry → Bool) : (s.discardIn k c x gone).memOk ↔ s.memOk := by
  simp [State.discardIn]

@[simp] theorem memOk_discardMesh (s : State) (k x : Nat) : (s.discardMesh k x).memOk ↔ s.memOk := by simp [State.discardMesh]
@[simp] theorem memOk_cancelPhase (s : State) (k gp : Nat) : (s.cancelPhase k gp).memOk ↔ s.memOk := by simp [State.cancelPhase]
@[simp] theorem memOk_bumpPins (s : State) (ps : List Pin) (up : Bool) : (s.bumpPins ps up).memOk ↔ s.memOk := by simp [State.bumpPins]
@[simp] theorem memOk_discardLocal (s : State) (k x : Nat) : (s.discardLocal k x).memOk ↔ s.memOk := by simp [State.discardLocal]

@[simp] theorem memOk_retryCore {s : State} (h : s.memOk) (k gr : Nat) (count : Bool) : (s.retryCore k gr count).memOk := by
  unfold State.retryCore
  split
  · exact h
  · simp [memOk_dropOps h]

@[simp] theorem memOk_retryGang {s : State} (h : s.memOk) (g : Gang) (gr : Nat) (count : Bool) : (s.retryGang g gr count).memOk := by
  unfold State.retryGang
  split
  · exact memOk_abortGang h ..
  · have hretried : ((g.members.foldl (fun s k => s.retryCore k gr count)
        (g.members.foldl (fun s k => s.cancelPhase k (gr - 64)) s))).memOk :=
      memOk_foldl_of (fun _ _ h => memOk_retryCore h ..) _ (by simp [h])
    simp [hretried]

@[simp] theorem memOk_rollBack (s : State) (berth : Nat) : (s.rollBack berth).memOk ↔ s.memOk := by simp [State.rollBack]

@[simp] theorem memOk_errorHold (s : State) (k : Nat) : (s.errorHold k).memOk ↔ s.memOk := by
  unfold State.errorHold
  dsimp only
  repeat' split
  all_goals simp

@[simp] theorem memOk_wordFlags (s : State) (k : Nat) (lane : Bool) (end_ : Nat) (f : BitVec 5) : (s.wordFlags k lane end_ f).memOk ↔ s.memOk := by
  simp [State.wordFlags]

@[simp] theorem memOk_drainAnew (s m : State) (k : Nat) (d : Drain) (end_ : Nat) : (s.drainAnew m k d end_).memOk ↔ s.memOk := by
  unfold State.drainAnew
  split <;> simp

@[simp] theorem memOk_formAnew (s m : State) (k : Nat) (lane : Bool) (r : Reading) : (s.formAnew m k lane r).memOk ↔ s.memOk := by
  unfold State.formAnew
  dsimp only
  repeat' split
  all_goals simp

@[simp] theorem memOk_reread (s : State) (k : Nat) (was : Memory) (lane : Bool) : (s.reread k was lane).memOk ↔ s.memOk := by
  unfold State.reread
  dsimp only
  repeat' split
  all_goals simp

/-- A landing writes pieces; what matrix words then read anew touches no memory. -/
@[simp] theorem memOk_landNow {s : State} (h : s.memOk) (k : Nat) (p : Pend) (lvl : Nat) (ps : List Piece) : (s.landNow k p lvl ps).memOk := by
  unfold State.landNow
  dsimp only
  split <;> simp [h]

@[simp] theorem memOk_endPend (s : State) (p : Pend) : (s.endPend p).memOk ↔ s.memOk := by unfold State.endPend; split <;> simp

@[simp] theorem memOk_checkAwait (s : State) (k : Nat) : (s.checkAwait k).memOk ↔ s.memOk := by
  unfold State.checkAwait
  repeat' split
  all_goals simp

@[simp] theorem memOk_allGoOn (s : State) (gg : Gang) (arr : List (Nat × BitVec 16 × Nat × Nat)) (g : Nat) : (s.allGoOn gg arr g).memOk ↔ s.memOk := by
  simp [State.allGoOn]

@[simp] theorem memOk_performHeld (s : State) (k : Nat) : (s.performHeld k).memOk ↔ s.memOk := by
  have hstep : ∀ (l : List Held) (st : State × List Nat), (l.foldl (fun (st : State × List Nat) h =>
      let (id, s) := st.1.newOp k 3 (.write h.ps) h.names h.cls
      ({ s with gops := s.gops.map fun (o : GOp) => if o.id = id then { o with deps := st.2 ++ o.deps } else o }, [id])) st).1.memOk ↔ st.1.memOk := by
    intro l
    induction l with
    | nil => exact fun _ => Iff.rfl
    | cons x r ih => exact fun st => (ih _).trans (by simp)
  exact (hstep ..).trans (by simp)

@[simp] theorem memOk_commitCore (s : State) (k : Nat) (mask : BitVec 16) (noretry : Bool) : (s.commitCore k mask noretry).memOk ↔ s.memOk := by
  simp [State.commitCore]

/-- A phase point changes the members' contexts; only an abort writes memory, with its record. -/
@[simp] theorem memOk_phasePoint {s : State} (h : s.memOk) (gg : Gang) (arr : List (Nat × BitVec 16 × Nat × Nat)) (g : Nat) :
    (s.phasePoint gg arr g).memOk := by
  have hrefused : (s.refused gg).memOk := by simp [State.refused, toldRefuse, h]
  unfold State.phasePoint
  dsimp only
  repeat' split
  · simp [h]
  · exact memOk_retryGang hrefused ..
  all_goals simp [h]

@[simp] theorem memOk_endSaved (s : State) (w : Saving) : (s.endSaved w).memOk ↔ s.memOk := by simp [State.endSaved]
@[simp] theorem memOk_saveOver (s : State) : (s.saveOver).memOk ↔ s.memOk := by unfold State.saveOver; split <;> simp

/-! ### Saves -/

theorem memMemOk_absorb {m : Mem} (h : m.memOk) (w : SpWrite) : (m.absorb w).memOk := by
  obtain ⟨h2, h3, hh, hp⟩ := h
  unfold Mem.absorb
  split
  · exact ⟨forall_mem_lmod (P := fun x => Memory.wf x = true) wf_nil h2 fun x hx => foldl_mwriteP_wf hx, h3, hh, hp⟩
  · exact ⟨h2, foldl_mwriteP_wf h3, hh, hp⟩

theorem memMemOk_foldl_absorb {m : Mem} (h : m.memOk) (l : List SpWrite) : (l.foldl Mem.absorb m).memOk := by
  induction l generalizing m with
  | nil => exact h
  | cons w r ih => exact ih (memMemOk_absorb h w)

@[simp] theorem memOk_settleBerth {s : State} (h : s.memOk) (berth : Nat) : (s.settleBerth berth).memOk :=
  memOk_withMem h (memMemOk_foldl_absorb h.mem _)

/-- HBM with a canonical window put into it. -/
theorem memOk_blit {s : State} (h : s.memOk) (d n : Nat) {w : Memory} (hw : w.wf = true) (poi : List Nat) :
    ({ s with mem := { s.mem with hbm := mblit s.mem.hbm d n w, hbmPoi := poi } } : State).memOk := by
  obtain ⟨h2, h3, hh, hp⟩ := h.mem
  exact memOk_withMem h ⟨h2, h3, mblit_wf hh hw, hp⟩

@[simp] theorem memOk_saveHeader {s : State} (h : s.memOk) (pa kind members seq : Nat) (digest : List Byte) (g : Nat) :
    (s.saveHeader pa kind members seq digest g).memOk := memOk_blit h _ _ (mwriteL_wf wf_nil) _

theorem memOk_saveSp1 {s : State} (h : s.memOk) (pa m : Nat) {c : Core} (hc : Memory.wf c.mem.sp1 = true) (rs : List (Nat × Nat)) :
    (s.saveSp1 pa m c rs).memOk := memOk_foldl_of (fun _ _ h => memOk_blit h _ _ (mwindow_wf hc) _) _ h

@[simp] theorem memOk_saveContexts {s : State} (h : s.memOk) (pa n num : Nat) : (s.saveContexts pa n num).memOk :=
  memOk_foldl_of (fun _ _ h => memOk_blit h _ _ (mwriteL_wf wf_nil) _) _ h

theorem memOk_beginSave {s : State} (h : s.memOk) (g : Gang) {sv : Saved} (hsv : sv.memOk) : (s.beginSave g sv).memOk := by
  have hleft : (g.members.foldl (fun s k => s.modCore k Core.leaveSaved) (s.saveContexts sv.savepa sv.mems.length sv.num)).memOk := by simp [h]
  have hdrop := memOk_dropOps hleft fun o => g.members.contains o.core
  exact ⟨hdrop.cores, List.forall_mem_cons.2 ⟨hsv, hdrop.saves⟩, hdrop.mem, hdrop.sram, hdrop.flash⟩

theorem savedWin_wf {s : State} (h : s.memOk) (i k lo n : Nat) : Memory.wf (s.savedWin i k lo n).bytes = true := mwindow_wf (lget_sp2_wf h _)

theorem foldl_wf {α : Type} {f : Memory → α → Memory} (hf : ∀ m a, m.wf = true → (f m a).wf = true) (l : List α) {m : Memory} (h : m.wf = true) :
    (l.foldl f m).wf = true := by
  induction l generalizing m with
  | nil => exact h
  | cons a r ih => exact ih (hf m a h)

theorem wf_lmod {l : List Memory} (h : ∀ x ∈ l, Memory.wf x = true) (i : Nat) {f : Memory → Memory} (hf : ∀ m, m.wf = true → (f m).wf = true) :
    ∀ x ∈ lmod l i [] f, Memory.wf x = true := forall_mem_lmod (P := fun x => Memory.wf x = true) wf_nil h hf

theorem memOk_foldl_saveSp1 (pa : Nat) (l : List (SavedMember × Nat)) {s : State} (h : s.memOk) (hl : ∀ x ∈ l, Memory.wf x.1.core.mem.sp1 = true) :
    (l.foldl (fun s (m, i) => s.saveSp1 pa i m.core m.sp1s) s).memOk := by
  induction l generalizing s with
  | nil => exact h
  | cons x r ih =>
    rw [List.forall_mem_cons] at hl
    exact ih (memOk_saveSp1 h _ _ hl.1 _) hl.2

theorem coopSaved_wf {c : Core} (h : Memory.wf c.mem.sp1 = true) (live : Word) : Memory.wf (c.coopSaved live).mem.sp1 = true :=
  foldl_wf (fun _ _ hm => mblit_wf hm (mwindow_wf h)) _ wf_nil

/-- A cooperative save keeps windows of SP2, and a canonical image of each member's SP1. -/
theorem memOk_coopSave {s : State} (h : s.memOk) (g : Gang) (lives : List Word) (gc : Nat) : (s.coopSave g lives gc).memOk := by
  have hset := memOk_settleBerth h g.berth
  unfold State.coopSave
  refine memOk_beginSave (memOk_foldl_saveSp1 _ _ (memOk_saveHeader hset ..) fun x hx => ?_) g fun x hx => ?_
  · obtain ⟨y, -, he⟩ := List.mem_map.1 (List.fst_mem_of_mem_zipIdx hx)
    rw [← he]
    exact coopSaved_wf (memOk_core hset _).1 _
  · simp only [List.mem_flatten, List.mem_mapIdx] at hx
    obtain ⟨l, ⟨i, hi, rfl⟩, hx⟩ := hx
    obtain ⟨y, -, rfl⟩ := List.mem_map.1 hx
    exact savedWin_wf hset ..

@[simp] theorem memOk_saveRegions {s : State} (h : s.memOk) (im : Memory) (pa cl : Nat) : (s.saveRegions im pa cl).memOk :=
  memOk_foldl_of (fun s r h => memOk_blit h _ _ (mwindow_wf (by split <;> [exact lget_sp2_wf h _; exact h.mem.2.1])) _) _ h

@[simp] theorem memOk_freeSlots (s : State) (members : List Nat) : (s.freeSlots members).memOk ↔ s.memOk := by simp [State.freeSlots]

/-! ### Ends of gangs, errors and host accesses -/

@[simp] theorem memOk_noteLate (s : State) (g : Gang) (b : Bind) : (s.noteLate g b).memOk ↔ s.memOk := by unfold State.noteLate; split <;> simp

@[simp] theorem memOk_completeGang {s : State} (h : s.memOk) (g : Gang) (gcycles : Nat) : (s.completeGang g gcycles).memOk := by
  simp [State.completeGang, h]

@[simp] theorem memOk_markGranule (s : State) (k lvl addr : Nat) : (s.markGranule k lvl addr).memOk ↔ s.memOk := by simp [State.markGranule]

@[simp] theorem memOk_holdForError (s : State) (k : Nat) : (s.holdForError k).memOk ↔ s.memOk := by
  unfold State.holdForError
  dsimp only
  repeat' split
  all_goals simp

@[simp] theorem memOk_acquire (s : State) (o : GOp) : (s.acquire o).memOk ↔ s.memOk := by unfold State.acquire; split <;> simp
@[simp] theorem memOk_hostFault (s : State) (hart : Nat) (store : Bool) : (s.hostFault hart store).memOk ↔ s.memOk := by simp [State.hostFault]
@[simp] theorem memOk_unreserve (s : State) (who : Nat) : (s.unreserve who).memOk ↔ s.memOk := by simp [State.unreserve]
@[simp] theorem memOk_outData (s : State) (tgt a n : Nat) : (s.outData tgt a n).memOk ↔ s.memOk := by simp [State.outData]
@[simp] theorem memOk_reserve (s : State) (who tgt : Nat) (a n : Nat) : (s.reserve who tgt a n).memOk ↔ s.memOk := by simp [State.reserve]

/-! ### Engine words -/

@[simp] theorem memOk_illegalWord (s : State) (u : Eng) (i : Instr) : (s.illegalWord u i).memOk ↔ s.memOk := by simp [State.illegalWord]
@[simp] theorem memOk_engMiss (s : State) (u : Eng) (info : Nat) (a : Await) : (s.engMiss u info a).memOk ↔ s.memOk := by simp [State.engMiss]

@[simp] theorem memOk_pushMesh (s : State) (c e : Nat) (v : List Lane) : (s.pushMesh c e v).memOk ↔ s.memOk := by
  unfold State.pushMesh
  dsimp only
  repeat' split
  all_goals simp

@[simp] theorem memOk_push (s : State) (unit c : Nat) (lat e : Nat) (v : List Lane) : (s.push unit c lat e v).memOk ↔ s.memOk := by simp [State.push]

@[simp] theorem memOk_vecOut (s : State) (dst : Option (Bool × Nat)) (lat : Nat) (o : VOut) : (s.vecOut dst lat o).memOk ↔ s.memOk := by
  unfold State.vecOut
  split <;> simp

@[simp] theorem memOk_popChan (s : State) (c n : Nat) : (s.popChan c n).memOk ↔ s.memOk := by simp [State.popChan]
@[simp] theorem memOk_engIssue (s : State) (u : Eng) (reps occ : Nat) : (s.engIssue u reps occ).memOk ↔ s.memOk := by simp [State.engIssue]

theorem memOk_vecGo {s : State} {i : Instr} {reps occ lat : Nat} {mesh : Bool} {vs : List VSrc} {dst : Option (Bool × Nat)}
    {out : List (List Lane) → VOut} (h : s.memOk) (ha : ∀ x s, s.memOk → ((out x).also s).memOk) : (s.vecGo i reps occ lat mesh vs dst out).memOk := by
  unfold State.vecGo
  refine memOk_ite (by simp [h]) ?_
  split
  · simp [h]
  split
  · simp [h]
  dsimp only
  split
  · simp [h]
  · exact (memOk_engIssue ..).2 (ha _ _ (by simp [h]))

@[simp] theorem memOk_keepLatch (s : State) (u : Eng) (ds : List Desc) : (s.keepLatch u ds).memOk ↔ s.memOk := by simp [State.keepLatch]

@[simp] theorem memOk_delayPort (s : State) (k : Nat) (lane : Bool) (p : DPort) (d : Nat) : (s.delayPort k lane p d).memOk ↔ s.memOk := by
  simp [State.delayPort]

@[simp] theorem memOk_vecPort (s : State) (cs : List Nat) : (s.vecPort cs).memOk ↔ s.memOk := by simp [State.vecPort]
@[simp] theorem memOk_touchBanks (s : State) (cs : List Nat) (gain : Nat) : (s.touchBanks cs gain).memOk ↔ s.memOk := by simp [State.touchBanks]
@[simp] theorem memOk_noteRead (s : State) (d : Desc) : (s.noteRead d).memOk ↔ s.memOk := by unfold State.noteRead; split <;> simp
@[simp] theorem memOk_noteShadow (s : State) (n : Nat) : (s.noteShadow n).memOk ↔ s.memOk := by simp [State.noteShadow]

@[simp] theorem memOk_startReading (s : State) (h : HistEntry) (tile bank occ : Nat) (before : Tile) :
    (s.startReading h tile bank occ before).memOk ↔ s.memOk := by simp [State.startReading]

@[simp] theorem memOk_mtxIssue (s : State) (reps occ : Nat) (fl : BitVec 5) : (s.mtxIssue reps occ fl).memOk ↔ s.memOk := by simp [State.mtxIssue]
@[simp] theorem memOk_newId (s : State) : (s.newId).2.memOk ↔ s.memOk := by simp [State.newId]
@[simp] theorem memOk_drainOut (s : State) (d : Desc) (rows : List (List Nat)) : (s.drainOut d rows).memOk ↔ s.memOk := by simp [State.drainOut]
@[simp] theorem memOk_verdict (s : State) (d : Drain) : (s.verdict d).memOk ↔ s.memOk := by simp [State.verdict]

@[simp] theorem memOk_redrain {s : State} (h : s.memOk) (k : Nat) (d : Drain) (t : Tile) (es : List (Nat × Nat)) (all : Bool) :
    (s.redrain k d t es all).memOk := by unfold State.redrain; split <;> simp [h]

@[simp] theorem memOk_fixVerdict (s : State) (rows cols : List Nat) (mretry : Bool) : (s.fixVerdict rows cols mretry).memOk ↔ s.memOk := by
  simp [State.fixVerdict]

@[simp] theorem memOk_mretryEnd {s : State} (h : s.memOk) (tile : Nat) : (s.mretryEnd tile).memOk := by
  unfold State.mretryEnd
  dsimp only
  repeat' split
  all_goals simp [h]

@[simp] theorem memOk_locfixEnd {s : State} (h : s.memOk) (tile : Nat) : (s.locfixEnd tile).memOk := by
  unfold State.locfixEnd
  dsimp only
  repeat' split
  all_goals simp [h]

@[simp] theorem memOk_openRead (s : State) : (s.openRead).memOk ↔ s.memOk := by simp [State.openRead]

theorem memOk_unless {s : State} {fs : List (Option FaultRec)} {body : State → State} (h : s.memOk) (hb : (body s).memOk) :
    (s.unless fs body).memOk := by
  unfold State.unless
  split
  · simp [h]
  · exact hb

theorem memOk_afterReads {s : State} {rs : List (Nat × Desc)} {body : State → State} (h : s.memOk) (hb : ∀ s, s.memOk → (body s).memOk) :
    (s.afterReads rs body).memOk := by
  unfold State.afterReads
  split
  · simp [h]
  · exact hb _ (by simp [h])

@[simp] theorem memOk_readUntil (s : State) (rd once into : List Desc) (occ : Nat) : (s.readUntil rd once into occ).memOk ↔ s.memOk := by
  simp [State.readUntil]

@[simp] theorem memOk_dataPort (s : State) (k : Nat) (lane : Bool) (p : DPort) : (s.dataPort k lane p).memOk ↔ s.memOk := by simp [State.dataPort]

@[simp] theorem memOk_writePort (s : State) (k : Nat) (lane : Bool) (id : Nat) (own : Bool) (cs : List Nat) :
    (s.writePort k lane id own cs).memOk ↔ s.memOk := by unfold State.writePort; split <;> simp

@[simp] theorem memOk_readPort (s : State) (x : Nat) (src : List Nat) (also : List (Nat × Nat)) : (s.readPort x src also).memOk ↔ s.memOk := by
  simp [State.readPort]

@[simp] theorem memOk_portAll (s : State) (x : Nat) (src : List Nat) (ws : List (Nat × List Nat)) (also : List (Nat × Nat)) :
    (s.portAll x src ws also).memOk ↔ s.memOk := by simp [State.portAll]

@[simp] theorem memOk_dataOut (s : State) (reps occ : Nat) (how : DReads) (src : List Nat) (ws : List DWrite) (also : List (Nat × Nat)) :
    (s.dataOut reps occ how src ws also).memOk ↔ s.memOk := by simp [State.dataOut]

@[simp] theorem memOk_popEntry (s : State) (w : DX) : (s.popEntry w).memOk ↔ s.memOk := by simp [State.popEntry]

@[simp] theorem memOk_readOp (s : State) (rs : List (Nat × Nat × Nat)) (cls bud : Nat) : (s.readOp rs cls bud).2.memOk ↔ s.memOk := by
  unfold State.readOp
  split <;> simp

@[simp] theorem memOk_storeNow (s : State) (cls : Nat) (ps : List (Nat × Piece)) (names : List (Nat × Nat × Nat)) :
    (s.storeNow cls ps names).memOk ↔ s.memOk := by simp [State.storeNow]

@[simp] theorem memOk_countOob (s : State) (n : Nat) : (s.countOob n).memOk ↔ s.memOk := by simp [State.countOob]

@[simp] theorem memOk_noteIndices (s : State) (w : DX) (t x : Desc) (xs : List Nat) (k : Nat) : (s.noteIndices w t x xs k).memOk ↔ s.memOk := by
  simp [State.noteIndices]

@[simp] theorem memOk_mcastCopy (s : State) (r e : Nat) (d : Desc) (es : List (Nat × Nat × Nat × Bool)) : (s.mcastCopy r e d es).memOk ↔ s.memOk := by
  simp [State.mcastCopy]

@[simp] theorem memOk_startSacq (s : State) (id : Nat) : (s.startSacq id).memOk ↔ s.memOk := by simp [State.startSacq]

@[simp] theorem memOk_startBuild (s : State) (w : DX) (o b dd : Desc) (rs : List (Nat × Nat × Nat)) (va : Nat) (slot : List Word) :
    (s.startBuild w o b dd rs va slot).memOk ↔ s.memOk := by simp [State.startBuild]

/-! ### Builders, queues and packets -/

@[simp] theorem memOk_dropBuild (s : State) (b : Build) : (s.dropBuild b).memOk ↔ s.memOk := by simp [State.dropBuild]
@[simp] theorem memOk_modBuilder (s : State) (cl : Nat) (f : Builder → Builder) : (s.modBuilder cl f).memOk ↔ s.memOk := by simp [State.modBuilder]

@[simp] theorem memOk_refuseFrame {s : State} (h : s.memOk) (f : Frame) (reason : Nat) : (s.refuseFrame f reason).memOk := by
  simp [State.refuseFrame, h]

@[simp] theorem memOk_takePopped {s : State} (h : s.memOk) (e : PifoEntry) : (s.takePopped e).memOk := by
  unfold State.takePopped
  dsimp only
  repeat' split
  all_goals simp [h]

@[simp] theorem memOk_xquayNext (s : State) (rd : BitVec 5) (v : Word) : (s.xquayNext rd v).memOk ↔ s.memOk := by simp [State.xquayNext]

@[simp] theorem memOk_putSram {s : State} (h : s.memOk) (a : Nat) (bs : List Byte) : (s.putSram a bs).memOk :=
  ⟨h.cores, h.saves, h.mem, mwriteL_wf h.sram, h.flash⟩

@[simp] theorem memOk_endQwait (s : State) (k : Nat) (rd : BitVec 5) (v : Word) : (s.endQwait k rd v).memOk ↔ s.memOk := by simp [State.endQwait]
@[simp] theorem memOk_fetched (s : State) (n : Nat) : (s.fetched n).memOk ↔ s.memOk := by simp [State.fetched]

@[simp] theorem memOk_parkQueue (s : State) (n code : Nat) (level addr : Nat) : (s.parkQueue n code level addr).memOk ↔ s.memOk := by
  simp [State.parkQueue]

@[simp] theorem memOk_takeMalformed {s : State} (h : s.memOk) (n : Nat) (bs : List Byte) (at_ : Nat × Nat) : (s.takeMalformed n bs at_).memOk := by
  simp [State.takeMalformed, h]

@[simp] theorem memOk_voidPromise (s : State) : (s.voidPromise).memOk ↔ s.memOk := by simp [State.voidPromise]

@[simp] theorem memOk_takeFrame (s : State) (n : Nat) (bs : List Byte) (at_ : Nat × Nat) : (s.takeFrame n bs at_).memOk ↔ s.memOk := by
  unfold State.takeFrame
  dsimp only
  repeat' split
  all_goals simp

@[simp] theorem memOk_takeIndirect (s : State) (n : Nat) (bs : List Byte) : (s.takeIndirect n bs).memOk ↔ s.memOk := by simp [State.takeIndirect]

@[simp] theorem memOk_takeWaitv {s : State} (h : s.memOk) (n : Nat) (bs : List Byte) (at_ : Nat × Nat) : (s.takeWaitv n bs at_).memOk := by
  unfold State.takeWaitv
  dsimp only
  repeat' split
  all_goals simp [h]

@[simp] theorem memOk_takeMark {s : State} (h : s.memOk) (n : Nat) (bs : List Byte) (at_ : Nat × Nat) : (s.takeMark n bs at_).memOk := by
  simp [State.takeMark, h]

@[simp] theorem memOk_fetchQueue {s : State} (h : s.memOk) (n : Nat) : (s.fetchQueue n).memOk := by
  unfold State.fetchQueue
  dsimp only
  repeat' split
  all_goals simp [h]

@[simp] theorem memOk_refuseBind {s : State} (h : s.memOk) (berth reason : Nat) : (s.refuseBind berth reason).memOk := by simp [State.refuseBind, h]

/-! ### Gangs restored and launched -/

theorem memOk_clearSp2 {s : State} (h : s.memOk) (cls : List Nat) : (s.clearSp2 cls).memOk := by
  obtain ⟨h2, h3, hh, hp⟩ := h.mem
  refine memOk_withMem h ⟨fun x hx => ?_, h3, hh, hp⟩
  obtain ⟨i, hi, rfl⟩ := List.mem_mapIdx.1 hx
  split
  · exact wf_nil
  · exact h2 _ (List.getElem_mem hi)

/-- Windows of canonical bytes put back into SP2 leave it canonical. -/
theorem wf_foldl_windows (cl : SavedWin → Nat) (ws : List SavedWin) {l : List Memory} (hw : ∀ w ∈ ws, Memory.wf w.bytes = true)
    (hl : ∀ x ∈ l, Memory.wf x = true) :
    ∀ x ∈ ws.foldl (fun l w => lmod l (cl w) [] fun x => mblit x w.start w.len w.bytes) l, Memory.wf x = true := by
  induction ws generalizing l with
  | nil => exact hl
  | cons w r ih =>
    rw [List.forall_mem_cons] at hw
    exact ih hw.2 (wf_lmod hl _ fun m hm => mblit_wf hm hw.1)

@[simp] theorem memOk_restoreShared {s : State} (h : s.memOk) (im : Memory) {sv : Saved} (hsv : sv.memOk) (new : List Nat) :
    (s.restoreShared im sv new).memOk := by
  have hclear : (if imgUsesp2 im then s.clearSp2 (new.map cluster) else s).memOk := by
    split
    exacts [memOk_clearSp2 h _, h]
  unfold State.restoreShared
  dsimp only
  generalize (if imgUsesp2 im then s.clearSp2 (new.map cluster) else s) = u at hclear
  obtain ⟨h2, h3, hh, hp⟩ := hclear.mem
  have hback := wf_foldl_windows (fun w => cluster (lget new w.member 0)) sv.sp2 hsv h2
  split
  · refine memOk_foldl_of (fun s r h => ?_) _ (memOk_withMem hclear ⟨hback, h3, hh, hp⟩)
    obtain ⟨h2, h3, hh, hp⟩ := h.mem
    split
    · exact memOk_withMem h ⟨wf_lmod h2 _ fun m hm => mblit_wf hm (mwindow_wf hh), h3, hh, hp⟩
    · simp [h]
  · exact memOk_withMem hclear ⟨hback, h3, hh, hp⟩

theorem imgScore_wf {im : Memory} (h : im.wf = true) (m : Nat) : (imgScore im m).wf = true := by
  unfold imgScore
  split
  · exact mwindow_wf h
  · exact wf_nil

@[simp] theorem memOk_restoreMember {s : State} (h : s.memOk) {im : Memory} (him : im.wf = true) (sv : Saved)
    (new : List Nat) (i k : Nat) (run : Run) (t : Nat) :
    (s.restoreMember im sv new i k run t).memOk := by
  unfold State.restoreMember
  split
  · exact h
  · exact memOk_modCore_of h k fun c hc =>
      ⟨foldl_wf (fun mm r hm => mblit_wf hm (mwindow_wf h.mem.2.2.1)) _ wf_nil, imgScore_wf him i⟩

@[simp] theorem memOk_writeKept (s : State) (sv : Saved) (new : List Nat) (locked : Bool) : (s.writeKept sv new locked).memOk ↔ s.memOk := by
  refine memOk_foldl (fun s i => ?_) ..
  dsimp only
  split <;> simp

@[simp] theorem memOk_restoreSlots (s : State) (sv : Saved) (new : List Nat) : (s.restoreSlots sv new).memOk ↔ s.memOk := by simp [State.restoreSlots]
@[simp] theorem memOk_restoreOps (s : State) (sv : Saved) (new : List Nat) : (s.restoreOps sv new).memOk ↔ s.memOk := by simp [State.restoreOps]
theorem imageOf_wf {s : State} (h : s.memOk) (berth : Nat) : (s.imageOf berth).wf = true := mwindow_wf h.mem.2.2.1

theorem memOk_reseated {s : State} (h : s.memOk) (berth t0 : Nat) {sv : Saved} (hsv : sv.memOk) {im : Memory} (him : im.wf = true) (new : List Nat) :
    (s.reseated berth t0 sv im new).memOk :=
  memOk_foldl_of (fun _ _ h => memOk_restoreMember h him ..) _ (memOk_restoreShared (s := { s with free := s.free + 2 }) (by simp [h]) im hsv new)

theorem memOk_restoreGang {s : State} (h : s.memOk) (berth : Nat) {sv : Saved} (hsv : sv.memOk) : (s.restoreGang berth sv).memOk := by
  unfold State.restoreGang
  dsimp only
  generalize coresOf (s.group (s.bind berth).group.toNat).2 = new
  have hseated := memOk_reseated h berth s.startCycle hsv (imageOf_wf h berth) new
  have hrest := (memOk_restoreOps _ sv new).2 ((memOk_restoreSlots _ sv new).2 hseated)
  split
  · refine memOk_retryGang ?_ ..
    exact memOk_of_fields hrest rfl rfl rfl rfl rfl
  · exact memOk_of_fields hrest rfl rfl rfl rfl rfl

@[simp] theorem memOk_initShared {s : State} (h : s.memOk) (members : List Nat) (ls : List Load) : (s.initShared members ls).memOk := by
  refine memOk_foldl_of (fun s x h => memOk_foldl_of (fun s r h => ?_) _ h) _ h
  obtain ⟨h2, h3, hh, hp⟩ := h.mem
  dsimp only
  split
  · exact memOk_withMem h ⟨forall_mem_lmod (P := fun x => Memory.wf x = true) wf_nil h2 fun x hx => mwriteP_wf hx, h3, hh, hp⟩
  · split <;> simp [h]

theorem launchCore_memOk {im : Memory} (him : im.wf = true) (cap : Capsule) (l : Load) (m : Nat) (old : Core) (run : Run) :
    (launchCore im cap l m old run).memOk := ⟨foldl_wf (fun _ _ hm => mwriteL_wf hm) _ wf_nil, imgScore_wf him m⟩

theorem memOk_readied {s : State} (h : s.memOk) (im : Memory) (members : List Nat) (ls : List Load) : (s.readied im members ls).memOk := by
  have hfree : ({ s with free := s.free + 2 } : State).memOk := by simp [h]
  refine memOk_initShared ?_ ..
  split
  exacts [memOk_clearSp2 hfree _, hfree]

theorem memOk_seated {s : State} (h : s.memOk) (berth origin : Nat) {im : Memory} (him : im.wf = true) (cap : Capsule) (l : List ((Nat × Load) × Nat)) :
    (s.seated berth origin im cap l).memOk :=
  memOk_foldl_of (fun _ _ h => memOk_modCore_of h _ fun _ _ => launchCore_memOk him ..) _ h

theorem memOk_launch {s : State} (h : s.memOk) (berth : Nat) : (s.launch berth).memOk := by
  unfold State.launch
  dsimp only
  generalize (imgLoads (s.imageOf berth) (s.bind berth).args).getD _ = ls
  have hready := memOk_readied h (s.imageOf berth) (coresOf (s.group (s.bind berth).group.toNat).2) ls
  unfold State.readied at hready
  rw [memOk_modSched, memOk_modBind]
  exact memOk_of_fields (memOk_seated hready berth _ (imageOf_wf h berth) _ _) rfl rfl rfl rfl rfl

/-! ### The mailbox and the decoder -/

@[simp] theorem memOk_respond (s : State) (m status : Nat) (data : List Byte) : (s.respond m status data).memOk ↔ s.memOk := by simp [State.respond]

@[simp] theorem memOk_startTest (s : State) (level : Nat) (m : Option Nat) : (s.startTest level m).memOk ↔ s.memOk := by
  unfold State.startTest
  split <;> simp

@[simp] theorem memOk_rejectInbound (s : State) (o : Out) (bar : BitVec 3) (off : Nat) : (s.rejectInbound o bar off).memOk ↔ s.memOk := by
  simp [State.rejectInbound]

@[simp] theorem memOk_decTaken (s : State) (e : Nat) : (s.decTaken e).memOk ↔ s.memOk := by simp [State.decTaken]
@[simp] theorem memOk_decRefuse (s : State) (e : Nat) : (s.decRefuse e).memOk ↔ s.memOk := by simp [State.decRefuse]

@[simp] theorem memOk_decWrite {s : State} (h : s.memOk) (a : Nat) (bs : List Byte) : (s.decWrite a bs).memOk := by
  unfold State.decWrite
  split <;> simp [h]

@[simp] theorem memOk_decRelease {s : State} (h : s.memOk) (a : Nat) : (s.decRelease a).memOk := by
  unfold State.decRelease
  split
  · exact h
  · split <;> simp [h]

@[simp] theorem memOk_emitFrame {s : State} (h : s.memOk) (ci : Nat) : (s.emitFrame ci).memOk := by
  have hfree : ∀ n, ({ s with free := n } : State).memOk := fun n => by simp [h]
  exact (memOk_modDctx ..).2 (memOk_decRelease (memOk_decWrite (memOk_decWrite (memOk_decWrite (hfree _) ..) ..) ..) _)

@[simp] theorem memOk_emitAll {s : State} (h : s.memOk) (e ci n : Nat) : (s.emitAll e ci n).memOk := by
  induction n generalizing s with
  | zero => exact h
  | succ n ih =>
    unfold State.emitAll
    dsimp only
    split
    · exact h
    split
    · exact ih (memOk_emitFrame h ci)
    · simp [h]

/-! ### The fleet: boot, update, tests and sensors -/

@[simp] theorem memOk_rasOpen (s : State) (cls : Nat) : (s.rasOpen cls).memOk ↔ s.memOk := by simp [State.rasOpen]
theorem writeBoot_wf {m : Memory} (h : m.wf = true) (b : BootState) : (writeBoot m b).wf = true := mwriteL_wf h

theorem memOk_putBoot {s : State} (h : s.memOk) (b : BootState) : (s.putBoot b).memOk := by
  unfold State.putBoot
  have hboot := writeBoot_wf h.flash b
  simpa [h.mem, h.sram] using ⟨h.cores, h.saves, hboot⟩

@[simp] theorem memOk_startHarts (s : State) : s.startHarts.memOk ↔ s.memOk := by
  refine memOk_foldl (fun s i => ?_) ..
  split <;> simp

/-- The flash replaced by a canonical one. -/
theorem memOk_withFleet {s : State} (h : s.memOk) {f : Fleet} (hf : Memory.wf f.flash = true) : ({ s with fleet := f } : State).memOk :=
  ⟨h.cores, h.saves, h.mem, h.sram, hf⟩

@[simp] theorem memOk_deriveAlias {s : State} (h : s.memOk) (seed : List Byte) (slot : Nat) : (s.deriveAlias seed slot).memOk :=
  ⟨h.cores, h.saves, h.mem, h.sram, mwriteL_wf h.flash⟩

@[simp] theorem memOk_loadCapsule {s : State} (h : s.memOk) (c : Capsule) : (s.loadCapsule c).memOk := by
  refine ⟨fun x hx => ?_, h.saves, h.mem, h.sram, h.flash⟩
  obtain ⟨y, hy, rfl⟩ := List.mem_map.1 hx
  exact h.cores y hy

@[simp] theorem memOk_takeCapsule {s : State} (h : s.memOk) (dev : List Byte) : (s.takeCapsule dev).memOk := by
  unfold State.takeCapsule
  split <;> exact memOk_withFleet (memOk_loadCapsule h _) h.flash

@[simp] theorem memOk_bootSlot {s : State} (h : s.memOk) (seed : List Byte) (slot : Nat) : (s.bootSlot seed slot).memOk := by
  have hput : ∀ b : BootState, (if (bootState s.fleet.flash).healthyOf slot then s else s.putBoot b).memOk := fun b => memOk_ite h (memOk_putBoot h b)
  unfold State.bootSlot
  dsimp only
  have hrun : ∀ t : State, t.memOk → ((t.takeCapsule (seedKey seed [])).deriveAlias seed slot).startHarts.memOk := fun t ht =>
    (memOk_startHarts _).2 (memOk_deriveAlias (memOk_takeCapsule ht _) ..)
  rw [memOk_mk]
  exact (memOk_parts _).2 (hrun _ (memOk_ite (hput _) ((memOk_rasOpen ..).2 (hput _))))

@[simp] theorem memOk_restart {s : State} (h : s.memOk) (keep : Bool) : (s.restart keep).memOk := by
  obtain ⟨hc, hv, ⟨h2, h3, hh, hp⟩, hs, hf⟩ := memOk_reset
  refine ⟨hc, hv, ⟨h2, h3, ?_, h.mem.2.2.2⟩, hs, h.flash⟩
  unfold State.restart
  dsimp only
  split
  exacts [h.mem.2.2.1, wf_nil]

@[simp] theorem memOk_press (s : State) (level : Nat) : (s.press level).memOk ↔ s.memOk := by simp [State.press]
@[simp] theorem memOk_endTestRun (s : State) : (s.endTestRun).memOk ↔ s.memOk := by simp [State.endTestRun]
@[simp] theorem memOk_reportSensors (s : State) : (s.reportSensors).memOk ↔ s.memOk := by simp [State.reportSensors]
@[simp] theorem memOk_setFresh (s : State) (n : Nat) : (s.setFresh n).memOk ↔ s.memOk := by simp [State.setFresh]
@[simp] theorem memOk_clockIn (s : State) (lo hi : Nat) : (s.clockIn lo hi).memOk ↔ s.memOk := by simp [State.clockIn]

/-! ### The Pilot firmware -/

theorem runsMemory_wf {s : State} (h : s.memOk) (rs : List (Nat × Nat × Nat)) : (s.runsMemory rs).wf = true := by
  have hstep : ∀ (l : List (Nat × Nat × Nat)) (m : Memory × Nat), m.1.wf = true → (l.foldl (fun (m : Memory × Nat) r =>
      (mblit m.1 m.2 r.2.2 (mwindow (if r.1 = 0 then s.mem.hbm else s.mem.pcie) r.2.1 r.2.2), m.2 + r.2.2)) m).1.wf = true := by
    intro l
    induction l with
    | nil => exact fun _ h => h
    | cons r l ih =>
      refine fun m hm => ih _ (mblit_wf hm (mwindow_wf ?_))
      split
      exacts [h.mem.2.2.1, h.mem.2.2.2]
  exact hstep rs _ wf_nil

@[simp] theorem memOk_placeImage {s : State} (h : s.memOk) (berth : Nat) (rs : List (Nat × Nat × Nat)) : (s.placeImage berth rs).2.memOk := by
  have hput : ∀ rs n, ({ s with mem := { s.mem with hbm := mblit s.mem.hbm (8 * Config.imageArea berth) n (s.runsMemory rs) } } : State).memOk :=
    fun rs n => memOk_blit h _ _ (runsMemory_wf h rs) _
  unfold State.placeImage
  split
  · split
    exacts [h, hput _ _]
  · exact hput _ _

@[simp] theorem memOk_fwBusy (s : State) : (s.fwBusy).memOk ↔ s.memOk := by simp [State.fwBusy]

@[simp] theorem memOk_discardSave {s : State} (h : s.memOk) (pa : Nat) : (s.discardSave pa).memOk := by
  have hkept : ({ s with saves := s.saves.filter fun x => x.savepa != pa } : State).memOk :=
    ⟨h.cores, fun v hv => h.saves v (List.mem_of_mem_filter hv), h.mem, h.sram, h.flash⟩
  unfold State.discardSave
  split
  · exact h
  · simp [hkept]

/-! ### Pilot cores and host cores -/

@[simp] theorem memOk_rvTrap (s : State) (k cause : Nat) (tval : Word) : (s.rvTrap k cause tval).memOk ↔ s.memOk := by simp [State.rvTrap]
@[simp] theorem memOk_rvGo (s : State) (k : Nat) (rd : BitVec 5) (v pc : Word) : (s.rvGo k rd v pc).memOk ↔ s.memOk := by simp [State.rvGo]

@[simp] theorem memOk_pilotWrite {s : State} (h : s.memOk) (p : Nat × Nat) (bs : List Byte) : (s.pilotWrite p bs).memOk := by
  unfold State.pilotWrite
  split
  · exact ⟨h.cores, h.saves, h.mem, mwriteL_wf h.sram, h.flash⟩
  split
  · split <;> simp [h]
  · simp [h]

theorem memOk_rvExec {s : State} (h : s.memOk) (k : Nat) (w : BitVec 32) (len : Nat) (i : Rv) : (s.rvExec k w len i).memOk := by
  unfold State.rvExec
  dsimp only
  repeat' split
  all_goals simp [h]

theorem memOk_rvStep {s : State} (h : s.memOk) (k : Nat) : (s.rvStep k).memOk := by
  unfold State.rvStep
  split
  · simp [h]
  · split
    · exact memOk_rvExec h ..
    · simp [h]

@[simp] theorem memOk_hartTrap (s : State) (k cause : Nat) (tval : Word) : (s.hartTrap k cause tval).memOk ↔ s.memOk := by simp [State.hartTrap]
@[simp] theorem memOk_hartDone (s : State) (k : Nat) (pc : Word) (f : Hart → Hart) : (s.hartDone k pc f).memOk ↔ s.memOk := by simp [State.hartDone]

theorem memOk_hartAccess {s : State} (h : s.memOk) (k : Nat) (u : HartUse) (a : Word) (n : Nat) {act : Nat × Nat → State} (ha : ∀ p, (act p).memOk) :
    (s.hartAccess k u a n act).memOk := by
  unfold State.hartAccess
  split
  · simp [h]
  · split
    · simp [h]
    · exact ha _

@[simp] theorem memOk_hartWrite {s : State} (h : s.memOk) (p : Nat × Nat) (bs : List Byte) : (s.hartWrite p bs).memOk := by simp [State.hartWrite, h]

theorem memOk_hartBase {s : State} (h : s.memOk) (k : Nat) {illegal : State} (hi : illegal.memOk) (next : Word) (a : RvAct) :
    (s.hartBase k illegal next a).memOk := by
  unfold State.hartBase
  dsimp only
  split
  case h_2 => exact memOk_hartAccess h _ _ _ _ fun p => by simp [h]
  case h_3 => exact memOk_hartAccess h _ _ _ _ fun p => by simp [h]
  case h_4 => exact memOk_hartAccess h _ _ _ _ fun p => by split <;> simp [h]
  case h_5 => exact memOk_hartAccess h _ _ _ _ fun p => by repeat' split; all_goals simp [h]
  all_goals repeat' split
  all_goals simp [h, hi]

theorem memOk_hartExec {s : State} (h : s.memOk) (k : Nat) (w : BitVec 32) (len : Nat) (i : Hv) : (s.hartExec k w len i).memOk := by
  have hillegal : ∀ v, (s.hartTrap k 2 v).memOk := fun v => by simp [h]
  have hfp : ∀ (t : State) v, t.memOk → (if (s.hart k).fpOff then s.hartTrap k 2 v else t).memOk := fun t v ht => by split <;> simp [h, ht]
  have hdone : ∀ pc f, (s.hartDone k pc f).memOk := fun pc f => by simp [h]
  unfold State.hartExec
  dsimp only
  split
  case h_1 => exact memOk_hartBase h k (hillegal _) ..
  case h_3 => exact hfp _ _ (memOk_hartAccess h _ _ _ _ fun p => by simp [h])
  case h_4 => exact hfp _ _ (memOk_hartAccess h _ _ _ _ fun p => by simp [h])
  all_goals repeat' split
  all_goals simp [h]

theorem memOk_hartStep {s : State} (h : s.memOk) (k : Nat) : (s.hartStep k).memOk := by
  unfold State.hartStep
  split
  · simp [h]
  split
  · simp [h]
  split
  · exact memOk_hartExec h ..
  · simp [h]

/-! ### Moves and the passing of a cycle -/

@[simp] theorem memOk_takeAnew (s t : State) (k : Nat) (r : DataRead) : (s.takeAnew t k r).memOk ↔ s.memOk := by
  have hpend : ∀ f : Nat → Core → List Pend, CoresOk (s.cores.mapIdx fun i c => { c with pend := f i c }) ↔ CoresOk s.cores := fun f => by
    refine ⟨fun h c hc => ?_, fun h c hc => ?_⟩
    · obtain ⟨i, hi, rfl⟩ := List.getElem_of_mem hc
      exact h { s.cores[i] with pend := f i s.cores[i] } (List.mem_mapIdx.2 ⟨i, hi, rfl⟩)
    · obtain ⟨i, hi, rfl⟩ := List.mem_mapIdx.1 hc
      exact h s.cores[i] (List.getElem_mem hi)
  unfold State.takeAnew
  dsimp only
  rw [memOk_modCore _ _ fun c => by split <;> simp]
  simp [hpend]

@[simp] theorem memOk_takeLate (s t : State) (l : LateRead) : (s.takeLate t l).memOk ↔ s.memOk := by simp [State.takeLate]

@[simp] theorem memOk_endUpdate {s : State} (h : s.memOk) (u : Update) : (s.endUpdate u).memOk := by
  refine (memOk_rasOpen ..).2 (memOk_withFleet h ?_)
  split <;> exact mwriteL_wf h.flash

@[simp] theorem memOk_runTest (s : State) (cs : List Nat) : (s.runTest cs).memOk ↔ s.memOk := by simp [State.runTest]
@[simp] theorem memOk_runGolden (s : State) (es : List Nat) : (s.runGolden es).memOk ↔ s.memOk := by simp [State.runGolden]
@[simp] theorem memOk_invalidate (s : State) (page : Nat) : (s.invalidate page).memOk ↔ s.memOk := by simp [State.invalidate]
@[simp] theorem memOk_shareOut (s : State) : (s.shareOut).memOk ↔ s.memOk := by simp [State.shareOut]
@[simp] theorem memOk_landSys (s : State) (k n : Nat) (v : Word) : (s.landSys k n v).memOk ↔ s.memOk := by simp [State.landSys]
@[simp] theorem memOk_landQuiet (s : State) (p : Pend) : (s.landQuiet p).memOk ↔ s.memOk := by unfold State.landQuiet; split <;> simp
@[simp] theorem memOk_landAllQuiet (s : State) (k : Nat) : (s.landAllQuiet k).memOk ↔ s.memOk := by simp [State.landAllQuiet]
@[simp] theorem memOk_mergeSpq {s : State} (h : s.memOk) : s.mergeSpq.memOk := memOk_withMem h (memMemOk_foldl_absorb h.mem _)
@[simp] theorem memOk_wakeSp3 {s : State} (h : s.memOk) : s.wakeSp3.memOk := memOk_foldl_of (fun _ _ h => memOk_wakeWaits h ..) _ h
@[simp] theorem mem_passCore (s : State) (k : Nat) : (s.passCore k).mem = (s.core k).mem := mem_pass ..

theorem memOk_tick {s : State} (h : s.memOk) : s.tick.memOk := by
  have hland := (memOk_foldl memOk_landAllQuiet (List.range 24) _).2 (memOk_ite (p := s.voidNow = true) ((memOk_voidPromise s).2 h) h)
  unfold State.tick
  dsimp only
  generalize (List.range 24).foldl State.landAllQuiet _ = u at hland
  refine memOk_mergeSpq (memOk_wakeSp3 ⟨fun c hc => ?_, hland.saves, hland.mem, hland.sram, hland.flash⟩)
  obtain ⟨k, hk, rfl⟩ := List.mem_mapIdx.1 hc
  split
  · exact (coreMemOk_iff _).2 (by simpa [mem_passCore] using memOk_core hland k)
  · exact hland.cores _ (List.getElem_mem hk)

end Sys2Proof.Machine

namespace Sys2Proof.Machine

/-! ## Outcomes of runs -/

theorem resMemOk_ite {p : Prop} [Decidable p] {a b : Res} (ha : ResMemOk a) (hb : ResMemOk b) : ResMemOk (if p then a else b) := by
  split <;> assumption

section Runs

variable {s : State} (h : s.memOk)

include h

theorem resMemOk_seqRun {i : Instr} {p : Place} {body : State → State} (hb : (body s).memOk) : ResMemOk (seqRun i p body s) := by
  unfold seqRun
  exact resMemOk_ite (by simp [h]) (resMemOk_ite ((resMemOk_ok _).2 hb) (by simp [h]))

theorem resMemOk_engRun {u : Eng} {i : Instr} {legal : Bool} {body : State → State} (hb : (body s).memOk) : ResMemOk (engRun u i legal body s) := by
  unfold engRun
  exact resMemOk_ite (by simp [h]) (resMemOk_ite (by simp [h]) ((resMemOk_ok _).2 hb))

theorem resMemOk_aluRun (i : Instr) (d : BitVec 5) (lat : Nat) (v : State → Word) : ResMemOk (aluRun i d lat v s) := resMemOk_seqRun h (by simp [h])
theorem resMemOk_mtsRun (i : Instr) (p : Place) (a : BitVec 5) (n : Nat) : ResMemOk (mtsRun i p a n s) := resMemOk_seqRun h (by simp [h])

theorem resMemOk_ldSp (i : Instr) (lvl : Nat) (w : BitVec 3) (d a : BitVec 5) (off : BitVec 13) : ResMemOk (ldSp i lvl w d a off s) := by
  refine resMemOk_seqRun h (memOk_ite (by simp [h]) ?_)
  split <;> simp [h]

theorem resMemOk_ldGlobal (i : Instr) (ap : Bool) (w : BitVec 3) (d a : BitVec 5) (off : BitVec 13) : ResMemOk (ldGlobal i ap w d a off s) := by
  refine resMemOk_seqRun h (memOk_ite (by simp [h]) ?_)
  split <;> simp [h]

theorem resMemOk_stSp (i : Instr) (lvl : Nat) (w : BitVec 3) (d a : BitVec 5) (off : BitVec 13) : ResMemOk (stSp i lvl w d a off s) := by
  refine resMemOk_seqRun h (memOk_ite (by simp [h]) ?_)
  split <;> simp [h]

theorem resMemOk_stGlobal (i : Instr) (ap : Bool) (w : BitVec 3) (d a : BitVec 5) (off : BitVec 13) : ResMemOk (stGlobal i ap w d a off s) := by
  refine resMemOk_seqRun h (memOk_ite (by simp [h]) ?_)
  split <;> simp [h]

theorem resMemOk_brRun (i : Instr) (off : BitVec 16) (cond : State → Bool) : ResMemOk (brRun i off cond s) := resMemOk_seqRun h (by simp [h])

theorem resMemOk_waitRun (i : Instr) (a b : BitVec 5) (d : Option Nat) : ResMemOk (waitRun i a b d s) := by
  refine resMemOk_seqRun h ?_
  split <;> simp [h]

theorem resMemOk_tretRun (i : Instr) (form : Nat) : ResMemOk (tretRun i form s) := by
  refine resMemOk_seqRun h ?_
  split <;> simp [h]

theorem resMemOk_pointRun (i : Instr) (kind : Nat) (mask : BitVec 16) (d : BitVec 5) : ResMemOk (pointRun i kind mask d s) :=
  resMemOk_seqRun h (by simp [h])

/-! ### Engine words -/

theorem resMemOk_vec3 (i : Instr) (w : V3) (f : VForm) (lat : Nat) (op : Lane → Lane → Lane → LaneR) : ResMemOk (vec3 i w f lat op s) :=
  resMemOk_engRun h (memOk_vecGo h fun _ _ h => h)

theorem resMemOk_vecI (i : Instr) (w : VI) (lat : Nat) (va legal : Bool) (op : Lane → Lane) : ResMemOk (vecI i w lat va legal op s) :=
  resMemOk_engRun h (memOk_vecGo h fun _ _ h => h)

theorem resMemOk_vecCmp (i : Instr) (w : V3) (cond : Nat → Lane → Lane → Bool) : ResMemOk (vecCmp i w cond s) := by
  unfold vecCmp
  refine resMemOk_ite ?_ (resMemOk_engRun h (memOk_ite (by simp [h]) (memOk_vecGo h fun _ _ h => h)))
  exact resMemOk_vec3 h ..

theorem resMemOk_vecMask (i : Instr) (w : V3) (x : Nat) (va : Bool) (allow : Nat → Bool) (ops : List (List Lane) → List MaskOp) :
    ResMemOk (vecMask i w x va allow ops s) :=
  resMemOk_engRun h (memOk_ite (by simp [h]) (memOk_vecGo h fun _ _ h => h))

theorem resMemOk_vec3All (i : Instr) (w : V3) (f : VForm) (lat : Nat) (mesh : Bool) {op : BitVec 64 → List (List Lane) → VOut}
    (ha : ∀ act vs s, s.memOk → ((op act vs).also s).memOk) : ResMemOk (vec3All i w f lat mesh op s) :=
  resMemOk_engRun h (memOk_vecGo h (ha _))

theorem resMemOk_vecReduce (i : Instr) (w : V3) (ty : Nat) (rm sat legal : Bool) (empty : Lane) (op : LaneR → LaneR → LaneR) (fin : Lane → Lane) :
    ResMemOk (vecReduce i w ty rm sat legal empty op s fin) := by
  unfold vecReduce
  exact resMemOk_engRun h (memOk_vecGo h fun _ _ h => h)

theorem resMemOk_vmRun (i : Instr) (w : VM) (legal write : Bool) (extra : Desc → Bool) {body : Desc → Nat → State → State}
    (hb : ∀ d k ds, (body d k (s.keepLatch .vec ds)).memOk) : ResMemOk (vmRun i w legal write extra body s) := by
  refine resMemOk_engRun h (memOk_ite (by simp [h]) (memOk_ite (by simp [h]) ?_))
  split
  · simp [h]
  refine memOk_ite (by simp [h]) ?_
  split
  · exact hb ..
  · simp [h]

theorem resMemOk_matProduct (i : Instr) (w : MX) (legal : Bool) (ns : List Nat) (fmts : List Desc → Bool) (hist : List Desc → HistEntry)
    (shapes : State → List Desc → Option FaultRec) (sparse : State → List Desc → Option (FaultRec × Tfrec)) :
    ResMemOk (matProduct i w legal ns fmts hist shapes sparse s) := by
  refine resMemOk_engRun h (memOk_ite (by simp [h]) ?_)
  dsimp only
  generalize firstFault _ = fault
  cases fault with
  | some f => simp [h]
  | none =>
    generalize s.firstMiss _ = miss
    cases miss with
    | some m => simp [h]
    | none =>
      generalize sparse s _ = bad
      cases bad with
      | some b => simp [h]
      | none => simp [h]

theorem resMemOk_dataRun (i : Instr) (w : DX) (legal : Bool) (ns : List (BitVec 4)) {body : List Desc → Nat → State → State}
    (hb : ∀ ds k s, s.memOk → (body ds k s).memOk) : ResMemOk (dataRun i w legal ns body s) :=
  resMemOk_engRun h (memOk_ite (by simp [h]) (hb _ _ _ (by simp [h])))

theorem resMemOk_vecInt (i : Instr) (w : V3) (satOk vb vdReg sat : Bool) (lat : Nat) (op : Int → Int → Int → Int) :
    ResMemOk (vecInt i w satOk vb vdReg sat lat op s) := resMemOk_vec3 h ..

theorem resMemOk_vecBits (i : Instr) (w : V3) (x : Nat) (vb vdReg : Bool) (op : Lane → Lane → Lane → Lane) :
    ResMemOk (vecBits i w x vb vdReg op s) := resMemOk_vec3 h ..

theorem resMemOk_vecFlt (i : Instr) (w : V3) (rounds vb vdReg : Bool) (lat : Nat) (op : Nat → Nat → Nat → Nat → Nat → Nat × Fx) :
    ResMemOk (vecFlt i w rounds vb vdReg lat op s) := resMemOk_vec3 h ..

theorem resMemOk_vecTable (i : Instr) (w : V3) (fn : Nat → Nat × Fx) : ResMemOk (vecTable i w fn s) := resMemOk_vec3 h ..

theorem resMemOk_vecPerm (i : Instr) (w : V3) (f : VForm) (lat : Nat) (mesh : Bool) (pick : List Lane → List Lane → Nat → Lane) :
    ResMemOk (vecPerm i w f lat mesh pick s) := resMemOk_vec3All h _ _ _ _ _ fun _ _ _ h => h

theorem resMemOk_vmLoad (i : Instr) (w : VM) (idx : Bool) (lats occs : List Nat) (extra : Desc → Bool) (cols : Nat → List Lane → List Nat) :
    ResMemOk (vmLoad i w idx lats occs extra cols s) :=
  resMemOk_vmRun h _ _ _ _ _ fun d k ds => memOk_vecGo (by simp [h]) fun _ _ h => by simp [State.loadOut, h]

theorem resMemOk_blockRun (i : Instr) (w : DX) (load cls : Bool) (ph : Nat) (lv : Nat → Bool) (occ : Desc → Desc → Nat → Nat)
    {move : Nat → Desc → Nat → Desc → Blk → State → State} (hm : ∀ nn near fn far b s, s.memOk → (move nn near fn far b s).memOk) :
    ResMemOk (blockRun i w load cls ph lv occ move s) := by
  unfold blockRun
  refine resMemOk_dataRun h _ _ _ _ fun ds k s h => ?_
  refine memOk_unless h (memOk_ite (memOk_unless h (hm _ _ _ _ _ _ h)) (memOk_ite (by simp [h]) (memOk_ite (by simp [h]) ?_)))
  exact memOk_unless h (hm _ _ _ _ _ _ h)

theorem resMemOk_storeRun (i : Instr) (w : DX) (ph : Nat) {store : List (Nat × Piece) → List (Nat × Nat × Nat) → State → FaultRec ⊕ State}
    (hs : ∀ ps names s t, s.memOk → store ps names s = .inr t → t.memOk) : ResMemOk (storeRun i w ph store s) := by
  refine resMemOk_blockRun h _ _ _ _ _ _ _ fun nn near fn far b s h => memOk_unless h (memOk_afterReads h fun s h => ?_)
  dsimp only
  split
  · simp [h]
  split
  · simp [h]
  case h_2 e => simp [hs _ _ _ _ h e]

theorem resMemOk_gatherRun (i : Instr) (w : DX) (ph : Nat) (tn rn : BitVec 4) (gather : Bool)
    {go : Desc → Desc → Desc → List Nat → Nat → State → State} (hg : ∀ t r x xs k s, s.memOk → (go t r x xs k s).memOk) :
    ResMemOk (gatherRun i w ph tn rn gather go s) := by
  refine resMemOk_dataRun h _ _ _ _ fun ds k s h => memOk_ite (by simp [h]) (memOk_unless h (memOk_afterReads h fun s h => ?_))
  dsimp only
  split
  · simp [h]
  · exact hg _ _ _ _ _ _ h

/-! ### Queues, Xquay, the mailbox and the decoder -/

theorem resMemOk_bfxRun (sg : Bool) (rd rs1 rs2 : BitVec 5) : ResMemOk (bfxRun sg rd rs1 rs2 s) := by
  unfold bfxRun
  exact resMemOk_ite (by simp [State.xquayFault, h]) (resMemOk_ite (by simp [State.xquayFault, h]) (by simp [h]))

theorem resMemOk_rankSet (qd : BitVec 3) (v : BitVec 32) : ResMemOk (rankSet qd v s) := by simp [rankSet, h]

theorem resMemOk_queueRunTo (v : Nat) (skip : Bool) : ResMemOk (queueRunTo v skip s) := by
  unfold queueRunTo
  split <;> simp [h]

theorem resMemOk_fetchRun (typ : Nat) : ResMemOk (fetchRun typ s) := by
  unfold fetchRun
  exact resMemOk_ite (by simp [h]) (by simp [h])

theorem resMemOk_mboxRun (opc : Nat) {act : List Byte → State → Nat × List Byte × State} (ha : ∀ req, (act req s).2.2.memOk) :
    ResMemOk (mboxRun opc act s) := by
  unfold mboxRun
  exact resMemOk_ite (by simp [h]) (resMemOk_ite (by simp [h]) (by simp [ha]))

theorem resMemOk_mboxWrite (opc : Nat) (good : List Byte → State → Bool) {act : List Byte → State → State} (ha : ∀ req, (act req s).memOk) :
    ResMemOk (mboxWrite opc good act s) := resMemOk_mboxRun h _ fun req => by
  split <;> simp [h, ha]

theorem resMemOk_decCommand (opc : Nat) {act : DecCmd → State → State} (ha : ∀ c s, s.memOk → (act c s).memOk) : ResMemOk (decCommand opc act s) := by
  unfold decCommand
  dsimp only
  split
  · exact resMemOk_ite (by simp [h]) (resMemOk_ite (by simp [h, ha]) (by simp [h]))
  · simp [h]

theorem resMemOk_homeEvent (allow : GOp → Bool) : ResMemOk (s.homeEvent allow) := by
  unfold State.homeEvent
  split
  · exact resMemOk_ite (by simp [h]) (by simp [h])
  · simp [h]

end Runs

end Sys2Proof.Machine

namespace Sys2Proof.Machine

/-! ## Outcomes of single instructions and events -/

section

variable {s : State} (h : s.memOk)

include h

theorem memOk_holdAll {hs : List Held} {t : State} (e : s.holdAll hs = .inr t) : t.memOk := by
  unfold State.holdAll at e
  split at e
  case h_1 c hc =>
    obtain rfl := Sum.inr.inj e
    refine memOk_modCore_of h _ (f := fun _ => c) fun _ _ => (coreMemOk_iff c).2 ?_
    rw [sp1_hold hc, score_hold hc]
    exact memOk_core h _
  · cases e

omit h in
@[simp] theorem sram_admitPost (p : Pilot) : p.admitPost.sram = p.sram := by
  unfold Pilot.admitPost
  split
  · rfl
  · split <;> rfl

theorem memOk_fetchHead {n : Nat} {bs : List Byte} {v : Nat} {t : State} (e : s.fetchHead n = some (bs, v, t)) : t.memOk := by
  unfold State.fetchHead at e
  split at e
  · split at e
    · cases e
    · cases e; simp [h]
  split at e
  · split at e
    · cases e; simp [h]
    · cases e
  · split at e
    · cases e
    · cases e; exact memOk_of_fields h rfl rfl rfl (by simp) rfl

theorem resMemOk_release : ResMemOk (execRelease s) := by
  unfold execRelease
  split
  · simp [h]
  split
  · simp [h]
  refine resMemOk_ite (by simp [h]) ?_
  rw [resMemOk_ok]
  refine memOk_ite (memOk_retryGang ?_ ..) ?_ <;> simp [h]

theorem resMemOk_creditReturn : ResMemOk (execCreditReturn s) := by
  unfold execCreditReturn
  split
  · simp [h]
  split <;> simp [h]

theorem resMemOk_barrierRelease : ResMemOk (execBarrierRelease s) := by
  unfold execBarrierRelease
  dsimp only
  split
  · simp [h]
  · rw [resMemOk_ok, memOk_foldl]
    · exact h
    · intro t k
      rw [memOk_mk, coresOk_modCore _ _ fun c => ?_]
      · exact memOk_parts t
      · split <;> simp

theorem resMemOk_yieldRelease : ResMemOk (execYieldRelease s) := by
  unfold execYieldRelease
  split
  · simp [h]
  split
  · simp [h]
  · have hgo : ∀ (l : List (Nat × Word × Nat × Nat)) g, (l.foldl (fun s x => s.modCore x.1 fun c => c.goOnAt g x.2.2.2) s).memOk :=
      fun l g => by simp [h]
    refine resMemOk_ite (by simp [h]) (resMemOk_ite ?_ (resMemOk_ite ?_ ?_)) <;> rw [resMemOk_ok]
    · exact hgo ..
    · exact memOk_coopSave (hgo ..) ..
    · simp [h]

theorem resMemOk_forcedSave : ResMemOk (execForcedSave s) := by
  unfold execForcedSave
  split
  · simp [h]
  case h_2 g hg =>
  refine resMemOk_ite (by simp [h]) ?_
  dsimp only
  have hset := memOk_settleBerth h g.berth
  rw [resMemOk_ok, memOk_freeSlots]
  refine memOk_beginSave (memOk_saveRegions (memOk_foldl_saveSp1 _ _ (memOk_saveHeader hset ..) fun x hx => ?_) ..) g fun x hx => ?_
  · obtain ⟨y, -, he⟩ := List.mem_map.1 (List.fst_mem_of_mem_zipIdx hx)
    rw [← he]
    exact (memOk_core hset _).1
  · simp only [List.mem_flatten, List.mem_mapIdx] at hx
    obtain ⟨l, ⟨i, hi, rfl⟩, hx⟩ := hx
    split at hx
    · cases hx
    · obtain ⟨y, -, rfl⟩ := List.mem_map.1 hx
      exact savedWin_wf hset ..

theorem resMemOk_sacqComplete : ResMemOk (execSacqComplete s) := by
  unfold execSacqComplete
  split
  · simp [h]
  refine resMemOk_ite (by simp [h]) ?_
  dsimp only
  refine resMemOk_ite ?_ ?_ <;> rw [resMemOk_ok]
  · rw [memOk_modCore _ _ fun c => ?_]
    · split <;> simp [h]
    · repeat' split
      all_goals simp
  · split <;> simp [h]

theorem resMemOk_vcmpi (w : VI) : ResMemOk (execVcmpi w s) := by
  unfold execVcmpi
  exact resMemOk_ite (resMemOk_vecI h ..) (resMemOk_engRun h (memOk_ite (by simp [h]) (memOk_vecGo h fun _ _ h => h)))

theorem resMemOk_vsel (w : V3) : ResMemOk (execVsel w s) := by
  unfold execVsel
  exact resMemOk_vec3All h _ _ _ _ _ fun _ _ _ h => h

theorem resMemOk_vins (w : V3) : ResMemOk (execVins w s) := by
  unfold execVins
  exact resMemOk_vec3All h _ _ _ _ _ fun _ _ _ h => h

theorem resMemOk_vcvt (w : V3) : ResMemOk (execVcvt w s) := by
  unfold execVcvt
  exact resMemOk_engRun h (memOk_vecGo h fun _ _ h => h)

theorem resMemOk_vbcst (w : V3) : ResMemOk (execVbcst w s) := by
  unfold execVbcst
  exact resMemOk_engRun h (memOk_vecGo h fun _ _ h => h)

theorem resMemOk_vbcs (w : V3) : ResMemOk (execVbcs w s) := by
  unfold execVbcs
  exact resMemOk_engRun h (memOk_vecGo h fun _ _ h => h)

theorem resMemOk_vdotp (w : V3) : ResMemOk (execVdotp w s) := by
  unfold execVdotp
  exact resMemOk_engRun h (memOk_vecGo h fun _ _ h => h)

theorem resMemOk_vst (w : VM) : ResMemOk (execVst w s) := by
  unfold execVst
  exact resMemOk_vmRun h _ _ _ _ _ fun d k ds => memOk_vecGo (by simp [h]) fun _ _ h => by simp [h]

theorem resMemOk_mmuls (w : MX) : ResMemOk (execMmuls w s) := by
  unfold execMmuls
  exact resMemOk_matProduct h ..

theorem resMemOk_mlatx (w : MX) : ResMemOk (execMlatx w s) := by
  unfold execMlatx
  exact resMemOk_matProduct h ..

/-! ### Data words -/

theorem resMemOk_tmov (w : DX) : ResMemOk (execTmov w s) := by
  unfold execTmov
  exact resMemOk_blockRun h _ _ _ _ _ _ _ fun nn near fn far b s h => memOk_afterReads h fun s h => by simp [h]

theorem resMemOk_dload (w : DX) : ResMemOk (execDload w s) := by
  unfold execDload
  exact resMemOk_blockRun h _ _ _ _ _ _ _ fun nn near fn far b s h => memOk_unless h (by dsimp only; split <;> simp [h])

theorem resMemOk_dstore (w : DX) : ResMemOk (execDstore w s) := by
  unfold execDstore
  exact resMemOk_storeRun h _ _ _ fun ps names s t h e => by cases e; simp [h]

theorem resMemOk_dphst (w : DX) : ResMemOk (execDphst w s) := by
  unfold execDphst
  exact resMemOk_storeRun h _ _ _ fun ps names s t h e => by
    split at e
    · cases e; exact h
    · exact memOk_holdAll h e

theorem resMemOk_dgather (w : DX) : ResMemOk (execDgather w s) := by
  unfold execDgather
  exact resMemOk_gatherRun h _ _ _ _ _ _ fun t r x xs k s h => by
    refine memOk_ite (by simp [h]) ?_
    dsimp only
    split <;> simp [h]

theorem resMemOk_dscatter (w : DX) : ResMemOk (execDscatter w s) := by
  unfold execDscatter
  exact resMemOk_gatherRun h _ _ _ _ _ _ fun t r x xs k s h => by
    refine memOk_ite ?_ ?_
    · dsimp only
      rw [memOk_dataOut]
      exact memOk_ite (by simp [h]) (by simp [h])
    dsimp only
    split
    · simp [h]
    split
    · simp [h]
    case h_2 t e =>
      have ht : t.memOk := by
        split at e
        · exact memOk_holdAll h e
        · cases e; simp [h]
      simp [ht]

theorem resMemOk_dmcast (w : DX) : ResMemOk (execDmcast w s) := by
  unfold execDmcast
  exact resMemOk_dataRun h _ _ _ _ fun ds k s h => memOk_unless h (memOk_afterReads h fun s h => by
    dsimp only
    rw [memOk_dataOut, memOk_foldl (by simp)]
    exact memOk_ite (by simp [h]) h)

theorem resMemOk_dcomp (w : DX) : ResMemOk (execDcomp w s) := by
  unfold execDcomp
  exact resMemOk_dataRun h _ _ _ _ fun ds k s h => memOk_ite (by simp [h]) (memOk_unless h (memOk_afterReads h fun s h => by
    dsimp only
    rw [memOk_dataOut]
    exact memOk_ite (by simp [h]) (by simp [h])))

theorem resMemOk_dexp (w : DX) : ResMemOk (execDexp w s) := by
  unfold execDexp
  exact resMemOk_dataRun h _ _ _ _ fun ds k s h => memOk_ite (by simp [h]) (memOk_unless h (memOk_afterReads h fun s h => by simp [h]))

theorem resMemOk_dtrans (w : DX) : ResMemOk (execDtrans w s) := by
  unfold execDtrans
  exact resMemOk_dataRun h _ _ _ _ fun ds k s h => memOk_unless h (memOk_afterReads h fun s h => by simp [h])

theorem resMemOk_dfill (w : DX) : ResMemOk (execDfill w s) := by
  unfold execDfill
  exact resMemOk_dataRun h _ _ _ _ fun ds k s h => memOk_unless h (by simp [h])

theorem resMemOk_datom (w : DX) : ResMemOk (execDatom w s) := by
  unfold execDatom
  exact resMemOk_dataRun h _ _ _ _ fun ds k s h => memOk_unless h (by
    dsimp only
    split
    · simp [h]
    · refine memOk_afterReads h fun s h => ?_
      rw [memOk_dataOut, memOk_chkIf]
      exact memOk_ite (by simp [h]) (by simp [h]))

theorem resMemOk_dataSrel (w : DX) : ResMemOk (execDataSrel w s) := by
  unfold execDataSrel
  exact resMemOk_dataRun h _ _ _ _ fun ds k s h => memOk_unless h (by split <;> simp [h])

theorem resMemOk_dataSacq (w : DX) : ResMemOk (execDataSacq w s) := by
  unfold execDataSacq
  exact resMemOk_dataRun h _ _ _ _ fun ds k s h => memOk_unless h (by
    dsimp only
    split
    · simp [h]
    · exact memOk_afterReads h fun s h => memOk_ite (by simp [h]) (by simp [h]))

theorem resMemOk_afence (w : DX) : ResMemOk (execAfence w s) := by
  unfold execAfence
  exact resMemOk_dataRun h _ _ _ _ fun ds k s h => by simp [h]

theorem resMemOk_mfbuild (w : DX) : ResMemOk (execMfbuild w s) := by
  unfold execMfbuild
  exact resMemOk_dataRun h _ _ _ _ fun ds k s h => memOk_unless h (memOk_afterReads h fun s h => memOk_unless h (by
    dsimp only
    split
    · simp [h]
    · exact memOk_ite (by simp [h]) (by simp [h])))

theorem resMemOk_mfread (w : DX) : ResMemOk (execMfread w s) := by
  unfold execMfread
  exact resMemOk_dataRun h _ _ _ _ fun ds k s h => memOk_unless h (memOk_afterReads h fun s h => memOk_unless h
    (memOk_ite (by simp [h]) (by simp [h])))

theorem resMemOk_cmfetch (w : DX) : ResMemOk (execCmfetch w s) := by
  unfold execCmfetch
  exact resMemOk_dataRun h _ _ _ _ fun ds k s h => memOk_unless h (by
    dsimp only
    split <;> simp [h])

theorem resMemOk_tsupd (w : DX) : ResMemOk (execTsupd w s) := by
  unfold execTsupd
  exact resMemOk_dataRun h _ _ _ _ fun ds k s h => memOk_unless h (memOk_afterReads h fun s h => memOk_unless h (by
    dsimp only
    split
    · simp [h]
    split
    · simp [h]
    case h_2 e => simp [memOk_holdAll h e]))

/-! ### Xquay, commands, requests and events that replace memory -/

theorem resMemOk_qfetch (rd rs1 rs2 : BitVec 5) : ResMemOk (execQfetch rd rs1 rs2 s) := by
  unfold execQfetch
  refine resMemOk_ite (by simp [State.xquayFault, h]) (resMemOk_ite (by simp [State.xquayFault, h]) ?_)
  split
  · simp [h]
  case h_2 e => simp [memOk_fetchHead h e]

theorem resMemOk_qwait (rd rs1 rs2 : BitVec 5) : ResMemOk (execQwait rd rs1 rs2 s) := by
  unfold execQwait
  exact resMemOk_ite (by simp [State.xquayFault, h]) (resMemOk_ite (by simp [h]) (by simp [h]))

theorem resMemOk_qdisp (rd rs1 rs2 : BitVec 5) : ResMemOk (execQdisp rd rs1 rs2 s) := by
  unfold execQdisp
  simp only [State.xquayFault]
  exact resMemOk_ite (by simp [h]) (resMemOk_ite (by simp [h]) (resMemOk_ite (by simp [h]) (resMemOk_ite (by simp [h]) (by simp [h]))))

theorem savedMemOk_saveFor {pa : Nat} {im : Memory} {sv : Saved} (e : s.saveFor pa im = some sv) : sv.memOk := by
  unfold State.saveFor State.saveAt at e
  split at e
  · split at e
    case h_1 v hv =>
      cases e
      exact h.saves v (List.mem_of_find?_eq_some hv)
    · cases e
  · cases e

theorem resMemOk_armed : ResMemOk (execArmed s) := by
  unfold execArmed
  refine resMemOk_ite (by simp [h]) (resMemOk_ite (by simp [h]) (resMemOk_ite ?_ (by simp [memOk_launch h])))
  split
  case h_1 e => simp [memOk_restoreGang h _ (savedMemOk_saveFor h e)]
  · simp [memOk_launch h]

theorem resMemOk_groupSet : ResMemOk (execGroupSet s) := by
  unfold execGroupSet
  exact resMemOk_mboxWrite h _ _ fun _ => by simp [h]

theorem resMemOk_aperSet : ResMemOk (execAperSet s) := by
  unfold execAperSet
  exact resMemOk_mboxWrite h _ _ fun _ => by simp [h]

theorem resMemOk_layerSet : ResMemOk (execLayerSet s) := by
  unfold execLayerSet
  exact resMemOk_mboxWrite h _ _ fun _ => by simp [h]

theorem resMemOk_berthCtl : ResMemOk (execBerthCtl s) := by
  unfold execBerthCtl
  exact resMemOk_mboxWrite h _ _ fun _ => by simp [h]

theorem resMemOk_grantSet : ResMemOk (execGrantSet s) := by
  unfold execGrantSet
  exact resMemOk_mboxWrite h _ _ fun _ => by simp [h]

theorem resMemOk_peerwinSet : ResMemOk (execPeerwinSet s) := by
  unfold execPeerwinSet
  exact resMemOk_mboxWrite h _ _ fun _ => by simp [h]

theorem resMemOk_powerCap : ResMemOk (execPowerCap s) := by
  unfold execPowerCap
  exact resMemOk_mboxWrite h _ _ fun _ => by simp [h]

theorem resMemOk_rasRead : ResMemOk (execRasRead s) := by
  unfold execRasRead
  refine resMemOk_mboxRun h _ fun _ => ?_
  dsimp only
  split <;> simp [h]

theorem resMemOk_inboundWrite (rid : BitVec 16) (bar : BitVec 3) (off : Nat) (data : List Byte) (relaxed : Bool) :
    ResMemOk (execInboundWrite rid bar off data relaxed s) := by
  unfold execInboundWrite
  refine resMemOk_ite (resMemOk_ite (by simp [h]) (by simp [h])) ?_
  split <;> simp [h]

theorem resMemOk_inboundRead (rid : BitVec 16) (bar : BitVec 3) (off len : Nat) : ResMemOk (execInboundRead rid bar off len s) := by
  unfold execInboundRead
  refine resMemOk_ite (by simp [h]) ?_
  split <;> simp [h]

theorem resMemOk_flush : ResMemOk (execFlush s) := by
  unfold execFlush
  exact resMemOk_decCommand h _ fun _ _ h => memOk_emitAll (by simp [h]) ..

theorem resMemOk_decoderReset : ResMemOk (execDecoderReset s) := by
  unfold execDecoderReset
  exact resMemOk_decCommand h _ fun _ _ h => by simp [h]

theorem resMemOk_healthy : ResMemOk (execHealthy s) := by
  have hput := memOk_putBoot h { (bootState s.fleet.flash).set s.fleet.slot 0 true with pref := s.fleet.slot }
  unfold execHealthy
  refine resMemOk_ite (by simp [h]) ?_
  dsimp only
  generalize s.putBoot _ = t at hput
  split <;> rw [resMemOk_ok]
  · exact hput
  · exact memOk_withFleet hput hput.flash

theorem resMemOk_pldmUpdate (capsule : Bool) (bytes : List Byte) : ResMemOk (execPldmUpdate capsule bytes s) := by
  have hflash : ∀ a bs, (mwriteL s.fleet.flash a bs).wf = true := fun _ _ => mwriteL_wf h.flash
  unfold execPldmUpdate
  refine resMemOk_ite (by simp [h]) ?_
  simp only [resMemOk_ok, memOk_mk, hflash]
  exact ⟨h.cores, h.saves, h.mem, h.sram, trivial⟩

theorem resMemOk_activation : ResMemOk (execActivation s) := by
  unfold execActivation
  exact resMemOk_ite (by simp [h]) ((resMemOk_ok _).2 (memOk_restart (memOk_putBoot h _) _))

theorem resMemOk_thermalShutdown : ResMemOk (execThermalShutdown s) := by
  have hopen : ((s.rasOpen 8).setFresh 0).memOk := by simp [h]
  have hz := memOk_reset
  unfold execThermalShutdown
  refine resMemOk_ite (by simp [h]) ?_
  rw [resMemOk_ok]
  exact ⟨hz.cores, fun v hv => absurd hv List.not_mem_nil, ⟨hz.mem.1, hz.mem.2.1, hz.mem.2.2.1, hopen.mem.2.2.2⟩, hopen.sram, hopen.flash⟩

theorem resMemOk_powerCapControl : ResMemOk (execPowerCapControl s) := by
  unfold execPowerCapControl
  dsimp only
  have hon : ∀ (t : State) b, t.memOk → ({ t with cur := { t.cur with arg := b } } : State).memOk := fun t b ht => by simpa using ht
  have hhold : ∀ (l : List Nat) {t : State}, t.memOk → (l.foldl (fun s b => ({ s with cur := { s.cur with arg := b } } : State).trigHold) t).memOk :=
    fun l _ ht => memOk_foldl_of (fun t b ht => memOk_trigHold (hon t b ht)) l ht
  have hfree : ∀ (l : List Nat) {t : State}, t.memOk → (l.foldl (fun s b => ({ s with cur := { s.cur with arg := b } } : State).trigRelease) t).memOk :=
    fun l _ ht => memOk_foldl_of (fun t b ht => memOk_trigRelease (hon t b ht)) l ht
  have hfleet : ∀ (t : State) l, t.memOk → ({ t with fleet := { t.fleet with heldBy := l } } : State).memOk := fun t l ht => memOk_withFleet ht ht.flash
  refine resMemOk_ite (resMemOk_ite (by simp [h]) ?_) ?_ <;> rw [resMemOk_ok, memOk_setFresh]
  · refine hfleet _ _ (memOk_ite ?_ ((memOk_rasOpen ..).2 ?_)) <;> exact hhold _ (memOk_ite (by simp [h]) h)
  · refine memOk_ite ((memOk_clockIn ..).2 ?_) ?_ <;> exact hfleet _ _ (hfree _ h)

end

end Sys2Proof.Machine

namespace Sys2Proof.Machine

/-! ## Outcomes of all -/

/-- The meaning of each instruction and event keeps every memory canonical. -/
theorem resMemOk_exec {s : State} (h : s.memOk) (i : Instr) : ResMemOk (exec i s) := by
  cases i
  all_goals unfold exec
  case add | sub | and_ | or_ | xor | andn | orn | sll | srl | sra | slt | sltu | min_ | max_ | minu | maxu | mul | mulh | mulhu | mulhsu |
      clz | ctz | popc | rol | ror | addi | andi | ori | xori | slti | sltiu | slli | srli | srai | lui | shori | muli =>
    exact resMemOk_aluRun h ..
  case ldSp1 | ldSp2 | ldSp3 => exact resMemOk_ldSp h ..
  case ldG | ldAp => exact resMemOk_ldGlobal h ..
  case stSp1 | stSp2 | stSp3 => exact resMemOk_stSp h ..
  case stG | stAp => exact resMemOk_stGlobal h ..
  case beq | bne | blt | bge | bltu | bgeu | bmz | bmnz => exact resMemOk_brRun h ..
  case j | jal | jr | trap | dset | yield | chkerr | waitg | tesc | tsupply | notify | halt | gbar | qfence | sfifo | lslot | chmap |
      reservedSequencerEncoding =>
    exact resMemOk_seqRun h (by simp [h])
  case dbind | dunbind | play =>
    refine resMemOk_seqRun h ?_
    dsimp only
    repeat' split
    all_goals simp [h]
  case srel | mfs | mts =>
    refine resMemOk_seqRun h ?_
    split
    all_goals simp [h]
  case swait | sacq => exact resMemOk_waitRun h ..
  case tret | tretSkip | tretRb => exact resMemOk_tretRun h ..
  case phase | pabort | pabortR => exact resMemOk_pointRun h ..
  case errinj | promo | cktol | nprof | mainpc => exact resMemOk_mtsRun h ..
  case vadd | vsub | vmul | vmulh | vmac | vadds | vsubs | vabs | vneg | vmin | vmax | vabsd => exact resMemOk_vecInt h ..
  case vaddi | vli | vlih | vandi | vshli | vshri | vsrai => exact resMemOk_vecI h ..
  case vand | vor | vxor | vnot | vshl | vshr | vsra | vrot | vfsh | vbfx | vbfi | vpopc | vclz => exact resMemOk_vecBits h ..
  case vcmp | vfcmp => exact resMemOk_vecCmp h ..
  case vcmpi => exact resMemOk_vcmpi h _
  case vcvt => exact resMemOk_vcvt h _
  case vbcst => exact resMemOk_vbcst h _
  case vbcs => exact resMemOk_vbcs h _
  case vdotp => exact resMemOk_vdotp h _
  case mpush | minv | mpop | mclr => exact resMemOk_vecMask h ..
  case vsel => exact resMemOk_vsel h _
  case vfadd | vfsub | vfmul | vfma | vfms | vfsqrt | vfmin | vfmax | vfminp | vfmaxp | vfabs | vfneg => exact resMemOk_vecFlt h ..
  case vrcp | vrsq | vexp2 | vlog2 => exact resMemOk_vecTable h ..
  case vradd | vrmin | vrmax | vrfadd | vrfmin | vrfmax | vrand | vror | vrxor => exact resMemOk_vecReduce h ..
  case vperm | vrev | vmov => exact resMemOk_vecPerm h ..
  case vslup | vsldn | vzip | vuzp => simp only [execVslup, execVsldn, execVzip, execVuzp]; exact resMemOk_vecPerm h ..
  case vins => exact resMemOk_vins h _
  case vld | vldx | vlut => exact resMemOk_vmLoad h ..
  case vst => exact resMemOk_vst h _
  case engineNotify | engineQfence | wait | nop | mzero | mckset | locfix | mretry | unassignedEngineOpcode =>
    exact resMemOk_engRun h (by simp [h])
  case mload | mdrain | wxload =>
    refine resMemOk_engRun h ?_
    dsimp only
    repeat' split
    all_goals simp [h]
  case mmul | mlata => exact resMemOk_matProduct h ..
  case mmuls => exact resMemOk_mmuls h _
  case mlatx => exact resMemOk_mlatx h _
  case tmov => exact resMemOk_tmov h _
  case dload => exact resMemOk_dload h _
  case dstore => exact resMemOk_dstore h _
  case dphst => exact resMemOk_dphst h _
  case dgather => exact resMemOk_dgather h _
  case dscatter => exact resMemOk_dscatter h _
  case dmcast => exact resMemOk_dmcast h _
  case dcomp => exact resMemOk_dcomp h _
  case dexp => exact resMemOk_dexp h _
  case dtrans => exact resMemOk_dtrans h _
  case dfill => exact resMemOk_dfill h _
  case datom => exact resMemOk_datom h _
  case dataSrel => exact resMemOk_dataSrel h _
  case dataSacq => exact resMemOk_dataSacq h _
  case afence => exact resMemOk_afence h _
  case mfbuild => exact resMemOk_mfbuild h _
  case mfread => exact resMemOk_mfread h _
  case cmfetch => exact resMemOk_cmfetch h _
  case tsupd => exact resMemOk_tsupd h _
  case qfetch => exact resMemOk_qfetch h ..
  case qbfx | qbfxS => exact resMemOk_bfxRun h ..
  case qwait => exact resMemOk_qwait h ..
  case qdisp => exact resMemOk_qdisp h ..
  case rankLdi | rankLdf | rankAdd | rankSub | rankMulsh | rankShl | rankShr | rankMin | rankSmax | rankAnd | rankOr | rankSltu =>
    exact resMemOk_rankSet h ..
  case queueOff | queueRun | queueRunSkip | queueDrain => exact resMemOk_queueRunTo h ..
  case frame | nopPacket | indirect | waitv | mark => exact resMemOk_fetchRun h ..
  case frespResume => exact resMemOk_frespResume h
  case frespRollback => exact resMemOk_frespRollback h
  case frespForcedSave => exact resMemOk_frespForcedSave h
  case frespAbort => exact resMemOk_frespAbort h
  case globalWritePerformed | homeUpdate => exact resMemOk_homeEvent h ..
  case release => exact resMemOk_release h
  case creditReturn => exact resMemOk_creditReturn h
  case barrierRelease => exact resMemOk_barrierRelease h
  case yieldRelease => exact resMemOk_yieldRelease h
  case forcedSave => exact resMemOk_forcedSave h
  case sacqComplete => exact resMemOk_sacqComplete h
  case armed => exact resMemOk_armed h
  case groupSet => exact resMemOk_groupSet h
  case aperSet => exact resMemOk_aperSet h
  case layerSet => exact resMemOk_layerSet h
  case berthCtl => exact resMemOk_berthCtl h
  case grantSet => exact resMemOk_grantSet h
  case peerwinSet => exact resMemOk_peerwinSet h
  case powerCap => exact resMemOk_powerCap h
  case rasRead => exact resMemOk_rasRead h
  case inboundWrite => exact resMemOk_inboundWrite h ..
  case inboundRead => exact resMemOk_inboundRead h ..
  case flush => exact resMemOk_flush h
  case decoderReset => exact resMemOk_decoderReset h
  case healthy => exact resMemOk_healthy h
  case pldmUpdate => exact resMemOk_pldmUpdate h ..
  case activation => exact resMemOk_activation h
  case thermalShutdown => exact resMemOk_thermalShutdown h
  case powerCapControl => exact resMemOk_powerCapControl h
  all_goals
    simp only [execAper, execRegisterWrite, execTrapEntry, execHandlerDeadline, execHoldWave, execReleaseWave, execGangStart,
      execPassageStart, execPlayQueueRoom, execWaitgExpiry, execWaitExpiry, execSpWriteLands, execGlobalReadArrival, execSeqLoadBudgetExpiry,
      execChannelEntryLands, execDmcastArrival, execPhasePointRelease, execYieldreq,
      execPdlExpiry, execCombinerFires, execRunLimitExpiry, execUncorrectableError, execCorrectableError, execFetchAheadError,
      execPageUnpin, execDbindComplete, execHostAmoRelease, execHostLrAcquire, execMdrainEntryLands, execChecksumVerdict,
      execErrinjApply, execAtomicReturn, execMfbuildDirectoryCheck, execBuilderService, execManifestLands,
      execQwaitComplete, execRankEnd, execRankStq, execRank, execRankctlLoad, execTail, execWaitvSatisfied, execGroupTableWrite,
      execAbort, execHold, execBindRelease, execBindYieldreq, execCoaltExpiry, execDoorbell, execDone, execSelfTest, execHostAccess,
      execInboundAtomicop, execEthernetReceive, execEthernetTransmit, execXtscap, execDecoderTail,
      execDecoderRun, execDecode, execDecodeResume, execPowerOn, execGetCerts, execChallenge,
      execTestButtonShort, execTestButtonLong, execSelfTestVerdict, execSensorRefresh, execThermalCritical,
      execReset, execPowerLoss, execAutoNegotiation, execTableWalkFinished, execPilotInterrupt]
  all_goals repeat' split
  all_goals simp [h]

end Sys2Proof.Machine

namespace Sys2Proof.Machine

/-! ## Turns, moves and the step -/

/-- The state that a turn has made ready is canonical. -/
structure TurnMemOk (o : Option Turn) : Prop where
  turn : ∀ x, o = some x → x.1.memOk

@[simp] theorem turnMemOk_none : TurnMemOk none := ⟨fun _ e => by cases e⟩

@[simp] theorem turnMemOk_some (s : State) (i : Instr) : TurnMemOk (some (s, i)) ↔ s.memOk :=
  ⟨fun h => h.turn _ rfl, fun h => ⟨fun _ e => by cases e; exact h⟩⟩

@[simp] theorem turnMemOk_ev (s : State) (k arg : Nat) (i : Instr) : TurnMemOk (s.ev k arg i) ↔ s.memOk := by simp [State.ev]
@[simp] theorem turnMemOk_pev (s : State) (arg : Nat) (i : Instr) : TurnMemOk (s.pev arg i) ↔ s.memOk := by simp [State.pev]

theorem turnMemOk_of_mem {l : List Turn} {o : Option Turn} (hl : ∀ x ∈ l, x.1.memOk) (ho : ∀ x, o = some x → x ∈ l) : TurnMemOk o :=
  ⟨fun x e => hl x (ho x e)⟩

theorem turnMemOk_ite {p : Prop} [Decidable p] {a b : Option Turn} (ha : TurnMemOk a) (hb : TurnMemOk b) : TurnMemOk (if p then a else b) := by
  split <;> assumption

theorem turnMemOk_turnIf {b : Bool} {t : Option Turn} (ht : TurnMemOk t) : TurnMemOk (turnIf b t) := turnMemOk_ite ht turnMemOk_none

theorem turnMemOk_firstTurn {l : List (Option Turn)} (hl : ∀ t ∈ l, TurnMemOk t) : TurnMemOk (firstTurn l) := by
  induction l with
  | nil => exact turnMemOk_none
  | cons t r ih =>
    obtain ⟨ht, hr⟩ := List.forall_mem_cons.1 hl
    cases t with
    | none => exact ih hr
    | some x => exact ht

theorem turnMemOk_findSome {α : Type} {f : α → Option Turn} (hf : ∀ a, TurnMemOk (f a)) (l : List α) : TurnMemOk (l.findSome? f) :=
  ⟨fun x e => by
    obtain ⟨a, -, ha⟩ := List.exists_of_findSome?_eq_some e
    exact (hf a).turn x ha⟩

theorem turnMemOk_fencesLast {l : List Turn} (hl : ∀ x ∈ l, x.1.memOk) : TurnMemOk (fencesLast l) := by
  refine turnMemOk_of_mem hl fun x e => ?_
  unfold fencesLast at e
  split at e
  case h_1 t ht => cases e; exact List.mem_of_find?_eq_some ht
  · exact List.mem_of_head? e

section Turns

variable {s : State} (h : s.memOk)

include h

/-! ### Gangs and homes -/

theorem turnMemOk_gangTurn (g : Gang) : TurnMemOk (s.gangTurn g) := by
  have hhold : ∀ r, TurnMemOk (s.holdTurn g r) := fun r => by
    unfold State.holdTurn
    split
    · simp [h]
    · refine turnMemOk_firstTurn ?_
      simp [turnMemOk_turnIf, h]
  have hrel : TurnMemOk (s.releaseTurn g) := turnMemOk_findSome (fun k => by
    split
    · split
      · exact turnMemOk_turnIf (by simp [h])
      · simp
    · simp) _
  have hpoint : TurnMemOk (s.pointTurn g) := by
    refine turnMemOk_firstTurn ?_
    simp only [List.forall_mem_cons, List.not_mem_nil, false_implies, implies_true, and_true]
    constructor <;> split <;> simp [turnMemOk_turnIf, h]
  have hreq : TurnMemOk (s.requestTurn g) := by
    unfold State.requestTurn
    split <;> simp [turnMemOk_turnIf, h]
  unfold State.gangTurn
  refine turnMemOk_ite (turnMemOk_turnIf (by simp [h])) (turnMemOk_firstTurn ?_)
  simp only [List.forall_mem_cons, List.not_mem_nil, false_implies, implies_true, and_true]
  refine ⟨hrel, turnMemOk_turnIf (by simp [h]), turnMemOk_turnIf (by simp [h]), ?_, turnMemOk_turnIf (by simp [h]), hpoint, hreq⟩
  split <;> simp [hhold]

theorem turnMemOk_opTurn (o : GOp) : TurnMemOk (s.opTurn o) := by
  unfold State.opTurn
  split
  case h_4 => exact turnMemOk_ite (turnMemOk_turnIf (by simp [h])) (turnMemOk_turnIf (by simp [h]))
  all_goals exact turnMemOk_turnIf (by simp [h])

theorem turnMemOk_barrierTurn : TurnMemOk s.barrierTurn := turnMemOk_findSome (fun k => by
  split
  · exact turnMemOk_turnIf (by simp [h])
  · simp) _

/-! ### Units of cores -/

theorem turnMemOk_seqTurn (k : Nat) : TurnMemOk (s.seqTurn k) := by
  unfold State.seqTurn
  dsimp only
  split
  · simp [h]
  refine turnMemOk_ite (by simp) ?_
  split
  · simp [h]
  · exact turnMemOk_turnIf (by simp [h])

theorem turnMemOk_seqWake (k : Nat) : TurnMemOk (s.seqWake k) := by
  unfold State.seqWake
  dsimp only
  split <;> simp [turnMemOk_turnIf, h]

theorem turnMemOk_engWake (k : Nat) (shadow : Bool) (u : Eng) : TurnMemOk (s.engWake k shadow u) := by
  unfold State.engWake
  exact turnMemOk_ite (by simp [h]) (turnMemOk_ite (by simp [h]) (by simp))

theorem turnMemOk_engTurn (k : Nat) (shadow : Bool) (u : Eng) : TurnMemOk (s.engTurn k shadow u) := by
  unfold State.engTurn
  refine turnMemOk_ite (by simp) (turnMemOk_ite (by simp [h]) ?_)
  split <;> simp [h]

theorem turnMemOk_verdictTurn (k : Nat) (shadow : Bool) : TurnMemOk (s.verdictTurn k shadow) := by
  unfold State.verdictTurn
  dsimp only
  split <;> simp [h]

theorem turnMemOk_drainTurn (k : Nat) (shadow : Bool) : TurnMemOk (s.drainTurn k shadow) := turnMemOk_turnIf (by simp [h])

theorem turnMemOk_unitTurn (k u : Nat) : TurnMemOk (s.unitTurn k u) := by
  unfold State.unitTurn
  split
  · exact turnMemOk_seqTurn h k
  · exact turnMemOk_engTurn h ..
  · exact turnMemOk_verdictTurn h ..
  · exact turnMemOk_drainTurn h ..
  · exact turnMemOk_engTurn h ..
  · exact turnMemOk_engTurn h ..

theorem memOk_of_mem_issuing {k : Nat} {x : Nat × Turn} (hx : x ∈ s.issuing k) : x.2.1.memOk := by
  obtain ⟨u, -, hu⟩ := List.mem_filterMap.1 hx
  obtain ⟨t, ht, rfl⟩ := Option.map_eq_some_iff.1 hu
  exact (turnMemOk_unitTurn h k u).turn t ht

theorem turnMemOk_memberTurn (k : Nat) : TurnMemOk (s.memberTurn k) := by
  have hissue : ∀ l : List (Nat × Turn), (∀ x ∈ l, x ∈ s.issuing k) → ∀ y ∈ l.map (·.2), y.1.memOk := fun l hl y hy => by
    obtain ⟨x, hx, rfl⟩ := List.mem_map.1 hy
    exact memOk_of_mem_issuing h (hl x hx)
  unfold State.memberTurn
  refine turnMemOk_firstTurn ?_
  simp only [List.forall_mem_cons, List.not_mem_nil, false_implies, implies_true, and_true]
  refine ⟨turnMemOk_seqWake h k, turnMemOk_engWake h .., turnMemOk_engWake h .., turnMemOk_engWake h .., ?_⟩
  split
  case h_1 x hx => exact (turnMemOk_some ..).2 (memOk_of_mem_issuing h (List.mem_of_find?_eq_some hx))
  split
  · exact turnMemOk_fencesLast (hissue _ fun x hx => hx)
  · exact turnMemOk_fencesLast (hissue _ fun x hx => List.mem_of_mem_filter hx)

theorem turnMemOk_pilotTurn (k : Nat) : TurnMemOk (s.pilotTurn k) := by
  unfold State.pilotTurn
  exact turnMemOk_ite (turnMemOk_turnIf (by simp [h])) (turnMemOk_ite (turnMemOk_turnIf (by simp [h]))
    (turnMemOk_ite (turnMemOk_turnIf (by simp [h])) (by simp [h])))

theorem turnMemOk_shadowTurn (k : Nat) : TurnMemOk (s.shadowTurn k) := by
  unfold State.shadowTurn
  refine turnMemOk_ite (by simp) (turnMemOk_ite (by simp [h]) (turnMemOk_ite (turnMemOk_turnIf (by simp [h])) (turnMemOk_firstTurn ?_)))
  simp only [List.forall_mem_cons, List.not_mem_nil, false_implies, implies_true, and_true]
  refine ⟨turnMemOk_engWake h .., turnMemOk_engWake h .., turnMemOk_engWake h .., turnMemOk_fencesLast fun x hx => ?_⟩
  obtain ⟨o, ho, hx⟩ := List.mem_filterMap.1 hx
  have hall : TurnMemOk o := by
    simp only [List.mem_cons, List.not_mem_nil, or_false] at ho
    rcases ho with rfl | rfl | rfl | rfl | rfl | rfl
    · refine turnMemOk_ite (by simp) (turnMemOk_ite (turnMemOk_pilotTurn h k) ?_)
      split <;> simp [h]
    exacts [turnMemOk_engTurn h .., turnMemOk_verdictTurn h .., turnMemOk_drainTurn h .., turnMemOk_engTurn h .., turnMemOk_engTurn h ..]
  exact hall.turn x hx

theorem turnMemOk_stalledDrain (k : Nat) : TurnMemOk (s.stalledDrain k) := by
  unfold State.stalledDrain
  dsimp only
  split
  · split
    · exact turnMemOk_turnIf (by simp [h])
    · simp
  · simp

end Turns

theorem memOk_lateGate {t : Turn} (h : t.1.memOk) : (State.lateGate t).1.memOk := by
  unfold State.lateGate
  split
  · exact h
  dsimp only
  split
  · exact h
  split
  · split
    · exact h
    · simpa using h
  · exact h

section Turns

variable {s : State} (h : s.memOk)

include h

theorem turnMemOk_coreTurn (k : Nat) : TurnMemOk (s.coreTurn k) := by
  have hgate : ∀ o : Option Turn, TurnMemOk o → TurnMemOk (o.map State.lateGate) := fun o ho => ⟨fun x e => by
    obtain ⟨t, ht, rfl⟩ := Option.map_eq_some_iff.1 e
    exact memOk_lateGate (ho.turn t ht)⟩
  refine hgate _ (turnMemOk_ite (by simp) ?_)
  split
  · exact turnMemOk_memberTurn h k
  · refine turnMemOk_ite (by simp [h]) (turnMemOk_firstTurn ?_)
    simp [turnMemOk_stalledDrain h, turnMemOk_shadowTurn h]

theorem turnMemOk_landTurn (k : Nat) : TurnMemOk (s.landTurn k) := by
  unfold State.landTurn
  split
  · split <;> simp [h]
  · simp

theorem turnMemOk_coreTurns : TurnMemOk s.coreTurns := by
  have hev : ∀ (l : List Nat) (b : Nat → Bool) (k arg : Nat → Nat) (i : Instr), TurnMemOk (l.findSome? fun j => turnIf (b j) (s.ev (k j) (arg j) i)) :=
    fun l b k arg i => turnMemOk_findSome (fun j => turnMemOk_turnIf (by simp [h])) l
  unfold State.coreTurns
  refine turnMemOk_firstTurn ?_
  simp only [List.forall_mem_cons, List.not_mem_nil, false_implies, implies_true, and_true]
  exact ⟨turnMemOk_findSome (turnMemOk_gangTurn h) _, turnMemOk_findSome (fun w => turnMemOk_turnIf (by simp [h])) _, turnMemOk_barrierTurn h,
    turnMemOk_findSome (turnMemOk_opTurn h) _, turnMemOk_findSome (turnMemOk_coreTurn h) _, turnMemOk_findSome (turnMemOk_landTurn h) _,
    hev .., hev .., hev ..⟩

/-! ### The rest of the part -/

theorem turnMemOk_inputTurn : TurnMemOk s.inputTurn := by
  unfold State.inputTurn
  split <;> simp [h]

theorem turnMemOk_queueTurn : TurnMemOk s.queueTurn := turnMemOk_findSome (fun n => turnMemOk_firstTurn (by simp [turnMemOk_turnIf, h])) _

theorem turnMemOk_rankTurn : TurnMemOk s.rankTurn := by
  unfold State.rankTurn
  dsimp only
  split
  · simp
  · exact turnMemOk_turnIf (by simp [h])
  · refine turnMemOk_ite (by simp) ?_
    split
    · split <;> simp [h]
    · simp

theorem turnMemOk_fetcherTurn : TurnMemOk s.fetcherTurn := turnMemOk_findSome (fun f => by split <;> simp [h]) _

theorem turnMemOk_xquayTurn : TurnMemOk s.xquayTurn := by
  refine turnMemOk_findSome (fun k => turnMemOk_firstTurn ?_) _
  simp only [List.forall_mem_cons, List.not_mem_nil, false_implies, implies_true, and_true]
  refine ⟨turnMemOk_turnIf (by simp [h]), ?_⟩
  split
  · split <;> simp [h]
  · simp

theorem turnMemOk_decoderTurn : TurnMemOk s.decoderTurn := turnMemOk_ite (by simp) (turnMemOk_findSome (fun e => by
  split
  · simp [h]
  · refine turnMemOk_ite (by simp) ?_
    split <;> simp [h]) _)

theorem turnMemOk_sensorTurn : TurnMemOk s.sensorTurn :=
  turnMemOk_ite (by simp) (turnMemOk_ite (by simp [h]) (turnMemOk_ite (by simp [h]) (by simp [h])))

/-! ### The Pilot firmware -/

theorem turnMemOk_fwWrite (off : Nat) (v : Word) : TurnMemOk (s.fwWrite off v) := by simp [State.fwWrite, h]
theorem turnMemOk_fwFetch (n : Nat) : TurnMemOk (s.fwFetch n) := by simp [State.fwFetch, h]
theorem turnMemOk_fwDisp (berth : Nat) (b : Bind) : TurnMemOk (s.fwDisp berth b) := by simp [State.fwDisp, h]

theorem memOk_groupFor {d : Decision} {g : Nat} {cs : List Nat} {t : State} (e : s.groupFor d = some (g, cs, t)) : t.memOk := by
  unfold State.groupFor at e
  split at e
  · cases e; exact h
  · split at e
    · cases e; simp [h]
    · cases e
  · cases e

theorem turnMemOk_placeTurn (p : Popped) (d : Decision) : TurnMemOk (s.placeTurn p d) := by
  unfold State.placeTurn
  split
  case h_1 g cs t berth rs slot hg _ _ _ =>
    have ht := memOk_placeImage (memOk_groupFor h hg) berth rs
    generalize t.placeImage berth rs = x at ht
    exact turnMemOk_fwDisp (by simp [ht]) ..
  · simp

theorem turnMemOk_poppedTurn : TurnMemOk s.poppedTurn := turnMemOk_findSome (fun p => turnMemOk_ite (by simp) (turnMemOk_placeTurn h ..)) _

theorem turnMemOk_keepTurn : TurnMemOk s.keepTurn := by
  unfold State.keepTurn
  dsimp only
  split
  · exact turnMemOk_fwWrite (by simp [h]) ..
  · exact turnMemOk_turnIf (turnMemOk_fwWrite h ..)

theorem turnMemOk_doneTurn : TurnMemOk s.doneTurn := turnMemOk_findSome (fun _ => turnMemOk_turnIf (turnMemOk_fwWrite h ..)) _

theorem turnMemOk_postTurn : TurnMemOk s.postTurn := by
  unfold State.postTurn
  split
  · exact turnMemOk_fwFetch h _
  · simp [State.fwResponse, h]
  · simp

theorem turnMemOk_mailboxTurn : TurnMemOk s.mailboxTurn := turnMemOk_findSome (fun m => by
  refine turnMemOk_ite (turnMemOk_fwFetch h _) (turnMemOk_ite ?_ (turnMemOk_turnIf (by simp [h])))
  split <;> simp [h]) _

theorem turnMemOk_popTurn : TurnMemOk s.popTurn := by
  unfold State.popTurn
  split
  · exact turnMemOk_turnIf (turnMemOk_fwFetch h _)
  · simp

theorem turnMemOk_yieldTurn : TurnMemOk s.yieldTurn := by
  unfold State.yieldTurn
  refine turnMemOk_ite (turnMemOk_findSome (fun g => turnMemOk_turnIf (by simp [h])) _) ?_
  split
  · simp
  · split <;> simp [h]

theorem turnMemOk_classTurn : TurnMemOk s.classTurn := turnMemOk_turnIf (turnMemOk_fwWrite (by simp [h]) ..)

theorem turnMemOk_restoreTurn : TurnMemOk s.restoreTurn := by
  unfold State.restoreTurn
  refine turnMemOk_ite (by simp) (turnMemOk_findSome (fun x => turnMemOk_ite (by simp) ?_) _)
  dsimp only
  split
  case h_1 g cs t berth hg _ =>
    have ht := memOk_groupFor h hg
    exact turnMemOk_fwDisp (by simp [memOk_ite_iff, ht]) ..
  · simp

theorem turnMemOk_fwTurn : TurnMemOk s.fwTurn := by
  unfold State.fwTurn
  refine turnMemOk_ite (by simp) (turnMemOk_firstTurn ?_)
  have hready : TurnMemOk (if s.tide < s.pilot.fw.ready then none
      else firstTurn [s.keepTurn, s.doneTurn, s.postTurn, s.mailboxTurn, s.classTurn, s.popTurn, s.restoreTurn, s.yieldTurn]) := by
    refine turnMemOk_ite (by simp) (turnMemOk_firstTurn ?_)
    simp [turnMemOk_keepTurn h, turnMemOk_doneTurn h, turnMemOk_postTurn h, turnMemOk_mailboxTurn h, turnMemOk_classTurn h, turnMemOk_popTurn h,
      turnMemOk_restoreTurn h, turnMemOk_yieldTurn h]
  simp [turnMemOk_poppedTurn h, hready]

/-- What happens next in the part happens in a canonical state. -/
theorem turnMemOk_turn : TurnMemOk s.turn := by
  unfold State.turn
  refine turnMemOk_firstTurn ?_
  simp only [List.forall_mem_cons, List.not_mem_nil, false_implies, implies_true, and_true]
  exact ⟨turnMemOk_inputTurn h, turnMemOk_turnIf (by simp [h]), turnMemOk_ite (turnMemOk_coreTurns h) (by simp),
    turnMemOk_turnIf (turnMemOk_findSome (fun b => turnMemOk_turnIf (by simp [h])) _), turnMemOk_queueTurn h, turnMemOk_rankTurn h,
    turnMemOk_fetcherTurn h, turnMemOk_xquayTurn h, turnMemOk_decoderTurn h, turnMemOk_sensorTurn h, turnMemOk_fwTurn h⟩

end Turns

/-! ### What happens without an instruction of the part -/

/-- The state that a move leads to is canonical. -/
structure MoveMemOk (o : Option State) : Prop where
  move : ∀ t, o = some t → t.memOk

@[simp] theorem moveMemOk_none : MoveMemOk none := ⟨fun _ e => by cases e⟩
@[simp] theorem moveMemOk_some (s : State) : MoveMemOk (some s) ↔ s.memOk := ⟨fun h => h.move _ rfl, fun h => ⟨fun _ e => by cases e; exact h⟩⟩

theorem moveMemOk_ite {p : Prop} [Decidable p] {a b : Option State} (ha : MoveMemOk a) (hb : MoveMemOk b) : MoveMemOk (if p then a else b) := by
  split <;> assumption

theorem moveMemOk_map {α : Type} {f : α → State} (hf : ∀ a, (f a).memOk) (o : Option α) : MoveMemOk (o.map f) := by
  cases o <;> simp [hf]

theorem moveMemOk_findSome {α : Type} {f : α → Option State} {l : List α} (hf : ∀ a ∈ l, MoveMemOk (f a)) : MoveMemOk (l.findSome? f) :=
  ⟨fun t e => by
    obtain ⟨a, hl, ha⟩ := List.exists_of_findSome?_eq_some e
    exact (hf a hl).move t ha⟩

section Moves

variable {s : State} (h : s.memOk)

include h

theorem moveMemOk_baseMove : MoveMemOk s.baseMove :=
  moveMemOk_findSome fun k _ => moveMemOk_ite ((moveMemOk_some _).2 (memOk_rvStep h k)) (by simp)

theorem moveMemOk_hartMove : MoveMemOk s.hartMove := moveMemOk_ite (by simp) (moveMemOk_map (memOk_hartStep h) _)

theorem moveMemOk_dataAnew (k : Nat) (lane : Bool) : MoveMemOk (s.dataAnew k lane) := by
  unfold State.dataAnew
  split
  · simp
  refine moveMemOk_ite (by simp) ?_
  dsimp only
  split
  · exact (moveMemOk_some _).2 (memOk_ite (by simp [h]) (by simp [h]))
  · simp [h]

theorem moveMemOk_readMove : MoveMemOk s.readMove := moveMemOk_findSome fun k _ => by
  split
  case h_1 t e => exact (moveMemOk_some t).2 ((moveMemOk_dataAnew h k false).move t e)
  · exact moveMemOk_dataAnew h k true

theorem moveMemOk_lateMove : MoveMemOk s.lateMove := moveMemOk_findSome fun l _ => by
  have hgone : ({ s.dropOp l.id with late := s.late.filter fun x => x.id != l.id } : State).memOk := by
    have hd := (memOk_dropOp s l.id).2 h
    exact ⟨hd.cores, hd.saves, hd.mem, hd.sram, hd.flash⟩
  dsimp only
  split
  · exact (moveMemOk_some _).2 hgone
  refine moveMemOk_ite (by simp) ?_
  split
  · exact (moveMemOk_some _).2 ((memOk_takeLate ..).2 hgone)
  · exact (moveMemOk_some _).2 hgone

theorem moveMemOk_updateMove : MoveMemOk s.updateMove := by
  unfold State.updateMove
  split
  · exact moveMemOk_ite (by simp [h]) (by simp)
  · simp

theorem moveMemOk_answerMove : MoveMemOk s.answerMove := by
  unfold State.answerMove
  split
  · exact moveMemOk_ite (by simp [h]) (by simp)
  · simp

theorem moveMemOk_poppedRefusal : MoveMemOk s.poppedRefusal := moveMemOk_findSome fun p _ => by
  refine moveMemOk_ite (by simp) ?_
  split <;> simp [h]

theorem moveMemOk_testMove : MoveMemOk s.testMove :=
  moveMemOk_ite (by simp) (moveMemOk_ite (moveMemOk_ite (by simp [h]) (by simp)) (moveMemOk_ite
    (moveMemOk_ite (moveMemOk_map (fun _ => by simp [h]) _) (by simp)) (moveMemOk_ite (by simp [h]) (by simp))))

theorem moveMemOk_goldenMove : MoveMemOk s.goldenMove :=
  moveMemOk_ite (moveMemOk_map (fun _ => by simp [h]) _) (moveMemOk_ite (by simp [h]) (by simp))

theorem moveMemOk_fwMove : MoveMemOk s.fwMove := by
  have hfirst : MoveMemOk ([s.updateMove, s.answerMove].findSome? id) := moveMemOk_findSome (by
    simp [moveMemOk_updateMove h, moveMemOk_answerMove h])
  have hthen : MoveMemOk ([s.poppedRefusal, s.invalMove, s.testMove, s.goldenMove].findSome? id) := moveMemOk_findSome (by
    have hinval : MoveMemOk s.invalMove := moveMemOk_map (fun _ => by simp [h]) _
    simp [moveMemOk_poppedRefusal h, hinval, moveMemOk_testMove h, moveMemOk_goldenMove h])
  unfold State.fwMove
  split
  case h_1 t e => exact (moveMemOk_some t).2 (hfirst.move t e)
  refine moveMemOk_ite (by simp) ?_
  split
  case h_1 t e => exact (moveMemOk_some t).2 (hthen.move t e)
  · exact moveMemOk_ite (by simp [h]) (by simp)

end Moves

/-- A step from a state with canonical memories leads to one with canonical memories. -/
theorem memOk_step {s t : State} (h : s.memOk) (e : step s = .next t) : t.memOk := by
  have hmove : MoveMemOk ([s.baseMove, s.hartMove, s.readMove, s.lateMove, s.fwMove].findSome? id) := moveMemOk_findSome (by
    simp [moveMemOk_baseMove h, moveMemOk_hartMove h, moveMemOk_readMove h, moveMemOk_lateMove h, moveMemOk_fwMove h])
  unfold step at e
  split at e
  case h_1 x hx => exact (resMemOk_exec ((turnMemOk_turn h).turn x hx) _).next t e
  split at e
  case h_1 u hu => exact Host.Outcome.next.inj e ▸ hmove.move u hu
  · exact Host.Outcome.next.inj e ▸ memOk_tick h

/-- Settles O10, by what each part of a step does to the memories. -/
theorem memoryStaysCanonical : Obligations.MemoryStaysCanonical := fun _ _ h e => memOk_step h e

/-- Settles O9: the memories of the reset state are empty. -/
theorem memoryCanonicalAtReset : Obligations.MemoryCanonicalAtReset := memOk_reset

end Sys2Proof.Machine

namespace Sys2Proof.Machine

/-! ## DSET and the fields of a descriptor (R58, R60, R219) -/

theorem dsetIllegal_iff (d : Desc) (f : BitVec 5) (v : Word) :
    dsetIllegal d f.toNat v = true ↔ 15 ≤ f.toNat ∨ (f = 0 ∧ (5 ≤ v.toNat % 8 ∨ d.bound = true)) ∨ (f = 1 ∧ 12 ≤ v.toNat % 16) ∨
      (f = 2 ∧ 5 ≤ v.toNat % 8) ∨ ((f = 3 ∨ f = 14) ∧ d.shw = true) := by
  simp [dsetIllegal, ← BitVec.toNat_inj, or_assoc]

theorem descriptorSets : Claims.DescriptorSets := by
  intro s n f a h
  have hrun : exec (.dset n f a) s = .next (if dsetIllegal (s.desc n.toNat) f.toNat (s.rd a) then s.illegal (.dset n f a)
      else (s.addLat 0 2 (.dfield n.toNat f.toNat (s.rd a))).next1) := by
    rw [exec, execDset, seqRun_issue h]
  refine ⟨fun hgood => ?_, fun hbad => ?_⟩
  · rw [hrun, if_neg (mt (dsetIllegal_iff ..).1 hgood)]
  · rw [hrun, if_pos ((dsetIllegal_iff ..).2 hbad)]; rfl

/-- A field written leaves what DBIND keeps in a descriptor, and the bank of its double buffer. -/
theorem keeps_setField (d : Desc) (f : Nat) (v : Word) :
    (d.setField f v).bound = d.bound ∧ (d.setField f v).pins = d.pins ∧ (d.setField f v).bank = d.bank := by
  unfold Desc.setField
  split <;> exact ⟨rfl, rfl, rfl⟩

theorem descs_landReg_dfield (c : Core) (n f : Nat) (v : Word) :
    (c.landReg (.dfield n f v)).descs = lmod c.descs n Desc.zero fun d => d.setField f v := rfl

theorem descriptorFields : Claims.DescriptorFields := by
  refine fun c d v => ⟨rfl, rfl, rfl, rfl, rfl, rfl, rfl, rfl, rfl, rfl, rfl, rfl, rfl, rfl, rfl, fun f => keeps_setField d f v,
    fun n f => ⟨rfl, ?_, fun m hm => ?_⟩⟩ <;> rw [descs_landReg_dfield]
  · exact lget_lmod_same ..
  · exact lget_lmod_other _ _ _ _ _ hm

/-- Settles O23: DSET refuses what R60 lists, and its write, when it lands, sets one field of one descriptor. -/
theorem descriptors : Obligations.Descriptors := ⟨descriptorSets, descriptorFields⟩

end Sys2Proof.Machine

namespace Sys2Proof.Machine

/-! ## DBIND, its walk and its end; DUNBIND; pages unpinned (R68 to R71, R220, R221) -/

/-- The issue cycle and the wait of a main sequencer that an instruction leaves waiting. -/
theorem seq_waitOn_next {s : State} (hs : s.cur.shadow = false) (w : Wait) (e : Nat) :
    ((s.waitOn w).modCtx fun c => { c with next := e }).me.seq.next = e ∧ ((s.waitOn w).modCtx fun c => { c with next := e }).me.seq.wait = w := by
  have hc : (s.waitOn w).cur.shadow = false := by simpa [State.waitOn] using hs
  have hn : s.next1.cur.shadow = false := by simpa using hs
  rw [me_modCtx, hc, State.waitOn, me_modCtx, hn]
  exact ⟨rfl, rfl⟩

theorem cur_dunbind (s : State) (n : Nat) : (s.dunbind n).cur = s.cur := by
  unfold State.dunbind
  split <;> rfl

/-- An unbinding changes effects in flight and page releases alone. -/
theorem run_dunbind (s : State) (n : Nat) : (s.dunbind n).me.run = s.me.run := by
  have hunpin : (s.startUnpin s.cur.core n).me.run = s.me.run := by
    rw [State.me, State.startUnpin, State.cur_modCore, State.core_modCore]; rfl
  unfold State.dunbind
  split
  · rw [State.addLat, State.me_addPend, hunpin]
  · rfl

/-- The checks that DBIND makes before those of R63. -/
theorem dbind_reaches {s : State} {d : Desc} (hl : d.level = 3 ∨ (d.level = 4 ∧ s.aperValid d.apidx.toNat = true)) :
    ¬ (d.level != 3 && d.level != 4) = true ∧ ¬ (d.level = 4 && !s.aperValid d.apidx.toNat) = true := by
  rcases hl with h | ⟨h, hv⟩
  · simp [h]
  · simp [h, hv]

theorem bindingBegins : Claims.BindingBegins := by
  refine fun s n => ⟨fun h => ?bind, fun h => ?unbind⟩
  case bind =>
    have hs := shadow_of_mainOnly h
    have hrun : exec (.dbind n) s = execDbind n s := rfl
    intro d
    rw [hrun, execDbind, seqRun_issue h]
    refine ⟨fun h3 h4 => ?level, fun h4 hv => ?aperture, fun f hl hf => ?checks, fun hl hf => ?walks⟩
    case level => exact congrArg _ (if_pos (by simpa using ⟨h3, h4⟩))
    case aperture =>
      have hlevel : (s.desc n.toNat).level = 4 := h4
      have hvalid : s.aperValid (s.desc n.toNat).apidx.toNat = false := hv
      simp [hlevel, hvalid, permD]
    case checks =>
      obtain ⟨hlevel, hvalid⟩ := dbind_reaches hl
      have hfault : s.takesFault n.toNat { s.desc n.toNat with bound := true } = some f := hf
      dsimp only
      rw [if_neg hlevel, if_neg hvalid, hfault]
    case walks =>
      obtain ⟨hlevel, hvalid⟩ := dbind_reaches hl
      have hfault : s.takesFault n.toNat { s.desc n.toNat with bound := true } = none := hf
      intro u w
      have hu : u.cur.shadow = false := (congrArg Cur.shadow (cur_dunbind s n.toNat)).trans hs
      have hclk : u.clk = s.clk := by
        rw [State.clk, State.clk, hu, hs]
        exact congrArg Run.g (run_dunbind s n.toNat)
      have hseq := seq_waitOn_next (s := (u.newOp u.cur.core 0 .walk []).2) hu (.dbind n.toNat (u.clk + 6000 + 40 * w.2.1) u.nextId w.1 w.2.2)
        (u.clk + 6000 + 40 * w.2.1)
      dsimp only
      rw [if_neg hlevel, if_neg hvalid, hfault]
      exact ⟨_, rfl, hseq.1.trans (by rw [hclk, Nat.add_assoc]), hseq.2.trans (by rw [hclk])⟩
  case unbind =>
    have hrun : exec (.dunbind n) s = execDunbind n s := rfl
    rw [hrun, execDunbind, seqRun_issue h]
    refine ⟨fun hb => ?_, fun hb hf => ?_, fun f hb hf => ?_⟩
    · simp [State.dunbind, hb]
    · simp [State.dunbind, hb, hf]
    · simp [hb, hf]

section Ends
variable {s : State} {n e id : Nat} {pins : List Pin}

/-- The part without a walk that is over. -/
def State.withoutWalk (s : State) (id : Nat) : State := { s with gops := s.gops.filter fun (o : GOp) => o.id != id }

/-- A DBIND whose walk is over without a fault binds (R220). -/
theorem exec_dbindComplete_bound (hdone : ∀ o ∈ s.gops, o.id = id → o.done = true) (hw : s.me.seq.wait = .dbind n e id pins none) :
    exec .dbindComplete s = .next (((s.withoutWalk id).bumpPins pins true).modMe fun c =>
      { c with descs := lmod c.descs n Desc.zero fun d => { d with bound := true, pins := pins }
               seq := { c.seq with wait := .none, next := c.run.g } }) := by
  show execDbindComplete s = _
  rw [execDbindComplete, hw]
  exact if_neg (by simpa using hdone)

/-- One whose walk is over with a fault takes it as if it had issued again (R220). -/
theorem exec_dbindComplete_fault {c u i : Nat} (hdone : ∀ o ∈ s.gops, o.id = id → o.done = true)
    (hw : s.me.seq.wait = .dbind n e id pins (some (c, u, i))) :
    exec .dbindComplete s = .next (((s.withoutWalk id).modMe fun c => { c with seq := c.seq.backToDbind c.run.g }).takeFault
      { cause := c, sub := u, unit := 0, info := i, lat := false, skip := 0 }) := by
  show execDbindComplete s = _
  rw [execDbindComplete, hw]
  exact if_neg (by simpa using hdone)

/-- What the fault of a sequencer leaves of its descriptors, and its TREC in the main context. -/
theorem descs_takeFault (s : State) (f : FaultRec) : (s.takeFault f).me.descs = s.me.descs := by
  cases hs : s.cur.shadow with
  | false => rw [me_takeFault_main f hs]; rfl
  | true => rw [me_takeFault_shadow f hs]; split <;> rfl

/-- The part with a walk marked finished. -/
def State.walkDone (s : State) (id : Nat) : State :=
  { s with gops := s.gops.map fun (p : GOp) => if p.id = id then { p with done := true } else p }

theorem done_walkDone {id : Nat} {p : GOp} (hp : p ∈ (s.walkDone id).gops) (hid : p.id = id) : p.done = true := by
  obtain ⟨q, -, rfl⟩ := List.mem_map.1 hp
  by_cases hq : q.id = id
  · rw [if_pos hq]
  · rw [if_neg hq] at hid
    exact absurd hid hq

/-- TABLE_WALK_FINISHED for a DBIND that still waits marks its walk, whatever it ends of the core's stop (R220). -/
theorem exec_tableWalkFinished {o : GOp} (ho : (s.gops.find? fun o => o.id = s.cur.arg && o.kind = .walk) = some o)
    (hw : ∃ d x ps f, (s.core o.core).seq.wait = .dbind d x o.id ps f) :
    ∃ t, exec .tableWalkFinished s = .next t ∧ t.gops = (s.walkDone o.id).gops := by
  obtain ⟨d, x, ps, f, hw⟩ := hw
  show ∃ t, execTableWalkFinished s = .next t ∧ _
  simp only [execTableWalkFinished, ho, hw, decide_true, if_true]
  split
  · split
    · exact ⟨_, rfl, gops_endSource ..⟩
    · exact ⟨_, rfl, rfl⟩
  · exact ⟨_, rfl, rfl⟩

end Ends

theorem bindingEnds : Claims.BindingEnds := by
  refine fun s n e id pins => ⟨fun hdone hw => ?bound, fun c u i hdone hw => ?fault, fun o ho hw => ?finished⟩
  case bound =>
    refine ⟨_, exec_dbindComplete_bound hdone hw, ?_⟩
    rw [State.me_modMe]
    dsimp only
    rw [lget_lmod_same]
    exact ⟨rfl, rfl, rfl, rfl, fun m hm => lget_lmod_other _ _ _ _ _ hm⟩
  case fault =>
    refine ⟨_, exec_dbindComplete_fault hdone hw, ?_, fun hs hslot => ?_⟩
    · rw [descs_takeFault, State.me_modMe]; rfl
    · have hslot' : (s.withoutWalk id).me.seq.slot = none := hslot
      rw [me_takeFault_main _ (show ((s.withoutWalk id).modMe _).cur.shadow = false from hs), State.me_modMe, stoppedAs, Core.enterHandler,
        trecFor_sequencer _ rfl]
      simp only [SeqCtx.backToDbind, hslot']
      exact ⟨rfl, trivial, trivial⟩
  case finished =>
    obtain ⟨t, ht, hgops⟩ := exec_tableWalkFinished ho hw
    exact ⟨t, ht, fun p hp hid => done_walkDone (hgops ▸ hp) hid⟩

theorem pagesUnpin : Claims.PagesUnpin := by
  intro s u hu
  show execPageUnpin s = _
  rw [execPageUnpin, hu]
  rfl

/-- Settles O24, by what DBIND, its end, DUNBIND and a page release do in each of their cases. -/
theorem bindings : Obligations.Bindings := ⟨bindingBegins, bindingEnds, pagesUnpin⟩

end Sys2Proof.Machine

namespace Sys2Proof.Machine

/-! ## SREL, SACQ, SWAIT and QFENCE, and the answer to a wait (R79 to R82, R223 to R225) -/

theorem syncBegins : Claims.SyncBegins := by
  refine fun s d a b m => ⟨fun h => ⟨fun t x hp => ?_, fun f hp => ?_, ?_⟩, fun h => ⟨fun t x hp => ?_, fun f hp => ?_⟩⟩
  · show execSrel a s = _
    rw [execSrel, seqRun_issue h, hp]
  · show execSrel a s = _
    rw [execSrel, seqRun_issue h, hp]
  · show execQfence m s = _
    rw [execQfence, seqRun_issue h, fenceUnits]
  · have hwait : ∀ i r, waitRun i a b r s = .next ((s.newOp s.cur.core 0 (.wait t x (s.rd b)) []).2.waitOn
        (.sync (s.newOp s.cur.core 0 (.wait t x (s.rd b)) []).1 r)) := fun i r => by rw [waitRun, seqRun_issue h, hp]
    exact ⟨hwait .., hwait ..⟩
  · have hfault : ∀ i r, waitRun i a b r s = .next (s.takeFault f) := fun i r => by rw [waitRun, seqRun_issue h, hp]
    exact ⟨hfault .., hfault ..⟩

/-- The fields of a sync address, as parts of its value. -/
theorem syncAddress_fields (a : Word) : (a.extractLsb' 62 2).toNat = a.toNat / 2 ^ 62 ∧ (a.extractLsb' 48 14).toNat = a.toNat / 2 ^ 48 % 2 ^ 14 ∧
    (a.extractLsb' 0 48).toNat = a.toNat % 2 ^ 48 := by
  have hlt : a.toNat < 2 ^ 64 := a.isLt
  refine ⟨?_, ?_, ?_⟩ <;> rw [BitVec.extractLsb'_toNat, Nat.shiftRight_eq_div_pow]
  · omega
  · rw [Nat.pow_zero, Nat.div_one]

/-- The fields that make an address no sync address, whatever its offset. -/
theorem syncPerm_iff (a : Word) : (a.extractLsb' 48 14 != 0 || decide (2 ≤ (a.extractLsb' 62 2).toNat)) = true ↔
    a.toNat / 2 ^ 48 % 2 ^ 14 ≠ 0 ∨ 2 ≤ a.toNat / 2 ^ 62 := by
  obtain ⟨hlvl, hmid, -⟩ := syncAddress_fields a
  rw [Bool.or_eq_true, decide_eq_true_iff, bne_iff_ne, hlvl, ← hmid, Ne, ← BitVec.toNat_inj]
  rfl

theorem syncAddresses : Claims.SyncAddresses := by
  intro s a
  obtain ⟨hlvl, -, hoff⟩ := syncAddress_fields a
  unfold State.syncPlace
  refine ⟨fun h => if_pos ((syncPerm_iff a).2 h), fun hm hl ho => ?_, fun hm hl ho hlt hb => ?_⟩
  · have hok := mt (syncPerm_iff a).1 (by omega)
    have halign : ((a.extractLsb' 0 48).toNat % 64 != 0) = true := by rw [hoff, bne_iff_ne]; omega
    dsimp only
    rw [if_neg hok, if_pos halign]
    rfl
  · have hok := mt (syncPerm_iff a).1 (by omega)
    have halign : ¬ ((a.extractLsb' 0 48).toNat % 64 != 0) = true := by rw [hoff, bne_iff_ne]; omega
    dsimp only
    rw [if_neg hok, if_neg halign, hlvl, if_pos hl, hoff, if_neg (by exact Nat.not_le.2 hlt), hb]
    rfl

/-- A register holds what it is set to, and reads 0 when it is register 0. -/
theorem reg_setReg (c : SeqCtx) (r : Nat) (v : Word) : (c.setReg r v).reg r = if r = 0 then 0 else v := by
  by_cases h : r = 0
  · simp [h, SeqCtx.reg]
  · rw [reg_setReg_same c v h, if_neg h]

theorem reg_setReg_other (c : SeqCtx) {r q : Nat} (v : Word) (h : q ≠ r) : (c.setReg r v).reg q = c.reg q := by
  unfold SeqCtx.setReg SeqCtx.reg
  split
  · rfl
  · split
    · rfl
    · exact lget_lput_other _ _ _ _ _ h

/-- The answer to SWAIT drops the wait and goes on with its register set. -/
theorem exec_sacqComplete_swait {s : State} {o : GOp} {r : Nat} (ho : s.theOp = some o) (hd : o.done = true) (hu : o.unit = 0)
    (hw : (s.core o.core).seq.wait = .sync o.id (some r)) : ∃ t, exec .sacqComplete s = .next t ∧
      (t.core o.core).seq = { (s.core o.core).seq.setReg r (BitVec.ofNat 64 (leNat (o.data.flatMap (·.bytes)))) with
        wait := .none, next := (s.core o.core).run.g } := by
  refine ⟨_, (show execSacqComplete s = _ by
    simp only [execSacqComplete, ho, hd, hw, hu, Bool.not_true, bne_self_eq_false, Bool.false_eq_true, if_false, if_true]; rfl), ?_⟩
  rw [State.core_modCore]
  have hcore : (s.dropOp o.id).core o.core = s.core o.core := rfl
  simp only [hcore, hw, if_true]

theorem waitAnswered : Claims.WaitAnswered := by
  intro s o r ho hd hu hw
  obtain ⟨t, ht, hseq⟩ := exec_sacqComplete_swait ho hd hu hw
  refine ⟨t, ht, ?_⟩
  rw [hseq]
  exact ⟨rfl, rfl, reg_setReg .., fun q hq => reg_setReg_other _ _ hq⟩

/-- Settles O25: each begins as an operation or a fault by its address, and the answer sets the sequencer going. -/
theorem syncAccesses : Obligations.SyncAccesses := ⟨syncBegins, syncAddresses, waitAnswered⟩

end Sys2Proof.Machine

namespace Sys2Proof.Machine

/-! ## Coders, transposes and fills, atomics and sync words of the data engine (R313 to R317) -/

/-- A data word that issues its repeat has its effect on its latched descriptors. -/
theorem dataRun_ready {i : Instr} {w : DX} {legal : Bool} {ns : List (BitVec 4)} {body : List Desc → Nat → State → State} {s : State}
    {ds : List Desc} (h : Claims.DataReady s w legal) (hd : Claims.dataDescs s ns = ds) :
    dataRun i w legal ns body s = .next (body ds (s.eng .data).rep (Claims.latched s ns)) := by
  obtain ⟨hline, hlegal, hphased⟩ := h
  rw [dataRun_issue hline hlegal hphased, ← hd]
  rfl

@[simp] theorem cur_noteRead (s : State) (d : Desc) : (s.noteRead d).cur = s.cur := by
  unfold State.noteRead
  split
  · rfl
  · split <;> rfl
@[simp] theorem gops_noteRead (s : State) (d : Desc) : (s.noteRead d).gops = s.gops := by
  unfold State.noteRead
  split
  · rfl
  · split <;> rfl
@[simp] theorem nextId_noteRead (s : State) (d : Desc) : (s.noteRead d).nextId = s.nextId := by
  unfold State.noteRead
  split
  · rfl
  · split <;> rfl
@[simp] theorem cur_latched (s : State) (ns : List (BitVec 4)) : (Claims.latched s ns).cur = s.cur := rfl

@[simp] theorem cur_newOp (s : State) (k u : Nat) (kind : GKind) (names : List (Nat × Nat × Nat)) (cls bud : Nat) :
    (s.newOp k u kind names cls bud).2.cur = s.cur := rfl
@[simp] theorem cur_noteShadow (s : State) (n : Nat) : (s.noteShadow n).cur = s.cur := rfl

/-- A body that reads one descriptor, which no pending write meets, runs once the read is noted. -/
theorem afterReads_one {s : State} {n : Nat} {d : Desc} {body : State → State} (h : s.readMiss d = []) :
    s.afterReads [(n, d)] body = body (s.noteRead d) := by
  simp [State.afterReads, State.firstMiss, h]

/-- The shapes that the coders accept (R313). -/
theorem coderFaults_none {en cn xn bb k : Nat} {e c : Desc} {x : Option Desc} (hf : e.fmt = 2 ∨ e.fmt = 8 ∨ e.fmt = 9)
    (hcols : e.cols.toNat % 4 = 0) (hrows : 4 * k + 4 ≤ e.rows.toNat) (hk : k < c.rows.toNat) (hc : e.cols.toNat / 4 * bb ≤ c.cols.toNat)
    (hx : ∀ y ∈ x, e.cols.toNat / 4 ≤ y.cols.toNat ∧ k < y.rows.toNat) : ∀ f ∈ coderFaults en cn e c xn x bb k, f = none := by
  have hfmt : (e.fmt != 2 && e.fmt != 8 && e.fmt != 9) = false := by obtain h | h | h := hf <;> rw [h] <;> rfl
  intro f hmem
  unfold coderFaults at hmem
  simp only [List.mem_cons, List.not_mem_nil, or_false] at hmem
  obtain rfl | rfl | rfl | rfl := hmem
  · rw [hfmt]; rfl
  · simp [hcols, hrows]
  · simp [hc, hk]
  · cases x with
    | none => rfl
    | some y => obtain ⟨h1, h2⟩ := hx y rfl; simp [h1, h2]

theorem fmt_ne_byte {e : Desc} (h : e.fmt = 2 ∨ e.fmt = 8 ∨ e.fmt = 9) : e.fmt ≠ 11 := by
  obtain h | h | h := h <;> rw [h] <;> decide

theorem coderWords : Claims.CoderWords := by
  intro s w
  refine ⟨fun c e x hr hd => ⟨fun hbyte => ?_, fun hf hcols hrows hk hc hx h1 h2 h3 hm => ?_⟩,
    fun e c hr hd => ⟨fun hbyte => ?_, fun hf hcols hrows hk hc h1 h2 hm => ?_⟩⟩
  · show execDcomp w s = _
    rw [execDcomp, dataRun_ready hr hd]
    dsimp only [dAt, lget]
    rw [if_pos hbyte]
    rfl
  · show execDcomp w s = _
    rw [execDcomp, dataRun_ready hr hd]
    dsimp only [dAt, lget]
    rw [if_neg (fmt_ne_byte hf), unless_none ?_, afterReads_one hm]
    refine firstFault_eq_none fun f hmem => ?_
    rw [List.mem_append] at hmem
    obtain hmem | hmem := hmem
    · simp only [List.mem_cons, List.not_mem_nil, or_false] at hmem
      obtain rfl | rfl | rfl := hmem
      · exact h1
      · exact h2
      · split
        · exact h3 ‹_›
        · rfl
    · refine coderFaults_none hf hcols hrows hk hc (fun y hy => ?_) f hmem
      split at hy
      · cases hy; exact hx ‹_›
      · cases hy
  · show execDexp w s = _
    rw [execDexp, dataRun_ready hr hd]
    dsimp only [dAt, lget]
    rw [if_pos hbyte]
    rfl
  · show execDexp w s = _
    rw [execDexp, dataRun_ready hr hd]
    dsimp only [dAt, lget]
    rw [if_neg (fmt_ne_byte hf), unless_none ?_, afterReads_one hm]
    · simp only [List.flatMap_map, List.any_map, blockBytes, cur_noteRead, cur_latched]
      rfl
    · refine firstFault_eq_none fun f hmem => ?_
      rw [List.mem_append] at hmem
      obtain hmem | hmem := hmem
      · simp only [List.mem_cons, List.not_mem_nil, or_false] at hmem
        obtain rfl | rfl := hmem
        · exact h1
        · exact h2
      · exact coderFaults_none hf hcols hrows hk hc (fun y hy => by cases hy) f hmem

theorem layoutWords : Claims.LayoutWords := by
  intro s w
  refine ⟨fun d f hr hd h1 h2 hm hfmt hbits hrows hc hbr => ?_, fun d hr hd h1 hrows => ?_⟩
  · show execDtrans w s = _
    rw [execDtrans, dataRun_ready hr hd]
    dsimp only [dAt, lget]
    rw [unless_none ?_, afterReads_one hm]
    · simp only [State.elemAt, cur_noteRead, cur_latched]
      rfl
    · refine firstFault_eq_none fun g hmem => ?_
      simp only [List.mem_cons, List.not_mem_nil, or_false] at hmem
      obtain rfl | rfl | rfl | rfl | rfl := hmem
      · exact h1
      · exact h2
      · obtain h | h | h := hbits <;> simp [hfmt, h]
      · exact if_neg (Nat.not_lt.2 hrows)
      · refine if_neg ?_
        rw [Bool.or_eq_true, decide_eq_true_iff, decide_eq_true_iff, not_or]
        exact ⟨Nat.not_lt.2 hc, Nat.not_lt.2 hbr⟩
  · show execDfill w s = _
    rw [execDfill, dataRun_ready hr hd]
    dsimp only [dAt, lget]
    rw [unless_none ?_]
    · rfl
    · refine firstFault_eq_none fun g hmem => ?_
      simp only [List.mem_cons, List.not_mem_nil, or_false] at hmem
      obtain rfl | rfl := hmem
      · exact h1
      · exact if_neg (Nat.not_lt.2 hrows)



theorem atomicWords : Claims.AtomicWords := by
  intro s w t o r tg a ret op size form i n oa ra u hr hd h1 h2 h3 hbtc hti hoi hoa hplace hm v bs x cmp g
  show execDatom w s = _
  rw [execDatom]
  change dataRun (.datom w) w (dxLegal form w) [w.dst, w.src, w.aux] _ s = _
  rw [dataRun_ready hr hd]
  dsimp only [dAt, lget]
  rw [unless_none ?_]
  · rw [show (Claims.latched s [w.dst, w.src, w.aux]).atomPlace w t (if w.step = 7 then (s.eng .data).rep else 0) = _ from hplace]
    dsimp only
    rw [afterReads_one hm]
    simp only [cur_noteRead, cur_newOp, cur_noteShadow, apply_ite State.cur, ite_self]
    rfl
  · refine firstFault_eq_none fun f hmem => ?_
    simp only [List.mem_cons, List.not_mem_nil, or_false] at hmem
    obtain rfl | rfl | rfl | rfl | rfl | rfl := hmem
    · exact h1
    · exact h2
    · split
      · exact (h3 ‹_›).1
      · rfl
    · refine if_neg ?_
      rw [hbtc, Bool.false_or, decide_eq_true_iff]
      exact Nat.not_le.2 hti
    · refine if_neg ?_
      rw [Bool.or_eq_true, decide_eq_true_iff, decide_eq_true_iff, not_or]
      exact ⟨Nat.not_le.2 hoi, Nat.not_lt.2 hoa⟩
    · refine if_neg ?_
      rw [Bool.and_eq_true, Bool.or_eq_true, decide_eq_true_iff, decide_eq_true_iff]
      rintro ⟨hret, hbad⟩
      obtain ⟨-, hri, hra⟩ := h3 hret
      exact hbad.elim (Nat.not_le.2 hri) (Nat.not_lt.2 hra)

/-- A check that passes leaves what comes after it. -/
theorem ite_inl_eq_inr {α β : Type} {p : Prop} [Decidable p] {f : α} {x : α ⊕ β} {y : β} :
    (if p then Sum.inl f else x) = .inr y ↔ ¬ p ∧ x = .inr y := by
  by_cases h : p <;> simp [h]

theorem atomicPlaces : Claims.AtomicPlaces := by
  intro s w d i tg a va
  refine ⟨fun h => if_pos (bne_iff_ne.2 h), fun h => ?_⟩
  rw [State.atomPlace] at h
  obtain ⟨halign, h⟩ := ite_inl_eq_inr.1 h
  have halign : va % atomSize w = 0 := not_not.1 fun hne => halign (bne_iff_ne.2 hne)
  refine ⟨halign, ?_⟩
  by_cases hl : d.level = 2
  · have hva : va = (d.addrIn d.base.toNat i 0).toNat := if_pos hl
    rw [if_pos hl, if_pos hl] at h
    obtain ⟨hin, h⟩ := ite_inl_eq_inr.1 h
    obtain ⟨hrel, h⟩ := ite_inl_eq_inr.1 h
    obtain ⟨rfl, rfl⟩ := Prod.mk.inj (Sum.inr.inj h)
    refine ⟨fun _ => ⟨rfl, hva.symm, hva ▸ Nat.not_lt.1 hin⟩, fun h3 => absurd rfl h3, fun hr => ?_⟩
    simp only [hr, Bool.true_and, Bool.not_eq_true', Bool.not_eq_false, Bool.and_eq_true, decide_eq_true_iff] at hrel
    obtain ⟨⟨⟨hop, hsize⟩, ha⟩, -⟩ := hrel
    exact ⟨hop, hsize, ha, .inl rfl⟩
  · rw [if_neg hl] at h
    refine ⟨fun h2 => absurd h2 hl, ?_⟩
    split at h
    · obtain ⟨hop, h⟩ := ite_inl_eq_inr.1 h
      obtain ⟨-, h⟩ := ite_inl_eq_inr.1 h
      obtain ⟨hrel, h⟩ := ite_inl_eq_inr.1 h
      obtain ⟨rfl, rfl⟩ := Prod.mk.inj (Sum.inr.inj h)
      refine ⟨fun _ h0 => ?_, fun hr => ?_⟩
      · rw [bne_iff_ne.2 h0, Bool.true_and, Bool.not_eq_true', Bool.not_eq_false, atomPcie] at hop
        simpa [or_assoc] using hop
      · simp only [hr, Bool.true_and, Bool.not_eq_true', Bool.not_eq_false, Bool.and_eq_true, decide_eq_true_iff] at hrel
        obtain ⟨⟨⟨⟨h0, hop⟩, hsize⟩, ha⟩, -⟩ := hrel
        exact ⟨hop, hsize, ha, .inr h0⟩
    · cases h
theorem eng_setPorts (s : State) (lane : Bool) (p : Core → Ports) (u : Eng) : (s.modMe fun c => c.setPorts lane (p c)).eng u = s.eng u := by
  simp only [State.eng, State.me_modMe, State.cur_modMe]
  cases lane <;> rfl

/-- A read's own delay moves when its queue is free again, and nothing else of the queue. -/
theorem sacq_delayPort {s : State} {p : DPort} {d : Nat} (hid : p.id = 0) (hown : p.own = true) (halso : p.also = []) :
    ((s.delayPort s.cur.core s.cur.shadow p d).eng .data).sacq = (s.eng .data).sacq := by
  obtain ⟨_, _, _, _⟩ := p
  subst hid hown halso
  unfold State.delayPort
  split
  · rfl
  · simp only [List.foldl_nil]
    change ((s.modMe _).eng .data).sacq = _
    cases h : s.cur.shadow
    all_goals
      simp only [State.eng, State.me_modMe, State.cur_modMe, h]
      simp [Core.perfAdd, engIdx, apply_ite Engine.sacq]

theorem gops_readPort (s : State) (x : Nat) (src : List Nat) : (s.readPort x src []).gops = s.gops := by
  unfold State.readPort State.dataPort State.delayPort
  dsimp only
  split
  · rfl
  · split <;> rfl

theorem sacq_readPort (s : State) (x : Nat) (src : List Nat) : ((s.readPort x src []).eng .data).sacq = (s.eng .data).sacq := by
  unfold State.readPort State.dataPort
  dsimp only
  split
  · exact congrArg Engine.sacq (eng_setPorts s _ (fun _ => _) _)
  · refine (sacq_delayPort rfl rfl rfl).trans (congrArg Engine.sacq ((eng_setPorts _ _ (fun _ => _) _).trans ?_))
    exact eng_setPorts s _ (fun _ => _) _

theorem ite_some_eq_none {α : Type} {p : Prop} [Decidable p] {f : α} {x : Option α} : (if p then some f else x) = none ↔ ¬ p ∧ x = none := by
  by_cases h : p <;> simp [h]

/-- A read-only descriptor that may be read may not be written. -/
theorem descFault_readOnly {s : State} {k u n : Nat} {d : Desc} (h : s.descFault k u n d false = none) (hro : d.ro = true) :
    s.descFault k u n d true = some (permD u n) := by
  unfold State.descFault at h ⊢
  obtain ⟨h1, h⟩ := ite_some_eq_none.1 h
  obtain ⟨h2, h⟩ := ite_some_eq_none.1 h
  obtain ⟨h3, h⟩ := ite_some_eq_none.1 h
  obtain ⟨h4, h⟩ := ite_some_eq_none.1 h
  obtain ⟨h5, h⟩ := ite_some_eq_none.1 h
  obtain ⟨h6, h⟩ := ite_some_eq_none.1 h
  obtain ⟨h7, h⟩ := ite_some_eq_none.1 h
  obtain ⟨h8, -⟩ := ite_some_eq_none.1 h
  rw [if_neg h1, if_neg h2, if_neg h3, if_neg h4, if_neg h5, if_neg h6, if_neg h7, if_neg h8, if_pos (show (true && d.ro) = true from hro)]

theorem eng_perfAdd (s : State) (i n : Nat) (u : Eng) : (s.modMe fun c => c.perfAdd i n).eng u = s.eng u := by
  simp only [State.eng, State.me_modMe, State.cur_modMe]
  rfl

theorem sacq_startSacq (s : State) (id : Nat) : ((s.startSacq id).eng .data).sacq = some id := by
  rw [State.startSacq, eng_perfAdd, State.eng_modEng]

theorem gops_startSacq (s : State) (id : Nat) : (s.startSacq id).gops = s.gops := rfl

theorem gops_chkIf (s : State) (u : Nat) (b : Bool) : (s.chkIf u b).gops = s.gops := by
  unfold State.chkIf; split <;> rfl

/-- A wait that is sent stands among the operations, not yet answered. -/
theorem newOp_wait (s : State) (k u t a : Nat) (x : Word) (names : List (Nat × Nat × Nat)) (cls : Nat) :
    ∃ o ∈ (s.newOp k u (.wait t a x) names cls).2.gops, o.id = s.nextId ∧ o.kind = .wait t a x ∧ o.done = false :=
  ⟨_, List.mem_append_right _ (List.mem_singleton.2 rfl), rfl, rfl, rfl⟩

theorem dataSync : Claims.DataSync := by
  intro s w
  refine ⟨fun d t a hr hd => ⟨fun h hp => ?_, fun hlv h hro => ?_⟩,
    fun t a hr h hp => ⟨fun himm => ?_, fun himm h2 hin hm => ?_⟩, fun hr => ?_⟩
  · show execDataSrel w s = _
    rw [execDataSrel, dataRun_ready hr hd]
    dsimp only [dAt, lget]
    rw [unless_none (firstFault_eq_none (by simpa using h)), hp]
    rfl
  · show execDataSrel w s = _
    rw [execDataSrel, dataRun_ready hr hd]
    dsimp only [dAt, lget]
    rw [unless_some (f := permD 3 w.dst.toNat)]
    · rfl
    · rw [State.opFault, hlv, cur_latched, descFault_readOnly h hro]
      rfl
  · simp only [himm, if_true] at h hp
    obtain ⟨o, ho, hid, hkind, hdone⟩ :=
      newOp_wait (Claims.latched s [w.dst]) s.cur.core 3 t a ((w.arg.extractLsb' 0 13).setWidth 64) [] w.cls.toNat
    show ∃ x, execDataSacq w s = _ ∧ _
    rw [execDataSacq, dataRun_ready hr rfl]
    simp only [himm, if_true, dAt]
    rw [unless_none (firstFault_eq_none (by simpa using h)), hp]
    dsimp only [State.afterReads, State.firstMiss, List.foldl_nil]
    refine ⟨_, rfl, sacq_startSacq .., o, ?_, hid, hkind, hdone⟩
    rw [gops_startSacq, gops_chkIf]
    exact ho
  · simp only [himm, Bool.false_eq_true, if_false] at h hp h2 hin hm ⊢
    show ∃ x, execDataSacq w s = _ ∧ _
    rw [execDataSacq, dataRun_ready hr rfl]
    simp only [himm, Bool.false_eq_true, if_false, dAt]
    generalize lget (Claims.dataDescs s [w.dst, w.src]) 1 Desc.zero = v at *
    rw [unless_none (firstFault_eq_none ?_), hp]
    · dsimp only
      rw [afterReads_one hm]
      simp only [cur_noteRead, cur_latched]
      obtain ⟨o, ho, hid, hkind, hdone⟩ := newOp_wait ((Claims.latched s [w.dst, w.src]).noteRead v) s.cur.core 3 t a
        (BitVec.ofNat 64 (leNat (((Claims.latched s [w.dst, w.src]).noteRead v).spRead s.cur.core 0 (v.addrIn v.readBase 0 0).toNat 8)))
        [] w.cls.toNat
      refine ⟨_, rfl, ?_, o, ?_, hid.trans (nextId_noteRead ..), hdone, hkind⟩
      · rw [sacq_readPort, sacq_startSacq]
        exact congrArg some (nextId_noteRead ..)
      · rw [gops_readPort, gops_startSacq, gops_chkIf]
        exact ho
    · intro f hmem
      simp only [List.mem_cons, List.not_mem_nil, or_false] at hmem
      obtain rfl | rfl | rfl := hmem
      · exact h
      · exact h2
      · refine if_neg ?_
        rw [Bool.not_false, Bool.true_and, decide_eq_true_iff]
        exact Nat.not_lt.2 hin
  · show execAfence w s = _
    rw [execAfence, dataRun_ready hr rfl]
    rfl

/-- Settles O43: a data word that issues its repeat passes its checks by what its statement assumes, and sends what its body says. -/
theorem dataWords : Obligations.DataWords := ⟨coderWords, layoutWords, atomicWords, atomicPlaces, dataSync⟩

end Sys2Proof.Machine

namespace Sys2Proof.Machine

/-! ## What the home of SP3 shows after a write of its own (R74 to R79) -/

/-- The landed writes of SP3 that wait, through at most n others, for an operation that is not over (R75). -/
def State.blocked (s : State) (k n : Nat) : List SpWrite :=
  s.mem.spq.filter fun w => w.lvl = 2 && w.deps.any fun d => !s.depOver k n d

theorem depOver_succ (s : State) (k n id : Nat) : s.depOver k (n + 1) id =
    (!(s.gops.any fun o => o.id = id && !o.done) && !((s.core k).pend.any fun p => p.id = id) &&
      !(s.mem.spq.any fun w => w.id = id && w.lvl = 2 && s.tide < w.due) && !((s.blocked k n).any fun w => w.id = id)) := by
  have hany : (s.mem.spq.any fun w => w.id = id && w.lvl = 2 && (s.tide < w.due || w.deps.any fun d => !s.depOver k n d)) =
      ((s.mem.spq.any fun w => w.id = id && w.lvl = 2 && s.tide < w.due) || (s.blocked k n).any fun w => w.id = id) := by
    rw [State.blocked, List.any_filter, Bool.eq_iff_iff]
    simp only [Bool.or_eq_true, List.any_eq_true, Bool.and_eq_true, decide_eq_true_iff]
    constructor
    · rintro ⟨w, hw, ⟨hid, hl⟩, h | h⟩
      · exact .inl ⟨w, hw, ⟨hid, hl⟩, h⟩
      · exact .inr ⟨w, hw, ⟨hl, h⟩, hid⟩
    · rintro (⟨w, hw, ⟨hid, hl⟩, h⟩ | ⟨w, hw, ⟨hl, h⟩, hid⟩)
      · exact ⟨w, hw, ⟨hid, hl⟩, .inl h⟩
      · exact ⟨w, hw, ⟨hid, hl⟩, .inr h⟩
  rw [State.depOver, hany, Bool.not_or, ← Bool.and_assoc]

/-- A longer search finds no more over. -/
theorem depOver_anti (s : State) (k n id : Nat) (h : s.depOver k (n + 1) id = true) : s.depOver k n id = true := by
  induction n generalizing id with
  | zero => rfl
  | succ n ih =>
    rw [depOver_succ, Bool.and_eq_true] at h ⊢
    refine ⟨h.1, ?_⟩
    rw [Bool.not_eq_true', List.any_eq_false] at h ⊢
    obtain ⟨-, h⟩ := h
    intro w hw
    obtain ⟨hmem, hw⟩ := List.mem_filter.1 hw
    refine h w (List.mem_filter.2 ⟨hmem, ?_⟩)
    rw [Bool.and_eq_true, List.any_eq_true] at hw ⊢
    obtain ⟨hl, d, hd, hover⟩ := hw
    refine ⟨hl, d, hd, ?_⟩
    rw [Bool.not_eq_true'] at hover ⊢
    exact Bool.eq_false_iff.2 fun ht => Bool.eq_false_iff.1 hover (ih d ht)

theorem blocked_sublist (s : State) (k n : Nat) : (s.blocked k n).Sublist (s.blocked k (n + 1)) := by
  refine List.monotone_filter_right _ fun w hw => ?_
  rw [Bool.and_eq_true, List.any_eq_true] at hw ⊢
  obtain ⟨hl, d, hd, hover⟩ := hw
  refine ⟨hl, d, hd, ?_⟩
  rw [Bool.not_eq_true'] at hover ⊢
  exact Bool.eq_false_iff.2 fun ht => Bool.eq_false_iff.1 hover (depOver_anti s k n d ht)

/-- A search that blocks no more writes for a step blocks no more for good. -/
theorem depOver_stable {s : State} {k n : Nat} (h : s.blocked k n = s.blocked k (n + 1)) (m id : Nat) :
    s.depOver k (n + 1 + m) id = s.depOver k (n + 1) id := by
  have hb : ∀ m, s.blocked k (n + m) = s.blocked k n := by
    intro m
    induction m with
    | zero => rfl
    | succ m ih =>
      have hover : ∀ d, s.depOver k (n + m + 1) d = s.depOver k (n + 1) d := fun d => by rw [depOver_succ, depOver_succ, ih]
      rw [h]
      simp only [State.blocked, ← Nat.add_assoc, hover]
  rw [show n + 1 + m = n + m + 1 by omega, depOver_succ, depOver_succ, hb]

/-- As many steps as there are writes find every one that is blocked, so another step finds no more. -/
theorem depOver_enough (s : State) (k id : Nat) : s.depOver k (s.mem.spq.length + 2) id = s.depOver k (s.mem.spq.length + 1) id := by
  have hgrow : ∀ n, (∃ m < n, s.blocked k m = s.blocked k (m + 1)) ∨ n ≤ (s.blocked k n).length := by
    intro n
    induction n with
    | zero => exact .inr (Nat.zero_le _)
    | succ n ih =>
      obtain ⟨m, hm, heq⟩ | hn := ih
      · exact .inl ⟨m, hm.trans n.lt_succ_self, heq⟩
      · by_cases heq : s.blocked k n = s.blocked k (n + 1)
        · exact .inl ⟨n, n.lt_succ_self, heq⟩
        · have hlt : (s.blocked k n).length < (s.blocked k (n + 1)).length :=
            lt_of_le_of_ne (blocked_sublist s k n).length_le fun hl => heq ((blocked_sublist s k n).eq_of_length hl)
          exact .inr (by omega)
  have hle : (s.blocked k (s.mem.spq.length + 1)).length ≤ s.mem.spq.length := List.length_filter_le ..
  obtain ⟨m, hm, heq⟩ := (hgrow (s.mem.spq.length + 1)).resolve_right (by omega)
  obtain ⟨j, hj⟩ := Nat.exists_eq_add_of_le (Nat.lt_succ_iff.1 hm)
  rw [show s.mem.spq.length + 2 = m + 1 + (j + 1) by omega, show s.mem.spq.length + 1 = m + 1 + j by omega,
    depOver_stable heq, depOver_stable heq]

/-- The write by which the home of SP3 puts pieces there. -/
def homeWrite (ps : List Piece) : SpWrite := { id := 0, deps := [], lvl := 2, unit := 0, writer := 24, berth := 32, land := 0, ps := ps }

/-- The writes of SP3 among which one of the home takes its place: those before it, and those after it, none of which is shown and meets it. -/
theorem spq_putSp3 (s : State) (ps whole : List Piece) : ∃ front later, s.mem.spq = front ++ later ∧
    (s.putSp3 ps whole).mem.spq = front ++ homeWrite ps :: later ∧
    ∀ x ∈ later, x.lvl = 2 → s.shown x = true → piecesMeet x.ps ps = false := by
  set keep : SpWrite → Bool := fun x => !(x.lvl = 2 && s.shown x && piecesMeet x.ps ps) with hkeep
  have hsplit : s.mem.spq = s.mem.spq.rdropWhile keep ++ s.mem.spq.rtakeWhile keep := (List.rdropWhile_append_rtakeWhile ..).symm
  refine ⟨s.mem.spq.rdropWhile keep, s.mem.spq.rtakeWhile keep, hsplit, ?_, fun x hx hl hs => ?_⟩
  · show s.mem.spq.take (s.mem.spq.length - (s.mem.spq.rtakeWhile keep).length) ++ homeWrite ps :: s.mem.spq.rtakeWhile keep = _
    have hlen := congrArg List.length hsplit
    rw [List.length_append] at hlen
    rw [show s.mem.spq.length - (s.mem.spq.rtakeWhile keep).length = (s.mem.spq.rdropWhile keep).length by omega]
    exact congrArg (· ++ _) (List.prefix_iff_eq_take.1 (List.rdropWhile_prefix keep _)).symm
  · have := List.mem_rtakeWhile_imp hx
    simpa [hkeep, hl, hs] using this

/-- A write of the home waits for nothing, so what is over stays over and what is not is not. -/
theorem depOver_putSp3 (s : State) (ps whole : List Piece) (k n id : Nat) : (s.putSp3 ps whole).depOver k n id = s.depOver k n id := by
  obtain ⟨front, later, hold, hnew, -⟩ := spq_putSp3 s ps whole
  induction n generalizing id with
  | zero => rfl
  | succ n ih =>
    simp only [State.depOver, ih, hnew, hold, List.any_append, List.any_cons]
    have hw : (homeWrite ps).deps = [] := rfl
    have hd : (homeWrite ps).due = 0 := rfl
    simp only [hw, hd, List.any_nil, Nat.not_lt_zero, decide_false, Bool.or_false, Bool.and_false, Bool.false_or]
    rfl

theorem depDone_putSp3 (s : State) (ps whole : List Piece) (k id : Nat) : (s.putSp3 ps whole).depDone k id = s.depDone k id := by
  obtain ⟨front, later, hold, hnew, -⟩ := spq_putSp3 s ps whole
  have hlen : (s.putSp3 ps whole).mem.spq.length = s.mem.spq.length + 1 := by
    rw [hnew, hold]; simp only [List.length_append, List.length_cons]; omega
  rw [State.depDone, depOver_putSp3, hlen]
  exact depOver_enough s k id

theorem shown_putSp3 (s : State) (ps whole : List Piece) (w : SpWrite) : (s.putSp3 ps whole).shown w = s.shown w := by
  simp only [State.shown, depDone_putSp3]
  rfl

/-- An address that no piece covers keeps its byte. -/
theorem overlay_uncovered {ps : List Piece} {a : Nat} (b : Byte) (h : ∀ p ∈ ps, ¬ (p.addr ≤ a ∧ a < p.addr + p.bytes.length)) : overlay ps a b = b := by
  induction ps generalizing b with
  | nil => rfl
  | cons p r ih =>
    rw [overlay_cons, ih _ fun q hq => h q (List.mem_cons_of_mem _ hq), overlay_singleton, if_neg (h p List.mem_cons_self)]

/-- Pieces that do not meet cover no address in common. -/
theorem uncovered_of_not_meet {ps qs : List Piece} {a : Nat} (h : piecesMeet qs ps = false) {p : Piece} (hp : p ∈ ps)
    (hc : p.addr ≤ a ∧ a < p.addr + p.bytes.length) : ∀ q ∈ qs, ¬ (q.addr ≤ a ∧ a < q.addr + q.bytes.length) := by
  rintro q hq ⟨h1, h2⟩
  obtain ⟨h3, h4⟩ := hc
  refine Bool.eq_false_iff.1 h ?_
  simp only [piecesMeet, List.any_eq_true, Bool.and_eq_true, decide_eq_true_iff]
  exact ⟨q, hq, p, hp, by omega, by omega⟩

theorem foldl_overlay_uncovered {l : List SpWrite} {a : Nat} (b : Byte)
    (h : ∀ w ∈ l, ∀ q ∈ w.ps, ¬ (q.addr ≤ a ∧ a < q.addr + q.bytes.length)) : l.foldl (fun b w => overlay w.ps a b) b = b := by
  induction l generalizing b with
  | nil => rfl
  | cons w r ih =>
    rw [List.foldl_cons, overlay_uncovered b (h w List.mem_cons_self)]
    exact ih b fun x hx => h x (List.mem_cons_of_mem _ hx)

theorem gByte_sp3 (s : State) (a : Nat) :
    s.gByte 3 a = (s.mem.spq.filter fun w => w.lvl = 2 && s.shown w).foldl (fun b w => overlay w.ps a b) (mread s.mem.sp3 a) := rfl

/-- SP3 as its readers see it after a write of its home: the write stands, and every other byte is as it was. -/
theorem gByte_putSp3 (s : State) (ps whole : List Piece) (a : Nat) : (s.putSp3 ps whole).gByte 3 a = overlay ps a (s.gByte 3 a) := by
  obtain ⟨front, later, hold, hnew, hlater⟩ := spq_putSp3 s ps whole
  have hshown : (decide ((homeWrite ps).lvl = 2) && s.shown (homeWrite ps)) = true := by simp [State.shown, homeWrite]
  have hmem : (s.putSp3 ps whole).mem.sp3 = s.mem.sp3 := rfl
  rw [gByte_sp3, gByte_sp3, hnew, hold, hmem]
  simp only [shown_putSp3, List.filter_append, List.foldl_append, List.filter_cons, hshown, if_true, List.foldl_cons]
  rw [show (homeWrite ps).ps = ps from rfl]
  by_cases hc : ∃ p ∈ ps, p.addr ≤ a ∧ a < p.addr + p.bytes.length
  · obtain ⟨p, hp, hc⟩ := hc
    have hfar : ∀ w ∈ later.filter (fun w => w.lvl = 2 && s.shown w), ∀ q ∈ w.ps, ¬ (q.addr ≤ a ∧ a < q.addr + q.bytes.length) := by
      intro w hw
      obtain ⟨hmem, hw⟩ := List.mem_filter.1 hw
      rw [Bool.and_eq_true, decide_eq_true_iff] at hw
      exact uncovered_of_not_meet (hlater w hmem hw.1 hw.2) hp hc
    rw [foldl_overlay_uncovered _ hfar, foldl_overlay_uncovered _ hfar]
  · have hnone : ∀ p ∈ ps, ¬ (p.addr ≤ a ∧ a < p.addr + p.bytes.length) := fun p hp h => hc ⟨p, hp, h⟩
    rw [overlay_uncovered _ hnone, overlay_uncovered _ hnone]

/-- Operations of two states that have the same ones in flight, the same effects, and the same writes of SP3 waiting are over in both or neither. -/
theorem depOver_congr {s t : State} (hg : t.gops = s.gops) (hp : ∀ k, (t.core k).pend = (s.core k).pend) (hq : t.mem.spq = s.mem.spq)
    (ht : t.tide = s.tide) (k n id : Nat) : t.depOver k n id = s.depOver k n id := by
  induction n generalizing id with
  | zero => rfl
  | succ n ih => simp only [State.depOver, ih, hg, hp, hq, ht]

/-- A home shows the same bytes in two states whose memories, operations in flight, effects and clocks are the same. -/
theorem gByte_congr {s t : State} (hhbm : t.mem.hbm = s.mem.hbm) (hsp3 : t.mem.sp3 = s.mem.sp3) (hpcie : t.mem.pcie = s.mem.pcie)
    (hq : t.mem.spq = s.mem.spq) (hg : t.gops = s.gops) (hp : ∀ k, (t.core k).pend = (s.core k).pend) (ht : t.tide = s.tide) (tgt a : Nat) :
    t.gByte tgt a = s.gByte tgt a := by
  have hshown : ∀ w, t.shown w = s.shown w := fun w => by
    simp only [State.shown, State.depDone, hq, ht, depOver_congr hg hp hq ht]
  simp only [State.gByte, hhbm, hsp3, hpcie, hq, hshown]


/-! ## Packets at their fetch (R366 to R371) -/

theorem sched_noteArmed (s : State) (tgt a : Nat) : (s.noteArmed tgt a).sched = s.sched := by
  simp only [State.noteArmed]
  split_ifs <;> rfl
theorem gops_noteArmed (s : State) (tgt a : Nat) : (s.noteArmed tgt a).gops = s.gops := by
  simp only [State.noteArmed]
  split_ifs <;> rfl
theorem tide_noteArmed (s : State) (tgt a : Nat) : (s.noteArmed tgt a).tide = s.tide := by
  simp only [State.noteArmed]
  split_ifs <;> rfl
theorem armedCount_noteArmed (s : State) (tgt a : Nat) : (s.noteArmed tgt a).armedCount tgt a = s.armedCount tgt a := by
  simp only [State.armedCount, gops_noteArmed, sched_noteArmed]

/-- What a home does with the bytes of an object whose count of armed waits has changed: it puts the count there, unless it is there already. -/
theorem gByte_noteArmed {s : State} {tgt a : Nat} (ht : tgt = 0 ∨ tgt = 3) (hw : Memory.wf s.mem.hbm = true)
    (hne : s.gNat tgt (a + 8) 2 ≠ s.armedCount tgt a % 65536) (x : Nat) : (s.noteArmed tgt a).gByte tgt x =
      overlay [{ addr := a + 8, bytes := leBytes 2 (s.armedCount tgt a), poison := false }] x (s.gByte tgt x) := by
  simp only [State.noteArmed, if_neg hne]
  obtain rfl | rfl := ht
  · exact mread_foldl_mwriteP (ps := [_]) hw x
  · exact gByte_putSp3 ..

theorem keepsArmed_noteArmed {s : State} {tgt a : Nat} (ht : tgt = 0 ∨ tgt = 3) : Claims.KeepsArmed s (s.noteArmed tgt a) tgt a := by
  intro hw
  rw [armedCount_noteArmed]
  by_cases heq : s.gNat tgt (a + 8) 2 = s.armedCount tgt a % 65536
  · have hn : s.noteArmed tgt a = s := by simp only [State.noteArmed, if_pos heq]
    rw [hn]
    exact ⟨heq, fun _ _ => rfl⟩
  · refine ⟨gNat_eq fun i hi => ?_, fun b hb => ?_⟩
    · rw [gByte_noteArmed ht hw heq]
      exact overlay_inside (p := { addr := a + 8, bytes := leBytes 2 (s.armedCount tgt a), poison := false }) _ (by simpa using hi)
    · rw [gByte_noteArmed ht hw heq]
      exact overlay_outside _ (by simpa using hb)

/-! ### A queue changed -/

@[simp] theorem queue_modQueue_same (s : State) (n : Nat) (f : Queue → Queue) : (s.modQueue n f).queue n = f (s.queue n) := lget_lmod_same ..
theorem queue_modQueue_other (s : State) {n m : Nat} (f : Queue → Queue) (h : m ≠ n) : (s.modQueue n f).queue m = s.queue m :=
  lget_lmod_other _ _ _ _ _ h
@[simp] theorem queue_fetched (s : State) (n m : Nat) : (s.fetched n).queue m = s.queue m := rfl

theorem queue_modSched_rank (s : State) (f : Sched → RankEngine) (m : Nat) :
    (s.modSched fun x => { x with rank := f x }).queue m = s.queue m := rfl

/-- What the queues and the tide are decides what a fetch from queue n leaves for its fetcher. -/
theorem fetchedFrom_of_sched {s t : State} {n : Nat} (ht : t.tide = s.tide)
    (hq : ∀ m, m ≠ n → t.queue m = s.queue m) : Claims.FetchedFrom s (t.fetched n) n := by
  refine ⟨?_, hq⟩
  show lget (lput t.sched.fetch (n / 32) _ (0, 0)) (n / 32) (0, 0) = _
  rw [lget_lput_same, ht]

theorem sched_irq (s : State) (x : Bool) (v : Nat) : (s.irq x v).sched = s.sched := by unfold State.irq; split_ifs <;> rfl
theorem tide_irq (s : State) (x : Bool) (v : Nat) : (s.irq x v).tide = s.tide := by unfold State.irq; split_ifs <;> rfl

theorem queue_raiseIrq_same (s : State) (n : Nat) : (s.raiseIrq n).queue n = { s.queue n with run := { (s.queue n).run with unrep := 0 } } := by
  rw [State.raiseIrq, queue_modQueue_same]
  simp only [State.queue, sched_irq]
theorem queue_raiseIrq_other (s : State) {n m : Nat} (h : m ≠ n) : (s.raiseIrq n).queue m = s.queue m := by
  rw [State.raiseIrq, queue_modQueue_other _ _ h]
  simp only [State.queue, sched_irq]

theorem queue_ras (s : State) (b c k e f x m : Nat) : ((s.signal b).ras c k e f x).queue m = s.queue m := rfl
theorem tide_ras (s : State) (b c k e f x : Nat) : ((s.signal b).ras c k e f x).tide = s.tide := rfl

/-- A queue that is parked by a fetch (R371). -/
theorem parked_parkQueue (s : State) (n code addr : Nat) :
    Claims.Parked s ((s.parkQueue n code (s.queue n).depth addr).fetched n) n code addr ∧
    Claims.FetchedFrom s ((s.parkQueue n code (s.queue n).depth addr).fetched n) n := by
  set u : State := s.modQueue n fun q => { q with ring := { q.ring with state := 2 }, pol := { q.pol with
    fcode := BitVec.ofNat 8 code, fdepth := BitVec.ofNat 3 (s.queue n).depth, faddr := BitVec.ofNat 48 addr } } with hu
  set v : State := if (u.queue n).pol.irqen then u.raiseIrq n else u with hv
  have hun : u.queue n = { s.queue n with ring := { (s.queue n).ring with state := 2 }, pol := { (s.queue n).pol with
      fcode := BitVec.ofNat 8 code, fdepth := BitVec.ofNat 3 (s.queue n).depth, faddr := BitVec.ofNat 48 addr } } := queue_modQueue_same ..
  have htide : v.tide = s.tide := by
    rw [hv]; split_ifs
    · exact tide_irq u _ _
    · rfl
  have hothers : ∀ m, m ≠ n → v.queue m = s.queue m := by
    intro m hm
    rw [hv, ← queue_modQueue_other s _ hm]; split_ifs
    · exact queue_raiseIrq_other u hm
    · rfl
  have hown : (v.queue n).ring = (u.queue n).ring ∧ (v.queue n).pol = (u.queue n).pol ∧ (v.queue n).run.resv = (u.queue n).run.resv ∧
      (v.queue n).run.counts = (u.queue n).run.counts := by
    rw [hv]; split_ifs
    · rw [queue_raiseIrq_same]
      exact ⟨rfl, rfl, rfl, rfl⟩
    · exact ⟨rfl, rfl, rfl, rfl⟩
  obtain ⟨hring, hpol, hresv, hcounts⟩ := hown
  rw [hun] at hring hpol hresv hcounts
  have hpark : s.parkQueue n code (s.queue n).depth addr = (v.signal 19).ras 6 0xFF 0xFF code n := by rw [State.parkQueue]
  rw [hpark]
  refine ⟨?_, fetchedFrom_of_sched ?_ fun m hm => ?_⟩
  · unfold Claims.Parked
    rw [queue_fetched, queue_ras]
    exact ⟨hring, hpol, hresv, hcounts⟩
  · rw [tide_ras, htide]
  · rw [queue_ras, hothers m hm]

/-! ### A visit that fetches -/

theorem fetchRun_idle {s : State} {typ : Nat} (h : s.canFetch s.cur.arg = false ∨ s.packetType s.cur.arg ≠ typ) : fetchRun typ s = .next s := by
  refine if_neg ?_
  rw [Bool.and_eq_true, decide_eq_true_iff]
  rintro ⟨hc, ht⟩
  exact h.elim (fun h => Bool.false_ne_true (h.symm.trans hc)) (fun h => h ht)

theorem fetchRun_fetches {s : State} {typ : Nat} (hc : s.canFetch s.cur.arg = true) (ht : s.packetType s.cur.arg = typ) :
    fetchRun typ s = .next (s.fetchQueue s.cur.arg) := by
  simp only [fetchRun, hc, ht, decide_true, Bool.and_self, if_true]
  rfl

theorem fetches : Claims.Fetches := by
  intro s typ i hi
  have hrun : exec i s = fetchRun typ s := by
    simp only [List.mem_cons, Prod.mk.injEq, List.not_mem_nil, or_false] at hi
    obtain ⟨rfl, rfl⟩ | ⟨rfl, rfl⟩ | ⟨rfl, rfl⟩ | ⟨rfl, rfl⟩ | ⟨rfl, rfl⟩ := hi <;> rfl
  dsimp only
  rw [hrun]
  refine ⟨fetchRun_idle, fun hc ht => ?_⟩
  rw [fetchRun_fetches hc ht]
  refine ⟨fun a ha => ?_, fun bs a hb ha => ?_, fun bs at_ hb ha hbad => ?_⟩
  · have hq : s.fetchQueue s.cur.arg = (s.parkQueue s.cur.arg 0x0F (s.queue s.cur.arg).depth a).fetched s.cur.arg := by
      simp only [State.fetchQueue, ha]
    exact ⟨_, rfl, hq ▸ parked_parkQueue ..⟩
  · have hq : s.fetchQueue s.cur.arg = (s.parkQueue s.cur.arg 0x0F (s.queue s.cur.arg).depth a).fetched s.cur.arg := by
      simp only [State.fetchQueue, hb, ha]
    exact ⟨_, rfl, hq ▸ parked_parkQueue ..⟩
  · simp only [State.fetchQueue, hb, ha, hbad, if_true]
    rfl

/-- A well-formed word is of the TYPE that it says. -/
theorem packetType_ready {s : State} {bs : List Byte} {at_ : Nat × Nat} {typ : Nat} (h : Claims.PacketReady s bs at_) (ht : bnat bs 0 1 = typ)
    (hlt : typ < 5) : s.packetType s.cur.arg = typ := by
  obtain ⟨-, hb, -, -⟩ := h
  simp only [State.packetType, hb, ht]
  exact if_neg (by omega)

section
variable {s : State} {bs : List Byte} {at_ : Nat × Nat}

theorem exec_nopPacket_ready (h : Claims.PacketReady s bs at_) (ht : bnat bs 0 1 = 0) :
    exec .nopPacket s = .next ((s.modQueue s.cur.arg Queue.taken).fetched s.cur.arg) := by
  obtain ⟨hc, hb, ha, hbad⟩ := id h
  show fetchRun 0 s = _
  rw [fetchRun_fetches hc (packetType_ready h ht (by decide))]
  simp [State.fetchQueue, hb, ha, hbad, ht]
theorem exec_frame_ready (h : Claims.PacketReady s bs at_) (ht : bnat bs 0 1 = 1) :
    exec .frame s = .next ((s.takeFrame s.cur.arg bs at_).fetched s.cur.arg) := by
  obtain ⟨hc, hb, ha, hbad⟩ := id h
  show fetchRun 1 s = _
  rw [fetchRun_fetches hc (packetType_ready h ht (by decide))]
  simp [State.fetchQueue, hb, ha, hbad, ht]
theorem exec_indirect_ready (h : Claims.PacketReady s bs at_) (ht : bnat bs 0 1 = 2) :
    exec .indirect s = .next ((s.takeIndirect s.cur.arg bs).fetched s.cur.arg) := by
  obtain ⟨hc, hb, ha, hbad⟩ := id h
  show fetchRun 2 s = _
  rw [fetchRun_fetches hc (packetType_ready h ht (by decide))]
  simp [State.fetchQueue, hb, ha, hbad, ht]
theorem exec_waitv_ready (h : Claims.PacketReady s bs at_) (ht : bnat bs 0 1 = 3) :
    exec .waitv s = .next ((s.takeWaitv s.cur.arg bs at_).fetched s.cur.arg) := by
  obtain ⟨hc, hb, ha, hbad⟩ := id h
  show fetchRun 3 s = _
  rw [fetchRun_fetches hc (packetType_ready h ht (by decide))]
  simp [State.fetchQueue, hb, ha, hbad, ht]
theorem exec_mark_ready (h : Claims.PacketReady s bs at_) (ht : bnat bs 0 1 = 4) :
    exec .mark s = .next ((s.takeMark s.cur.arg bs at_).fetched s.cur.arg) := by
  obtain ⟨hc, hb, ha, hbad⟩ := id h
  show fetchRun 4 s = _
  rw [fetchRun_fetches hc (packetType_ready h ht (by decide))]
  simp [State.fetchQueue, hb, ha, hbad, ht]

end

/-! ### A word taken -/

/-- A queue without what the taking of a word changes in its context (R370): its levels, its head and its tails. -/
theorem closeLevels_keeps (l : Nat) (q : Queue) : (closeLevels l q).run.resv = q.run.resv ∧ (closeLevels l q).run.nresv = q.run.nresv ∧
    (closeLevels l q).run.marks = q.run.marks ∧ (closeLevels l q).run.waitv = q.run.waitv := by
  induction l generalizing q with
  | zero => exact ⟨rfl, rfl, rfl, rfl⟩
  | succ l ih =>
    unfold closeLevels
    split_ifs
    · exact ih _
    · exact ⟨rfl, rfl, rfl, rfl⟩

theorem taken_keeps (q : Queue) : q.taken.run.resv = q.run.resv ∧ q.taken.run.nresv = q.run.nresv ∧ q.taken.run.marks = q.run.marks ∧
    q.taken.run.waitv = q.run.waitv := by
  unfold Queue.taken
  split
  · exact closeLevels_keeps 0 q
  · exact closeLevels_keeps _ _

/-- What the taking of a word leaves in the ring's fields depends on them and the levels alone. -/
theorem ring_closeLevels_congr (l : Nat) {q r : Queue} (hring : q.ring = r.ring) (hpol : q.pol = r.pol) (hcounts : q.run.counts = r.run.counts) :
    (closeLevels l q).ring = (closeLevels l r).ring := by
  induction l generalizing q r with
  | zero => simp only [closeLevels, Queue.advance, hring]
  | succ l ih =>
    unfold closeLevels
    rw [hpol, hcounts]
    split_ifs
    · exact ih hring rfl rfl
    · exact hring

theorem ring_taken_reserve (q : Queue) (tgt pa : Nat) (f i : Bool) : (q.reserve tgt pa f i).taken.ring = q.taken.ring := by
  unfold Queue.taken
  rw [show (q.reserve tgt pa f i).depth = q.depth from rfl]
  split
  · exact ring_closeLevels_congr 0 rfl rfl rfl
  · exact ring_closeLevels_congr _ rfl rfl rfl

theorem nopPackets : Claims.NopPackets := by
  intro s bs at_ h ht
  refine ⟨_, exec_nopPacket_ready h ht, ?_, ?_, ?_⟩
  · rw [queue_fetched, queue_modQueue_same]
  · exact fetchedFrom_of_sched rfl fun m hm => queue_modQueue_other s _ hm
  · exact sameMemory_of_bytes rfl

theorem frameArgs_inr {s : State} {q : Queue} {bs : List Byte} {args : List Word} (h : s.frameArgs q bs = .inr args) :
    args.length = 16 ∧ ∀ i, bnat bs 17 1 ≤ i → lget args i 0 = 0 := by
  unfold State.frameArgs at h
  dsimp only at h
  split at h
  · cases h
  · obtain rfl := Sum.inr.inj h
    refine ⟨by simp, fun i hi => ?_⟩
    rw [lget_eq_getD, List.getD_eq_getElem?_getD, List.getElem?_map]
    by_cases hlt : i < 16
    · simp [hlt, Nat.not_lt.2 hi]
    · simp [hlt]

/-- What a FRAME with arguments does: the promise may be void after it, its slot is reserved, and it waits for the rank engine. -/
theorem takeFrame_args {s : State} {n : Nat} {bs : List Byte} {args : List Word} (at_ : Nat × Nat) (h : s.frameArgs (s.queue n) bs = .inr args) :
    ∃ u tl, (u = s ∨ u = s.voidPromise) ∧ s.takeFrame n bs at_ =
      (u.modQueue n fun q => (q.reserve at_.1 at_.2 true (bnat bs 1 1 % 2 = 1)).taken).modSched fun x => { x with rank := { x.rank with
        wait := x.rank.wait ++ [{ queue := n, bytes := bs, args := args, slot := (s.queue n).run.nresv, prog := s.sched.rank.prog, tailed := tl }] } } := by
  simp only [State.takeFrame, h]
  refine ⟨_, _, ?_, rfl⟩
  split_ifs
  · exact .inr rfl
  · exact .inl rfl

theorem frames : Claims.Frames := by
  intro s bs at_ h ht
  dsimp only
  rw [exec_frame_ready h ht]
  refine ⟨fun a ha => ?_, fun args ha => ⟨(frameArgs_inr ha).1, (frameArgs_inr ha).2, ?_⟩⟩
  · have hpark : s.takeFrame s.cur.arg bs at_ = s.parkQueue s.cur.arg 0x0F (s.queue s.cur.arg).depth a := by simp only [State.takeFrame, ha]
    exact ⟨_, rfl, hpark ▸ parked_parkQueue ..⟩
  · obtain ⟨u, tl, hu, htake⟩ := takeFrame_args at_ ha
    have hsame : u.sched = s.sched ∧ u.tide = s.tide ∧ u.bytes = s.bytes := by
      obtain rfl | rfl := hu <;> exact ⟨rfl, rfl, rfl⟩
    obtain ⟨hsched, htide, hbytes⟩ := hsame
    have hqueue : ∀ m, u.queue m = s.queue m := fun m => congrArg (fun x : Sched => lget x.queues m Queue.reset) hsched
    obtain ⟨hresv, hnresv, -, -⟩ := taken_keeps ((s.queue s.cur.arg).reserve at_.1 at_.2 true (bnat bs 1 1 % 2 = 1))
    rw [htake]
    refine ⟨_, tl, rfl, ?_, ?_, ?_, ?_, fetchedFrom_of_sched htide fun m hm => ?_, ?_⟩
    · show u.sched.rank.wait ++ _ = _
      rw [hsched]
    · rw [queue_fetched, queue_modSched_rank, queue_modQueue_same, hqueue]
      exact hresv
    · rw [queue_fetched, queue_modSched_rank, queue_modQueue_same, hqueue]
      exact hnresv
    · rw [queue_fetched, queue_modSched_rank, queue_modQueue_same, hqueue]
      exact ring_taken_reserve ..
    · rw [queue_modSched_rank, queue_modQueue_other _ _ hm, hqueue]
    · exact sameMemory_of_bytes hbytes

theorem indirects : Claims.Indirects := by
  intro s bs at_ h ht
  dsimp only
  rw [exec_indirect_ready h ht]
  have hany : ((List.range (s.queue s.cur.arg).depth).any fun l => (lget (s.queue s.cur.arg).pol.istart l 0).toNat = bnat bs 8 8) = true ↔
      ∃ l, l < (s.queue s.cur.arg).depth ∧ (lget (s.queue s.cur.arg).pol.istart l 0).toNat = bnat bs 8 8 := by simp
  refine ⟨fun hd => ?_, fun hd ho => ?_, fun hd ho => ?_⟩
  · rw [State.takeIndirect, if_pos hd]
    exact ⟨_, rfl, parked_parkQueue ..⟩
  · rw [State.takeIndirect, if_neg hd, if_pos (hany.2 ho)]
    exact ⟨_, rfl, parked_parkQueue ..⟩
  · rw [State.takeIndirect, if_neg hd, if_neg (mt hany.1 ho)]
    refine ⟨_, rfl, ?_, ?_, ?_, ?_, ?_, fetchedFrom_of_sched rfl fun m hm => queue_modQueue_other s _ hm⟩
    all_goals
      rw [queue_fetched, queue_modQueue_same, Queue.openBuf]
    · exact lget_lput_same ..
    · exact lget_lput_same ..
    · exact lget_lput_same ..

theorem marks : Claims.Marks := by
  intro s bs at_ h ht
  dsimp only
  rw [exec_mark_ready h ht]
  refine ⟨fun hw => ?_, fun hw => ?_⟩
  · simp only [State.takeMark, hw]
    rfl
  · have hne : ¬ ((((s.queue s.cur.arg).run.resv.filter fun r => r.isFrame && !r.wrote).map (·.idx)).isEmpty = true) := by
      rwa [List.isEmpty_iff]
    rw [State.takeMark, if_neg hne]
    obtain ⟨hresv, hnresv, hmarks, -⟩ := taken_keeps ((s.queue s.cur.arg).reserve at_.1 at_.2 false false)
    refine ⟨_, rfl, ?_, ?_, ?_, sameMemory_of_bytes rfl⟩
    all_goals rw [queue_fetched, queue_modQueue_same, queue_modQueue_same]
    · exact congrArg (· ++ _) hmarks
    · exact hnresv
    · exact ring_taken_reserve ..

/-- A state whose bytes and operations are another's keeps ARMED of an object as that one does. -/
theorem KeepsArmed.of_gByte {r s t : State} {tgt a : Nat} (h : Claims.KeepsArmed s t tgt a) (hh : s.mem.hbm = r.mem.hbm)
    (hb : ∀ b, s.gByte tgt b = r.gByte tgt b) : Claims.KeepsArmed r t tgt a := by
  intro hw
  obtain ⟨hcount, hrest⟩ := h (hh ▸ hw)
  exact ⟨hcount, fun b hb' => (hrest b hb').trans (hb b)⟩

/-- The object is served, which the home notes, and its count of armed waits is put in order. -/
theorem serveSync_eq (s : State) (tgt a : Nat) : ∃ syncs, s.serveSync tgt a = ({ s with mem := { s.mem with syncs := syncs } } : State).noteArmed tgt a := by
  unfold State.serveSync
  split
  · exact ⟨s.mem.syncs, rfl⟩
  · exact ⟨_, rfl⟩

theorem gByte_syncs (s : State) (l : List (Nat × Nat)) (tgt a : Nat) : ({ s with mem := { s.mem with syncs := l } } : State).gByte tgt a = s.gByte tgt a :=
  gByte_congr (s := s) (t := { s with mem := { s.mem with syncs := l } }) rfl rfl rfl rfl rfl (fun _ => rfl) rfl tgt a

theorem gByte_modQueue (s : State) (n : Nat) (f : Queue → Queue) (tgt a : Nat) : (s.modQueue n f).gByte tgt a = s.gByte tgt a :=
  gByte_congr (s := s) (t := s.modQueue n f) rfl rfl rfl rfl rfl (fun _ => rfl) rfl tgt a

theorem gByte_fetched (s : State) (n tgt a : Nat) : (s.fetched n).gByte tgt a = s.gByte tgt a :=
  gByte_congr (s := s) (t := s.fetched n) rfl rfl rfl rfl rfl (fun _ => rfl) rfl tgt a

theorem keepsArmed_serveSync {s : State} {tgt a : Nat} (ht : tgt = 0 ∨ tgt = 3) : Claims.KeepsArmed s (s.serveSync tgt a) tgt a := by
  obtain ⟨l, hl⟩ := serveSync_eq s tgt a
  rw [hl]
  exact KeepsArmed.of_gByte (keepsArmed_noteArmed ht) rfl fun b => gByte_syncs s l tgt b

theorem keepsArmed_fetched {s t : State} {tgt a : Nat} (n : Nat) (h : Claims.KeepsArmed s t tgt a) : Claims.KeepsArmed s (t.fetched n) tgt a := by
  intro hw
  obtain ⟨hcount, hrest⟩ := h hw
  refine ⟨(gNat_congr fun i _ => gByte_fetched t n tgt _).trans hcount, fun b hb => (gByte_fetched t n tgt b).trans (hrest b hb)⟩

theorem sched_serveSync (s : State) (tgt a : Nat) : (s.serveSync tgt a).sched = s.sched := by
  obtain ⟨l, hl⟩ := serveSync_eq s tgt a
  rw [hl, sched_noteArmed]
theorem queue_serveSync (s : State) (tgt a m : Nat) : (s.serveSync tgt a).queue m = s.queue m :=
  congrArg (fun x : Sched => lget x.queues m Queue.reset) (sched_serveSync s tgt a)
theorem tide_serveSync (s : State) (tgt a : Nat) : (s.serveSync tgt a).tide = s.tide := by
  obtain ⟨l, hl⟩ := serveSync_eq s tgt a
  rw [hl, tide_noteArmed]

/-- The queue after a WAITV on an object at a of target tgt, whose VERSION is `version` (R82, R366). -/
def Queue.waits (q : Queue) (tgt a : Nat) (v : Word) (version : Nat) : Queue :=
  if v.toNat ≤ version then q.taken else { q.taken with run := { q.taken.run with waitv := some (tgt, a, v) } }

/-- What a WAITV on an object in SP3 or HBM leaves. -/
theorem waitv_waits (s : State) (n tgt a : Nat) (v : Word) (ht : tgt = 0 ∨ tgt = 3) :
    let t := ((s.modQueue n fun q => q.waits tgt a v (s.gNat tgt a 8)).serveSync tgt a).fetched n
    (t.queue n).ring = (s.queue n).taken.ring ∧ (t.queue n).run.resv = (s.queue n).run.resv ∧
    (t.queue n).run.waitv = (if v.toNat ≤ s.gNat tgt a 8 then (s.queue n).run.waitv else some (tgt, a, v)) ∧
    Claims.FetchedFrom s t n ∧ Claims.KeepsArmed s t tgt a := by
  intro t
  have hqueue : ∀ m, t.queue m = (s.modQueue n fun q => q.waits tgt a v (s.gNat tgt a 8)).queue m := fun m => by
    rw [queue_fetched, queue_serveSync]
  have hown : t.queue n = (s.queue n).waits tgt a v (s.gNat tgt a 8) := (hqueue n).trans (queue_modQueue_same ..)
  obtain ⟨hresv, -, -, hwaitv⟩ := taken_keeps (s.queue n)
  refine ⟨?_, ?_, ?_, ?_, ?_⟩
  · rw [hown, Queue.waits]
    split_ifs <;> rfl
  · rw [hown, Queue.waits]
    split_ifs <;> exact hresv
  · rw [hown, Queue.waits]
    split_ifs
    · exact hwaitv
    · rfl
  · show Claims.FetchedFrom s (((s.modQueue n _).serveSync tgt a).fetched n) n
    refine fetchedFrom_of_sched ?_ fun m hm => ?_
    · rw [tide_serveSync]
      rfl
    · rw [queue_serveSync, queue_modQueue_other _ _ hm]
  · exact keepsArmed_fetched n (KeepsArmed.of_gByte (keepsArmed_serveSync ht) rfl (gByte_modQueue s n _ tgt))

/-- A WAITV on an object in SP3, or on one that translates to HBM, waits at its home. -/
theorem takeWaitv_waits {s : State} {n tgt a : Nat} {bs : List Byte} (at_ : Nat × Nat)
    (h : (bnat bs 8 8 / 2 ^ 62 = 1 ∧ tgt = 3 ∧ a = bnat bs 8 8 % 2 ^ 48) ∨ (bnat bs 8 8 / 2 ^ 62 = 0 ∧
      ∃ lf, s.translate (s.queue n).root true false (bnat bs 8 8) = .inr lf ∧ lf.tgt = 0 ∧ tgt = 0 ∧ a = lf.pa + (bnat bs 8 8 - lf.va))) :
    s.takeWaitv n bs at_ = (s.modQueue n fun q => q.waits tgt a (word (bnat bs 16 8)) (s.gNat tgt a 8)).serveSync tgt a := by
  obtain ⟨hlvl, rfl, rfl⟩ | ⟨hlvl, lf, htr, hhbm, rfl, rfl⟩ := h
  · rw [State.takeWaitv, if_pos hlvl]
    rfl
  · rw [State.takeWaitv, if_neg (by rw [hlvl]; decide), htr]
    dsimp only
    rw [if_neg (by rw [hhbm]; decide)]
    rfl

theorem waitvs : Claims.Waitvs := by
  refine ⟨fun s bs at_ h ht => ⟨fun tgt a hat => ?_, fun lf ho htr hfar => ?_⟩, fun s bs at_ x h ht ho htr => ?_,
    fun s tgt a v hw => ⟨fun hle => ?_, fun hlt => ?_⟩⟩
  · have htgt : tgt = 0 ∨ tgt = 3 := by
      obtain ⟨-, h3, -⟩ | ⟨-, lf, -, -, h0, -⟩ := hat
      · exact .inr h3
      · exact .inl h0
    rw [exec_waitv_ready h ht, takeWaitv_waits at_ hat]
    exact ⟨_, rfl, waitv_waits s s.cur.arg tgt a _ htgt⟩
  · rw [exec_waitv_ready h ht, State.takeWaitv, if_neg (by rw [ho]; decide), htr]
    dsimp only
    rw [if_pos (by simpa using hfar), State.takeMalformed, ht]
  · rw [exec_waitv_ready h ht, State.takeWaitv, if_neg (by rw [ho]; decide), htr]
    exact ⟨_, rfl, parked_parkQueue ..⟩
  · have hover : s.waitvOver s.cur.arg = true := by simp [State.waitvOver, hw, hle]
    show ∃ t, execWaitvSatisfied s = _ ∧ _
    rw [execWaitvSatisfied, if_pos hover]
    have hend : s.endWaitv s.cur.arg =
        (s.modQueue s.cur.arg fun q => { q with run := { q.run with waitv := none } }).noteArmed tgt a := by simp only [State.endWaitv, hw]
    have hqueue : ∀ m, (s.endWaitv s.cur.arg).queue m =
        (s.modQueue s.cur.arg fun q => { q with run := { q.run with waitv := none } }).queue m := fun m =>
      congrArg (fun x : Sched => lget x.queues m Queue.reset) (hend ▸ sched_noteArmed ..)
    refine ⟨_, rfl, fun m hm => ?_, ?_, fun htgt => ?_⟩
    · rw [hqueue, queue_modQueue_other _ _ hm]
    · rw [hqueue, queue_modQueue_same]
    · rw [hend]
      exact KeepsArmed.of_gByte (keepsArmed_noteArmed htgt) rfl (gByte_modQueue s _ _ tgt)
  · have hover : ¬ s.waitvOver s.cur.arg = true := by simp [State.waitvOver, hw, hlt]
    refine ⟨?_, ?_⟩
    · show execWaitvSatisfied s = _
      rw [execWaitvSatisfied, if_neg hover]
      rfl
    · simp [State.canFetch, hw]

/-- Settles O51: a visit that may fetch takes the word as its TYPE says, and parking, taking and reserving keep every other queue. -/
theorem packets : Obligations.Packets := ⟨fetches, nopPackets, frames, indirects, waitvs, marks⟩

end Sys2Proof.Machine

namespace Sys2Proof.Machine

/-! ## Accesses from outside the cores (R80, R83, R389, R393, R402 to R412) -/

/-! ### A write at a home -/

theorem io_of_besidesHomes {s t : State} (h : t.besidesHomes = s.besidesHomes) : t.io = s.io :=
  (congrArg State.io h : t.besidesHomes.io = s.besidesHomes.io)
theorem io_writeHome (s : State) (ps : List (Nat × Piece)) : (s.writeHome ps).io = s.io := io_of_besidesHomes (besidesHomes_writeHome s ps)
theorem cores_writeHome (s : State) (ps : List (Nat × Piece)) : (s.writeHome ps).cores = s.cores := cores_of_besidesHomes (besidesHomes_writeHome s ps)

/-- A byte at a home of HBM or SP3 after pieces are written there. -/
theorem gByte_gWrite_home {s : State} {tgt : Nat} (ht : tgt = 0 ∨ tgt = 3) (hw : tgt = 0 → Memory.wf s.mem.hbm = true) (ps : List Piece) (a : Nat) :
    (s.gWrite tgt ps).gByte tgt a = overlay (ps.flatMap (s.cutArmed tgt)) a (s.gByte tgt a) := by
  obtain rfl | rfl := ht
  · exact gByte_gWrite (hw rfl) ps a
  · exact gByte_putSp3 ..

/-- A piece put at a home leaves its bytes, but for an ARMED that the home keeps, and every other byte as it was. -/
theorem homeWritten_gWrite {s : State} {tgt : Nat} (ht : tgt = 0 ∨ tgt = 3) (hw : tgt = 0 → Memory.wf s.mem.hbm = true) (p : Piece) :
    Claims.HomeWritten tgt s (s.gWrite tgt [p]) p.addr p.bytes := by
  have hbyte : ∀ a, (s.gWrite tgt [p]).gByte tgt a = overlay (s.cutArmed tgt p) a (s.gByte tgt a) := fun a => by
    rw [gByte_gWrite_home ht hw, List.flatMap_singleton]
  refine ⟨fun i hi hfree => ?_, fun x hx => ?_⟩
  · rw [hbyte, overlay_cutArmed, if_neg hfree, overlay_inside _ hi]
  · rw [hbyte, overlay_cutArmed]
    split_ifs with hkept
    · rfl
    · refine overlay_outside _ ?_
      obtain h | h | h := hx
      · exact .inl h
      · exact .inr h
      · exact absurd h hkept

/-- One piece is written at a home, and the waits that it reaches are answered. -/
theorem writeHome_one {s : State} {tgt : Nat} (ht : tgt = 0 ∨ tgt = 3) (p : Piece) :
    s.writeHome [(tgt, p)] = (s.gWrite tgt [p]).wakeWaits tgt p.addr p.bytes.length := by
  obtain rfl | rfl := ht <;> rfl

theorem gops_gWrite (s : State) (tgt : Nat) (ps : List Piece) : (s.gWrite tgt ps).gops = s.gops := by
  simp only [State.gWrite]
  split_ifs <;> rfl

theorem armedAt_gWrite (s : State) (tgt : Nat) (ps : List Piece) (t a n : Nat) : (s.gWrite tgt ps).armedAt t a n = s.armedAt t a n := by
  simp only [State.armedAt, gops_gWrite]

/-- Where no wait is armed, a write at a home only writes. -/
theorem homeWritten_writeHome {s : State} {tgt a : Nat} {bs : List Byte} (ht : tgt = 0 ∨ tgt = 3) (hw : tgt = 0 → Memory.wf s.mem.hbm = true)
    (ha : s.armedAt tgt a bs.length = []) (poison : Bool) : Claims.HomeWritten tgt s (s.writeHome [(tgt, { addr := a, bytes := bs, poison := poison })]) a bs := by
  rw [writeHome_one ht, wakeWaits_none (by rw [armedAt_gWrite]; exact ha)]
  exact homeWritten_gWrite ht hw { addr := a, bytes := bs, poison := poison }

/-- What a write leaves at a home is what it leaves there from a state that shows the same bytes and serves the same objects. -/
theorem HomeWritten.of_same {r s t : State} {tgt a : Nat} {bs : List Byte} (h : Claims.HomeWritten tgt s t a bs) (hs : s.mem.syncs = r.mem.syncs)
    (hb : ∀ x, s.gByte tgt x = r.gByte tgt x) : Claims.HomeWritten tgt r t a bs := by
  have hkept : ∀ x, Claims.keptArmed r tgt x ↔ Claims.keptArmed s tgt x := fun x => by simp only [Claims.keptArmed, hs]
  obtain ⟨hin, hout⟩ := h
  exact ⟨fun i hi hfree => hin i hi (mt (hkept _).2 hfree), fun x hx => (hout x (hx.imp_right (Or.imp_right (hkept x).1))).trans (hb x)⟩

theorem gByte_out (s : State) (o : Out) (tgt a : Nat) : (s.out o).gByte tgt a = s.gByte tgt a :=
  gByte_congr (s := s) (t := s.out o) rfl rfl rfl rfl rfl (fun _ => rfl) rfl tgt a

theorem gNat_out (s : State) (o : Out) (tgt a n : Nat) : (s.out o).gNat tgt a n = s.gNat tgt a n :=
  gNat_congr fun _ _ => gByte_out ..

/-! ### Host cores' accesses (R389, R403, R405, R425) -/

/-- A host core's access in HBM is one that the claim allows. -/
theorem hostMay_iff (s : State) (store : Bool) (a n : Nat) : s.hostMay store a n = true ↔
    ((s.io.hostBase ≤ a ∧ a + n ≤ s.io.hostBase + s.io.hostLen) ∨
      ∃ g ∈ s.io.grants, g.valid = true ∧ (store = true → g.w = true) ∧ g.base.toNat * 4096 ≤ a ∧ a + n ≤ (g.limit.toNat + 1) * 4096) := by
  have hcovers : ∀ g : Grant, g.covers store a n = true ↔ g.valid = true ∧ (store = true → g.w = true) ∧ g.base.toNat * 4096 ≤ a ∧
      a + n ≤ (g.limit.toNat + 1) * 4096 := by
    intro g
    simp only [Grant.covers, Bool.and_eq_true, Bool.or_eq_true, Bool.not_eq_true', decide_eq_true_iff]
    cases store <;> simp [and_assoc]
  simp only [State.hostMay, Bool.or_eq_true, Bool.and_eq_true, decide_eq_true_iff, List.any_eq_true, hcovers]

theorem placeOf_hbm {s : State} {a n : Nat} (h : a + n ≤ Config.hbmSize) : s.placeOf a n = .hbm a :=
  if_pos (by simpa using h)

theorem placeOf_far {s : State} {a n : Nat} (h : 0x8000000000 < a ∨ (0x8000000000 ≤ a ∧ 0 < n)) : s.placeOf a n = .none := by
  unfold State.placeOf
  dsimp only
  have hsize : Config.hbmSize ≤ 0x2000000000 := by decide
  have hsp3 : Config.sp3Size ≤ 0x10000000 := by decide
  simp only [Bool.and_eq_true, decide_eq_true_iff]
  rw [if_neg (by omega), if_neg (by omega), if_neg (by omega), if_neg (by omega)]

theorem placeOf_reg {s : State} {off n : Nat} (hn : 0 < n) (h : off + n ≤ 0x4000000) : s.placeOf (0x2020000000 + off) n = .reg off := by
  unfold State.placeOf
  dsimp only
  have hsize : Config.hbmSize ≤ 0x2000000000 := by decide
  have hsp3 : Config.sp3Size ≤ 0x10000000 := by decide
  simp only [Bool.and_eq_true, decide_eq_true_iff]
  rw [if_neg (by omega), if_neg (by omega), if_pos (by omega), Nat.add_sub_cancel_left]

/-- The home of bytes of HBM for a host core. -/
theorem hostHome_hbm {s : State} {store : Bool} {a n : Nat} (h : a + n ≤ Config.hbmSize) :
    s.hostHome store a n = if s.fleet.recovery = false ∧ s.hostMay store a n = true then some (0, a) else none := by
  simp only [State.hostHome, placeOf_hbm h]
  cases s.fleet.recovery <;> simp

/-- A register of the device is read as its bytes. -/
theorem readBytes_word {s : State} {who : Party} {off : Nat} (h : off % 8 = 0) : s.readBytes who off 8 = leBytes 8 (s.readReg who off).toNat := by
  have hunit : (if 0x10080 ≤ off && off < 0x100C0 && (8 : Nat) ≤ 4 then 4 else 8) = 8 := if_neg (by simp)
  simp only [State.readBytes, hunit]
  rw [Nat.div_mul_cancel (Nat.dvd_of_mod_eq_zero h), h, List.drop_zero, List.take_of_length_le (by simp)]

theorem readBytes_half {s : State} {who : Party} {off : Nat} (h : off % 4 = 0) (hlo : 0x10080 ≤ off) (hhi : off < 0x100C0) :
    s.readBytes who off 4 = (leBytes 8 (s.readReg who off).toNat).take 4 := by
  have hunit : (if 0x10080 ≤ off && off < 0x100C0 && (4 : Nat) ≤ 4 then 4 else 8) = 4 := if_pos (by simp [hlo, hhi])
  simp only [State.readBytes, hunit]
  rw [Nat.div_mul_cancel (Nat.dvd_of_mod_eq_zero h), h, List.drop_zero]

/-- A register below the cores' own is written in its block. -/
theorem exec_registerWrite_low {who : Party} {off : Nat} {v : Word} {s : State} (h : off < 0x4000000) :
    exec (.registerWrite who off v) s = .next (s.writeReg who off v) := by
  show execRegisterWrite who off v s = _
  rw [execRegisterWrite, if_neg (by rw [coreReg]; omega)]
  rfl

theorem hostHome_nowhere {s : State} {store : Bool} {a n : Nat} (h : s.placeOf a n = .none) : s.hostHome store a n = none := by
  simp only [State.hostHome, h]
  split <;> rfl

theorem hostAccesses : Claims.HostAccesses := by
  intro s hart a len data may
  have hmay : ∀ store n, may store n ↔ s.fleet.recovery = false ∧ s.hostMay store a n = true := fun store n => by rw [hostMay_iff]
  refine ⟨fun hn => ⟨fun h => ?_, fun h => ?_⟩, fun hn => ⟨fun h hw harm => ?_, fun h => ?_⟩, fun hfar => ⟨?_, ?_⟩,
    fun off ha h8 hoff => ⟨?_, fun hlen => ?_⟩, fun off ha h4 hlo hhi => ⟨?_, fun hlen => ?_⟩⟩
  · show execHostAccess hart false a len data s = _
    simp only [execHostAccess, Bool.false_eq_true, if_false, placeOf_hbm hn, hostHome_hbm hn, if_pos ((hmay _ _).1 h)]
    rfl
  · show execHostAccess hart false a len data s = _
    simp only [execHostAccess, Bool.false_eq_true, if_false, placeOf_hbm hn, hostHome_hbm hn, if_neg (mt (hmay _ _).2 h)]
    rfl
  · refine ⟨s.writeHome [(0, { addr := a, bytes := data, poison := false })], ?_, homeWritten_writeHome (.inl rfl) (fun _ => hw) harm false,
      io_writeHome .., cores_writeHome ..⟩
    show execHostAccess hart true a len data s = _
    simp only [execHostAccess, if_true, placeOf_hbm hn, hostHome_hbm hn, if_pos ((hmay _ _).1 h)]
    rfl
  · show execHostAccess hart true a len data s = _
    simp only [execHostAccess, if_true, placeOf_hbm hn, hostHome_hbm hn, if_neg (mt (hmay _ _).2 h)]
    rfl
  · have hplace : s.placeOf a len = .none := placeOf_far (.inl hfar)
    show execHostAccess hart false a len data s = _
    simp only [execHostAccess, Bool.false_eq_true, if_false, hplace, hostHome_nowhere hplace]
    rfl
  · have hplace : s.placeOf a data.length = .none := placeOf_far (.inl hfar)
    show execHostAccess hart true a len data s = _
    simp only [execHostAccess, if_true, hplace, hostHome_nowhere hplace]
    rfl
  · have hplace : s.placeOf a 8 = .reg off := ha ▸ placeOf_reg (by decide) hoff
    show execHostAccess hart false a 8 data s = _
    simp only [execHostAccess, Bool.false_eq_true, if_false, hplace, readBytes_word h8]
    rfl
  · have hplace : s.placeOf a 8 = .reg off := ha ▸ placeOf_reg (by decide) hoff
    rw [exec_registerWrite_low (by omega)]
    show execHostAccess hart true a len data s = _
    simp only [execHostAccess, if_true, hlen, hplace, decide_true, Bool.true_or]
    rfl
  · have hplace : s.placeOf a 4 = .reg off := ha ▸ placeOf_reg (by decide) (by omega)
    show execHostAccess hart false a 4 data s = _
    simp only [execHostAccess, Bool.false_eq_true, if_false, hplace, readBytes_half h4 hlo hhi]
    rfl
  · have hplace : s.placeOf a 4 = .reg off := ha ▸ placeOf_reg (by decide) (by omega)
    rw [exec_registerWrite_low (by omega)]
    show execHostAccess hart true a len data s = _
    simp only [execHostAccess, if_true, hlen, hplace, hlo, hhi, decide_true, Bool.and_self, Bool.or_true]
    rfl

/-! ### Host cores' atomics (R80, R403, R405) -/

/-- A list of bytes is a number below its range. -/
theorem leNat_lt_pow (bs : List Byte) : leNat bs < 2 ^ (8 * bs.length) := by
  induction bs with
  | nil => simp [leNat]
  | cons b r ih =>
    have hb : b.toNat < 2 ^ 8 := b.isLt
    simp only [leNat, List.length_cons, Nat.mul_add, Nat.pow_add]
    omega

theorem gNat_lt (s : State) (tgt a n : Nat) : s.gNat tgt a n < 2 ^ (8 * n) := by
  have := leNat_lt_pow (s.gRead tgt a n)
  rwa [State.gRead, List.length_map, List.length_range] at this

/-- What each operation of a host core's AMO makes of the old value (R403). -/
theorem hartOp_value {n old x : Nat} (hx : x < 2 ^ (8 * n)) (ho : old < 2 ^ (8 * n)) {r : HartAtomic × Nat}
    (hr : let sg (y : Nat) : Int := if y < 2 ^ (8 * n - 1) then y else (y : Int) - 2 ^ (8 * n)
      r ∈ ([(.swap, x), (.add, (old + x) % 2 ^ (8 * n)), (.xor, old ^^^ x), (.and, old &&& x), (.or, old ||| x),
        (.min, if sg x < sg old then x else old), (.max, if sg x < sg old then old else x), (.minu, min old x), (.maxu, max old x)] :
        List (HartAtomic × Nat))) : r.2 = atomicNew (hartOp r.1) n old x 0 ∧ r.1 ≠ .sc := by
  simp only [List.mem_cons, List.not_mem_nil, or_false] at hr
  have hmin : min old x = if x < old then x else old := by split_ifs <;> omega
  have hmax : max old x = if x < old then old else x := by split_ifs <;> omega
  obtain rfl | rfl | rfl | rfl | rfl | rfl | rfl | rfl | rfl := hr
  · exact ⟨rfl, nofun⟩
  · exact ⟨rfl, nofun⟩
  · exact ⟨rfl, nofun⟩
  · exact ⟨rfl, nofun⟩
  · exact ⟨rfl, nofun⟩
  · exact ⟨by simp only [hartOp, atomicNew, toVal_signed hx, toVal_signed ho], nofun⟩
  · exact ⟨by simp only [hartOp, atomicNew, toVal_signed hx, toVal_signed ho], nofun⟩
  · exact ⟨hmin, nofun⟩
  · exact ⟨hmax, nofun⟩

theorem mem_unreserve (s : State) (who : Nat) : ∀ r ∈ (s.unreserve who).mem.resv, r.1 ≠ who := by
  intro r hr
  simpa using (List.mem_filter.1 hr).2

/-! What a write at a home leaves of the reservations: none is made. -/

theorem resv_putSp3 (s : State) (ps whole : List Piece) : (s.putSp3 ps whole).mem.resv ⊆ s.mem.resv := List.filter_subset_self _
theorem resv_gWrite (s : State) (tgt : Nat) (ps : List Piece) : (s.gWrite tgt ps).mem.resv ⊆ s.mem.resv := by
  simp only [State.gWrite]
  split_ifs
  · exact List.filter_subset_self _
  · exact resv_putSp3 ..
  · exact List.filter_subset_self _
theorem resv_noteArmed (s : State) (tgt a : Nat) : (s.noteArmed tgt a).mem.resv ⊆ s.mem.resv := by
  simp only [State.noteArmed]
  split_ifs
  · exact List.Subset.refl _
  · exact resv_putSp3 ..
  · exact List.Subset.refl _
  · exact List.Subset.refl _
theorem resv_foldl {α : Type} {f : State → α → State} (h : ∀ s x, (f s x).mem.resv ⊆ s.mem.resv) (l : List α) (s : State) :
    (l.foldl f s).mem.resv ⊆ s.mem.resv := by
  induction l generalizing s with
  | nil => exact List.Subset.refl _
  | cons x r ih => exact List.Subset.trans (ih (f s x)) (h s x)
theorem resv_wakeWaits (s : State) (tgt a n : Nat) : (s.wakeWaits tgt a n).mem.resv ⊆ s.mem.resv := by
  simp only [State.wakeWaits]
  split_ifs
  · exact List.Subset.refl _
  · exact resv_foldl (fun s x => resv_noteArmed s tgt x) _ _
theorem resv_writeHome (s : State) (ps : List (Nat × Piece)) : (s.writeHome ps).mem.resv ⊆ s.mem.resv := by
  refine List.Subset.trans (resv_foldl (fun s x => resv_wakeWaits s _ _ _) _ _) (resv_foldl (fun s t => ?_) _ s)
  split
  · exact List.Subset.refl _
  · exact resv_gWrite ..

/-- Reservations hold no bytes. -/
theorem sameMemory_resv (s : State) (l : List (Nat × Nat × Nat × Nat)) (io : Io) :
    SameMemory s { s with mem := { s.mem with resv := l }, io := io } :=
  ⟨fun _ _ h => by simp [State.gByte, h], fun _ => rfl, rfl, fun _ _ => rfl, fun _ _ => rfl⟩

theorem hostAtomics : Claims.HostAtomics := by
  intro s hart a n v hn hfit hrec old x sg ops held
  have hhome : ∀ store, s.hostMay store a n = true → s.hostHome store a n = some (0, a) := fun store h => by
    rw [hostHome_hbm hfit, if_pos ⟨hrec, h⟩]
  have hnone : ∀ store, s.hostMay store a n = false → s.hostHome store a n = none := fun store h => by
    rw [hostHome_hbm hfit, if_neg (by simp [h])]
  have hwrite : ∀ (t : State) (y : Nat), (∀ x, t.gByte 0 x = s.gByte 0 x) → t.mem.syncs = s.mem.syncs → t.mem.hbm = s.mem.hbm → t.gops = s.gops →
      Memory.wf s.mem.hbm = true → s.armedAt 0 a n = [] →
      Claims.HbmWritten s (t.writeHome [(0, { addr := a, bytes := leBytes n y, poison := false })]) a (leBytes n y) :=
    fun t y hb hsync hhbm hg hw harm => by
      refine HomeWritten.of_same (homeWritten_writeHome (.inl rfl) (fun _ => hhbm ▸ hw) ?_ false) hsync hb
      rw [length_leBytes]
      simpa only [State.armedAt, hg] using harm
  refine ⟨fun hmay hal => ⟨fun r hr => ?_, fun hheld => ?_, fun hfree => ?_⟩, fun hmay hal => ?_, fun op => ⟨fun hmay => ?_, fun hmay hal => ?_⟩,
    fun hmay => ?_, fun hmay hal => ?_⟩
  · obtain ⟨hval, hsc⟩ := hartOp_value (Nat.mod_lt _ (by positivity)) (gNat_lt s 0 a n) hr
    refine ⟨(s.outData 0 a n).writeHome [(0, { addr := a, bytes := leBytes n r.2, poison := false })], ?_, ?_, fun hw harm => ?_⟩
    · show execHostAmoRelease hart ⟨a, n⟩ ⟨r.1, v⟩ s = _
      simp only [execHostAmoRelease, hhome _ hmay, hal, hsc, bne_self_eq_false, Bool.false_eq_true, if_false, hval]
      rfl
    · rw [io_writeHome]
      rfl
    · exact hwrite _ _ (fun x => gByte_out ..) rfl rfl rfl hw harm
  · have hres : s.reserved hart 0 a n = true := by simpa [State.reserved] using hheld
    refine ⟨((s.unreserve hart).out (.data (leBytes 8 0) false)).writeHome [(0, { addr := a, bytes := leBytes n v.toNat, poison := false })],
      ?_, ?_, ?_, fun hw harm => ?_⟩
    · show execHostAmoRelease hart ⟨a, n⟩ ⟨.sc, v⟩ s = _
      simp only [execHostAmoRelease, hhome _ hmay, hal, hres, bne_self_eq_false, Bool.false_eq_true, if_false, if_true]
      rfl
    · rw [io_writeHome]
      rfl
    · exact fun r hr => mem_unreserve s hart r (resv_writeHome ((s.unreserve hart).out _) _ hr)
    · exact hwrite _ _ (fun x => gByte_out ..) rfl rfl rfl hw harm
  · have hres : s.reserved hart 0 a n = false := by simpa [State.reserved] using hfree
    refine ⟨(s.unreserve hart).out (.data (leBytes 8 1) false), ?_, rfl, mem_unreserve s hart, ?_⟩
    · show execHostAmoRelease hart ⟨a, n⟩ ⟨.sc, v⟩ s = _
      simp only [execHostAmoRelease, hhome _ hmay, hal, hres, bne_self_eq_false, Bool.false_eq_true, if_false, if_true]
      rfl
    · exact sameMemory_resv ..
  · refine ⟨(s.outData 0 a n).reserve hart 0 a n, ?_, rfl, fun r => ?_, ?_⟩
    · show execHostLrAcquire hart ⟨a, n⟩ s = _
      simp only [execHostLrAcquire, hhome _ hmay, hal, bne_self_eq_false, Bool.false_eq_true, if_false]
      rfl
    · show r ∈ (hart, 0, a, n) :: s.mem.resv.filter (fun r => r.1 != hart) ∧ r.1 = hart ↔ _
      rw [List.mem_cons, List.mem_filter, bne_iff_ne]
      constructor
      · rintro ⟨rfl | ⟨-, hne⟩, hr⟩
        · rfl
        · exact absurd hr hne
      · rintro rfl
        exact ⟨.inl rfl, rfl⟩
    · exact sameMemory_resv ..
  · show execHostAmoRelease hart ⟨a, n⟩ ⟨op, v⟩ s = _
    simp only [execHostAmoRelease, hnone _ hmay]
    rfl
  · show execHostAmoRelease hart ⟨a, n⟩ ⟨op, v⟩ s = _
    simp only [execHostAmoRelease, hhome _ hmay, bne_iff_ne.2 hal, if_true]
    rfl
  · show execHostLrAcquire hart ⟨a, n⟩ s = _
    simp only [execHostLrAcquire, hnone _ hmay]
    rfl
  · show execHostLrAcquire hart ⟨a, n⟩ s = _
    simp only [execHostLrAcquire, hhome _ hmay, bne_iff_ne.2 hal, if_true]
    rfl

end Sys2Proof.Machine

namespace Sys2Proof.Machine

/-! ### Inbound requests (R83, R406, R408, R409, R425) -/

/-- A window of a space admits n bytes from an offset below the space's length, for a direction and a requester, in a part not in recovery. -/
def State.windowAdmits (s : State) (space wr : Bool) (rid : BitVec 16) (off n len : Nat) : Prop :=
  s.fleet.recovery = false ∧ off + n ≤ len ∧ ∃ p ∈ s.io.peers, p.valid = true ∧ p.space = space ∧
    (if wr then p.w else p.rd) = true ∧ (p.anyrid = true ∨ p.rid = rid) ∧ p.base.toNat * 4096 ≤ off ∧
    off + n ≤ (p.base.toNat + p.count.toNat) * 4096

theorem admits_iff (p : PeerWin) (space wr : Bool) (rid : BitVec 16) (off n : Nat) : p.admits space wr rid off n = true ↔
    p.valid = true ∧ p.space = space ∧ (if wr then p.w else p.rd) = true ∧ (p.anyrid = true ∨ p.rid = rid) ∧ p.base.toNat * 4096 ≤ off ∧
      off + n ≤ (p.base.toNat + p.count.toNat) * 4096 := by
  simp only [PeerWin.admits, Bool.and_eq_true, Bool.or_eq_true, decide_eq_true_iff, and_assoc]

/-- BAR2 and BAR4 with the home and the length of the memory behind them (R406). -/
def memoryBar (bar : BitVec 3) (tgt len : Nat) : Prop := (bar = 2 ∧ tgt = 0 ∧ len = Config.hbmSize) ∨ (bar = 4 ∧ tgt = 3 ∧ len = Config.sp3Size)

section
variable {s : State} {bar : BitVec 3} {tgt len : Nat} {rid : BitVec 16} {off n : Nat} {wr : Bool}

theorem memoryBar.home (h : memoryBar bar tgt len) : tgt = 0 ∨ tgt = 3 := by
  obtain ⟨-, h, -⟩ | ⟨-, h, -⟩ := h
  · exact .inl h
  · exact .inr h

theorem memoryBar.ne_zero (h : memoryBar bar tgt len) : bar ≠ 0 := by
  obtain ⟨rfl, -, -⟩ | ⟨rfl, -, -⟩ := h <;> decide

theorem inboundHome_eq (h : memoryBar bar tgt len) : s.inboundHome bar wr rid off n =
    if s.fleet.recovery then none
    else if off + n ≤ len && s.io.peers.any fun p => p.admits (bar = 4) wr rid off n then some (tgt, off) else none := by
  obtain ⟨rfl, rfl, rfl⟩ | ⟨rfl, rfl, rfl⟩ := h <;> rfl

theorem inboundHome_admitted (hb : memoryBar bar tgt len) (h : s.windowAdmits (bar = 4) wr rid off n len) :
    s.inboundHome bar wr rid off n = some (tgt, off) := by
  obtain ⟨hrec, hlen, p, hp, hadmits⟩ := h
  have hany : (s.io.peers.any fun p => p.admits (bar = 4) wr rid off n) = true := List.any_eq_true.2 ⟨p, hp, (admits_iff ..).2 hadmits⟩
  rw [inboundHome_eq hb, hrec, hany]
  rw [if_neg Bool.false_ne_true, if_pos (by simpa using hlen)]

theorem inboundHome_refused (hb : memoryBar bar tgt len) (h : ¬ s.windowAdmits (bar = 4) wr rid off n len) :
    s.inboundHome bar wr rid off n = none := by
  rw [inboundHome_eq hb]
  split_ifs with hrec hin
  · rfl
  · rw [Bool.and_eq_true, decide_eq_true_iff, List.any_eq_true] at hin
    obtain ⟨hlen, p, hp, hadmits⟩ := hin
    exact absurd ⟨Bool.eq_false_iff.2 hrec, hlen, p, hp, (admits_iff ..).1 hadmits⟩ h
  · rfl

theorem inboundHome_of_isSome (hb : memoryBar bar tgt len) (h : (s.inboundHome bar wr rid off n).isSome = true) :
    s.inboundHome bar wr rid off n = some (tgt, off) := by
  by_cases hin : s.windowAdmits (bar = 4) wr rid off n len
  · exact inboundHome_admitted hb hin
  · rw [inboundHome_refused hb hin] at h
    exact absurd h Bool.false_ne_true

/-- A rejected request is answered or dropped, and logged with its physical address; nothing is read or written (R408, R428). -/
theorem rejectInbound_logs (s : State) (o : Out) (bar : BitVec 3) (off : Nat) :
    (s.rejectInbound o bar off).io.outs = s.io.outs ++ [o] ∧ Claims.Logged s (s.rejectInbound o bar off) 7 0xFF 0xFF 0 (barPhys bar off) ∧
    SameMemory s (s.rejectInbound o bar off) := by
  refine ⟨rfl, ⟨rfl, _, List.getLast?_concat .., rfl, rfl, Nat.le_add_right .., rfl, rfl, rfl, rfl, rfl⟩, sameMemory_of_bytes rfl⟩

theorem exec_inboundRead_admitted (hb : memoryBar bar tgt len) (h : s.inboundHome bar false rid off n = some (tgt, off)) :
    exec (.inboundRead rid bar off n) s = .next (s.out (.data (s.gRead tgt off n) (s.gPoison tgt off n))) := by
  show execInboundRead rid bar off n s = _
  simp only [execInboundRead, hb.ne_zero, decide_false, Bool.false_and, Bool.false_eq_true, if_false, h]
  rfl
theorem exec_inboundRead_refused (hb : memoryBar bar tgt len) (h : s.inboundHome bar false rid off n = none) :
    exec (.inboundRead rid bar off n) s = .next (s.rejectInbound .unsupported bar off) := by
  show execInboundRead rid bar off n s = _
  simp only [execInboundRead, hb.ne_zero, decide_false, Bool.false_and, Bool.false_eq_true, if_false, h]
  rfl
theorem exec_inboundWrite_admitted {data : List Byte} {rx : Bool} (hb : memoryBar bar tgt len)
    (h : s.inboundHome bar true rid off data.length = some (tgt, off)) :
    exec (.inboundWrite rid bar off data rx) s = .next (s.writeHome [(tgt, { addr := off, bytes := data, poison := false })]) := by
  show execInboundWrite rid bar off data rx s = _
  simp only [execInboundWrite, hb.ne_zero, decide_false, Bool.false_and, Bool.false_eq_true, if_false, h]
  rfl
theorem exec_inboundWrite_refused {data : List Byte} {rx : Bool} (hb : memoryBar bar tgt len)
    (h : s.inboundHome bar true rid off data.length = none) :
    exec (.inboundWrite rid bar off data rx) s = .next (s.rejectInbound .dropped bar off) := by
  show execInboundWrite rid bar off data rx s = _
  simp only [execInboundWrite, hb.ne_zero, decide_false, Bool.false_and, Bool.false_eq_true, if_false, h]
  rfl

/-- An AtomicOp that is admitted, aligned and of one of its sizes returns the old bytes, and leaves the new ones unless the old are poisoned. -/
theorem exec_inboundAtomicop_admitted {op : PcieAtomic} {x y : Nat} (h : s.inboundHome bar true rid off n = some (tgt, off))
    (hn : n ∈ pcieSizes op) (hal : off % n = 0) : exec (.inboundAtomicop rid bar off op n x y) s =
      .next (if s.gPoison tgt off n then s.outData tgt off n else (s.outData tgt off n).writeHome
        [(tgt, { addr := off, bytes := leBytes n (atomicNew (pcieOp op) n (s.gNat tgt off n) x y), poison := false })]) := by
  show execInboundAtomicop rid bar off op n x y s = _
  have hok : ¬ ((!(pcieSizes op).contains n || off % n != 0) = true) := by simp [hn, hal]
  simp only [execInboundAtomicop, h, if_neg hok]
  split_ifs <;> rfl
theorem exec_inboundAtomicop_refused {op : PcieAtomic} {x y : Nat} (h : s.inboundHome bar true rid off n = none ∨
      s.inboundHome bar true rid off n = some (tgt, off) ∧ (off % n ≠ 0 ∨ n ∉ pcieSizes op)) :
    exec (.inboundAtomicop rid bar off op n x y) s = .next (s.rejectInbound .unsupported bar off) := by
  show execInboundAtomicop rid bar off op n x y s = _
  obtain h | ⟨h, hbad⟩ := h
  · simp only [execInboundAtomicop, h]
    rfl
  · have hok : (!(pcieSizes op).contains n || off % n != 0) = true := by
      obtain h | h := hbad <;> simp [h]
    simp only [execInboundAtomicop, h, if_pos hok]
    rfl

end

/-- What the requests of a BAR with memory behind it do there (R83, R406, R408, R409, R425). -/
structure RequestsServed (s : State) (bar : BitVec 3) (tgt len : Nat) (rid : BitVec 16) (off : Nat) : Prop where
  read : ∀ n, s.windowAdmits (bar = 4) false rid off n len →
    exec (.inboundRead rid bar off n) s = .next (s.out (.data (s.gRead tgt off n) (s.gPoison tgt off n)))
  readRefused : ∀ n, ¬ s.windowAdmits (bar = 4) false rid off n len →
    exec (.inboundRead rid bar off n) s = .next (s.rejectInbound .unsupported bar off)
  written : ∀ data rx, s.windowAdmits (bar = 4) true rid off data.length len → (tgt = 0 → Memory.wf s.mem.hbm = true) →
    s.armedAt tgt off data.length = [] → ∃ t, exec (.inboundWrite rid bar off data rx) s = .next t ∧ Claims.HomeWritten tgt s t off data ∧ t.io = s.io
  writeRefused : ∀ data rx, ¬ s.windowAdmits (bar = 4) true rid off data.length len →
    exec (.inboundWrite rid bar off data rx) s = .next (s.rejectInbound .dropped bar off)
  poisoned : ∀ op x y, ∀ n ∈ pcieSizes op, s.windowAdmits (bar = 4) true rid off n len → off % n = 0 → s.gPoison tgt off n = true →
    exec (.inboundAtomicop rid bar off op n x y) s = .next (s.out (.data (s.gRead tgt off n) true))
  atomic : ∀ op x y, ∀ n ∈ pcieSizes op, s.windowAdmits (bar = 4) true rid off n len → off % n = 0 → s.gPoison tgt off n = false →
    (tgt = 0 → Memory.wf s.mem.hbm = true) → s.armedAt tgt off n = [] →
    ∃ t, exec (.inboundAtomicop rid bar off op n x y) s = .next t ∧ t.io.outs = s.io.outs ++ [.data (s.gRead tgt off n) false] ∧
      Claims.HomeWritten tgt s t off (leBytes n (atomicNew (pcieOp op) n (s.gNat tgt off n) x y))
  atomicRefused : ∀ op x y n, ¬ s.windowAdmits (bar = 4) true rid off n len ∨ off % n ≠ 0 ∨ n ∉ pcieSizes op →
    exec (.inboundAtomicop rid bar off op n x y) s = .next (s.rejectInbound .unsupported bar off)

theorem requestsServed {bar : BitVec 3} {tgt len : Nat} (hb : memoryBar bar tgt len) (s : State) (rid : BitVec 16) (off : Nat) :
    RequestsServed s bar tgt len rid off where
  read n h := exec_inboundRead_admitted hb (inboundHome_admitted hb h)
  readRefused n h := exec_inboundRead_refused hb (inboundHome_refused hb h)
  written data rx h hw harm := ⟨_, exec_inboundWrite_admitted hb (inboundHome_admitted hb h), homeWritten_writeHome hb.home hw harm false, io_writeHome ..⟩
  writeRefused data rx h := exec_inboundWrite_refused hb (inboundHome_refused hb h)
  poisoned op x y n hn h hal hpoi := by
    rw [exec_inboundAtomicop_admitted (inboundHome_admitted hb h) hn hal, if_pos hpoi, State.outData, hpoi]
  atomic op x y n hn h hal hpoi hw harm := by
    refine ⟨_, exec_inboundAtomicop_admitted (inboundHome_admitted hb h) hn hal, ?_, ?_⟩
    · rw [hpoi, if_neg Bool.false_ne_true, io_writeHome]
      rw [State.outData, hpoi]
      rfl
    · rw [hpoi, if_neg Bool.false_ne_true]
      have harm' : (s.outData tgt off n).armedAt tgt off (leBytes n (atomicNew (pcieOp op) n (s.gNat tgt off n) x y)).length = [] := by
        rw [length_leBytes]
        exact harm
      have hwr := homeWritten_writeHome (s := s.outData tgt off n) hb.home hw harm' false
      exact HomeWritten.of_same hwr rfl fun x => gByte_out s _ tgt x
  atomicRefused op x y n h := by
    refine exec_inboundAtomicop_refused (tgt := tgt) ?_
    by_cases hin : s.windowAdmits (bar = 4) true rid off n len
    · exact .inr ⟨inboundHome_admitted hb hin, h.resolve_left (not_not.2 hin)⟩
    · exact .inl (inboundHome_refused hb hin)

theorem mem_sizes (op : PcieAtomic) : (if op = .cas then [4, 8, 16] else [4, 8] : List Nat) = pcieSizes op := by cases op <;> rfl

theorem inboundRequests : Claims.InboundRequests := by
  intro s rid off len data rx op x y ok code sizes
  have served := requestsServed (bar := 2) (.inl ⟨rfl, rfl, rfl⟩) s rid off
  have hsizes : sizes = pcieSizes op := mem_sizes op
  have hcode : code = pcieOp op := by cases op <;> rfl
  have hphys : barPhys 2 off = off := Nat.zero_add off
  have hlog : ∀ o, (s.rejectInbound o 2 off).io.outs = s.io.outs ++ [o] ∧ Claims.Logged s (s.rejectInbound o 2 off) 7 0xFF 0xFF 0 off ∧
      SameMemory s (s.rejectInbound o 2 off) := fun o => by
    have := rejectInbound_logs s o 2 off
    rwa [hphys] at this
  refine ⟨served.read len, fun h => ⟨_, served.readRefused len h, hlog _⟩, fun h hw harm => served.written data rx h (fun _ => hw) harm,
    fun h => ⟨_, served.writeRefused data rx h, hlog _⟩, fun n hn h hal hpoi => served.poisoned op x y n (hsizes ▸ hn) h hal hpoi,
    fun n hn h hal hpoi hw harm => ?_, fun n h => ⟨_, served.atomicRefused op x y n (hsizes ▸ h), hlog _⟩, fun hlen hoff => ?_, fun h8 hoff => ?_⟩
  · rw [hcode]
    exact served.atomic op x y n (hsizes ▸ hn) h hal hpoi (fun _ => hw) harm
  · rw [exec_registerWrite_low hoff]
    show execInboundWrite rid 0 off data rx s = _
    simp only [execInboundWrite, hlen, hoff, decide_true, Bool.and_self, Bool.true_or, if_true]
    rfl
  · show execInboundRead rid 0 off 8 s = _
    simp only [execInboundRead, hoff, decide_true, Bool.and_self, if_true, readBytes_word h8]
    rfl

/-! ### Releases from outside (R80, R409) -/

/-- A wait armed at an object whose VERSION reaches its VER is answered when the home looks at its waits. -/
theorem wakeWaits_answers {s : State} {tgt a n : Nat} {o : GOp} {ver : Word} (ho : o ∈ s.gops) (hk : o.kind = .wait tgt a ver) (harm : o.armed = true)
    (hdone : o.done = false) (hver : ver.toNat ≤ s.gNat tgt a 8) (hn : 0 < n) :
    ∃ o' ∈ (s.wakeWaits tgt a n).gops, o'.id = o.id ∧ o'.done = true ∧ s.tide ≤ o'.due := by
  unfold State.wakeWaits
  dsimp only
  split_ifs with hempty
  · rw [List.isEmpty_iff, List.filterMap_eq_nil_iff] at hempty
    have := hempty o (List.mem_filter.2 ⟨ho, by simp [hk, harm, hdone, hver, hn]⟩)
    simp [hk] at this
  · rw [foldl_keeps State.gops (fun s x => gops_noteArmed s tgt x)]
    refine ⟨_, List.mem_map.2 ⟨o, ho, rfl⟩, ?_⟩
    simp [hk, harm, hdone, hver, hn]

/-- A write of VERSION from outside answers every wait armed there that it reaches. -/
theorem writeHome_answers {s : State} {tgt a : Nat} {bs : List Byte} {o : GOp} {ver : Word} (ht : tgt = 0 ∨ tgt = 3)
    (hw : tgt = 0 → Memory.wf s.mem.hbm = true) (ho : o ∈ s.gops) (hk : o.kind = .wait tgt a ver) (harm : o.armed = true) (hdone : o.done = false)
    (hlen : bs.length = 8) (hfree : ∀ i, i < 8 → ¬ Claims.keptArmed s tgt (a + i)) (hver : ver.toNat ≤ leNat bs) :
    ∃ o' ∈ (s.writeHome [(tgt, { addr := a, bytes := bs, poison := false })]).gops, o'.id = o.id ∧ o'.done = true ∧ s.tide ≤ o'.due := by
  obtain ⟨hin, -⟩ := homeWritten_gWrite ht hw { addr := a, bytes := bs, poison := false }
  have hread := gRead_eq fun i hi => hin i hi (hfree i (hlen ▸ hi))
  have hversion : (s.gWrite tgt [{ addr := a, bytes := bs, poison := false }]).gNat tgt a 8 = leNat bs := by
    rw [State.gNat, ← hlen]
    exact congrArg leNat hread
  have htide : (s.gWrite tgt [{ addr := a, bytes := bs, poison := false }]).tide = s.tide :=
    (congrArg State.tide (besidesHomes_gWrite s tgt _) : (State.besidesHomes _).tide = s.besidesHomes.tide)
  rw [writeHome_one ht, ← htide]
  exact wakeWaits_answers (by rwa [gops_gWrite]) hk harm hdone (hversion ▸ hver) (by rw [hlen]; decide)

theorem peerRequests : Claims.PeerRequests := by
  intro s rid off len data rx op x y ok code sizes refused
  have served := requestsServed (bar := 4) (.inr ⟨rfl, rfl, rfl⟩) s rid off
  have hsizes : sizes = pcieSizes op := mem_sizes op
  have hcode : code = pcieOp op := by cases op <;> rfl
  have hlog : ∀ o, (s.rejectInbound o 4 off).io.outs = s.io.outs ++ [o] ∧ refused (s.rejectInbound o 4 off) := fun o => rejectInbound_logs s o 4 off
  have hsp3 : (3 : Nat) = 0 → Memory.wf s.mem.hbm = true := nofun
  refine ⟨served.read len, fun h => ⟨_, served.readRefused len h, hlog _⟩, fun h harm => served.written data rx h hsp3 harm,
    fun h => ⟨_, served.writeRefused data rx h, hlog _⟩, fun n hn h hal hpoi => served.poisoned op x y n (hsizes ▸ hn) h hal hpoi,
    fun n hn h hal hpoi harm => ?_, fun n h => ⟨_, served.atomicRefused op x y n (hsizes ▸ h), hlog _⟩, ?_⟩
  · rw [hcode]
    exact served.atomic op x y n (hsizes ▸ hn) h hal hpoi hsp3 harm
  · intro bar hbar o ver hsome ho hk harm hdone hw hfree answered
    obtain ⟨l, hb⟩ : ∃ l, memoryBar bar.1 bar.2 l := by
      simp only [List.mem_cons, List.not_mem_nil, or_false] at hbar
      obtain rfl | rfl := hbar
      · exact ⟨_, .inl ⟨rfl, rfl, rfl⟩⟩
      · exact ⟨_, .inr ⟨rfl, rfl, rfl⟩⟩
    have hhome := inboundHome_of_isSome hb hsome
    refine ⟨fun hlen hver => ⟨_, exec_inboundWrite_admitted hb (hlen ▸ hhome), ?_⟩, fun hal hpoi hver => ?_⟩
    · exact writeHome_answers hb.home hw ho hk harm hdone hlen hfree hver
    · refine ⟨_, exec_inboundAtomicop_admitted hhome (by decide) hal, ?_⟩
      rw [hpoi, if_neg Bool.false_ne_true]
      refine writeHome_answers (s := s.outData bar.2 off 8) hb.home hw ho hk harm hdone (length_leBytes ..) hfree ?_
      rw [leNat_leBytes]
      exact hver.trans (le_of_eq (Nat.mod_mod ..).symm)
end Sys2Proof.Machine

namespace Sys2Proof.Machine

/-! ### Ethernet (R411, R412, R425) -/

theorem port_modPort_same (s : State) (p : Nat) (f : EthPort → EthPort) : (s.modPort p f).port p = f (s.port p) := lget_lmod_same ..
theorem port_modPort_other (s : State) {p q : Nat} (f : EthPort → EthPort) (h : q ≠ p) : (s.modPort p f).port q = s.port q :=
  lget_lmod_other _ _ _ _ _ h
theorem port_writeHome (s : State) (ps : List (Nat × Piece)) (p : Nat) : (s.writeHome ps).port p = s.port p :=
  congrArg (fun io : Io => lget io.eth p EthPort.zero) (io_writeHome s ps)
theorem outs_modPort (s : State) (p : Nat) (f : EthPort → EthPort) : (s.modPort p f).io.outs = s.io.outs := rfl
theorem gByte_modPort (s : State) (p : Nat) (f : EthPort → EthPort) (tgt a : Nat) : (s.modPort p f).gByte tgt a = s.gByte tgt a :=
  gByte_congr (s := s) (t := s.modPort p f) rfl rfl rfl rfl rfl (fun _ => rfl) rfl tgt a

/-- Where no wait is armed from the start of HBM on, none is armed. -/
theorem armedAt_of_start {s : State} (h : ∀ n, s.armedAt 0 0 n = []) (a n : Nat) : s.armedAt 0 a n = [] := by
  rw [armedAt_eq_nil_iff]
  intro o ho x v hk ha hd _
  exact (armedAt_eq_nil_iff ..).1 (h (x + 1)) o ho x v hk ha hd ⟨by omega, by omega⟩

/-- A byte of HBM after two pieces are written there, where no wait is armed and no ARMED is kept. -/
theorem gByte_writeHome_two {s : State} (hw : Memory.wf s.mem.hbm = true) (harm : ∀ n, s.armedAt 0 0 n = []) (hfree : ∀ x, ¬ Claims.keptArmed s 0 x)
    (p q : Piece) (a : Nat) : (s.writeHome [(0, p), (0, q)]).gByte 0 a = overlay [q] a (overlay [p] a (s.gByte 0 a)) := by
  have hwake : ∀ x n, (s.gWrite 0 [p, q]).wakeWaits 0 x n = s.gWrite 0 [p, q] := fun x n =>
    wakeWaits_none (by rw [armedAt_gWrite]; exact armedAt_of_start harm x n)
  have hwrite : s.writeHome [(0, p), (0, q)] = s.gWrite 0 [p, q] := by
    show ((s.gWrite 0 [p, q]).wakeWaits 0 p.addr p.bytes.length).wakeWaits 0 q.addr q.bytes.length = _
    rw [hwake, hwake]
  rw [hwrite, gByte_gWrite hw, List.flatMap_cons, List.flatMap_singleton, overlay_append, overlay_cutArmed, overlay_cutArmed,
    if_neg (hfree a), if_neg (hfree a)]

theorem length_stamp (p : Ptp) : p.stamp.length = 8 := by simp [Ptp.stamp]

theorem lget_append_left {α : Type} {l r : List α} {i : Nat} (d : α) (h : i < l.length) : lget (l ++ r) i d = lget l i d := by
  rw [lget_eq_getD, lget_eq_getD, List.getD_append _ _ _ _ h]

/-- The home after a frame has come in: the frame in its buffer, and its length in the descriptor. -/
theorem frame_stored {s : State} (hw : Memory.wf s.mem.hbm = true) (harm : ∀ n, s.armedAt 0 0 n = []) (hfree : ∀ x, ¬ Claims.keptArmed s 0 x)
    {b d : Nat} {bs st : List Byte} (hst : st.length = 8) (hlen : bs.length ≤ 9216) (hfar : b + bs.length ≤ d ∨ d + 16 ≤ b) {t : State}
    (ht : ∀ a, t.gByte 0 a = (s.writeHome [(0, { addr := b, bytes := bs, poison := false }),
      (0, { addr := d + 6, bytes := leBytes 2 bs.length ++ st, poison := false })]).gByte 0 a) :
    (∀ i, i < bs.length → t.gByte 0 (b + i) = lget bs i 0) ∧ t.gNat 0 (d + 6) 2 = bs.length := by
  have hq : (leBytes 2 bs.length ++ st).length = 10 := by rw [List.length_append, length_leBytes, hst]
  refine ⟨fun i hi => ?_, ?_⟩
  · rw [ht, gByte_writeHome_two hw harm hfree, overlay_outside _ (by dsimp only; omega)]
    exact overlay_inside (p := { addr := b, bytes := bs, poison := false }) _ hi
  · rw [gNat_eq (v := bs.length) fun i hi => ?_, Nat.mod_eq_of_lt (by omega)]
    rw [ht, gByte_writeHome_two hw harm hfree]
    refine (overlay_inside (p := { addr := d + 6, bytes := leBytes 2 bs.length ++ st, poison := false }) _ (by dsimp only; omega)).trans ?_
    exact lget_append_left _ (by rwa [length_leBytes])

/-- The ring whose consumer index has advanced. -/
def EthRing.consumed (r : EthRing) : EthRing := { r with cons := r.cons + 1 }

/-- A frame that has a descriptor goes to its buffer, with its length and the time stamp in the descriptor. -/
theorem exec_ethernetReceive_stored {s : State} {port ring d : Nat} {bs : List Byte} (hrec : s.fleet.recovery = false) (hup : (s.port port).up = true)
    (hlen : bs.length ≤ 9216) (hd : (lget (s.port port).rx ring EthRing.zero).nextDesc = some d) (hfit : d + 16 ≤ Config.hbmSize) :
    exec (.ethernetReceive port ring bs) s = .next ((s.writeHome [(0, { addr := s.gNat 0 d 6, bytes := bs, poison := false }),
      (0, { addr := d + 6, bytes := leBytes 2 bs.length ++ s.io.ptp.stamp, poison := false })]).modPort port
        fun p => { p with rx := lmod p.rx ring EthRing.zero EthRing.consumed }) := by
  have hgo : ¬ ((!(s.port port).up || s.fleet.recovery || Config.ethMax < bs.length) = true) := by
    simp [hup, hrec, show bs.length ≤ Config.ethMax from hlen]
  show execEthernetReceive port ring bs s = _
  rw [execEthernetReceive]
  dsimp only
  rw [hd]
  dsimp only
  rw [if_neg hgo, placeOf_hbm hfit]
  rfl

/-- The part after frame f has gone out on a port, when it is not too long, with the time written into the descriptor at d when it asks for it. -/
def State.sendFrame (s : State) (port d : Nat) (f : List Byte) (stamped : Bool) : State :=
  let fits : Bool := f.length ≤ Config.ethMax
  let u := if fits then s.out (.frame port f) else s
  if fits && stamped then u.writeHome [(0, { addr := d + 8, bytes := u.io.ptp.stamp, poison := false })] else u

theorem outs_sendFrame (s : State) (port d : Nat) (f : List Byte) (stamped : Bool) :
    (s.sendFrame port d f stamped).io.outs = s.io.outs ++ if f.length ≤ 9216 then [.frame port f] else [] := by
  unfold State.sendFrame
  dsimp only
  by_cases h : f.length ≤ 9216
  · have hfits : decide (f.length ≤ Config.ethMax) = true := decide_eq_true h
    rw [hfits, if_pos rfl, if_pos h]
    split_ifs
    · rw [io_writeHome]
      rfl
    · rfl
  · have hfits : decide (f.length ≤ Config.ethMax) = false := decide_eq_false h
    rw [hfits, if_neg Bool.false_ne_true, if_neg h, List.append_nil]
    rfl

theorem port_sendFrame (s : State) (port d : Nat) (f : List Byte) (stamped : Bool) (q : Nat) : (s.sendFrame port d f stamped).port q = s.port q := by
  have hout : ∀ b : Bool, (if b then s.out (.frame port f) else s).port q = s.port q := fun b => by cases b <;> rfl
  unfold State.sendFrame
  dsimp only
  rw [apply_ite (fun t : State => t.port q), port_writeHome, hout, ite_self]

theorem bytes_sendFrame {s : State} {port d : Nat} {f : List Byte} {stamped : Bool} (h : stamped = false ∨ 9216 < f.length) :
    (s.sendFrame port d f stamped).bytes = s.bytes := by
  have hno : ¬ ((decide (f.length ≤ Config.ethMax) && stamped) = true) := by
    obtain rfl | h := h
    · simp
    · simp [show Config.ethMax < f.length from h]
  unfold State.sendFrame
  dsimp only
  rw [if_neg hno]
  split_ifs <;> rfl

/-- A transmission sends the bytes that its descriptor names. -/
theorem exec_ethernetTransmit_sent {s : State} {port ring d : Nat} (hrec : s.fleet.recovery = false) (hup : (s.port port).up = true)
    (hd : (lget (s.port port).tx ring EthRing.zero).nextDesc = some d) (hfit : d + 16 ≤ Config.hbmSize) :
    let ctl := s.gNat 0 (d + 6) 2
    let g := s.gRead 0 (s.gNat 0 d 6) (ctl % 2 ^ 14)
    exec (.ethernetTransmit port ring) s =
      .next ((s.sendFrame port d (if ctl / 2 ^ 15 % 2 = 1 then oneStep s.io.ptp g else g) (ctl / 2 ^ 14 % 2 = 1)).modPort port
        fun p => { p with tx := lmod p.tx ring EthRing.zero EthRing.consumed }) := by
  intro ctl g
  show execEthernetTransmit port ring s = _
  rw [execEthernetTransmit]
  dsimp only
  rw [hd]
  dsimp only
  rw [placeOf_hbm hfit]
  dsimp only
  rw [if_neg (by simp [hup, hrec])]
  rfl

theorem ethernetFrames : Claims.EthernetFrames := by
  intro s port ring p rx tx
  refine ⟨fun bs h => ?_, fun bs d hrec hup hlen hd hfit => ?_, fun h => ?_, fun d hrec hup hd hfit => ?_, fun hrec up => ?_, fun up hrec => ?_⟩
  · show execEthernetReceive port ring bs s = _
    rw [execEthernetReceive]
    dsimp only
    split
    · rfl
    · rename_i d hd
      refine if_pos ?_
      obtain h | h | h | h := h
      · simp [h]
      · simp [show (s.port port).up = false from h]
      · simp [show Config.ethMax < bs.length from h]
      · exact absurd (h.symm.trans hd) nofun
  · refine ⟨_, exec_ethernetReceive_stored hrec hup hlen hd hfit, ?_, ?_, ?_, ?_⟩
    · rw [outs_modPort, io_writeHome]
    · rw [port_modPort_same, port_writeHome]
      exact lget_lmod_same ..
    · rw [port_modPort_same, port_writeHome]
    · intro hw harm hfree b hfar
      exact frame_stored hw harm hfree (length_stamp _) hlen hfar fun a => gByte_modPort ..
  · show execEthernetTransmit port ring s = _
    rw [execEthernetTransmit]
    dsimp only
    split
    · rfl
    · rename_i d hd
      split
      · refine if_pos ?_
        obtain h | h | h := h
        · exact absurd (h.symm.trans hd) nofun
        · simp [show (s.port port).up = false from h]
        · simp [h]
      · rfl
  · intro ctl g f
    refine ⟨_, exec_ethernetTransmit_sent hrec hup hd hfit, outs_sendFrame .., ?_, fun h => ?_⟩
    · rw [port_modPort_same, port_sendFrame]
      exact lget_lmod_same ..
    · refine sameMemory_of_bytes (bytes_sendFrame (s := s) (port := port) (d := d) ?_)
      exact h.imp_left fun h0 => decide_eq_false (by omega)
  · show execAutoNegotiation port up s = _
    rw [execAutoNegotiation, if_pos hrec]
    rfl
  · refine ⟨s.modPort port fun p => { p with up := up }, ?_, ?_, ?_, ?_, fun q hq => port_modPort_other _ _ hq⟩
    · show execAutoNegotiation port up s = _
      rw [execAutoNegotiation, if_neg (by simp [hrec])]
      rfl
    all_goals rw [port_modPort_same]

end Sys2Proof.Machine

namespace Sys2Proof.Machine

/-! ### The host cores' own instructions (R393, R402, R403, R405) -/

theorem hart_modHart_other (s : State) {k j : Nat} (f : Hart → Hart) (h : j ≠ k) : (s.modHart k f).hart j = s.hart j :=
  lget_lmod_other _ _ _ _ _ h

/-- A trap of a host core that the claims speak of. -/
theorem hartTrap_facts (s : State) (k cause : Nat) (tval : Word) :
    (s.hartTrap k cause tval).hart k = { ((s.hart k).trap false cause tval) with next := s.tide + 1 } ∧
    (∀ j, j ≠ k → (s.hartTrap k cause tval).hart j = s.hart j) ∧ SameMemory s (s.hartTrap k cause tval) :=
  ⟨State.hart_modHart .., fun _ hj => hart_modHart_other s _ hj, sameMemory_of_bytes rfl⟩

/-- A word of custom-0 or custom-1 is no instruction of a host core (R393). -/
theorem hvDecode_custom {w : BitVec 32} (h : w.extractLsb' 0 7 = 0b0001011 ∨ w.extractLsb' 0 7 = 0b0101011) : hvDecode w = (none, 4) := by
  have hop : fld w.toNat 0 7 = 0x0B ∨ fld w.toNat 0 7 = 0x2B := by
    have hfld : fld w.toNat 0 7 = (w.extractLsb' 0 7).toNat := by
      rw [BitVec.extractLsb'_toNat, Nat.shiftRight_eq_div_pow, fld]
    rw [hfld]
    exact h.imp (fun h => by rw [h]; rfl) (fun h => by rw [h]; rfl)
  have hlow : w.toNat % 2 ^ 16 % 4 = 3 := by
    simp only [fld] at hop
    omega
  have hhv : hvWord w = none := by
    obtain h | h := hop <;> simp [hvWord, h]
  have hrv : rvWord w = none := by
    obtain h | h := hop <;> simp [rvWord, h]
  have hdecode : rvDecode w = (none, 4) := by
    simp only [rvDecode, hlow, hrv]
  simp only [hvDecode, hlow, if_true, hhv, hdecode]
  rfl

/-- A hart in M mode without MPRV names physical addresses. -/
theorem hartTranslate_machine {s : State} {h : Hart} {u : HartUse} {a : Word} (hm : h.mode = 3) (hp : h.mstatus.getLsbD 17 = false) :
    s.hartTranslate h u a = .inr a.toNat := by
  have hmode : h.useMode u = 3 := by
    rw [Hart.useMode, hp, Bool.and_false, if_neg Bool.false_ne_true, hm]
  rw [State.hartTranslate, hmode]
  exact if_pos rfl

theorem hartHome_home {s : State} {h : Hart} {u : HartUse} {a : Word} {n : Nat} {x : Nat × Nat} (hm : h.mode = 3) (hp : h.mstatus.getLsbD 17 = false)
    (hx : s.hostHome (u = .store) a.toNat n = some x) : s.hartHome h u a n = .inr x := by
  rw [State.hartHome, hartTranslate_machine hm hp]
  dsimp only
  split
  · rename_i o hplace
    rw [State.hostHome, hplace] at hx
    split at hx <;> cases hx
  · rw [hx]

theorem hartHome_nowhere {s : State} {h : Hart} {u : HartUse} {a : Word} {n : Nat} (hm : h.mode = 3) (hp : h.mstatus.getLsbD 17 = false)
    (hx : s.hostHome (u = .store) a.toNat n = none) (hreg : ∀ o, s.placeOf a.toNat n ≠ .reg o) : s.hartHome h u a n = .inl u.access := by
  rw [State.hartHome, hartTranslate_machine hm hp]
  dsimp only
  split
  · exact absurd ‹_› (hreg _)
  · rw [hx]

theorem hartAccess_home {s : State} {k : Nat} {u : HartUse} {a : Word} {n : Nat} {act : Nat × Nat → State} {x : Nat × Nat} (hm : (s.hart k).mode = 3)
    (hp : (s.hart k).mstatus.getLsbD 17 = false) (hal : a.toNat % n = 0) (hx : s.hostHome (u = .store) a.toNat n = some x) :
    s.hartAccess k u a n act = act x := by
  rw [State.hartAccess, if_neg (by simp [hal]), hartHome_home hm hp hx]

theorem hartAccess_nowhere {s : State} {k : Nat} {u : HartUse} {a : Word} {n : Nat} {act : Nat × Nat → State} (hm : (s.hart k).mode = 3)
    (hp : (s.hart k).mstatus.getLsbD 17 = false) (hal : a.toNat % n = 0) (hx : s.hostHome (u = .store) a.toNat n = none)
    (hreg : ∀ o, s.placeOf a.toNat n ≠ .reg o) : s.hartAccess k u a n act = s.hartTrap k u.access a := by
  rw [State.hartAccess, if_neg (by simp [hal]), hartHome_nowhere hm hp hx hreg]

/-- The home of a host core's access is HBM, SP3, or behind PCIe. -/
theorem hostHome_ne_reg {s : State} {store : Bool} {a n : Nat} {x : Nat × Nat} (h : s.hostHome store a n = some x) : x.1 ≠ 5 := by
  unfold State.hostHome at h
  split at h
  · cases h
  · split at h
    · split at h
      · cases h
        exact nofun
      · cases h
    · cases h
      exact nofun
    · cases h
      exact nofun
    · cases h

/-- What a hart's register holds after a done instruction. -/
theorem hart_hartDone (s : State) (k : Nat) (pc : Word) (f : Hart → Hart) : (s.hartDone k pc f).hart k =
    { f (s.hart k) with pc := pc, next := s.tide + 1, mcycle := (f (s.hart k)).mcycle + 1, minstret := (f (s.hart k)).minstret + 1 } :=
  State.hart_modHart ..

theorem reg_hartSetReg {h : Hart} {r : BitVec 5} (v : Word) (hr : r ≠ 0) : (h.setReg r v).reg r = v := by
  rw [Hart.setReg, if_neg hr, Hart.reg, if_neg hr]
  exact lget_lput_same ..

/-- A value of n bytes as a load extends it. -/
theorem toNat_rvExtend {n : Nat} {sg : Bool} {bs : List Byte} (hn : n ∈ [1, 2, 4, 8]) (hb : leNat bs < 2 ^ (8 * n)) : (rvExtend n sg bs).toNat =
    if sg = true ∧ 2 ^ (8 * n - 1) ≤ leNat bs then leNat bs + 2 ^ 64 - 2 ^ (8 * n) else leNat bs := by
  have hle : 2 ^ (8 * n) ≤ 2 ^ 64 := by
    simp only [List.mem_cons, List.not_mem_nil, or_false] at hn
    obtain rfl | rfl | rfl | rfl := hn <;> decide
  have hval : ∀ v, v < 2 ^ (8 * n) → (rvSign (8 * n) v).toNat = if 2 ^ (8 * n - 1) ≤ v then v + 2 ^ 64 - 2 ^ (8 * n) else v := by
    intro v hv
    have hbit : v / 2 ^ (8 * n - 1) % 2 = 1 ↔ 2 ^ (8 * n - 1) ≤ v := by
      simp only [List.mem_cons, List.not_mem_nil, or_false] at hn
      obtain rfl | rfl | rfl | rfl := hn
      all_goals omega
    rw [rvSign, word, BitVec.toNat_ofNat, Nat.mod_eq_of_lt hv, if_congr hbit rfl rfl]
    refine Nat.mod_eq_of_lt ?_
    split_ifs <;> omega
  cases sg with
  | true =>
    rw [rvExtend, if_pos rfl, hval _ hb]
    simp only [true_and]
  | false =>
    rw [rvExtend, if_neg Bool.false_ne_true, if_neg (fun h => Bool.false_ne_true h.1), word, BitVec.toNat_ofNat]
    exact Nat.mod_eq_of_lt (hb.trans_le hle)

/-- A bit-manipulation instruction leaves its value in its register. -/
theorem hartExec_bits {s : State} {k : Nat} {w : BitVec 32} {len : Nat} {o : ZbOp} {half : Bool} {rd r1 r2 : BitVec 5} (hrd : rd ≠ 0) :
    ((s.hartExec k w len (.bits o half rd r1 (.inl r2))).hart k).reg rd = zbCalc o half ((s.hart k).reg r1) ((s.hart k).reg r2) := by
  have hexec : s.hartExec k w len (.bits o half rd r1 (.inl r2)) =
      s.hartDone k ((s.hart k).pc + word len) fun h => (h.setReg rd (zbCalc o half ((s.hart k).reg r1) ((s.hart k).reg r2))).accrue 0 := rfl
  rw [hexec, hart_hartDone]
  exact reg_hartSetReg _ hrd

theorem placeOf_sram {s : State} {a n : Nat} (h : 0x2010000000 ≤ a) (hn : a + n ≤ 0x2010200000) : s.placeOf a n = .none := by
  unfold State.placeOf
  dsimp only
  have hsize : Config.hbmSize ≤ 0x2000000000 := by decide
  have hsp3 : Config.sp3Size ≤ 0x1400000 := by decide
  simp only [Bool.and_eq_true, decide_eq_true_iff]
  rw [if_neg (by omega), if_neg (by omega), if_neg (by omega), if_neg (by omega)]

/-- A trap that is not delegated goes to M mode (R402). -/
theorem trap_machine {h : Hart} {cause : Nat} (tval : Word) (hm : h.mode = 3 ∨ h.medeleg.getLsbD cause = false) :
    let h' := h.trap false cause tval
    h'.mcause = word cause ∧ h'.mtval = tval ∧ h'.mepc = h.pc ∧ h'.mode = 3 ∧ h'.pc = h.mtvec &&& ~~~(3 : Word) ∧ h'.x = h.x ∧ h'.f = h.f := by
  have hstay : ¬ ((h.mode != 3 && h.medeleg.getLsbD cause) = true) := by
    obtain h | h := hm <;> simp [h]
  have hcause : 0 + cause = cause := Nat.zero_add cause
  unfold Hart.trap
  simp only [Bool.false_eq_true, if_false, if_neg hstay, hcause, trapEntry, Bool.false_and]
  exact ⟨trivial, trivial, trivial, trivial, trivial, trivial, trivial⟩

/-- The first hart that runs and is due moves. -/
theorem hartMove_first {s : State} {k : Nat} (hk : k < 8) (hboot : s.fleet.booted = true) (hrec : s.fleet.recovery = false)
    (hrun : (s.hart k).running = true) (hnext : (s.hart k).next ≤ s.tide) (hfirst : ∀ j, j < k → (s.hart j).running = false ∨ s.tide < (s.hart j).next) :
    s.hartMove = some (s.hartStep k) := by
  have hfind : ((List.range 8).find? fun k => (s.hart k).running && (s.hart k).next ≤ s.tide) = some k := by
    rw [List.find?_range_eq_some]
    refine ⟨by simp [hrun, hnext], List.mem_range.2 hk, fun j hj => ?_⟩
    obtain h | h := hfirst j hj
    · simp [h]
    · simp [h]
  rw [State.hartMove, hrec, hboot, hfind]
  rfl

section
variable {s : State} {k n : Nat} {w : BitVec 32} {len : Nat} {sg : Bool} {rd r1 r2 : BitVec 5} {off : Word} {p : Nat × Nat}

/-- A load leaves the bytes of its place in its register. -/
theorem hartExec_load (hm : (s.hart k).mode = 3) (hp : (s.hart k).mstatus.getLsbD 17 = false) (hal : ((s.hart k).reg r1 + off).toNat % n = 0)
    (hx : s.hostHome false ((s.hart k).reg r1 + off).toNat n = some p) (hn : n ∈ [1, 2, 4, 8]) (hrd : rd ≠ 0) :
    let t := s.hartExec k w len (.base (.load n sg rd r1 off))
    let v := s.gNat p.1 p.2 n
    ((t.hart k).reg rd).toNat = (if sg = true ∧ 2 ^ (8 * n - 1) ≤ v then v + 2 ^ 64 - 2 ^ (8 * n) else v) ∧
      (t.hart k).pc = (s.hart k).pc + word len ∧ SameMemory s t := by
  have hexec : s.hartExec k w len (.base (.load n sg rd r1 off)) =
      s.hartDone k ((s.hart k).pc + word len) fun h => h.setReg rd (rvExtend n sg (s.hartRead p n)) := hartAccess_home hm hp hal hx
  have hread : s.hartRead p n = s.gRead p.1 p.2 n := if_neg (hostHome_ne_reg hx)
  dsimp only
  rw [hexec, hart_hartDone, hread]
  refine ⟨?_, rfl, sameMemory_of_bytes rfl⟩
  show (((s.hart k).setReg rd _).reg rd).toNat = _
  rw [reg_hartSetReg _ hrd]
  exact toNat_rvExtend hn (gNat_lt s p.1 p.2 n)

/-- A store to HBM leaves its bytes there. -/
theorem hartExec_store (hm : (s.hart k).mode = 3) (hp : (s.hart k).mstatus.getLsbD 17 = false) (hal : ((s.hart k).reg r1 + off).toNat % n = 0)
    (hx : s.hostHome true ((s.hart k).reg r1 + off).toNat n = some p) (hp0 : p.1 = 0) (hw : Memory.wf s.mem.hbm = true) (harm : s.armedAt 0 p.2 n = []) :
    let t := s.hartExec k w len (.base (.store n r1 r2 off))
    Claims.HbmWritten s t p.2 (leBytes n ((s.hart k).reg r2).toNat) ∧ (t.hart k).pc = (s.hart k).pc + word len ∧
      ∀ r, (t.hart k).reg r = (s.hart k).reg r := by
  have hwrite : s.hartWrite p (leBytes n ((s.hart k).reg r2).toNat) =
      s.writeHome [(0, { addr := p.2, bytes := leBytes n ((s.hart k).reg r2).toNat, poison := false })] := by
    rw [State.hartWrite, if_neg (hostHome_ne_reg hx), hp0]
  have hexec : s.hartExec k w len (.base (.store n r1 r2 off)) =
      (s.hartWrite p (leBytes n ((s.hart k).reg r2).toNat)).hartDone k ((s.hart k).pc + word len) id := hartAccess_home hm hp hal hx
  have hhart : (s.writeHome [(0, { addr := p.2, bytes := leBytes n ((s.hart k).reg r2).toNat, poison := false })]).hart k = s.hart k :=
    congrArg (fun io : Io => lget io.harts k {}) (io_writeHome s _)
  have hwritten := homeWritten_writeHome (s := s) (.inl rfl) (fun _ => hw) (bs := leBytes n ((s.hart k).reg r2).toNat) (a := p.2)
    (by rwa [length_leBytes]) false
  dsimp only
  rw [hexec, hwrite]
  refine ⟨?_, ?_, fun r => ?_⟩
  · have hsame : ∀ (u : State) (pc : Word) (f : Hart → Hart) (x : Nat), (u.hartDone k pc f).gByte 0 x = u.gByte 0 x := fun u pc f x =>
      gByte_congr (s := u) (t := u.hartDone k pc f) rfl rfl rfl rfl rfl (fun _ => rfl) rfl 0 x
    obtain ⟨hin, hout⟩ := hwritten
    exact ⟨fun i hi hfree => (hsame ..).trans (hin i hi hfree), fun x hx => (hsame ..).trans (hout x hx)⟩
  · rw [hart_hartDone]
  · rw [hart_hartDone, hhart]
    rfl

end

theorem hostCores : Claims.HostCores := by
  intro s k hk h trapped
  refine ⟨fun hturn hbase hboot hrec hrun hnext hfirst => ?_, fun hrec => ?_, fun c hc => ?_, fun hnone => ⟨fun c a hf => ?_, fun w hf hop => ?_⟩,
    fun cause tval hmode _ => trap_machine tval hmode, ?_, fun a n hfar hn b => ?_, fun w len rd r1 r2 hrd => ⟨?_, ?_⟩, fun vec hv0 hv => ?_⟩
  · simp only [step, hturn, hbase, hartMove_first hk hboot hrec hrun hnext hfirst]
    rfl
  · rw [State.hartMove, hrec]
    rfl
  · rw [State.hartStep, hc]
    exact State.hart_modHart ..
  · rw [State.hartStep, hnone, hf]
    exact hartTrap_facts ..
  · rw [State.hartStep, hnone, hf]
    dsimp only
    rw [hvDecode_custom hop]
    exact hartTrap_facts ..
  · intro w len n sg rd r1 r2 off hn hm hp a hal
    refine ⟨fun hx hreg => ?_, fun hx hreg => ?_, fun p hx hrd => hartExec_load hm hp hal hx hn hrd, fun p hx hp0 hw harm => hartExec_store hm hp hal hx hp0 hw harm⟩
    · show trapped (s.hartAccess k .load a n _) 5 a
      rw [hartAccess_nowhere (u := .load) hm hp hal hx hreg]
      exact hartTrap_facts ..
    · show trapped (s.hartAccess k .store a n _) 7 a
      rw [hartAccess_nowhere (u := .store) hm hp hal hx hreg]
      exact hartTrap_facts ..
  · have hplace : s.placeOf a n = .none := by
      obtain ⟨hlo, hhi⟩ | hhi := hfar
      · exact placeOf_sram hlo hhi
      · exact placeOf_far (.inr ⟨hhi, hn⟩)
    exact ⟨hostHome_nowhere hplace, fun o ho => by rw [hplace] at ho; cases ho⟩
  · exact hartExec_bits hrd
  · exact hartExec_bits hrd
  · have hpend : (s.irq false vec).hart (Config.irqHart vec % 8) = (s.hart (Config.irqHart vec % 8)).pend vec := by
      have hirq : s.irq false vec = (s.modHart (Config.irqHart vec % 8) fun h => h.pend vec).out (.irq false vec) := rfl
      rw [hirq]
      show (s.modHart (Config.irqHart vec % 8) fun h => h.pend vec).hart _ = _
      rw [State.hart_modHart]
    refine ⟨?_, rfl⟩
    rw [hpend, Hart.pend, if_neg (by omega)]

/-- Settles O58: host cores, BAR2, BAR4 and the Ethernet rings all write at a home, which keeps the ARMED of its objects and answers its waits. -/
theorem outsideAccesses : Obligations.OutsideAccesses :=
  ⟨hostAccesses, hostAtomics, hostCores, inboundRequests, peerRequests, ethernetFrames⟩

end Sys2Proof.Machine
